-- ==== Sys2Proof/Syntax.lean ====
section
/-! DEFINITION. Sys2Proof/Syntax.lean: the commands of the block, one constructor of `Instr` per row of
spec/opcode_table.json, and the plain data their operands carry. -/

namespace Sys2Proof

/-- A tile of the own package, 64 × stack + tile (R11): 0–1535. -/
abbrev TileRef := Nat

/-- A Normor command as R389 lays it out, with where it came from. -/
structure Cmd where
  /-- Ring that fetched it (R387), 0–15; for a guest's command 16 + 16 × site + ring, for a forwarded one 256 + its package. -/
  ring : Nat := 0
  tag : BitVec 16 := 0
  opcode : BitVec 16 := 0
  unit : BitVec 32 := 0
  notify : Bool := false
  order : Bool := false
  devAddr : Bool := false
  /-- The bits R389 reserves (byte 8 [7:3] and bytes 9–11), as fetched. -/
  reserved : BitVec 32 := 0
  retLen : BitVec 32 := 0
  ret : BitVec 64 := 0
  p0 : BitVec 64 := 0
  p1 : BitVec 64 := 0
  p2 : BitVec 64 := 0
  p3 : BitVec 64 := 0
  p4 : BitVec 64 := 0
  /-- Guest site whose CONTROL message carried it (R506). -/
  guest : Option Nat := none
  /-- Package and transaction a forwarded command came from (R68). -/
  origin : Option (Nat × BitVec 16) := none
  deriving DecidableEq, Repr

/-- A Cornis or guest message: the header fields of R319, the data, and what its receiver's checks find. -/
structure Msg where
  op : BitVec 8 := 0
  ordered : Bool := false
  arrEn : Bool := false
  arrFinal : Bool := false
  phys : Bool := false
  src : Nat := 0
  dst : Nat := 0
  hops : Nat := 15
  job : BitVec 16 := 0
  srcUnit : BitVec 32 := 0
  txn : BitVec 16 := 0
  status : BitVec 8 := 0
  reason : BitVec 8 := 0
  dva : BitVec 64 := 0
  gaddr : Nat := 0
  length : Nat := 0
  arrId : BitVec 16 := 0
  arrMsgs : Nat := 0
  arrStep : Nat := 0
  arrCtr : Nat := 0
  aop : Nat := 0
  atype : Nat := 0
  operand : BitVec 64 := 0
  operand2 : BitVec 64 := 0
  data : List (BitVec 8) := []
  /-- Virtual channel it travelled on (R317). -/
  vc : Nat := 0
  /-- Port it arrived on, 0–8 (8 the twin port). -/
  port : Nat := 0
  /-- CRC-32C of R318 agrees. -/
  crcOk : Bool := true
  /-- Every Reserved header bit is zero. -/
  reservedZero : Bool := true
  /-- `LENGTH` matches the flits. -/
  lengthOk : Bool := true
  deriving DecidableEq, Repr

/-- The data of a time-transfer frame (R338) and the port it arrived on. -/
structure TimeFrame where
  port : Nat := 0
  peer : Nat := 0
  txNs : BitVec 64 := 0
  echoTx : BitVec 64 := 0
  echoRx : BitVec 64 := 0
  root : Nat := 0
  locked : Bool := false
  rootHops : Nat := 0x7FF
  version : BitVec 32 := 0
  baseStep : BitVec 48 := 0
  baseTime : BitVec 64 := 0
  periodUs : BitVec 18 := 0
  newUs : BitVec 18 := 0
  changeStep : BitVec 48 := 0
  reservedZero : Bool := true
  /-- CRC-32C of its message agrees (R318). -/
  crcOk : Bool := true
  deriving DecidableEq, Repr

/-- A twin hello (R349). -/
structure Hello where
  package : Nat := 0
  state : Nat := 0
  fresh : Bool := false
  leaving : Bool := false
  stepping : BitVec 8 := 0xB0
  gen : BitVec 32 := 0
  orderCode : BitVec 128 := 0
  normor : BitVec 16 := 0x0204
  fwVersion : BitVec 32 := 0
  /-- Tiles in service at the sender, by tile number 64 s + t, ascending. -/
  tiles : List Nat := []
  reservedZero : Bool := true
  /-- Transaction number of the CONTROL message that carries it (R319, R349). -/
  txn : BitVec 16 := 0
  deriving DecidableEq, Repr

/-- A unit record received from another package (R75): its package, state, capacity, counters and out list. -/
structure RemoteRec where
  package : Nat := 0
  state : BitVec 8 := 0
  suspect : Bool := false
  changeCount : BitVec 32 := 0
  sampleNs : BitVec 64 := 0
  cap : List (BitVec 64) := []
  ctr : List (BitVec 64) := []
  outList : List (BitVec 64) := []
  /-- Stack records of the package: state and tiles in service, by stack. -/
  stackRecs : List (BitVec 8 × Nat) := []
  /-- Tile records of the package: state and counters, by tile; a tile not listed is STARTING and has counted nothing. -/
  tileRecs : List (Nat × BitVec 8 × List (BitVec 64)) := []
  /-- Member lists of its groups, by index. -/
  groups : List (Nat × List (BitVec 32)) := []
  /-- Of the RECORD message that brought them (R319): its destination, the forwardings left, the port and the flits it came in on, its data
  bytes, and whether its CRC-32C and its Reserved bits are sound. -/
  dst : Nat := 0
  hops : Nat := 15
  port : Nat := 0
  flits : Nat := 0
  data : List (BitVec 8) := []
  crcOk : Bool := true
  reservedZero : Bool := true
  deriving DecidableEq, Repr

/-- The head die's verdict on a page (R284). -/
inductive Verdict where
  | clean
  | corrected (bits : Nat)
  | uncorrectable
  deriving DecidableEq, Repr

/-- What a device read of host memory brings back (R391). -/
inductive HostData where
  | good (bytes : List (BitVec 8))
  | poisoned
  | failed
  deriving DecidableEq, Repr

/-- What the code of R148 found while a row's engine read the tile's stores: the errors it corrected, and the place of one
that it could not correct, if any. The place is a byte address of the work store, unless the row's meaning says otherwise. -/
structure StoreErr where
  corrected : Nat := 0
  bad : Option Nat := none
  deriving DecidableEq, Repr

/-- One 10 µs report of a power-stage die (R438), in mV and mA. -/
structure StageReport where
  vin : Nat
  iin : Nat
  vout : Nat
  iout : Nat
  deriving DecidableEq, Repr

/-- One diode sample (R457): index, reading in 1/16 °C, and whether its conversion check passed. -/
structure DiodeReading where
  index : Nat
  temp : Int
  ok : Bool := true
  deriving DecidableEq, Repr

/-- How the training of a Cornis port ends (R311). -/
structure TrainResult where
  /-- Groups of the port whose training failed. -/
  failedGroups : List Nat := []
  /-- An identity was received within the limit. -/
  identity : Bool := true
  peer : Nat := 0
  peerPort : Nat := 0
  peerWidth : Nat := 1
  peerVersion : Nat := 1
  deriving DecidableEq, Repr

/-- The fuse map read at bring-up step S3 (R421, R432, R453). -/
structure FuseMap where
  tilesOff : List TileRef := []
  stacksOff : List Nat := []
  /-- Channels off: (tile, layer). -/
  channelsOff : List (TileRef × Nat) := []
  /-- Connections failed in the fuse map: (tile, layer, connection). -/
  connsFailed : List (TileRef × Nat × Nat) := []
  banksOff : List (TileRef × Nat) := []
  groupsOff : List Nat := []
  /-- Fuse-backed repairs: (tile, layer, bank, row or column, is a column). -/
  repairs : List (TileRef × Nat × Nat × Nat × Bool) := []
  svnMin : Nat := 0
  minMv : List Nat := []
  maxMv : List Nat := []
  brassOk : Bool := true
  /-- Head dies whose fuse block fails its check. -/
  badStacks : List Nat := []
  rootHash : BitVec 384 := 0
  /-- The unique device secret, which the security engine alone reads (R432). -/
  secret : BitVec 256 := 0
  deriving DecidableEq, Repr

/-- The commands of the block: one constructor per row of spec/opcode_table.json. -/
inductive Instr where
  /-- TICK (R47). -/
  | tick
  /-- DONE_SAMPLE (R46). -/
  | doneSample
  /-- STEP_REPORT (R50). -/
  | stepReport
  /-- PLAN_LIMIT_ABORT (R48). -/
  | planLimitAbort
  /-- TIME_FRAME_SEND (R338). -/
  | timeFrameSend
  /-- TIME (R339). -/
  | time (f : TimeFrame)
  /-- PARENT_FRAME_SILENCE (R32). -/
  | parentFrameSilence
  /-- ROOT_FORGET (R29). -/
  | rootForget
  /-- RECEIVE_FENCE_DEADLINE (R59). -/
  | receiveFenceDeadline (t : TileRef) (slot : Nat)
  /-- TICK_GET (R65). -/
  | tickGet (c : Cmd)
  /-- TICK_START (R37). -/
  | tickStart (c : Cmd)
  /-- TICK_SET_PERIOD (R51). -/
  | tickSetPeriod (c : Cmd)
  /-- TICK_CANCEL_CHANGE (R53). -/
  | tickCancelChange (c : Cmd)
  /-- STEP_REALIGN (R49). -/
  | stepRealign (c : Cmd)
  /-- PLAN_LOAD (R41). -/
  | planLoad (c : Cmd)
  /-- PLAN_CANCEL (R45). -/
  | planCancel (c : Cmd)
  /-- PLAN_STATUS (R65). -/
  | planStatus (c : Cmd)
  /-- FORECAST_READ (R64). -/
  | forecastRead (c : Cmd)
  /-- UNIT_READ (R73). -/
  | unitRead (c : Cmd)
  /-- STATE_DUMP (R406). -/
  | stateDump (c : Cmd)
  /-- MEMBER_STATUS (R86). -/
  | memberStatus (c : Cmd)
  /-- GROUP_WRITE (R77). -/
  | groupWrite (c : Cmd)
  /-- GROUP_DELETE (R78). -/
  | groupDelete (c : Cmd)
  /-- GROUP_READ (R112). -/
  | groupRead (c : Cmd)
  /-- UNIT_REMOVE (R89). -/
  | unitRemove (c : Cmd)
  /-- UNIT_RESTORE (R90). -/
  | unitRestore (c : Cmd) (headFails : List Nat) (tileFails : List TileRef)
  /-- XLT_SET_BASE (R98). -/
  | xltSetBase (c : Cmd)
  /-- XLT_SET_LIMIT (R98). -/
  | xltSetLimit (c : Cmd)
  /-- XLT_INVALIDATE (R103). -/
  | xltInvalidate (c : Cmd)
  /-- XLT_READ (R112). -/
  | xltRead (c : Cmd)
  /-- XLT_PROBE (R517). -/
  | xltProbe (c : Cmd)
  /-- FAULT_READ (R112). -/
  | faultRead (c : Cmd)
  /-- FAULT_STATUS_CLEAR (R110). -/
  | faultStatusClear (t : TileRef) (w : Word)
  /-- RECORD_SEND (R75). -/
  | recordSend
  /-- RECORD (R75). -/
  | record (r : RemoteRec)
  /-- DESCRIPTOR_ADMIT (R115). -/
  | descriptorAdmit (t : TileRef)
  /-- DESCRIPTOR_DISPATCH (R116). -/
  | descriptorDispatch (t : TileRef) (slot : Nat)
  /-- DESCRIPTOR_COMPLETE (R117). -/
  | descriptorComplete (t : TileRef) (slot : Nat)
  /-- REMOTE_SIGNAL (R119). -/
  | remoteSignal (t : TileRef)
  /-- SHARE_ARRIVAL (R126). -/
  | shareArrival (t : TileRef)
  /-- SHARE_RETRY (R126). -/
  | shareRetry (t : TileRef)
  /-- SHARE_REPORT (R127). -/
  | shareReport (t : TileRef)
  /-- SEQ_WATCHDOG (R149). -/
  | seqWatchdog (t : TileRef) (info : Word)
  /-- HOLD_EXPIRY (R138). -/
  | holdExpiry (t : TileRef)
  /-- NOP (R125). -/
  | nop (t : TileRef) (slot : Nat)
  /-- RECEIVE_FENCE (R59). -/
  | receiveFence (t : TileRef) (slot : Nat)
  /-- XLT_INVALIDATE_DESC (R104). -/
  | xltInvalidateDesc (t : TileRef) (slot : Nat)
  /-- MATMUL (R130). -/
  | matmul (t : TileRef) (slot : Nat) (e : StoreErr)
  /-- ACC_DRAIN (R141). -/
  | accDrain (t : TileRef) (slot : Nat) (e : StoreErr)
  /-- GEMM (R144). -/
  | gemm (t : TileRef) (slot : Nat) (e : StoreErr)
  /-- VECTOR (R145). -/
  | vector (t : TileRef) (slot : Nat) (e : StoreErr)
  /-- MERGE (R248). -/
  | merge (t : TileRef) (slot : Nat)
  /-- LOAD (R190). -/
  | load (t : TileRef) (slot : Nat) (e : StoreErr)
  /-- STORE (R190). -/
  | store (t : TileRef) (slot : Nat) (e : StoreErr)
  /-- COPY (R191). -/
  | copy (t : TileRef) (slot : Nat)
  /-- GATHER (R201). -/
  | gather (t : TileRef) (slot : Nat) (e : StoreErr)
  /-- SCATTER (R201). -/
  | scatter (t : TileRef) (slot : Nat) (e : StoreErr)
  /-- COMMIT (R224). -/
  | commit (t : TileRef) (slot : Nat) (e : StoreErr)
  /-- STAGE (R226). -/
  | stage (t : TileRef) (slot : Nat) (e : StoreErr)
  /-- ACCEPT (R227). -/
  | accept (t : TileRef) (slot : Nat) (e : StoreErr)
  /-- APPEND_ROWS_ARRIVE (R220). -/
  | appendRowsArrive (t : TileRef) (e : StoreErr)
  /-- ATTENTION (R233). -/
  | attention (t : TileRef) (slot : Nat)
  /-- ATTENTION_ITEM (R240). -/
  | attentionItem (t : TileRef)
  /-- BLOCK_ARRIVAL (R237). -/
  | blockArrival (t : TileRef) (e : StoreErr)
  /-- ITEM_REPORT (R245). -/
  | itemReport (t : TileRef)
  /-- KV_FLUSH (R250). -/
  | kvFlush (c : Cmd)
  /-- KV_RELEASE (R250). -/
  | kvRelease (c : Cmd)
  /-- KV_TAIL_READ (R250). -/
  | kvTailRead (c : Cmd)
  /-- KV_BUFFER_READ (R250). -/
  | kvBufferRead (c : Cmd)
  /-- PEWTER_MV (R256). -/
  | pewterMv (t : TileRef) (slot : Nat)
  /-- PEWTER_SEQUENCE_START (R259). -/
  | pewterSequenceStart (t : TileRef) (e : StoreErr)
  /-- PEWTER_SLICE (R261). -/
  | pewterSlice (t : TileRef) (bank : Nat) (e : StoreErr)
  /-- PEWTER_SEQUENCE_COMPLETE (R262). -/
  | pewterSequenceComplete (t : TileRef) (tag : Nat)
  /-- FENCE (R264). -/
  | fence (t : TileRef) (slot : Nat) (e : StoreErr)
  /-- PAGE_VERDICT (R284). -/
  | pageVerdict (t : TileRef) (page kind : Nat) (v : Verdict)
  /-- REFRESH (R295). -/
  | refresh (t : TileRef) (layer bank : Nat)
  /-- SCRUB_PAGE (R294). -/
  | scrubPage (t : TileRef) (v : Verdict)
  /-- REINITIALISATION_END (R280). -/
  | reinitialisationEnd (t : TileRef) (region : Nat)
  /-- CONNECTION_SPARE_SWITCH (R299). -/
  | connectionSpareSwitch (t : TileRef) (layer conn : Nat)
  /-- REPAIR_CTL_WRITE (R301). -/
  | repairCtlWrite (t : TileRef) (w : Word)
  /-- RAW_READ (R301). -/
  | rawRead (t : TileRef)
  /-- RAW_WRITE (R301). -/
  | rawWrite (t : TileRef)
  /-- SOFT_ROW (R301). -/
  | softRow (t : TileRef)
  /-- SOFT_COL (R301). -/
  | softCol (t : TileRef)
  /-- FUSE_ROW (R301). -/
  | fuseRow (t : TileRef)
  /-- FUSE_COL (R301). -/
  | fuseCol (t : TileRef)
  /-- CLEAR_SOFT (R301). -/
  | clearSoft (t : TileRef)
  /-- MARCH (R301). -/
  | march (t : TileRef)
  /-- MARCH_COMPLETE (R301). -/
  | marchComplete (t : TileRef) (errs : BitVec 32)
  /-- REGION_SET_CODE (R280). -/
  | regionSetCode (c : Cmd)
  /-- REGION_SET_INTERLEAVE (R279). -/
  | regionSetInterleave (c : Cmd)
  /-- REGION_READ (R303). -/
  | regionRead (c : Cmd)
  /-- SCRUB_NOW (R294). -/
  | scrubNow (c : Cmd)
  /-- MEM_POISON_READ (R303). -/
  | memPoisonRead (c : Cmd)
  /-- CHANNEL_READ (R303). -/
  | channelRead (c : Cmd)
  /-- CNS_ASSIGNMENT_WRITE (R310). -/
  | cnsAssignmentWrite (off : Nat) (w : Word)
  /-- PORT_TRAIN_END (R311). -/
  | portTrainEnd (p : Nat) (r : TrainResult)
  /-- FLIT_RECEIVE (R316). -/
  | flitReceive (p : Nat) (hdr : Word) (intact : Bool) (corrected : Nat)
  /-- READ (R329). -/
  | read (m : Msg)
  /-- WRITE (R328). -/
  | write (m : Msg)
  /-- ATOMIC (R331). -/
  | atomic (m : Msg)
  /-- APPEND_FWD (R333). -/
  | appendFwd (m : Msg)
  /-- SHARE (R334). -/
  | share (m : Msg)
  /-- CONTROL (R334). -/
  | control (m : Msg)
  /-- READ_DATA (R328). -/
  | readData (m : Msg)
  /-- WRITE_ACK (R328). -/
  | writeAck (m : Msg)
  /-- ATOMIC_ACK (R331). -/
  | atomicAck (m : Msg)
  /-- APPEND_ACK (R333). -/
  | appendAck (m : Msg)
  /-- SHARE_DONE (R334). -/
  | shareDone (m : Msg)
  /-- CONTROL_REPLY (R68). -/
  | controlReply (m : Msg)
  /-- REQUEST_TIMEOUT (R330). -/
  | requestTimeout (txn : BitVec 16)
  /-- CREDIT_STALL_DISCARD (R324). -/
  | creditStallDiscard (i : Nat)
  /-- TRACKER_TIMEOUT (R337). -/
  | trackerTimeout (t : TileRef) (srcUnit : BitVec 32) (arrId : BitVec 16) (step : Nat)
  /-- ARR_RESEND (R337). -/
  | arrResend (txn : BitVec 16)
  /-- CNS_STATUS (R343). -/
  | cnsStatus (c : Cmd)
  /-- CNS_ROUTE_WRITE (R325). -/
  | cnsRouteWrite (c : Cmd)
  /-- CNS_ROUTE_READ (R343). -/
  | cnsRouteRead (c : Cmd)
  /-- CNS_PORT_RETRAIN (R311). -/
  | cnsPortRetrain (c : Cmd)
  /-- CNS_PEER_CLEAR (R341). -/
  | cnsPeerClear (c : Cmd)
  /-- CNS_ATOMIC (R331). -/
  | cnsAtomic (c : Cmd)
  /-- CNS_VIOL_READ (R342). -/
  | cnsViolRead (c : Cmd)
  /-- HELLO (R351). -/
  | hello (h : Hello)
  /-- HELLO_RETRY (R349). -/
  | helloRetry
  /-- TWIN_LOSS_TIMEOUT (R360). -/
  | twinLossTimeout
  /-- LEAVE_WAIT_TIMEOUT (R361). -/
  | leaveWaitTimeout
  /-- TAIL_FORWARD (R358). -/
  | tailForward (t : TileRef)
  /-- RESYNC_PAGE_COPY (R364). -/
  | resyncPageCopy
  /-- TWIN_STATUS_READ (R374). -/
  | twinStatusRead (c : Cmd)
  /-- TWIN_RESYNC (R364). -/
  | twinResync (c : Cmd)
  /-- TWIN_DETACH (R370). -/
  | twinDetach (c : Cmd)
  /-- TWIN_ATTACH (R371). -/
  | twinAttach (c : Cmd)
  /-- TWIN_PAGE_FETCH (R369). -/
  | twinPageFetch (c : Cmd)
  /-- REGISTER_WRITE (R8). -/
  | registerWrite (bar off : Nat) (bytes : List Byte)
  /-- APERTURE_READ (R382). -/
  | apertureRead (off len : Nat)
  /-- APERTURE_WRITE (R382). -/
  | apertureWrite (off : Nat) (bytes : List Byte) (ep : Bool)
  /-- SQ_TAIL_WRITE (R386). -/
  | sqTailWrite (r : Nat) (w : Word)
  /-- CQ_HEAD_WRITE (R385). -/
  | cqHeadWrite (r : Nat) (w : Word)
  /-- EQ_HEAD_WRITE (R385). -/
  | eqHeadWrite (w : Word)
  /-- RING_RESET (R386). -/
  | ringReset (r : Nat)
  /-- EQ_RESET (R386). -/
  | eqReset
  /-- RING_RUN (R386). -/
  | ringRun (r : Nat) (run : Bool)
  /-- HOST_VIOL_SUSPECT_CLEAR (R411). -/
  | hostViolSuspectClear (w : Word)
  /-- COMMAND_FETCH (R387). -/
  | commandFetch (r : Nat)
  /-- COMPLETION_POST (R394). -/
  | completionPost (r : Nat) (tag : BitVec 16)
  /-- INTERRUPT_COALESCE_TIMER (R395). -/
  | interruptCoalesceTimer (r : Nat)
  /-- FUNCTION_LEVEL_RESET (R412). -/
  | functionLevelReset
  /-- HOT_RESET (R412). -/
  | hotReset
  /-- LINK_DOWN (R412). -/
  | linkDown
  /-- PERST_ASSERT (R497). -/
  | perstAssert
  /-- EVENT_LOG_READ (R399). -/
  | eventLogRead (c : Cmd)
  /-- EVENT_SET_ACTION (R399). -/
  | eventSetAction (c : Cmd)
  /-- EVENT_READ_ACTIONS (R399). -/
  | eventReadActions (c : Cmd)
  /-- CMD_ABORT (R399). -/
  | cmdAbort (c : Cmd)
  /-- KA_RUN (R400). -/
  | kaRun (c : Cmd) (fails : List (TileRef × Byte))
  /-- KA_VECTOR (R400). -/
  | kaVector (c : Cmd)
  /-- KA_RESULTS (R399). -/
  | kaResults (c : Cmd)
  /-- CNS_LOOPBACK (R400). -/
  | cnsLoopback (c : Cmd) (errors : Nat)
  /-- DOE_DISCOVERY (R433). -/
  | doeDiscovery (index : Byte)
  /-- GET_VERSION (R433). -/
  | getVersion
  /-- GET_CAPABILITIES (R433). -/
  | getCapabilities
  /-- NEGOTIATE_ALGORITHMS (R433). -/
  | negotiateAlgorithms (p384 sha384 : Bool)
  /-- GET_DIGESTS (R433). -/
  | getDigests
  /-- GET_CERTIFICATE (R433). -/
  | getCertificate (slot : Nat) (off len : Nat)
  /-- CHALLENGE (R433). -/
  | challenge (slot : Nat) (nonce : BitVec 256)
  /-- GET_MEASUREMENTS (R434). -/
  | getMeasurements (index : Nat) (sign : Bool) (nonce : BitVec 256)
  /-- POWER_STAGE_START (R437). -/
  | powerStageStart
  /-- POWER_GOOD (R496). -/
  | powerGood
  /-- BRINGUP_S1 (R421): the dies (R18) whose clock check failed are head dies 0–23, layer l of stack s as 24 + 16 s + l, power-stage dies
  as 408 + p and guest dies as 420 + g. -/
  | bringupS1 (pllOk : Bool) (badDies : List Nat) (guests : List Nat)
  /-- BRINGUP_S2 (R421). -/
  | bringupS2 (badStacks badLinks : List Nat)
  /-- BRINGUP_S3 (R421). -/
  | bringupS3 (f : FuseMap)
  /-- BRINGUP_S4 (R297). -/
  | bringupS4 (fails : List (TileRef × Nat × List Nat))
  /-- BRINGUP_S5 (R421). -/
  | bringupS5 (badRows : List (TileRef × Nat × Nat × Nat))
  /-- BRINGUP_S6 (R422). -/
  | bringupS6
  /-- BRINGUP_S7 (R425). -/
  | bringupS7
  /-- BRINGUP_S8 (R427). -/
  | bringupS8 (mismatch : List TileRef)
  /-- BRINGUP_S9 (R429). -/
  | bringupS9 (tiles : List TileRef) (units : List (TileRef × Nat)) (channels : List (TileRef × Nat)) (groups : List Nat)
  /-- BRINGUP_S10 (R309). -/
  | bringupS10
  /-- BRINGUP_S11 (R352). -/
  | bringupS11
  /-- BRINGUP_S12 (R421). -/
  | bringupS12
  /-- BRINGUP_S13 (R430). -/
  | bringupS13
  /-- BRINGUP_STEP_END (R419). -/
  | bringupStepEnd
  /-- BRINGUP_STEP_LIMIT (R421). -/
  | bringupStepLimit
  /-- PACKAGE_RESET (R431). -/
  | packageReset (w : Word)
  /-- FW_INFO (R435). -/
  | fwInfo (c : Cmd)
  /-- FW_VERIFY (R435). -/
  | fwVerify (c : Cmd)
  /-- FW_SVN_COMMIT (R435). -/
  | fwSvnCommit (c : Cmd)
  /-- ID_CHAIN_READ (R435). -/
  | idChainRead (c : Cmd)
  /-- MEASURE_READ (R435). -/
  | measureRead (c : Cmd)
  /-- POWER_SAMPLE (R438). -/
  | powerSample (reports : List StageReport)
  /-- INPUT_FAULT_STOP (R437). -/
  | inputFaultStop
  /-- PWR_STAGE_FAULT (R439). -/
  | pwrStageFault (p cause : Nat)
  /-- STAGE_RETRY (R439). -/
  | stageRetry (p : Nat)
  /-- POWER_RATIO_COMPUTE (R442). -/
  | powerRatioCompute
  /-- LIMITER_SAMPLE (R443). -/
  | limiterSample
  /-- DROOP_ENTRY (R449). -/
  | droopEntry (t : TileRef)
  /-- DROOP_EXIT (R449). -/
  | droopExit (t : TileRef)
  /-- MARGIN_READING (R450). -/
  | marginReading (slacks : List Nat)
  /-- FILL_CUTOFF (R452). -/
  | fillCutoff
  /-- FILL_ZERO (R451). -/
  | fillZero (t : TileRef)
  /-- PWR_READ (R455). -/
  | pwrRead (c : Cmd)
  /-- PWR_SET_CAP (R455). -/
  | pwrSetCap (c : Cmd)
  /-- JOB_ENERGY_READ (R448). -/
  | jobEnergyRead (c : Cmd)
  /-- JOB_CLOSE (R448). -/
  | jobClose (c : Cmd)
  /-- MODEL_READ (R455). -/
  | modelRead (c : Cmd)
  /-- MARGIN_READ (R455). -/
  | marginRead (c : Cmd)
  /-- DIODE_SAMPLE (R459). -/
  | diodeSample (readings : List DiodeReading)
  /-- GRACE_DEADLINE (R466). -/
  | graceDeadline
  /-- THROTTLE_REVIEW (R467). -/
  | throttleReview
  /-- SHUTDOWN_DEADLINE (R471). -/
  | shutdownDeadline
  /-- THERMISTOR_SAMPLE (R476). -/
  | thermistorSample (inlet outlet : Int)
  /-- FLOW_TREND_UPDATE (R477). -/
  | flowTrendUpdate
  /-- VALVE_REQUEST (R481). -/
  | valveRequest
  /-- FLOW_REPORT (R482). -/
  | flowReport (frame : List Byte)
  /-- INLET_TEMP_FRAME (R482). -/
  | inletTempFrame (frame : List Byte)
  /-- PUMP_STATE (R479). -/
  | pumpState (frame : List Byte)
  /-- ALARM (R482). -/
  | alarm (frame : List Byte)
  /-- FAC_SILENT (R484). -/
  | facSilent
  /-- FAC_VIOL_SUSPECT_CLEAR (R487). -/
  | facViolSuspectClear (w : Word)
  /-- THERMAL_READ (R488). -/
  | thermalRead (c : Cmd)
  /-- THRESH_SET (R488). -/
  | threshSet (c : Cmd)
  /-- THERMAL_MODEL_READ (R488). -/
  | thermalModelRead (c : Cmd)
  /-- FAC_READ (R488). -/
  | facRead (c : Cmd)
  /-- FAC_CLEAR (R485). -/
  | facClear (c : Cmd)
  /-- REFERENCE_LOSS (R495). -/
  | referenceLoss
  /-- THERMTRIP_RELEASE (R498). -/
  | thermtripRelease
  /-- BYPASS (R500). -/
  | bypass
  /-- IDCODE (R500). -/
  | idcode
  /-- SAMPLE_PRELOAD (R500). -/
  | samplePreload (b : Word)
  /-- EXTEST (R500). -/
  | extest (b : Word)
  /-- GST_CTL_WRITE (R507). -/
  | gstCtlWrite (g : Nat) (w : Word)
  /-- GUEST_LINK_TRAIN_END (R507). -/
  | guestLinkTrainEnd (g lanes : Nat)
  /-- GST_RING_WRITE (R506). -/
  | gstRingWrite (g : Nat) (w : Word)
  /-- GST_VIOL_SUSPECT_CLEAR (R510). -/
  | gstViolSuspectClear (g : Nat) (w : Word)
  /-- GUEST_READ (R504). -/
  | guestRead (g : Nat) (m : Msg)
  /-- GUEST_WRITE (R504). -/
  | guestWrite (g : Nat) (m : Msg)
  /-- GUEST_ATOMIC (R504). -/
  | guestAtomic (g : Nat) (m : Msg)
  /-- GUEST_CONTROL (R506). -/
  | guestControl (g : Nat) (m : Msg)
  /-- GUEST_EVENT (R503). -/
  | guestEvent (g : Nat) (m : Msg)
  /-- GUEST_TEMP (R508). -/
  | guestTemp (g : Nat) (m : Msg)
  /-- GUEST_SILENCE (R508). -/
  | guestSilence (g : Nat)
  /-- GUEST_POWER_CHECK (R508). -/
  | guestPowerCheck (g watts : Nat)
  /-- REFERENCE_VALID (R495). -/
  | referenceValid
  /-- PERST_DEASSERT (R496). -/
  | perstDeassert
  /-- HOST_LINK_UP (R412). -/
  | hostLinkUp (gen width : Nat)
  /-- ENDPOINT_READY (R412). -/
  | endpointReady
  /-- PACKAGE_RESET_END (R431). -/
  | packageResetEnd
  /-- PEWTER_SLICE_END (R268). -/
  | pewterSliceEnd (t : TileRef) (bank : Nat)
  /-- GUEST_LINK_LOSS (R507). -/
  | guestLinkLoss (g : Nat)
  /-- BRASS_FAULT (R25). -/
  | brassFault
  /-- STORE_CONTROL (R149). -/
  | storeControl (t : TileRef) (info : Word)
  /-- FW_CHECK (R149). -/
  | fwCheck (t : TileRef) (info : Word)
  /-- HOST_MEMORY_COMPLETION (R391). -/
  | hostMemoryCompletion (id : Nat) (d : HostData)
  /-- REPLY_WINDOW_CLOSE (R481). -/
  | replyWindowClose
  deriving DecidableEq, Repr

end Sys2Proof
end

