-- ==== Sys2Proof/WellFormed.lean ====
section
/-! DEFINITION. Sys2Proof/WellFormed.lean: the ranges of the commands' operands, as the spec numbers the parts (R11). -/

namespace Sys2Proof

/-- A tile of the package, 64 × stack + tile (R11). -/
def tileRefOk (t : TileRef) : Bool := t < 1536
/-- A descriptor slot (R115). -/
def slotOk (n : Nat) : Bool := n < 256
/-- A command ring (R383). -/
def ringOk (n : Nat) : Bool := n < 16
/-- Where a command slot's command came from: a ring, a guest's ring, or 256 more than the package that forwarded it (R68, R387, R506). -/
def slotRingOk (n : Nat) : Bool := n < 48 || (256 ≤ n && n < 1280)
/-- A guest site (R11). -/
def siteOk (n : Nat) : Bool := n < 2
/-- A Cornis port; 8 is the twin port (R29). -/
def portOk (n : Nat) : Bool := n < 9
/-- A power-stage die (R11). -/
def stageOk (n : Nat) : Bool := n < 12
/-- A stack (R11). -/
def stackOk (n : Nat) : Bool := n < 24
/-- A die that checks its clocks at S1 (R18, R421): head dies, layers, power-stage dies, guest dies. -/
def dieOk (n : Nat) : Bool := n < 422
/-- A layer, or a bank of a layer (R11). -/
def layerOk (n : Nat) : Bool := n < 16
/-- A bank of a tile, 16 × layer + bank (R252). -/
def unitBankOk (n : Nat) : Bool := n < 256
/-- A 2 KiB page of a tile's 2 GiB slice (R94). -/
def slicePageOk (n : Nat) : Bool := n < 2 ^ 20
/-- A region of a slice (R302). -/
def regionOk (n : Nat) : Bool := n < 32
/-- A connection of a channel (R296). -/
def connOk (n : Nat) : Bool := n < 128
/-- A BAR that holds registers (R378). -/
def barOk (n : Nat) : Bool := n = 0 || n = 2
/-- A Cornis lane group (R11). -/
def laneGroupOk (n : Nat) : Bool := n < 16
/-- A stack-mesh link (R21). -/
def linkOk (n : Nat) : Bool := n < 38
/-- A Pewter sequence tag (R256). -/
def tagOk (n : Nat) : Bool := n < 256
/-- A package number (R11). -/
def packageOk (n : Nat) : Bool := n < 1024

/-- A Normor command with the operation code of its row, from one of the sixteen rings (R389), a guest (R506) or another package (R68). -/
def Cmd.wf (c : Cmd) (op : Nat) : Bool := c.opcode.toNat = op && (ringOk c.ring || c.origin.isSome || c.guest.isSome)

/-- A message between two packages of a domain, on one of the four virtual channels (R317, R319). -/
def Msg.wf (m : Msg) : Bool :=
  packageOk m.src && packageOk m.dst && m.hops < 16 && m.vc < 4 && m.port < 9 && m.gaddr < 2 ^ 56

/-- A time frame from a port (R338). -/
def TimeFrame.wf (f : TimeFrame) : Bool := portOk f.port && packageOk f.root && f.rootHops < 2 ^ 11

/-- A command whose operands lie in the ranges the spec gives them. -/
def Instr.wf : Instr → Bool
  | .tick => true
  | .doneSample => true
  | .stepReport => true
  | .planLimitAbort => true
  | .timeFrameSend => true
  | .time f => f.wf
  | .parentFrameSilence => true
  | .rootForget => true
  | .receiveFenceDeadline t slot => tileRefOk t && slotOk slot
  | .tickGet c => c.wf 0x0301
  | .tickStart c => c.wf 0x0302
  | .tickSetPeriod c => c.wf 0x0303
  | .tickCancelChange c => c.wf 0x0304
  | .stepRealign c => c.wf 0x0305
  | .planLoad c => c.wf 0x0310
  | .planCancel c => c.wf 0x0311
  | .planStatus c => c.wf 0x0312
  | .forecastRead c => c.wf 0x0320
  | .unitRead c => c.wf 0x0101
  | .stateDump c => c.wf 0x0102
  | .memberStatus c => c.wf 0x0103
  | .groupWrite c => c.wf 0x0110
  | .groupDelete c => c.wf 0x0111
  | .groupRead c => c.wf 0x0112
  | .unitRemove c => c.wf 0x0120
  | .unitRestore c headFails tileFails => c.wf 0x0121 && headFails.all stackOk && tileFails.all tileRefOk
  | .xltSetBase c => c.wf 0x0201
  | .xltSetLimit c => c.wf 0x0202
  | .xltInvalidate c => c.wf 0x0203
  | .xltRead c => c.wf 0x0204
  | .xltProbe c => c.wf 0x0205
  | .faultRead c => c.wf 0x0210
  | .faultStatusClear t _ => tileRefOk t
  | .recordSend => true
  | .record _ => true
  | .descriptorAdmit t => tileRefOk t
  | .descriptorDispatch t slot => tileRefOk t && slotOk slot
  | .descriptorComplete t slot => tileRefOk t && slotOk slot
  | .remoteSignal t => tileRefOk t
  | .shareArrival t => tileRefOk t
  | .shareRetry t => tileRefOk t
  | .shareReport t => tileRefOk t
  | .seqWatchdog t _ => tileRefOk t
  | .holdExpiry t => tileRefOk t
  | .nop t slot => tileRefOk t && slotOk slot
  | .receiveFence t slot => tileRefOk t && slotOk slot
  | .xltInvalidateDesc t slot => tileRefOk t && slotOk slot
  | .matmul t slot _ => tileRefOk t && slotOk slot
  | .accDrain t slot _ => tileRefOk t && slotOk slot
  | .gemm t slot _ => tileRefOk t && slotOk slot
  | .vector t slot _ => tileRefOk t && slotOk slot
  | .merge t slot => tileRefOk t && slotOk slot
  | .load t slot _ => tileRefOk t && slotOk slot
  | .store t slot _ => tileRefOk t && slotOk slot
  | .copy t slot => tileRefOk t && slotOk slot
  | .gather t slot _ => tileRefOk t && slotOk slot
  | .scatter t slot _ => tileRefOk t && slotOk slot
  | .commit t slot _ => tileRefOk t && slotOk slot
  | .stage t slot _ => tileRefOk t && slotOk slot
  | .accept t slot _ => tileRefOk t && slotOk slot
  | .appendRowsArrive t _ => tileRefOk t
  | .attention t slot => tileRefOk t && slotOk slot
  | .attentionItem t => tileRefOk t
  | .blockArrival t _ => tileRefOk t
  | .itemReport t => tileRefOk t
  | .kvFlush c => c.wf 0x0401
  | .kvRelease c => c.wf 0x0402
  | .kvTailRead c => c.wf 0x0403
  | .kvBufferRead c => c.wf 0x0404
  | .pewterMv t slot => tileRefOk t && slotOk slot
  | .pewterSequenceStart t _ => tileRefOk t
  | .pewterSlice t bank _ => tileRefOk t && unitBankOk bank
  | .pewterSequenceComplete t tag => tileRefOk t && tagOk tag
  | .fence t slot _ => tileRefOk t && slotOk slot
  | .pageVerdict t page _ _ => tileRefOk t && slicePageOk page
  | .refresh t layer bank => tileRefOk t && layerOk layer && layerOk bank
  | .scrubPage t _ => tileRefOk t
  | .reinitialisationEnd t region => tileRefOk t && regionOk region
  | .connectionSpareSwitch t layer conn => tileRefOk t && layerOk layer && connOk conn
  | .repairCtlWrite t _ => tileRefOk t
  | .rawRead t => tileRefOk t
  | .rawWrite t => tileRefOk t
  | .softRow t => tileRefOk t
  | .softCol t => tileRefOk t
  | .fuseRow t => tileRefOk t
  | .fuseCol t => tileRefOk t
  | .clearSoft t => tileRefOk t
  | .march t => tileRefOk t
  | .marchComplete t _ => tileRefOk t
  | .regionSetCode c => c.wf 0x0220
  | .regionSetInterleave c => c.wf 0x0221
  | .regionRead c => c.wf 0x0222
  | .scrubNow c => c.wf 0x0223
  | .memPoisonRead c => c.wf 0x0224
  | .channelRead c => c.wf 0x0225
  | .cnsAssignmentWrite _ _ => true
  | .portTrainEnd p _ => portOk p
  | .flitReceive p _ _ _ => portOk p
  | .read m => m.wf
  | .write m => m.wf
  | .atomic m => m.wf
  | .appendFwd m => m.wf
  | .share m => m.wf
  | .control m => m.wf
  | .readData m => m.wf
  | .writeAck m => m.wf
  | .atomicAck m => m.wf
  | .appendAck m => m.wf
  | .shareDone m => m.wf
  | .controlReply m => m.wf
  | .requestTimeout _ => true
  | .creditStallDiscard _ => true
  | .trackerTimeout t _ _ _ => tileRefOk t
  | .arrResend _ => true
  | .cnsStatus c => c.wf 0x0501
  | .cnsRouteWrite c => c.wf 0x0502
  | .cnsRouteRead c => c.wf 0x0503
  | .cnsPortRetrain c => c.wf 0x0504
  | .cnsPeerClear c => c.wf 0x0505
  | .cnsAtomic c => c.wf 0x0506
  | .cnsViolRead c => c.wf 0x0507
  | .hello _ => true
  | .helloRetry => true
  | .twinLossTimeout => true
  | .leaveWaitTimeout => true
  | .tailForward t => tileRefOk t
  | .resyncPageCopy => true
  | .twinStatusRead c => c.wf 0x0601
  | .twinResync c => c.wf 0x0602
  | .twinDetach c => c.wf 0x0603
  | .twinAttach c => c.wf 0x0604
  | .twinPageFetch c => c.wf 0x0605
  | .registerWrite bar _ _ => barOk bar
  | .apertureRead _ _ => true
  | .apertureWrite _ _ _ => true
  | .sqTailWrite r _ => ringOk r
  | .cqHeadWrite r _ => ringOk r
  | .eqHeadWrite _ => true
  | .ringReset r => ringOk r
  | .eqReset => true
  | .ringRun r _ => ringOk r
  | .hostViolSuspectClear _ => true
  | .commandFetch r => ringOk r
  | .completionPost r _ => slotRingOk r
  | .interruptCoalesceTimer r => r < 17
  | .functionLevelReset => true
  | .hotReset => true
  | .linkDown => true
  | .perstAssert => true
  | .eventLogRead c => c.wf 0x0901
  | .eventSetAction c => c.wf 0x0902
  | .eventReadActions c => c.wf 0x0903
  | .cmdAbort c => c.wf 0x0910
  | .kaRun c _ => c.wf 0x0A01
  | .kaVector c => c.wf 0x0A02
  | .kaResults c => c.wf 0x0A03
  | .cnsLoopback c _ => c.wf 0x0A04
  | .doeDiscovery _ => true
  | .getVersion => true
  | .getCapabilities => true
  | .negotiateAlgorithms _ _ => true
  | .getDigests => true
  | .getCertificate _ _ _ => true
  | .challenge _ _ => true
  | .getMeasurements _ _ _ => true
  | .powerStageStart => true
  | .powerGood => true
  | .bringupS1 _ badDies guests => badDies.all dieOk && guests.all siteOk
  | .bringupS2 badStacks badLinks => badStacks.all stackOk && badLinks.all linkOk
  | .bringupS3 _ => true
  | .bringupS4 _ => true
  | .bringupS5 _ => true
  | .bringupS6 => true
  | .bringupS7 => true
  | .bringupS8 mismatch => mismatch.all tileRefOk
  | .bringupS9 tiles _ _ groups => tiles.all tileRefOk && groups.all laneGroupOk
  | .bringupS10 => true
  | .bringupS11 => true
  | .bringupS12 => true
  | .bringupS13 => true
  | .bringupStepEnd => true
  | .bringupStepLimit => true
  | .packageReset _ => true
  | .fwInfo c => c.wf 0x0801
  | .fwVerify c => c.wf 0x0802
  | .fwSvnCommit c => c.wf 0x0803
  | .idChainRead c => c.wf 0x0810
  | .measureRead c => c.wf 0x0811
  | .powerSample reports => decide (reports.length = 12)
  | .inputFaultStop => true
  | .pwrStageFault p _ => stageOk p
  | .stageRetry p => stageOk p
  | .powerRatioCompute => true
  | .limiterSample => true
  | .droopEntry t => tileRefOk t
  | .droopExit t => tileRefOk t
  | .marginReading _ => true
  | .fillCutoff => true
  | .fillZero t => tileRefOk t
  | .pwrRead c => c.wf 0x0701
  | .pwrSetCap c => c.wf 0x0702
  | .jobEnergyRead c => c.wf 0x0703
  | .jobClose c => c.wf 0x0704
  | .modelRead c => c.wf 0x0705
  | .marginRead c => c.wf 0x0706
  | .diodeSample _ => true
  | .graceDeadline => true
  | .throttleReview => true
  | .shutdownDeadline => true
  | .thermistorSample _ _ => true
  | .flowTrendUpdate => true
  | .valveRequest => true
  | .flowReport _ => true
  | .inletTempFrame _ => true
  | .pumpState _ => true
  | .alarm _ => true
  | .facSilent => true
  | .facViolSuspectClear _ => true
  | .thermalRead c => c.wf 0x0720
  | .threshSet c => c.wf 0x0721
  | .thermalModelRead c => c.wf 0x0722
  | .facRead c => c.wf 0x0723
  | .facClear c => c.wf 0x0724
  | .referenceLoss => true
  | .thermtripRelease => true
  | .bypass => true
  | .idcode => true
  | .samplePreload _ => true
  | .extest _ => true
  | .gstCtlWrite g _ => siteOk g
  | .guestLinkTrainEnd g _ => siteOk g
  | .gstRingWrite g _ => siteOk g
  | .gstViolSuspectClear g _ => siteOk g
  | .guestRead g m => siteOk g && m.wf
  | .guestWrite g m => siteOk g && m.wf
  | .guestAtomic g m => siteOk g && m.wf
  | .guestControl g m => siteOk g && m.wf
  | .guestEvent g m => siteOk g && m.wf
  | .guestTemp g m => siteOk g && m.wf
  | .guestSilence g => siteOk g
  | .guestPowerCheck g _ => siteOk g
  | .referenceValid => true
  | .perstDeassert => true
  | .hostLinkUp _ _ => true
  | .endpointReady => true
  | .packageResetEnd => true
  | .pewterSliceEnd t bank => tileRefOk t && unitBankOk bank
  | .guestLinkLoss g => siteOk g
  | .brassFault => true
  | .storeControl t _ => tileRefOk t
  | .fwCheck t _ => tileRefOk t
  | .hostMemoryCompletion _ _ => true
  | .replyWindowClose => true

end Sys2Proof
end

