-- ==== Sys2Proof/Config.lean ====
section
/-! DEFINITION. Sys2Proof/Config.lean: what an implementation fixes and the values the spec leaves open. Each constant
is opaque: nothing can be proved of its value, so a claim holds whatever it is. The last argument of a free value is the
model's counter `State.free`, so that two uses may differ. -/

namespace Sys2Proof.Config

/-- A value the spec does not state, as bits of the asked width. -/
opaque freeBits : Nat → Nat → Nat

/-- A choice the spec leaves open, as a Boolean. -/
opaque freeBool : Nat → Bool

/-- Whether a 64 MiB stretch of another package holds protected pages, which its own package alone knows (R207). -/
opaque farProtected : Nat → Bool

/-- Sine and cosine of a rotary angle, before they are held to the bound of R222: the scaled position and the frequency. -/
opaque sinBits : BitVec 32 → BitVec 32 → BitVec 32
opaque cosBits : BitVec 32 → BitVec 32 → BitVec 32

/-- Whether a running sum of attention, or of MERGE, takes its product and its addition in one rounding (R237, R248). -/
opaque attnFused : Bool

/-- Whether ROW_SUMSQ takes each square and its addition in one rounding (R145). -/
opaque squareFused : Bool

/-- What ROW_SAMPLE writes for a row where no prefix sum exceeds its threshold (R145): the immediate and the row. -/
opaque sampleOpen : BitVec 32 → List (BitVec 32) → BitVec 32

/-- Units in the last place by which a function may differ from the nearest value, within the bound of R147 or R237: which function,
and its operand. -/
opaque ulpOffset : Nat → BitVec 32 → Int

/-- What of the writes of a descriptor that an engine is executing is made by the internal boundary at which a stop ends it (R514): the
stop's free count, the place (0 work store, 1 accumulators, 2 memory, 3 messages), and the byte, accumulator, page or message. -/
opaque stopKeeps : Nat → Nat → Nat → Bool

/-- The root public key that the certificate chain of a signature block carries (R424, R425): 96 bytes, x before y. -/
opaque rootKey : List Byte → List Byte

/-- The nonce of an ECDSA signature: of a private key and a digest. -/
opaque signNonce : Nat → BitVec 384 → Nat

/-- What HMAC-SHA-384 is applied to for the DeviceID key (R432). -/
opaque deviceLabel : List Byte

/-- The certificates of slot 0 before the Alias certificate, as one-time-programmable storage holds them, and the signed part of an
Alias certificate, of its public key and the measurements (R432, R433). -/
opaque certStore : List Byte
opaque aliasBody : List Byte → List Byte → List Byte

/-- A security-engine random number. -/
opaque randomBytes : Nat → List Byte

/-- Polynomial of GF(2^15) in the code of protected pages (R290). -/
opaque bchPoly : Nat

/-- The model figures that firmware sets from fused characterisation, per tile and per rail voltage in mV (R445): the energy weight of
an activity counter in fJ, and the leakage in µW at a temperature in 1/16 °C. -/
opaque weight : Nat → Nat → Nat → Nat
opaque leakage : Nat → Nat → Int → Nat

/-- Baseline power of Brass and Cornis, mW (R62, R445). -/
opaque baselineMw : Nat

/-- The background power of a layer at a refresh band (R295, R445), mW. -/
opaque layerMw : Nat → Nat

/-- Core cycles that a sequencer was busy with one descriptor (R444): the free counter, the tile and its count of descriptors. -/
opaque seqBusy : Nat → Nat → Nat → Nat

/-- K_s of R462 by stack, in 1/16 °C per W. -/
opaque offsetK : Nat → Nat

/-- Thermal model constants of a die (R470): heat capacity in mJ/K less one, conductance in mW/K. -/
opaque thermalC : Nat → Nat
opaque thermalG : Nat → Nat

/-- R_b of R463, in 1/16 °C per W, and the model differences of R463 between neighbouring dies, in 1/16 °C. -/
opaque brassR : Nat
opaque modelDiff : Nat → Int

/-- Model power of a layer or of Brass over the last 1 ms, mW, which R445 does not divide from the package's (R463, R470): die index and
free-value counter. -/
opaque modelPower : Nat → Nat → Nat

/-- Rated power of a die, mW (R463), by its index; the spec gives no figure. -/
opaque ratedMw : Nat → Nat

/-- The filter of the offset from the time parent: filtered offset so far and measured offset, ns (R31); and the rate adjustment
it leads to, ppm, held within ±100 (R28). -/
opaque offsetFilter : Int → Int → Int
opaque rateFor : Int → Int

/-- The endpoint runs from a host reference of its own, separate from `REFCLK` (R494, R495). -/
opaque separateRef : Bool

/-- Values firmware writes at S13 (R9, R430): `THRESH_MV` of the droop detectors, `MAX_MW` of fill, and each stack's rail in mV
from its margin reading (R450). -/
opaque droopMv : Nat
opaque fillMw : Nat
opaque railMv : Nat → Nat

/-- The digest of the Brass ROM (R434). -/
opaque romDigest : BitVec 384

end Sys2Proof.Config
end

