-- ==== Sys2Proof/Machine/State.lean ====
section
/-! DEFINITION. Sys2Proof/Machine/State.lean: everything the spec gives one Efulith package, as plain data, and its
value after power-on. Each field's docstring names the register or rule it stands for and its reset value. -/

namespace Sys2Proof.Machine

/-- A status or reason code of R396, R397. -/
abbrev Code := BitVec 8

/-- A sparse table: entries in rising key order; a key not listed reads as the table's default. -/
abbrev KV (α : Type) := List (Nat × α)

/-- Why the machine stops with a fault. The spec gives every command of this block an outcome of its own (a status,
a discarded write, no effect), so no meaning raises one. -/
inductive Fault where
  /-- Raised by no meaning: kept for the interface. Safe (a run that ended here would prove nothing). -/
  | noSuchFault
  deriving DecidableEq, Repr

/-- Why a command has no meaning here. -/
inductive Refusal where
  /-- Raised by a dispatch arm whose command has no meaning yet. Safe: the run stops. -/
  | notModelled (mnemonic : String)
  deriving DecidableEq, Repr

/-- Unit states of R70. -/
inductive UnitSt where
  | absent | removed | starting | ready | degraded | halted | unreachable
  deriving DecidableEq, Repr

/-- Twin pair states of R347. -/
inductive PairSt where
  | unpaired | paired | solo | source | stale | target | detached | conflict
  deriving DecidableEq, Repr

/-- Guest site states of R507. -/
inductive GuestSt where
  | absent | reset | training | up | faulted
  deriving DecidableEq, Repr

/-- States of a lane group (R312). -/
inductive GroupSt where
  | idle | training | inService | out
  deriving DecidableEq, Repr

/-- States of a Cornis port (R311). -/
inductive PortSt where
  | down | training | up | narrow
  deriving DecidableEq, Repr

/-- Threshold states of a die (R459, `DIODE_i.STATE`). -/
inductive DieSt where
  | normal | warning | throttle | shutdown
  deriving DecidableEq, Repr

/-- An outcome of a command, descriptor, share or member. -/
structure Outc where
  status : Code := 0
  reason : Code := 0
  map : BitVec 64 := 0
  deriving DecidableEq, Repr

/-! ### Time and ticks -/

/-- A tick schedule record (R33). -/
structure Schedule where
  /-- `TICK_BASE_STEP` (R38). Reset 0. -/
  baseStep : Nat := 0
  /-- `TICK_BASE_TIME` (R38). Reset 0. -/
  baseTime : Nat := 0
  /-- `TICK_PERIOD.US` (R38). Reset 0x4E20. -/
  periodUs : Nat := 20000
  /-- `TICK_CHANGE`, `TICK_CHANGE_STEP`: pending period and effective step (R33, R38). Reset none (0). -/
  change : Option (Nat × Nat) := none
  /-- `TICK_VERSION` (R38). Reset 0. -/
  version : BitVec 32 := 0
  deriving DecidableEq, Repr

/-- What a port last heard from its peer's time frames (R29, R338). -/
structure TimePeer where
  root : Nat
  rootHops : Nat
  locked : Bool
  version : BitVec 32
  txNs : BitVec 64
  rxNs : BitVec 64
  deriving DecidableEq, Repr

/-- The time base and the package's place in the time tree. -/
structure TimeState where
  /-- The core clock: elapsed time since power-on in units of 1/7 ns, so that one cc is 10 units (R6). Reset 0. -/
  now : Nat := 0
  /-- `INVAR_NOW`: the Invar count, ns (R28). Reset 0. -/
  invar : BitVec 64 := 0
  /-- What the discipline of the rate leaves below 1 ns, in millionths of a ns (R28): the model's own. Reset 0. -/
  invarRest : Nat := 0
  /-- Rate adjustment of the count, ppm, −100 to 100 (R28). Reset 0: DESIGN CHOICE, log entry 4. -/
  ratePpm : Int := 0
  /-- Time root this package names (R29). Reset 0. -/
  root : Nat := 0
  /-- Own hops to the root (R339); 0x7FF for none. Reset 0x7FF. -/
  hops : Nat := 0x7FF
  /-- Port of the time parent (R29), none when this package is root. Reset none. -/
  parent : Option Nat := none
  /-- `INVAR_OFFSET.NS`: filtered offset from the parent (R38). Reset 0. -/
  offset : BitVec 32 := 0
  /-- Delay of the link to the parent that the last exchange measured, ns (R339). Reset 0. -/
  delay : BitVec 64 := 0
  /-- Consecutive exchanges within ±10 ns with a locked parent (R31). Reset 0. -/
  goodExchanges : Nat := 0
  /-- `TICK_STATUS.LOCKED` (R31). Reset 0. -/
  locked : Bool := false
  /-- `TICK_STATUS.HOLDOVER` (R32). Reset 0. -/
  holdover : Bool := false
  /-- Time of the parent's last frame (R32). Reset 0. -/
  parentAt : Nat := 0
  /-- Time of the last frame that named the root (R29). Reset 0. -/
  rootAt : Nat := 0
  /-- Last frame of each port (R338). Reset empty. -/
  peers : KV TimePeer := []
  /-- The election of R29 runs (from the end of S10). Reset false. -/
  treeOn : Bool := false
  deriving DecidableEq, Repr

/-- A logical step whose plans run (R50). -/
structure StepRun where
  logical : Nat
  wallAtStart : Nat
  /-- Job tags of its plans. -/
  jobs : List (BitVec 16)
  /-- A tick was skipped while its plans ran; the pace pair delayed its start; pauses were enforced in it. -/
  skipped : Bool := false
  configMismatch : Bool := false
  throttled : Bool := false
  /-- Summed plan estimates, µJ, for R63. -/
  estimate : Nat := 0
  /-- `ENERGY_IN` at the step's start. -/
  energyStart : Nat := 0
  deriving DecidableEq, Repr

/-- A logical step that a tick has ended and whose STEP_REPORT is to come (R50). -/
structure StepEnd where
  run : StepRun
  /-- Measured package energy, µJ. -/
  energy : Nat
  /-- A descriptor completed other than OK, and the stacks holding a tile whose status differs from OK. -/
  partialSeen : Bool
  stackMap : BitVec 64
  deriving DecidableEq, Repr

/-- Ticks, lag and the package's part in plans. -/
structure TickState where
  /-- `TICK_STATUS.RUNNING` (R38). Reset 0. -/
  running : Bool := false
  /-- A schedule record exists (R37). Reset false. -/
  hasSchedule : Bool := false
  /-- The schedule record (R33). -/
  sched : Schedule := {}
  /-- The record this package ran before it adopted one late; the next tick is under it (R54). Reset none. -/
  oldSched : Option Schedule := none
  /-- `TICK_WALL.STEP` (R38). Reset 0. -/
  wall : Nat := 0
  /-- `TICK_LAG.STEPS` (R39). Reset 0. -/
  lag : Nat := 0
  /-- `PLAN_LIMIT.TICKS` (R38). Reset 4. -/
  planLimit : BitVec 4 := 4
  /-- `PACE_RATIO.PERMILLE` (R38). Reset 0. -/
  paceRatio : Nat := 0
  /-- `PACE_PERIOD.US` (R38). Reset 0. -/
  pacePeriod : Nat := 0
  /-- Ratio latched by the tiles for the step in progress (R60). Reset 0. -/
  stepRatio : Nat := 0
  /-- Result of the last done sample: every tile done (R46). Reset true. -/
  sampleDone : Bool := true
  /-- A done sample has been taken since the last tick (R46). Reset false. -/
  sampled : Bool := false
  /-- Ticks skipped since the running plans became late (R48). Reset 0. -/
  skips : Nat := 0
  /-- Realignment waiting for the next tick (R49). Reset 0. -/
  realign : Nat := 0
  /-- The pace pair disagreed at the last tick, for the delayed step's report (R60). Reset false. -/
  paceMismatch : Bool := false
  /-- The step whose plans run or last ran (R50). Reset none. -/
  step : Option StepRun := none
  /-- Ended steps whose report is not posted yet (R50). Reset empty. -/
  reports : List StepEnd := []
  /-- The 64-entry forecast in 10 W units (R62). Reset all 42 (420 W). -/
  forecast : List Nat := List.replicate 64 42
  /-- Calibration factor of R63, in 1/65536. Reset 65536, a factor of 1: DESIGN CHOICE, log entry 4 (the spec gives none). -/
  calibration : Nat := 65536
  /-- Number of the first tick, while none has occurred under the record (R37). Reset 0. -/
  first : Nat := 0
  /-- tick_time of the last 64 ticks, by wall step, as they occurred (R33, R59). Reset empty. -/
  times : List (Nat × Int) := []
  /-- Logical step whose plans were due at the last tick that was not skipped (R42, R43). Reset none. -/
  latched : Option Nat := none
  deriving DecidableEq, Repr

/-! ### Tiles -/

/-- A semaphore (R118). -/
structure Sem where
  value : BitVec 32 := 0
  failed : Bool := false
  deriving DecidableEq, Repr

/-- Phases of a descriptor slot (R115 to R117). -/
inductive SlotPh where
  /-- Admitted, waiting for its wait or its queue. -/
  | waiting
  /-- In its engine's queue. -/
  | queued
  /-- Executing; remote messages, items or shares may be outstanding. -/
  | running
  /-- The engine has finished; DESCRIPTOR_COMPLETE follows. -/
  | finished
  deriving DecidableEq, Repr

/-- The place of a unit in a split of several levels: at each level its position, the number of members, and the member that it is or lies
in (R81, R84). -/
abbrev Path := List (Nat × Nat × BitVec 32)

/-- A member of a split and its report (R84, R127). -/
structure Member where
  unit : BitVec 32
  pos : Nat
  report : Option Outc := none
  sentAt : Nat := 0
  remote : Bool := false
  /-- Return data of a forwarded command, and its two results (R68, R392). -/
  data : List (BitVec 8) := []
  results : BitVec 64 × BitVec 64 := (0, 0)
  /-- Its place in a split of several levels, and the outcomes of its own members, where they are known here (R86). -/
  path : Path := []
  under : List (Path × Outc) := []
  deriving DecidableEq, Repr

/-- A share of a split descriptor (R126). -/
structure Share where
  /-- The 64-byte descriptor with the share's own extents. -/
  desc : BitVec 512
  /-- First granule and granules of the share, in the descriptor's granule; `none` for a replicated request. -/
  range : Option (Nat × Nat)
  /-- Unit the share is for. -/
  unit : BitVec 32
  /-- Lead tile and slot, or the SHARE message (package, transaction) that carried it. -/
  lead : TileRef
  leadSlot : Nat
  leadMsg : Option (Nat × BitVec 16) := none
  job : BitVec 16
  /-- The lead's logical step and start wall step (R59). -/
  step : Nat
  wall : Nat
  shareNo : Nat := 0
  /-- The tile and slot that first split the descriptor, and the number of that split there (R82). -/
  origin : BitVec 32 × Nat := (0, 0)
  splitNo : Nat := 0
  deriving DecidableEq, Repr

/-- A descriptor slot (R115). -/
structure DescSlot where
  /-- The 64 bytes of R123. -/
  desc : BitVec 512
  /-- Index in its plan, none for a share. -/
  index : Option Nat
  share : Option Share := none
  job : BitVec 16
  /-- Logical step it belongs to (R57, R59). -/
  step : Nat
  /-- Wall step that started its plan (R59). -/
  wall : Nat
  ph : SlotPh := .waiting
  result : Outc := {}
  split : Bool := false
  /-- Members of a split and their reports (R127). -/
  members : List Member := []
  /-- Transactions it waits for, remote bytes it has fetched by global address, and reads that failed: address, length,
  status and reason (R328, R329). -/
  waits : List (BitVec 16) := []
  fetched : List (Nat × List (BitVec 8)) := []
  readFails : List (Nat × Nat × Code × Code) := []
  /-- What it reads once only, by DVA: its tensor descriptors and indices (R184, R200). -/
  once : List (Nat × List (BitVec 8)) := []
  /-- Own tiles whose slices received bytes of it (R195), and its messages to send, `true` for a mirror (R327, R353). -/
  landed : List TileRef := []
  toSend : List (Msg × Bool) := []
  /-- Mirror outcomes seen (R356). -/
  mirror : Outc := {}
  /-- Its local effect is made; only answers are awaited. -/
  applied : Bool := false
  /-- Entry outcomes of a KV_APPEND by entry (R219); failed messages of other descriptors by global address (R328). -/
  entries : KV Outc := []
  /-- Time (1/7 ns) before which it does not complete, the same on the tile's core clock (R61), and both times of dispatch. -/
  readyAt : Nat := 0
  readyCore : Nat := 0
  dispatchAt : Nat := 0
  dispatchCore : Nat := 0
  /-- It has completed but for its remote signal, which is on its way (R119). -/
  signalling : Bool := false
  /-- Place in the order of dispatch to the Pewter queue (R264). -/
  order : Nat := 0
  /-- Tiles of an ATTENTION's target as they were in service when its items were dealt (R83, R85). -/
  targets : List (BitVec 32 × Path) := []
  deriving DecidableEq, Repr

/-- A queued or running plan (R40, R41). -/
structure Plan where
  step : Nat
  job : BitVec 16
  descs : List (BitVec 512)
  energyUj : Nat
  /-- Where its descriptors lie in the tile's plan area, in units of 64 bytes (R40, R423). -/
  units : List Nat := []
  deriving DecidableEq, Repr

/-- PLAN_STATUS detail of one tile and logical step (R50). -/
structure PlanHist where
  step : Nat
  job : BitVec 16
  outc : Outc
  energy : Nat
  deriving DecidableEq, Repr

/-- A translation cache entry (R102). -/
structure XEntry where
  ctx : Nat
  /-- DVA of the page's first byte. -/
  dva : Nat
  /-- log2 of the page size, 21 or 30. -/
  size : Nat
  base : Nat
  /-- Leaf bits [7:2]. -/
  prot : BitVec 6
  /-- Local address of the leaf. -/
  leaf : Nat
  deriving DecidableEq, Repr

/-- The fault record of a tile (R110). -/
structure FaultRec where
  valid : Bool := false
  more : Bool := false
  status : Code := 0
  reason : Code := 0
  kind : BitVec 4 := 0
  dva : BitVec 64 := 0
  slot : BitVec 8 := 0
  context : BitVec 12 := 0
  step : BitVec 48 := 0
  deriving DecidableEq, Repr

/-- An arrival tracker (R337). -/
structure Tracker where
  srcUnit : BitVec 32
  arrId : BitVec 16
  arrStep : Nat
  ctr : Nat
  count : Nat
  total : Option Nat
  lastAt : Nat
  deriving DecidableEq, Repr

/-- A slot of the append buffer (R214). -/
structure KvSlot where
  seqId : Nat
  plane : Nat
  pt : BitVec 64
  /-- Job tag of the append that allocated it. -/
  job : BitVec 16
  staging : Bool
  /-- Block held (tail), and the bytes of buffer the slot takes. -/
  block : Nat
  bytes : Nat
  /-- Tail image, or the staged candidates' token bytes. -/
  image : List (BitVec 8)
  /-- Parents of staged candidates (R226). -/
  parents : List Int := []
  /-- Global address of the image, resolved at allocation (R224). -/
  addr : Nat := 0
  mirrored : Bool := false
  /-- In sync with the twin during resync (R366). -/
  inSync : Bool := false
  /-- DVA of the image, local address of its leaf on an `APPEND_ONLY` page, and tokens held (R224, R225). -/
  dva : BitVec 64 := 0
  leaf : Option Nat := none
  count : Nat := 0
  /-- An uncorrectable error was met in it (R214). -/
  bad : Bool := false
  deriving DecidableEq, Repr

/-- A spilled block of a plane (R225). -/
structure KvSpill where
  pt : BitVec 64
  plane : Nat
  block : Nat
  addr : Nat
  dva : BitVec 64 := 0
  leaf : Option Nat := none
  mirrored : Bool := false
  job : BitVec 16 := 0
  /-- The plane is in sync with the twin (R366). -/
  inSync : Bool := false
  deriving DecidableEq, Repr

/-- What an attention item reads (R238, R239). -/
inductive ItemKind where
  | tail | bucket0 | span | listed
  deriving DecidableEq, Repr

/-- An attention item (R238 to R241) and its online-softmax state (R237). -/
structure AttnItem where
  lead : TileRef
  leadSlot : Nat
  leadPkg : Option (Nat × BitVec 16) := none
  seq : Nat
  slotNo : Nat
  kind : ItemKind
  /-- Key range. -/
  lo : Nat
  hi : Nat
  /-- Listed blocks: (index, BLOCK_DVA). -/
  blocks : List (Nat × BitVec 64) := []
  desc : BitVec 512
  batch : BitVec 256
  header : BitVec 512
  g0 : BitVec 64
  lb : Nat
  ctx : Nat
  job : BitVec 16
  step : Nat
  /-- Blocks still to arrive. -/
  todo : List Nat := []
  /-- Running maximum, sum and output, per row and head: FP32 bits. -/
  acc : List (BitVec 32 × BitVec 32 × List (BitVec 32)) := []
  /-- Rows and heads that have admitted a key. -/
  seen : List Bool := []
  stale : Bool := false
  started : Bool := false
  /-- Parents of the staged candidates (R235). -/
  parents : List Int := []
  /-- Tile that holds the plane's tail (R230). -/
  tailTile : TileRef := 0
  /-- Place of a listed item's list and its records (R239); query rows as read at the item's start. -/
  listAt : BitVec 64 := 0
  listLen : Nat := 0
  q : List (BitVec 8) := []
  /-- When the item started, when the bytes of its next block begin to come, and the core cycles that its last block takes (R246). -/
  startedAt : Nat := 0
  nextAt : Nat := 0
  lastCycles : Nat := 0
  fetched : List (Nat × List (BitVec 8)) := []
  readFails : List (Nat × Nat × Code × Code) := []
  waits : List (BitVec 16) := []
  deriving DecidableEq, Repr

/-- The lead's view of one sequence of an ATTENTION (R245). -/
structure SeqRun where
  slot : Nat
  seq : Nat
  slots : Nat
  reports : KV Outc := []
  valid : BitVec 256 := 0
  refused : Option Outc := none
  poisonDva : BitVec 64 := 0
  /-- Tile of each slot's item (R238), and the items that wait for the lead's second reading of `GEN` (R241). -/
  tiles : KV (BitVec 32) := []
  todo : List (BitVec 32 × AttnItem) := []
  pt : BitVec 64 := 0
  /-- Fields of the sequence's header (R242). -/
  nq : Nat := 0
  qheads : Nat := 0
  lb : Nat := 0
  dim : Nat := 0
  bucket : Nat := 0
  g0 : BitVec 64 := 0
  slotBytes : Nat := 0
  deriving DecidableEq, Repr

/-- A vector slot of the Pewter units (R258). -/
structure VecSlot where
  v : Nat
  fmt : BitVec 4
  k0 : Nat
  k1 : Nat
  /-- Vector elements, V rows of k1, as stored codes. -/
  data : List (List (BitVec 16))
  /-- Start of its load (R258). -/
  loadAt : Nat := 0
  /-- Columns of elements that cannot be read: in every layer, where its load met them, and in one layer's store, by layer and column
  (R258, R262). -/
  bad : List Nat := []
  badAt : List (Nat × Nat) := []
  deriving DecidableEq, Repr

/-- A MATMUL, or a GEMM's products, on the groups of the matrix engine (R136 to R139): its first accumulator row, rows of A,
column blocks, chunks, cycles of a chunk, its issue cycles, and the core time at which group 0 starts. -/
structure MxRun where
  row : Nat
  m : Nat
  nb : Nat
  kc : Nat
  c : Nat
  cycles : Nat
  start : Nat
  deriving DecidableEq, Repr

/-- A Pewter sequence between its start and its fence (R259). -/
structure PewSeq where
  slot : Nat
  tag : Nat
  half : Option Nat
  vslot : Nat
  desc : BitVec 512
  job : BitVec 16
  /-- Place in the order of dispatch to the Pewter queue (R264). -/
  order : Nat
  /-- Translations of `OUT`, resolved at start (R257). -/
  outs : List XEntry
  /-- Translation pages of the weight pages, resolved at start: first DVA and size in bytes (R257). -/
  maps : List (Nat × Nat) := []
  /-- Those of them that are `TWIN_MIRRORED` (R356). -/
  twinMaps : List (Nat × Nat) := []
  /-- Pages still to be read, ascending: (page index, slice page, bank 0–255). -/
  todo : List (Nat × Nat × Nat)
  /-- Result-buffer entries: key (bank, row, vector) as one number, FP32 bits. -/
  sums : KV (BitVec 32) := []
  /-- Rows whose results are NaN, rising (R262). -/
  nanRows : List Nat := []
  /-- Its outcome so far (R262): status and reason. -/
  status : Code := 0
  reason : Code := 0
  /-- It has completed, and waits for its fence (R259). -/
  done : Bool := false
  /-- When it started, and when its last slice ended. -/
  startAt : Nat := 0
  lastEnd : Nat := 0
  deriving DecidableEq, Repr

/-- The Pewter state of a tile (R256 to R262, R275). -/
structure Pewter where
  /-- Vector slots, `PEWTER_STATUS.SLOTS` (R275). Reset empty. -/
  vslots : KV VecSlot := []
  /-- Unfenced sequences in dispatch order; halves and tags of `PEWTER_STATUS` follow from them. Reset empty. -/
  seqs : List PewSeq := []
  /-- Banks with a slice in progress: its slice page, its boundary, and its sequence's order (R267). Reset empty. -/
  busy : KV (Nat × Nat × Nat) := []
  /-- Time before which a bank begins no slice under a pause ratio or the limiter's stretch (R273, R443). Reset empty. -/
  rests : KV Nat := []
  /-- Number of descriptors dispatched to the Pewter queue (R264). Reset 0. -/
  nextOrder : Nat := 0
  /-- Banks with a deferred refresh (R268). Reset empty. -/
  deferred : List Nat := []
  /-- `PEWTER_HINT` (R275): FP4, FP8, INT8. Firmware value 8 at S13 (R9); reset 0: DESIGN CHOICE, log entry 4. -/
  hint : BitVec 12 := 0
  /-- `PEWTER_PAGES.PAGES`, `.FALLBACK` (R275). Reset 0. -/
  pages : BitVec 32 := 0
  fallback : BitVec 32 := 0
  /-- `PEWTER_WAITS.ACCESSES`, `.REFRESHES` (R275). Reset 0. -/
  waitAcc : BitVec 32 := 0
  waitRef : BitVec 32 := 0
  /-- `PEWTER_POISON.DVA` (R275). Reset 0. -/
  poison : BitVec 64 := 0
  /-- Pewter units out of service: bank 0–255 and cause (R73 `KIND` 3). Reset empty. -/
  out : KV Nat := []
  deriving DecidableEq, Repr

/-- `REGION_r` (R302). -/
structure Region where
  /-- `CODE`: computable. Reset protected (0). -/
  computable : Bool := false
  /-- `T` (R290). Reset 2. -/
  t : BitVec 3 := 2
  /-- `ILV` (R278), and the interleave under which the pages lie in their rows: that of the last agreement of the pair (R279).
  Reset 0. -/
  ilv : BitVec 2 := 0
  laid : BitVec 2 := 0
  /-- `INIT`: reinitialisation in progress (R280). Reset 0. -/
  init : Bool := false
  deriving DecidableEq, Repr

/-- `CHANNEL_l` (R302). -/
structure Channel where
  /-- `STATE`: 0 in service, 1 mapped out, 2 failing. Reset 0. -/
  state : BitVec 2 := 0
  /-- `CAUSE` (R73). Reset 0. -/
  cause : BitVec 4 := 0
  /-- `SPARE68`. Reset 0x7F. -/
  spare68 : BitVec 7 := 0x7F
  /-- `SPARE69`. Reset 0x7F. -/
  spare69 : BitVec 7 := 0x7F
  /-- `FAILED`. Reset 0. -/
  failed : BitVec 7 := 0
  /-- `LINK_ERRS`. Reset 0. -/
  linkErrs : BitVec 32 := 0
  deriving DecidableEq, Repr

/-- Memory side of a tile: regions, channels, poison, scrub and repair (R292 to R302). -/
structure TileMem where
  /-- `REGION_r` where not at its reset value (R302). Reset empty. -/
  regions : KV Region := []
  /-- `CHANNEL_l` where not at its reset value (R302). Reset empty. -/
  channels : KV Channel := []
  /-- Layers out when the layout was fixed at S6 (R298). Reset empty. -/
  layoutOut : List Nat := []
  /-- Slice pages whose poison bit is set, rising; `POISON_COUNT` is their number (R292). Reset empty. -/
  poison : List Nat := []
  /-- Slice pages left undefined by MARCH until written whole (R301). Reset empty. -/
  marched : List Nat := []
  /-- Rows set by RAW_WRITE: slice page, the 128 bytes of its check area, and the data that the row decoded to before (R301). Reset
  empty. -/
  raw : KV (List (BitVec 8) × List (BitVec 8)) := []
  /-- `SCRUB_STATUS.PASSES`, `.POS` (R302). Reset 0. -/
  scrubPasses : BitVec 32 := 0
  scrubPos : Nat := 0
  /-- SCRUB_NOW passes in progress: the command, and the next page in each region still to pass (R294). Reset empty. -/
  demand : List (Cmd × List Nat) := []
  /-- The periodic pass reads the next page although a SCRUB_NOW pass is in progress (R294). Reset false: DESIGN CHOICE, log entry
  66. -/
  scrubTurn : Bool := false
  /-- `SCRUB_PERIOD.MIN` (R302). Reset 0xF0. -/
  scrubPeriod : BitVec 14 := 0xF0
  /-- `MEM_ERRS` (R302). Reset 0. -/
  corrected : BitVec 32 := 0
  uncorrectable : BitVec 32 := 0
  /-- `MEM_NARROW` (R302). Reset 0. -/
  rmw : BitVec 32 := 0
  whole : BitVec 32 := 0
  /-- Time of the last MEM_CORRECTED_HIGH (R286). Reset none. -/
  highAt : Option Nat := none
  /-- Narrow writes waiting for their page's verdict: page, then (offset, byte) newest last (R288). Reset empty. -/
  narrow : KV (List Host.Cell) := []
  /-- `REPAIR_SEL` (R301). Reset 0. -/
  repairSel : BitVec 64 := 0
  /-- `REPAIR_CTL.HOLD` and the layer held (R301). Reset none. -/
  hold : Option Nat := none
  /-- `REPAIR_CMD.OP`, last value written (R301). Reset 0. -/
  repairCmd : BitVec 64 := 0
  /-- `REPAIR_STATUS` BUSY, RESULT, MARCH_ERRS (R301). Reset 0. -/
  repairBusy : Bool := false
  repairResult : BitVec 3 := 0
  marchErrs : BitVec 32 := 0
  /-- Repairs: (layer, bank, row or column, is a column, fuse-backed) (R300). Reset empty; fuse-backed from S5. -/
  repairs : List (Nat × Nat × Nat × Bool × Bool) := []
  /-- `REPAIR_BUF`: bytes that are not zero (R301). Reset 0. -/
  repairBuf : List Host.Cell := []
  deriving DecidableEq, Repr

/-- Work of an engine for a job, or of none for fill (R447, R451): its queue's key, its beginning and end, and what the activity counters have risen by since the
entry before. -/
structure JobSpan where
  job : Option (BitVec 16)
  queue : Nat
  start : Nat
  stop : Nat
  act : KV (BitVec 64)
  deriving DecidableEq, Repr

/-- One tile (R113, R114 and the register blocks of later chapters). -/
structure Tile where
  /-- `TILE_STATE.STATE` (R114). Reset 0x02 STARTING. -/
  unit : UnitSt := .starting
  /-- Cause in the out list (R73). Reset 0. -/
  cause : Nat := 0
  /-- `TILE_STATE.TRAP` (R114). Reset 0. -/
  trap : BitVec 8 := 0
  /-- `TRAP_INFO` (R114). Reset 0. -/
  trapInfo : BitVec 64 := 0
  /-- `STORE_ECC` (R114). Reset 0. -/
  eccCorrected : BitVec 32 := 0
  /-- Pages of the code page that the sequencer's 64 KiB instruction cache holds, latest first (R113, R149). Reset empty: DESIGN
  CHOICE, log entry 4. -/
  icache : List Nat := []
  /-- The uncorrected count of `STORE_ECC` (R114). Reset 0. -/
  eccUncorrected : BitVec 32 := 0
  /-- `CPL_BASE` (R114). Firmware value at S13 (R9); reset 0: DESIGN CHOICE, log entry 4. -/
  cplBase : Nat := 0
  /-- Semaphores 0–31 where not zero (R114, R118). Reset 0. -/
  sems : KV Sem := []
  /-- Descriptor slots 0–255 in use (R115); `TILE_INFLIGHT.SLOTS` is their number. Reset empty. -/
  slots : KV DescSlot := []
  /-- Remote signals under way of descriptors that hold no slot, by their number in the plan: the outcomes they complete with (R119).
  Reset empty. -/
  signalsOut : KV Outc := []
  /-- Descriptors that this tile has been the first to split, and the splits of which it has taken a share: first tile and number, the
  latest 1,024 (R82). Reset 0, empty. -/
  splits : Nat := 0
  splitsTaken : List (Nat × Nat) := []
  /-- Share queue (R126); `TILE_INFLIGHT.SHARES` is its length. Reset empty. -/
  shares : List Share := []
  /-- Shares this lead holds for a full queue: target tile and share (R126). Reset empty. -/
  retry : List (TileRef × Share) := []
  /-- Plan queue, by rising logical step (R40). Reset empty. -/
  queue : List Plan := []
  /-- The plan started at the last plan start and not done (R46). Reset none. -/
  running : Option Plan := none
  /-- `TILE_PLAN.STEP` (R114). Reset 0. -/
  planStep : Nat := 0
  /-- The tile's core clock (R6): core time, in units of which one core-clock edge takes 10, reached at a time of the package's
  clock. Both are taken anew when the clock's period changes (R443, R449). Reset 0. -/
  core : Nat := 0
  coreAt : Nat := 0
  /-- Wall step and time of the tick that started the plan, and its core time (R59, R128). Reset 0. -/
  planWall : Nat := 0
  planAt : Nat := 0
  planCore : Nat := 0
  /-- Logical steps whose plans this tile has started, newest first (R45). Reset empty. -/
  started : List Nat := []
  /-- `TILE_PLAN_POS.ADMITTED`, `.COMPLETED` (R114). Reset 0. -/
  admitted : Nat := 0
  completed : Nat := 0
  /-- Status of the running or last plan for PLAN_STATUS and STEP_REPORT (R50). Reset OK. -/
  planOutc : Outc := {}
  /-- Outcomes of the running plan's descriptors that are not plain OK, by index. Reset empty. -/
  planOuts : KV Outc := []
  /-- PLAN_STATUS detail of the last 16 steps (R50). Reset empty. -/
  history : List PlanHist := []
  /-- Measured energy of the last 16 plans (R62). Reset empty. -/
  energies : List Nat := []
  /-- Counter 18 at the start of the plan, for its measured energy (R62, R447). Reset 0. -/
  energyMark : BitVec 64 := 0
  /-- Arrival slots where not zero: 4c + k to (step, count) (R55, R56). Reset 0. -/
  arr : KV (BitVec 48 × BitVec 32) := []
  /-- `ARR_LATE` (R56). Reset 0. -/
  arrLate : BitVec 32 := 0
  /-- Step mark of the last LATE_ARRIVAL and RANGE_FAULT events: (running a plan, step) (R55, R111). Reset none. -/
  lateMark : Option (Bool × Nat) := none
  faultMark : Option (Bool × Nat) := none
  /-- Arrival trackers (R337). Reset empty. -/
  trackers : List Tracker := []
  /-- Fault record (R110). Reset 0. -/
  fault : FaultRec := {}
  /-- `FAULT_COUNT` (R110). Reset 0. -/
  faultCount : BitVec 32 := 0
  /-- Counters of R72, 0–18, where not zero. Reset 0. -/
  counters : KV (BitVec 64) := []
  /-- Activity counters of R444, 0–23, where not zero. Reset 0. -/
  activity : KV (BitVec 64) := []
  /-- Translation cache, most recently used first (R102). Reset empty. -/
  xlt : List XEntry := []
  /-- Work store bytes that are not zero (R113). Reset: DESIGN CHOICE zero, log entry 4. -/
  ws : List Host.Cell := []
  /-- Accumulator values that are not zero: 32 row + column (R113). Reset: DESIGN CHOICE zero, log entry 4. -/
  acc : KV (BitVec 32) := []
  /-- Engine queues: matrix 0, vector 1, DMA 2–5, attention 6, Pewter 7; slot numbers (R116). Reset empty. -/
  queues : KV (List Nat) := []
  /-- Core time at which each engine is free again, and the last pause of R61 on it: from and to, by queue (R61, R116). Reset
  empty. -/
  engineFree : KV Nat := []
  pauses : KV (Nat × Nat) := []
  /-- Core time at which the last MATMUL completes (R137). Reset 0. -/
  mxEnd : Nat := 0
  /-- MATMULs on the engine whose rows may still be awaited or whose groups may still run, newest first (R138, R139). Reset empty. -/
  mxRuns : List MxRun := []
  /-- ACC_DRAINs: first row, rows, and the core time at which the drain path starts, newest first; and the core time at which the
  last completes (R139). Reset empty, 0. -/
  drains : List (Nat × Nat × Nat) := []
  drainEnd : Nat := 0
  /-- Core time at which group 7 ends a warm hold (R138). Reset none. -/
  holdEnd : Option Nat := none
  /-- `DMA_STATUS.HALTED` channels and `DMA_POISON_c` (R205). Reset 0. -/
  dmaHalted : BitVec 4 := 0
  dmaPoison : KV (BitVec 64) := []
  /-- `DMA_SLOW.HALF_RUNS`, elements moved singly, `DMA_REUSE.HITS` (R205). Reset 0. -/
  halfRuns : BitVec 32 := 0
  singles : Nat := 0
  reuse : BitVec 32 := 0
  /-- Append buffer slots (R214). Reset empty. -/
  kv : List KvSlot := []
  /-- Blocks that are spilled (R225). Reset empty. -/
  spills : List KvSpill := []
  /-- `KV_RESERVE` (R216). Reset 0. -/
  kvReserve : BitVec 19 := 0
  /-- `KV_SPILL_COUNT`, `KV_FLUSH_COUNT`, `ATTN_COUNT` (R216). Reset 0. -/
  spillBlocks : BitVec 32 := 0
  spillWrites : BitVec 32 := 0
  flushBlocks : BitVec 32 := 0
  attnItems : BitVec 32 := 0
  attnStale : BitVec 32 := 0
  /-- A tick has passed and the tails of this tile's planes are not forwarded yet (R358). Reset false. -/
  tailDue : Bool := false
  /-- Blocks that began to spill since the last tick, by logical step (R225). Reset empty. -/
  spillSteps : KV Nat := []
  /-- What the attention front end has fetched from other packages for the next append, reads that failed, and
  transactions it waits for (R220, R224). Reset empty. -/
  frontFetched : List (Nat × List (BitVec 8)) := []
  frontFails : List (Nat × Nat × Code × Code) := []
  frontWaits : List (BitVec 16) := []
  /-- Attention items in the order they reached the tile (R240). Reset empty. -/
  items : List AttnItem := []
  /-- Sequences of the ATTENTION descriptors this tile leads (R245). Reset empty. -/
  leads : List SeqRun := []
  /-- Pewter state. -/
  pewter : Pewter := {}
  /-- Memory state of the slice. -/
  mem : TileMem := {}
  /-- Tin-fill level, µW, and the time it was taken (R451). Reset none. -/
  fill : Option (Nat × Nat) := none
  /-- `DROOP.EVENTS`, entries in the step, droop in progress and since when, last DROOP_HIGH (R449, R454). Reset 0. -/
  droopEvents : BitVec 32 := 0
  droopStep : Nat := 0
  droopSince : Option Nat := none
  droopHighAt : Option Nat := none
  /-- `DROOP_CFG.THRESH_MV` (R454). Firmware value at S13 (R9); reset 0: DESIGN CHOICE, log entry 4. -/
  droopThresh : BitVec 8 := 0
  /-- Last KA results: set mask run and sets failed (R399). Reset 0. -/
  kaRun : BitVec 8 := 0
  kaFailed : BitVec 8 := 0
  /-- Activity counters at the step's start, for the model energy of the step (R445). Reset empty. -/
  actMark : KV (BitVec 64) := []
  /-- Activity counters at the last sample of the head die's diode, for the die's model power (R462, R470). Reset empty. -/
  heatMark : KV (BitVec 64) := []
  /-- Work of the engines: that of the step, and of the last 64 µs (R447, R451); and the activity counters as the last entry found them.
  Reset empty. -/
  spans : List JobSpan := []
  spanMark : KV (BitVec 64) := []
  deriving DecidableEq, Repr

/-! ### Units, groups and translation contexts -/

/-- A translation context (R97). -/
structure Context where
  root : Nat := 0
  baseSeal : BitVec 8 := 0
  pos : Nat := 0
  neg : Nat := 0
  limitSeal : BitVec 8 := 0
  deriving DecidableEq, Repr

/-- A resource out of service (R73): kind, cause, stack, tile, layer, bank, index. -/
structure OutEntry where
  kind : Nat
  cause : Nat
  stack : Nat := 0
  tile : Nat := 0
  layer : Nat := 0
  bank : Nat := 0
  index : Nat := 0
  deriving DecidableEq, Repr

/-- Stack-level and package-level unit state, groups, contexts and other packages' records. -/
structure UnitsState where
  /-- `STATE` of stacks 0–23 (R70) and their causes; a stack not listed is STARTING. Reset STARTING. -/
  stackSt : KV (UnitSt × Nat) := []
  /-- `STATE` of the package (R70). Reset STARTING. -/
  package : UnitSt := .starting
  /-- Stack-mesh links out of service and their causes (R21, R73). Reset empty. -/
  meshOut : KV Nat := []
  /-- `CHANGE_COUNT` of each unit record where not zero, by record slot of R95 (R69). Reset 0. -/
  changeCounts : KV (BitVec 32) := []
  /-- Counters kept for members that left service are in their tiles (R72). Records of other packages (R75). Reset empty. -/
  remote : KV RemoteRec := []
  /-- Packages that have not answered a command since their last record (R70). Reset empty. -/
  silent : List Nat := []
  /-- Groups: index to member list (R76). Reset empty. -/
  groups : KV (List (BitVec 32)) := []
  /-- Translation contexts where not disabled (R97). Reset: all 4,096 disabled, with every field zero: DESIGN CHOICE, log entry 4
  (the spec gives none). -/
  contexts : KV Context := []
  deriving DecidableEq, Repr

/-! ### Messages in the package -/

/-- Rows of an append entry on their way to the home tile (R220). -/
structure AppendRows where
  entry : BitVec 256
  entryNo : Nat
  mode : Nat
  issuer : TileRef
  slot : Nat
  /-- Package and transaction of an APPEND_FWD, when the rows came over Cornis. -/
  remote : Option (Nat × BitVec 16 × BitVec 32) := none
  job : BitVec 16
  step : Nat
  /-- K rows then V rows, BF16; or the tokens already quantised when mirrored. -/
  rows : List (BitVec 8)
  aux : List (BitVec 8) := []
  /-- Its source rows could not be read (R148, R228). -/
  poisoned : Bool := false
  /-- Mirrored commit: FIRST_POS (R355). -/
  mirrored : Option Nat := none
  /-- Tail forward or install (R358). -/
  tail : Bool := false
  /-- Of a forwarded commit that is still arriving: the tokens applied before, those that are complete, and whether all are (R333). -/
  since : Nat := 0
  upTo : Option Nat := none
  last : Bool := true
  deriving DecidableEq, Repr

/-- What an append entry came to: its outcome and its record (R219). -/
structure Applied where
  outc : Outc := {}
  applied : Nat := 0
  firstPos : Nat := 0
  spilled : Bool := false
  flushed : Bool := false
  unmirrored : Bool := false
  /-- The tokens applied, to send the twin, when the plane is mirrored and in sync (R229). -/
  send : Option (List (BitVec 8)) := none
  deriving DecidableEq, Repr

/-- What the meshes carry between tiles of the package (R515). -/
inductive MeshBody where
  | share (s : Share)
  | report (slot : Nat) (unit : BitVec 32) (o : Outc)
  | signal (sem : Nat) (amount : Nat) (fail : Bool) (src : TileRef) (slot : Nat)
  | rows (r : AppendRows)
  | item (i : AttnItem)
  | itemReport (slot seq slotNo : Nat) (o : Outc) (wrote : Bool) (poison : BitVec 64)
  deriving DecidableEq, Repr

/-- A mesh message on its way to a tile: its arrival time and body. -/
structure MeshMsg where
  dest : TileRef
  due : Nat
  body : MeshBody
  deriving DecidableEq, Repr

/-! ### Cornis -/

/-- A lane group (R312). -/
structure LaneGroup where
  /-- `ROLE`. Reset by the default assignment of R309. -/
  role : BitVec 2
  /-- `PORT`. Reset by the default assignment of R309. -/
  port : BitVec 3
  /-- `STATE`. Reset idle. -/
  state : GroupSt := .idle
  /-- Cause when out of service (R73). -/
  cause : Nat := 0
  /-- `UNCORR`; corrected codewords, which `CORR` shows in thousands (R312). Reset 0. -/
  uncorr : BitVec 16 := 0
  corrected : Nat := 0
  deriving DecidableEq, Repr

/-- A Cornis port (R312) and its link layer (R315 to R317). -/
structure Port where
  /-- `WIDTH`. Reset 1. -/
  width : BitVec 1 := 1
  /-- `STATE`. Reset down. -/
  state : PortSt := .down
  /-- `SUSPECT`. Reset 0. -/
  suspect : Bool := false
  /-- `PEER`, `PEER_PORT`, `RETRAINS`. Reset 0. -/
  peer : Nat := 0
  peerPort : Nat := 0
  retrains : BitVec 32 := 0
  /-- Last sequence number accepted (`ACK` sent), NAK outstanding (R316). Reset 0xFFFF and false. -/
  rxSeq : BitVec 16 := 0xFFFF
  nak : Bool := false
  /-- Next sequence number to send and last acknowledged (R316). Reset 0 and 0xFFFF. -/
  txSeq : BitVec 16 := 0
  ackSeq : BitVec 16 := 0xFFFF
  /-- NAKs seen in a row that name the same `ACK` (R316). Reset 0. -/
  naks : Nat := 0
  lastNak : BitVec 16 := 0
  /-- Retransmission is due from this sequence number (R316). Reset none. -/
  replay : Option (BitVec 16) := none
  /-- Replay buffer: flits not acknowledged, each with its number, its message and which of the message's flits it is (R316). Reset empty. -/
  buffer : List (BitVec 16 × Msg × Nat) := []
  /-- Message whose flits are going out, and how many have gone, per virtual channel (R317). Reset none. -/
  txOpen : List (Option (Msg × Nat)) := [none, none, none, none]
  /-- Flit slots that a channel with flits and credit has waited (R317). Reset 0. -/
  slotWaits : List Nat := [0, 0, 0, 0]
  /-- Flits sent, by which the port deals them over its groups (R315). Reset 0. -/
  dealt : Nat := 0
  /-- Credits to return, per virtual channel (R317). Reset 0. -/
  crDue : List Nat := [0, 0, 0, 0]
  /-- A NAK is to be sent, and the `ACK` last sent (R316). Reset false and 0xFFFF. -/
  nakDue : Bool := false
  ackSent : BitVec 16 := 0xFFFF
  /-- Headers of flits that came on the other group ahead of their turn (R315). Reset empty. -/
  early : List (BitVec 64) := []
  /-- Credits held to send, per virtual channel (R317). Reset 1024, 1024, 4096, 64. -/
  credit : List Nat := [1024, 1024, 4096, 64]
  /-- Flits the receiver buffers, per virtual channel (R317), and a message is open on the channel. Reset 0. -/
  rxHeld : List Nat := [0, 0, 0, 0]
  rxOpen : List Bool := [false, false, false, false]
  /-- End of training's limit (R311). Reset none. -/
  trainAt : Option Nat := none
  /-- Command that waits for the training (R343). Reset none. -/
  trainCmd : Option Cmd := none
  deriving DecidableEq, Repr

/-- A flit as it leaves (R314, R315): port, lane group, header and body. -/
structure Flit where
  port : Nat
  group : Nat
  header : BitVec 64
  body : List (BitVec 8)
  deriving DecidableEq, Repr

/-- Who waits for the answer of a message. -/
inductive TxnUser where
  /-- A descriptor slot of a tile reads or writes. -/
  | slot (t : TileRef) (slot : Nat)
  /-- An attention item of a tile reads a block. -/
  | item (t : TileRef)
  /-- A share to another package. -/
  | share (t : TileRef) (slot : Nat) (unit : BitVec 32)
  /-- An append entry forwarded to another package. -/
  | append (t : TileRef) (slot entry : Nat)
  /-- A mirrored write of a descriptor. -/
  | mirror (t : TileRef) (slot : Nat)
  /-- A mirrored commit: the home tile, what it applied, and the result record so far. -/
  | commit (t : TileRef) (r : AppendRows) (record : BitVec 64)
  /-- The attention front end of a tile reads or writes an image elsewhere. -/
  | front (t : TileRef)
  /-- A member of a forwarded Normor command. -/
  | command (ring : Nat) (tag : BitVec 16) (unit : BitVec 32)
  /-- A parameter of a command in another package's memory (R390). -/
  | param (ring : Nat) (tag : BitVec 16)
  /-- CNS_ATOMIC. -/
  | atomic (ring : Nat) (tag : BitVec 16)
  /-- A host aperture read or write. -/
  | aperture (write : Bool) (off : Nat)
  /-- Return data being written to another package before its completion is posted (R391, R394). -/
  | ret (ring : Nat) (tag : BitVec 16)
  /-- A read that a command makes by DVA in another package (R41). -/
  | cmdRead (ring : Nat) (tag : BitVec 16)
  /-- A guest's access. -/
  | guest (site : Nat) (txn : BitVec 16)
  /-- A resync page copy. -/
  | resync (ctx page : Nat)
  /-- A tail forward or install. -/
  | tail (t : TileRef) (pt : BitVec 64) (plane : Nat)
  /-- TWIN_PAGE_FETCH. -/
  | fetch (ring : Nat) (tag : BitVec 16) (local_ : Nat)
  /-- A hello to the twin (R349). -/
  | hello
  /-- A third package's write being mirrored. -/
  | third (src : Nat) (txn : BitVec 16) (srcUnit : BitVec 32)
  deriving DecidableEq, Repr

/-- An outstanding request (R330). -/
structure Txn where
  txn : BitVec 16
  dst : Nat
  sentAt : Nat
  user : TxnUser
  msg : Msg
  /-- ARR_BUSY resends so far, and that one is due (R337). -/
  resends : Nat := 0
  again : Bool := false
  deriving DecidableEq, Repr

/-- A logged violation (R342). -/
structure ViolRec where
  invar : BitVec 64
  port : Nat
  peer : Nat
  kind : Nat
  reason : Code
  deriving DecidableEq, Repr

/-- A window of counted violations of one party: times, newest first (R341, R411, R485, R510). -/
structure ViolWin where
  times : List Nat := []
  /-- Violations since the last event, and when it was raised. -/
  since : Nat := 0
  lastEvent : Option Nat := none
  deriving DecidableEq, Repr

/-- The Cornis block (R312) and its state. -/
structure CornisState where
  /-- `CNS_CFG.VALID`, `.FALLBACK`, `.TRAINED` (R312). Reset 1, 0, 0. -/
  valid : Bool := true
  fallback : Bool := false
  trained : Bool := false
  /-- `CNS_SELF.PACKAGE` (R312). Reset 0. -/
  self : Nat := 0
  /-- The image that the link controllers run, from S10 (R425). Reset empty. -/
  image : List (BitVec 8) := []
  /-- `CNS_GROUP_g` (R312): default assignment of R309. -/
  groups : List LaneGroup := (List.range 16).map fun g =>
    if g = 8 ∨ g = 9 then { role := 2, port := 0 }
    else if g < 8 then { role := 1, port := BitVec.ofNat 3 (g / 2) } else { role := 1, port := BitVec.ofNat 3 (g / 2 - 1) }
  /-- `CNS_PORT_p`, 0–8 (R312). -/
  ports : List Port := List.replicate 9 {}
  /-- `CNS_SUSPECT` COUNT, WINDOW_MS (R312). Reset 0x10, 0x3E8. -/
  suspectCount : BitVec 8 := 0x10
  suspectMs : BitVec 16 := 0x3E8
  /-- `CNS_VIOL` (R312). Reset 0. -/
  violLink : BitVec 32 := 0
  violMsg : BitVec 32 := 0
  /-- `CNS_DROPS` (R312). Reset 0. -/
  stalled : BitVec 32 := 0
  late : BitVec 32 := 0
  /-- Routing table entries that are not empty (R321). Reset empty: DESIGN CHOICE, log entry 4 (the spec gives none). -/
  routes : KV (BitVec 16) := []
  /-- Requests outstanding (R330) and the next transaction number. Reset empty, 0. -/
  txns : List Txn := []
  nextTxn : BitVec 16 := 0
  /-- Requests that have timed out: transaction and destination; their late responses are only counted (R330). Reset empty. -/
  expired : List (BitVec 16 × Nat) := []
  /-- Packages marked suspect (R341). Reset empty. -/
  suspects : List Nat := []
  /-- Violation windows: by package, and by 1024 + port for adjacent peers (R341). Reset empty. -/
  wins : KV ViolWin := []
  /-- The violation log, newest last, at most 256 (R342). Reset empty. -/
  log : List ViolRec := []
  /-- Messages that wait for credit at this forwarding package: message and since when (R324). Reset empty. -/
  held : List (Msg × Nat) := []
  /-- ROUTE_STALL: messages discarded since the last event and when it was raised (R324). Reset 0. -/
  stallSince : Nat := 0
  stallAt : Option Nat := none
  /-- Partial forwarded appends by (package, transaction): bytes received (R333). Reset empty. -/
  fragments : List ((Nat × BitVec 16) × List (BitVec 8)) := []
  /-- Bytes received so far of a CONTROL or a reply that travels as several messages: source, `TXN` and `OP` (R334). Reset empty. -/
  parts : List ((Nat × BitVec 16 × BitVec 8) × List (BitVec 8)) := []
  /-- What the tokens of a forwarded commit that is still arriving have come to, by source and transaction (R333). Reset empty. -/
  appendParts : List ((Nat × BitVec 16) × Applied) := []
  deriving DecidableEq, Repr

/-! ### Twin -/

/-- The twin block (R348) and pairing state. -/
structure TwinState where
  /-- `TWIN_STATUS.STATE` (R348). Reset UNPAIRED. -/
  state : PairSt := .unpaired
  /-- `TWIN_STATUS` SUSPECT, INCOMPLETE, FW_EXEMPT, CAUSE, GEN (R348). Reset 0. -/
  suspect : Bool := false
  incomplete : Bool := false
  fwExempt : Bool := false
  cause : Code := 0
  gen : BitVec 32 := 0
  /-- `TWIN_LOSS.MS` (R348). Reset 0x78. -/
  lossMs : BitVec 10 := 0x78
  /-- `TWIN_RESYNC_CTL.SHARE` (R348). Reset 0x4B. -/
  share : BitVec 7 := 0x4B
  /-- `TWIN_RESYNC_POS` CONTEXT, PHASE; `_MARK`; `_BYTES` (R348). Reset 0. -/
  context : Nat := 0
  phase : Nat := 0
  mark : Nat := 0
  bytes : Nat := 0
  /-- `TWIN_COUNTS`, `TWIN_RESYNC_FAULTS` (R348). Reset 0. -/
  partials : BitVec 32 := 0
  tailRepairs : BitVec 32 := 0
  faults : BitVec 32 := 0
  /-- The member is fresh: no plan started since its last reset (R347). Reset true. -/
  fresh : Bool := true
  /-- The twin's pair state and generation, as its last accepted hello gave them (R349). Reset 0. -/
  peerState : Nat := 0
  peerGen : BitVec 32 := 0
  /-- The twin's last hello said that it is fresh (R349, R371). Reset false. -/
  peerFresh : Bool := false
  /-- The generation has been raised for a twin that came back fresh and is not yet STALE (R351). Reset false. -/
  risen : Bool := false
  /-- A hello that came before step S11 (R352). Reset none. -/
  early : Option Hello := none
  /-- The twin was lost as a suspect: no hello pairs with it before TWIN_ATTACH (R373). Reset false. -/
  barred : Bool := false
  /-- Time from which the next resync copy may be read, under `SHARE` (R364). Reset 0. -/
  copyAt : Nat := 0
  /-- Pages being fetched from the twin, by local address, with the bytes of the local writes that wait (R369). Reset empty. -/
  fetching : List (Nat × List Host.Cell) := []
  /-- Time anything was last received from the twin (R360). Reset 0. -/
  heardAt : Nat := 0
  /-- Contexts still to copy, in order (R364). Reset empty. -/
  contexts : List Nat := []
  /-- Contexts wholly copied in this resync (R364). Reset empty. -/
  doneContexts : List Nat := []
  /-- Pages written whole since the resync was left incomplete: context and page of the DVA (R368). Reset empty. -/
  restored : List (Nat × Nat) := []
  /-- What an incomplete member holds valid: contexts wholly copied, and the one copied up to a watermark (R368). Reset empty. -/
  validContexts : List Nat := []
  validContext : Nat := 0
  validMark : Nat := 0
  /-- Tail answers awaited while leaving, and when the wait began (R361). Reset none. -/
  leaving : Option Nat := none
  /-- What the leave ends in: detach rather than shutdown (R361, R370). Reset false. -/
  leaveDetach : Bool := false
  detachCmd : Option Cmd := none
  /-- Tail messages unanswered (R361, R366). Reset 0. -/
  tailsOut : Nat := 0
  /-- TWIN_RESYNC_FAULT last raised (R365). Reset none. -/
  faultAt : Option Nat := none
  /-- Bring-up step S11 is running and waits (R352). Reset false. -/
  waiting : Bool := false
  deriving DecidableEq, Repr

/-! ### Host interface -/

/-- How far a command slot has come (R387, R388, R394). -/
inductive CmdPh where
  /-- Fetched, waiting under ORDER. -/
  | held
  /-- Started; its command's own step follows, or answers are awaited. -/
  | started
  /-- Finished with a completion to post. -/
  | finished
  deriving DecidableEq, Repr

/-- A completion's content (R392). -/
structure Compl where
  status : Code := 0
  reason : Code := 0
  map : BitVec 64 := 0
  result0 : BitVec 64 := 0
  result1 : BitVec 64 := 0
  dupTag : Bool := false
  detail : Bool := false
  deriving DecidableEq, Repr

/-- A command slot (R387). -/
structure CmdSlot where
  cmd : Cmd
  ph : CmdPh
  startAt : BitVec 64 := 0
  compl : Compl := {}
  /-- Parameter bytes fetched from memory, and the part that has come so far (R390, R391). -/
  param : Option HostData := none
  paramPart : List (BitVec 8) := []
  /-- Return data to be written to `RET` at posting (R391, R394). -/
  ret : List (BitVec 8) := []
  /-- The return data has been sent to another package, and this many answers are awaited (R394). -/
  retSent : Option Nat := none
  /-- Members whose outcome is awaited (R68, R84). -/
  members : List Member := []
  /-- Bytes read by DVA in other packages, reads that failed, and host memory read for tiles (R40, R41). -/
  fetched : List (Nat × List (BitVec 8)) := []
  readFails : List (Nat × Nat × Code × Code) := []
  hostGot : KV HostData := []
  /-- `TXN` of the CONTROL message that carried a guest's command; none once its reply is to be discarded (R506, R507). -/
  gtxn : Option (BitVec 16) := none
  deriving DecidableEq, Repr

/-- A command ring (R384 to R387). -/
structure Ring where
  /-- `RING_r_CTL`: RUN, HALTED, VECTOR, IRQ_EN, COAL_N, COAL_US (R384). Reset 0, 0, r, 0, 1, 0. -/
  run : Bool := false
  halted : Bool := false
  vector : BitVec 6 := 0
  irqEn : Bool := false
  coalN : BitVec 8 := 1
  coalUs : BitVec 8 := 0
  /-- `RESET` as last written (R8, R384). Reset 0. -/
  resetBit : Bool := false
  /-- `RING_r_STATE`: SQ_HEAD, CQ_TAIL, CQ_PHASE (R384). Reset 0, 0, 1. -/
  sqHead : BitVec 12 := 0
  cqTail : BitVec 12 := 0
  cqPhase : Bool := true
  /-- `RING_r_CQ_HOST`: ENABLE, ADDR (R384). Reset 0. -/
  cqEnable : Bool := false
  cqAddr : BitVec 52 := 0
  /-- Doorbells `SQ_TAIL_r`, `CQ_HEAD_r` (R385). Reset 0. -/
  sqTail : BitVec 12 := 0
  cqHead : BitVec 12 := 0
  /-- Slot contents the host has written, by slot (R383). Reset 0: DESIGN CHOICE, log entry 4. -/
  sq : KV (BitVec 512) := []
  /-- Completion ring entries (R383, R392). Reset 0: DESIGN CHOICE, log entry 4. -/
  cq : KV (BitVec 256) := []
  /-- Completions unsignalled, and since when (R395). Reset 0, none. -/
  unsignalled : Nat := 0
  unsignalledAt : Option Nat := none
  deriving DecidableEq, Repr

/-- An event record (R401) as logged. -/
structure Event where
  code : BitVec 16
  severity : Nat
  unit : BitVec 32
  seq : Nat
  invar : BitVec 64
  items : List (BitVec 64)
  deriving DecidableEq, Repr

/-- The event ring (R384, R402). -/
structure EventRing where
  /-- `EQ_CTL` (R384). Reset RUN 0, VECTOR 0x3F, IRQ_EN 0, COAL_N 1, COAL_US 0. -/
  run : Bool := false
  vector : BitVec 6 := 0x3F
  irqEn : Bool := false
  coalN : BitVec 8 := 1
  coalUs : BitVec 8 := 0
  /-- `RESET` as last written (R8, R384). Reset 0. -/
  resetBit : Bool := false
  /-- `EQ_STATE` TAIL, PHASE (R384). Reset 0, 1. -/
  tail : BitVec 12 := 0
  phase : Bool := true
  /-- `EQ_HOST` (R384). Reset 0. -/
  enable : Bool := false
  addr : BitVec 52 := 0
  /-- `EQ_LOST` (R384). Reset 0. -/
  lost : BitVec 32 := 0
  /-- Doorbell `EQ_HEAD` (R385). Reset 0. -/
  head : BitVec 12 := 0
  /-- First and last SEQ missed while the ring was full (R402). Reset none. -/
  missed : Option (Nat × Nat) := none
  /-- Posted records by index (R383). Reset 0: DESIGN CHOICE, log entry 4. -/
  ring : KV (Event × Bool) := []
  unsignalled : Nat := 0
  unsignalledAt : Option Nat := none
  deriving DecidableEq, Repr

/-- MEMBER_STATUS detail of one ring and tag (R86): members with their outcomes and `CHILD`. -/
structure Detail where
  ring : Nat
  tag : BitVec 16
  members : List (BitVec 32 × Outc × Nat)
  deriving DecidableEq, Repr

/-- Why the device reads host memory (R391). -/
inductive HostUse where
  | planSource (ring : Nat) (tag : BitVec 16) (t : TileRef)
  | parameter (ring : Nat) (tag : BitVec 16)
  | bundle
  deriving DecidableEq, Repr

/-- An outstanding device read of host memory. -/
structure HostRead where
  id : Nat
  addr : BitVec 64
  len : Nat
  use : HostUse
  deriving DecidableEq, Repr

/-- The PCI Express endpoint and host-interface block (R376 to R412). -/
structure HostState where
  /-- `HOST_STATUS.LINK_GEN`, `.LINK_WIDTH`, `.RINGS_OPEN` (R384). Reset 0. -/
  linkGen : BitVec 3 := 0
  linkWidth : BitVec 3 := 0
  ringsOpen : Bool := false
  /-- The link is trained (R412). Reset false. -/
  linkUp : Bool := false
  /-- The function answers configuration requests (R412, R496). Reset false. -/
  configReady : Bool := false
  /-- `PERST_N` is low (R496, R497). Reset true: the system holds it low at power-up (R496). -/
  perst : Bool := true
  /-- BARs assigned, bus mastering, MSI-X enabled (R412). Reset false, R412's reset values. -/
  barsOn : Bool := false
  busMaster : Bool := false
  msixOn : Bool := false
  /-- End of an endpoint reset whose 100 ms have not passed (R412). Reset none. -/
  resetAt : Option Nat := none
  /-- `HOST_VIOL` COUNT, SUSPECT (R384). Reset 0. -/
  viol : BitVec 32 := 0
  suspect : Bool := false
  violWin : ViolWin := {}
  /-- `HOST_SUSPECT` COUNT, WINDOW_MS (R384). Reset 0x10, 0x3E8. -/
  suspectCount : BitVec 8 := 0x10
  suspectMs : BitVec 16 := 0x3E8
  /-- `HOST_FAULTS` (R384). Reset 0. -/
  faults : BitVec 32 := 0
  /-- HOST_ACCESS_FAULT: faults since the last such event and when it was raised (R382). Reset 0. -/
  faultSince : Nat := 0
  faultAt : Option Nat := none
  /-- The first fault since the last HOST_ACCESS_FAULT: status, reason, address space, address (R513). Reset none. -/
  faultFirst : Option (Code × Code × Nat × Nat) := none
  /-- `WIN_w` (R384), as written. Reset 0. -/
  wins : List (Bool × BitVec 35) := List.replicate 8 (false, 0)
  /-- Rings 0–15 (R383). -/
  rings : List Ring := (List.range 16).map fun r => { vector := BitVec.ofNat 6 r }
  /-- The event ring. -/
  eq : EventRing := {}
  /-- Command slots in use (R387): `OUTSTANDING` follows from them. Reset empty. -/
  slots : List CmdSlot := []
  /-- MEMBER_STATUS details (R86). Reset empty. -/
  details : List Detail := []
  /-- Device reads of host memory outstanding (R391). Reset empty. -/
  reads : List HostRead := []
  nextRead : Nat := 0
  /-- Fetching (R387): the ring with which the round goes on, and the time from which the next command may be fetched. Reset 0. -/
  round : Nat := 0
  fetchAt : Nat := 0
  /-- MSI-X table entries the host has written, and pending bits (R383). Reset: nothing written, every vector masked, none
  pending: PRESUMED (PCI Express), log entry 43. -/
  msix : KV (BitVec 128) := []
  pba : BitVec 64 := 0
  deriving DecidableEq, Repr

/-- Events (R401, R402). -/
structure EventState where
  /-- `EQ_SEQ.NEXT` (R384, R402). Reset 0. -/
  next : Nat := 0
  /-- The event log, oldest first, at most 65,536 (R402). Reset empty. -/
  log : List Event := []
  /-- Codes whose action is 1, log only (R399). Reset empty: DESIGN CHOICE (action 0), log entry 4. -/
  logOnly : List (BitVec 16) := []
  /-- Coupled pairs found disagreeing and not yet agreed again: pair key (R408). Reset empty. -/
  coupled : List Nat := []
  deriving DecidableEq, Repr

/-! ### Bring-up, security -/

/-- A running bring-up step's outcome, written by its end (R419). -/
structure StepOut where
  step : Nat
  outc : Outc
  count : Nat
  deriving DecidableEq, Repr

/-- The bring-up window (R417) and power-on state. -/
structure BringUp where
  /-- Input above 44 V and stages started (R437). Reset false. -/
  powered : Bool := false
  /-- Power good: S0 entered, the window is open (R496). Reset false. -/
  s0 : Bool := false
  /-- Power good has been given (R437); S0 waits for REFCLK where it is absent (R496). Reset false. -/
  good : Bool := false
  /-- Brass runs: no fault of R25. Reset true. -/
  brassOk : Bool := true
  /-- REFCLK is valid, and since when (R495). Reset true: R496's order applies it before power (DEDUCED,
  log entry 4). -/
  refOk : Bool := true
  refAt : Nat := 0
  /-- `BU_STATE`: DONE, RUNNING, BUSY, FAILED, READY, REF_LOST, REFUSAL (R417). Reset 0. -/
  done : Nat := 0
  running : Nat := 0
  busy : Bool := false
  failed : Bool := false
  ready : Bool := false
  refLost : Bool := false
  refusal : Code := 0
  /-- Start of the running or last step, and its end: `ELAPSED_US` follows (R417). Reset 0. -/
  startAt : Nat := 0
  endAt : Option Nat := none
  /-- `BU_GO`, `BU_RESET` last values written (R8). Reset 0. -/
  go : BitVec 64 := 0
  resetKey : BitVec 64 := 0
  /-- `BU_PKG` PACKAGE, VALID, LOCKED (R417). Reset 0. -/
  pkg : BitVec 10 := 0
  pkgValid : Bool := false
  pkgLocked : Bool := false
  /-- `BU_FW_ADDR`, `BU_FW_LEN`, `BU_INVAR_SEED` (R417). Reset 0. -/
  fwAddr : BitVec 64 := 0
  fwLen : BitVec 28 := 0
  seed : BitVec 64 := 0
  /-- `BU_RES_s` (R417): status, reason, count, µs. Reset 0. -/
  results : KV (Code × Code × Nat × Nat) := []
  /-- Outcome the running step will end with. -/
  out : Option StepOut := none
  /-- Parts of the bundle that S7 has fetched, in the order of R425. Reset empty. -/
  fetched : List (List (BitVec 8)) := []
  /-- Lane groups out when S10 began (R419). Reset empty. -/
  outBefore : List Nat := []
  /-- `BU_FUSED_s`: tiles fused off, from S3 (R417). Reset empty. -/
  fusedTiles : List TileRef := []
  /-- `BU_TESTED_s`: tiles that failed a start-up test (R417). Reset empty. -/
  testedTiles : List TileRef := []
  /-- The fuse map read at S3; the head-die blocks and Brass's own (R421). Reset empty. -/
  fuses : FuseMap := {}
  /-- A package reset is running (R431). Reset false. -/
  resetting : Bool := false
  deriving DecidableEq, Repr

/-- One image of the running bundle (R424). -/
structure Image where
  kind : Nat
  version : BitVec 32
  offset : Nat
  size : Nat
  digest : BitVec 384
  deriving DecidableEq, Repr

/-- Security and firmware (R428, R432 to R434). -/
structure SecState where
  /-- `SEC_STATUS` SE_RUN, COBALT_RUN, BUNDLE_OK, LAST_REASON, BUNDLE_VERSION (R428). Reset 0. -/
  seRun : Bool := false
  cobaltRun : Bool := false
  bundleOk : Bool := false
  lastReason : Code := 0
  bundleVersion : BitVec 32 := 0
  /-- `SEC_IMAGE_k` and the manifest entries of the running bundle (R428). Reset empty. -/
  images : List Image := []
  /-- The manifest's 16-byte head, and the tile image as Brass keeps it for S8 and UNIT_RESTORE (R424, R425). Reset empty. -/
  head : List (BitVec 8) := []
  tileImage : List (BitVec 8) := []
  /-- The image of the Cornis link controllers, as Brass keeps it for S10 (R425). Reset empty. -/
  cornisImage : List (BitVec 8) := []
  /-- `BU_SVN.FUSED`, `.RUNNING` (R417, R428); FUSED reads zero before S3. Reset 0. -/
  svnFused : Nat := 0
  svnRunning : Nat := 0
  /-- Minimum security version as S7 found it, which measurement 8 shows (R434). Reset 0. -/
  svnMeasured : Nat := 0
  /-- Manifest digest of the running bundle (R434). Reset 0. -/
  manifest : BitVec 384 := 0
  /-- `SEC_SPDM` REQUESTS, ERRORS (R428). Reset 0. -/
  requests : BitVec 32 := 0
  errors : BitVec 32 := 0
  /-- Digest of the SPDM transcript so far, for signed responses (R433). Reset 0. -/
  transcript : List (BitVec 8) := []
  /-- SPDM negotiation reached: 0 none, 1 version, 2 capabilities, 3 algorithms (R433). Reset 0. -/
  negotiated : Nat := 0
  /-- Minimum security version blown by FW_SVN_COMMIT, which survives every reset (R432, R435). Reset 0. -/
  svnBlown : Nat := 0
  /-- `SEC_DEVID.KEY_ID` (R428), from S7. Reset 0. -/
  deviceId : BitVec 64 := 0
  deriving DecidableEq, Repr

/-! ### Power, thermal, facility -/

/-- A power stage (R439, R453). -/
structure PwrStage where
  /-- `STATE`: 0 running, 1 awaiting retry, 2 held off. Reset 0. -/
  state : BitVec 2 := 0
  /-- `CAUSE`. Reset 0. -/
  cause : BitVec 4 := 0
  /-- `OUT_W`, `VOUT`, `IOUT`. Reset 0. -/
  outW : Nat := 0
  vout : Nat := 0
  iout : Nat := 0
  /-- Input report, mV and mA. Reset 0. -/
  vin : Nat := 0
  iin : Nat := 0
  /-- Output power of its reports of the last 100 µs, newest first, W (R453). Reset empty. -/
  outs : List Nat := []
  /-- Time of its first fault (R439). Reset none. -/
  faultAt : Option Nat := none
  deriving DecidableEq, Repr

/-- A job account (R448). -/
structure JobAcct where
  tag : BitVec 16
  steps : Nat
  uj : Nat
  deriving DecidableEq, Repr

/-- `CORE_RAIL_s` (R453). -/
structure Rail where
  /-- `MV` (Firmware), `MIN_MV`, `MAX_MV` (Fuse), `SLACK`, `EXHAUSTED`. Reset 0 (R9 for the fuse values; `MV`: DESIGN CHOICE,
  log entry 4). -/
  mv : Nat := 0
  minMv : Nat := 0
  maxMv : Nat := 0
  slack : Nat := 0
  exhausted : Bool := false
  /-- Readings above 8 % in a row; move waiting for the next tick; last MARGIN_EXHAUSTED (R450). Reset 0. -/
  above : Nat := 0
  move : Int := 0
  exhaustedAt : Option Nat := none
  deriving DecidableEq, Repr

/-- Power (R437 to R456). -/
structure PowerState where
  /-- `PWR_IN` WATTS, VIN, IIN (R453). Reset 0. -/
  watts : Nat := 0
  vin10 : Nat := 0
  iin10 : Nat := 0
  /-- Sum of the twelve input reports, mV: twelve times the input voltage of R437. Reset 0. -/
  vinSum : Nat := 0
  /-- Input-power samples of the last 100 µs, newest first, W (R443). Reset empty. -/
  samples : List Nat := []
  /-- Sum and number of the samples of the 10 ms in progress (R465). Reset 0. -/
  acc : Nat × Nat := (0, 0)
  /-- Voltage band: 0 normal, 1 below 45 V, 2 above 56 V (R437). Reset 0. -/
  band : Nat := 0
  /-- `PWR_CAP.W10` (R453). Reset 0x168. -/
  cap : BitVec 9 := 0x168
  /-- `PWR_CAP.CEILING` (R453). Reset 0x168. -/
  ceiling : Nat := 0x168
  /-- `PWR_LIMIT` PCT, STRETCH, RATIO, US_LIMITED (R453). Reset 0xA, 0, 0, 0. -/
  pct : BitVec 5 := 0xA
  stretch : Nat := 0
  ratio : Nat := 0
  usLimited : BitVec 32 := 0
  /-- Time at or below the cap, µs; time above the limit at full stretch, µs (R443). Reset 0. -/
  underUs : Nat := 0
  overUs : Nat := 0
  /-- Peak average since the last PWR_EXCURSION, µs limited then, and when raised (R443, R456). Reset 0. -/
  peak : Nat := 0
  usAtEvent : BitVec 32 := 0
  excursionAt : Option Nat := none
  /-- The next ratio takes the measured average if higher (R443). Reset false. -/
  useMeasured : Bool := false
  /-- Average power of the last step, W (R443, R466). Reset 0. -/
  lastStepW : Nat := 0
  /-- `FILL_CTL` ENABLE, SLEW, MAX_MW (R453). Reset 1, 0x48, Firmware (R9): 0 before, DESIGN CHOICE,
  log entry 4. -/
  fillEnable : Bool := true
  fillSlew : BitVec 12 := 0x48
  fillMaxMw : Nat := 0
  /-- k_f and last k as 1/2^32 fixed point; `MODEL_RATIO` shows them (R446, R453). Reset 1.0. -/
  kf : Nat := 4294967296
  kLast : Nat := 4294967296
  /-- `ENERGY_IN`, µJ, and the fraction not yet a whole µJ, in 10⁻⁶ µJ (R438). Reset 0. -/
  energyIn : Nat := 0
  energyFrac : Nat := 0
  /-- `ENERGY_RESIDUAL` (R447). Reset 0. -/
  residual : Nat := 0
  /-- Job accounts (R448). Reset empty. -/
  jobs : List JobAcct := []
  /-- Energy of the step in progress already returned by JOB_CLOSE, by tag, µJ (R448). Reset empty. -/
  closed : KV Nat := []
  /-- Step for which JOB_TABLE_FULL was raised (R448). Reset none. -/
  jobFullStep : Option Nat := none
  /-- `ENERGY_IN` at the last tick (R438). Reset 0. -/
  tickEnergy : Nat := 0
  tickAt : Nat := 0
  /-- `PWR_STAGE_p` (R453). -/
  stages : List PwrStage := List.replicate 12 {}
  /-- `CORE_RAIL_s` (R453). -/
  rails : List Rail := List.replicate 24 {}
  deriving DecidableEq, Repr

/-- One diode (R457, R462, R463, R486). -/
structure Diode where
  /-- `TEMP`: the view, 1/16 °C. Reset 0. -/
  temp : Int := 0
  /-- `STATE`, FAILED, ESTIMATED, DISAGREE. Reset 0. -/
  state : DieSt := .normal
  failed : Bool := false
  estimated : Bool := false
  disagree : Bool := false
  /-- Last raw reading and the last readings, newest first (R462, R470, R479). Reset empty. -/
  raw : Int := 0
  recent : List Int := []
  /-- Model powers of the die at those readings, mW, newest first (R463). Reset empty. -/
  powers : List Nat := []
  /-- Consecutive samples at or above shutdown; at or above shutdown + 5; disagreeing; agreeing (R459 to R462). Reset 0. -/
  sdRun : Nat := 0
  hwRun : Nat := 0
  badRun : Nat := 0
  goodRun : Nat := 0
  /-- The die is in warning, whatever other state it is in (R459). Reset false. -/
  warm : Bool := false
  /-- The die has reached shutdown (R474). Reset false. -/
  tripped : Bool := false
  /-- View at the last throttle review (R467). Reset 0. -/
  reviewed : Int := 0
  deriving DecidableEq, Repr

/-- `THRESH_k` (R486). -/
structure Thresh where
  warn : BitVec 8
  warnClr : BitVec 8
  thr : BitVec 8
  thrClr : BitVec 8
  sd : BitVec 8
  rearm : BitVec 8
  deriving DecidableEq, Repr

/-- Temperature and throttling (R457 to R474). -/
structure ThermState where
  /-- `THERM_STATUS` STAGE, DECIDED, HALTED, IMMEDIATE, FRACTION, RATIO, TARGET_W, EST_MS (R486). Reset 0; EST_MS 0xFFFF. -/
  stage : Nat := 0
  decided : Bool := false
  halted : Bool := false
  immediate : Bool := false
  fraction : Nat := 0
  ratio : Nat := 0
  targetW : Nat := 0
  estMs : Nat := 0xFFFF
  /-- `THERM_CFG` GRACE_MS, GAIN, BUDGET_MS, HORIZON_MS (R486). Reset 0x1F4, 0x18, 0xC8, 0x7D0. -/
  graceMs : BitVec 16 := 0x1F4
  gain : BitVec 8 := 0x18
  budgetMs : BitVec 16 := 0xC8
  horizonMs : BitVec 16 := 0x7D0
  /-- `THERM_CAUSE` DIE, CAUSE (R486). Reset 0. -/
  die : Nat := 0
  cause : Nat := 0
  /-- `THRESH_k` (R458, R486). -/
  thresh : List Thresh := [⟨98, 93, 105, 100, 115, 100⟩, ⟨92, 88, 98, 94, 105, 95⟩, ⟨100, 95, 108, 103, 118, 105⟩,
    ⟨110, 105, 120, 115, 130, 115⟩]
  /-- `DIODE_i` (R486). -/
  diodes : KV Diode := []
  /-- Refresh band of each stack layer, 16 s + l (R295). Reset 0. -/
  bands : KV Nat := []
  /-- P_ref, start of the throttle, and its grace deadline, Invar ns (R465). Reset 0. -/
  pRef : Nat := 0
  throttleAt : Nat := 0
  deadline : Nat := 0
  /-- Time of the next review of the throttle (R467). Reset 0. -/
  reviewAt : Nat := 0
  /-- Flow and inlet causes in force (R465). Reset false. -/
  flowCause : Bool := false
  inletCause : Bool := false
  /-- Deadline of the running plan after a decision (R471). Reset 0. -/
  planDeadline : Nat := 0
  /-- An orderly shutdown leaves its twin; has left it, so that the halt follows (R471). Reset false. -/
  leaving : Bool := false
  haltDue : Bool := false
  /-- Coolant flow is lost: G is taken as 0 (R470, R479). Reset false. -/
  flowLost : Bool := false
  /-- `THERMTRIP_N` latches: by the halt, by the hardware path (R498). Reset false. -/
  trip : Bool := false
  tripHw : Bool := false
  /-- Mean input power over the last 1 s and 100 ms: 10 ms means, newest first, W (R465, R466). Reset empty. -/
  means : List Nat := []
  /-- Model power of each head die over the interval between its last two samples, mW, and the time of the last (R445, R462, R470).
  Reset empty. -/
  dieMw : KV Nat := []
  dieAt : KV Nat := []
  deriving DecidableEq, Repr

/-- Facility port and coolant (R475 to R487). -/
structure FacState where
  /-- `FAC_CFG.COOLANT` (R487). Reset 0. -/
  pg25 : Bool := false
  /-- `FAC_STATUS` CTRL active, suspect, PUMP (R487). Reset 0. -/
  active : Bool := false
  suspect : Bool := false
  pump : BitVec 2 := 0
  /-- `FAC_FLOW` REPORTED, ESTIMATED, TREND and their VALID bits (R487). Reset 0. -/
  reported : Nat := 0
  estimated : Nat := 0
  trend : Nat := 0
  repValid : Bool := false
  estValid : Bool := false
  trendValid : Bool := false
  /-- `FAC_TEMP` INLET, OUTLET, REPORTED, 0.01 °C (R487). Reset 0. -/
  inlet : Int := 0
  outlet : Int := 0
  repInlet : Int := 0
  /-- `FAC_LIMIT.W10` (R487). Reset 0x168. -/
  limit : Nat := 0x168
  /-- `FAC_SUSPECT` COUNT, WINDOW_MS (R487). Reset 0x10, 0x3E8. -/
  suspectCount : BitVec 8 := 0x10
  suspectMs : BitVec 16 := 0x3E8
  /-- `FAC_VIOL.COUNT` (R487). Reset 0. -/
  viol : BitVec 32 := 0
  violWin : ViolWin := {}
  /-- `FAC_FRAMES` RX, TX (R487). Reset 0. -/
  rx : BitVec 32 := 0
  tx : BitVec 32 := 0
  /-- Time and Invar time of the last valid frame; time of the last package frame and of the last forecast. Reset none. -/
  rxAt : Option Nat := none
  rxInvar : BitVec 64 := 0
  txAt : Option Nat := none
  forecastAt : Option Nat := none
  /-- Frames that fell due during a reply window (R481). Reset empty. -/
  waiting : List (Nat × List (BitVec 8)) := []
  /-- Flow used at the updates of the last 10 s, newest first, none where neither flow was valid (R477). Reset empty. -/
  flows : List (Option Nat) := []
  /-- Flow estimates of the last 1 s, newest first (R476). Reset empty. -/
  ests : List Nat := []
  /-- Updates in a row at which the two flows disagreed (R476). Reset 0. -/
  disagree : Nat := 0
  /-- FLOW_LOW in force; flow limit and inlet limit in W (R477, R478). Reset false, 3600, 3600. -/
  low : Bool := false
  flowLimit : Nat := 3600
  inletLimit : Nat := 3600
  /-- Inlet band: 0 below 15, 1 normal, 2 derated, 3 above 45, 4 above 50 (R478). Reset 1. -/
  inletBand : Nat := 1
  /-- Last valid frame of each type (R488). Reset empty. -/
  frames : KV (List (BitVec 8)) := []
  /-- Thermal state last seen for ALARM frames: 0 normal, 1 to 5 as the codes of R482, 9 halted (R481). Reset 0. -/
  alarmed : Nat := 0
  deriving DecidableEq, Repr

/-! ### Guests, test port, outputs -/

/-- A guest site (R501 to R511). -/
structure Guest where
  /-- `GST_CTL.RESET` (R511). Reset 1. -/
  reset : Bool := true
  /-- `GST_STATUS` STATE, WIDTH, CAUSE (R511). Reset RESET, 0, 0. -/
  state : GuestSt := .reset
  width : BitVec 5 := 0
  cause : Code := 0
  /-- `GST_CLASS.ALLOW` (R511). Reset 0. -/
  allow : BitVec 6 := 0
  /-- `GST_RATE` (R511). Reset 0x20, 0x20, 0x10. -/
  rdGbps : BitVec 8 := 0x20
  wrGbps : BitVec 8 := 0x20
  cmds : BitVec 8 := 0x10
  /-- `GST_RING` GRANT, RING (R511). Reset 0. -/
  grant : Bool := false
  ring : BitVec 4 := 0
  /-- `GST_POWER` CAP_W, MEAS_W, SD_C (R511). Reset 0x28, 0, 0x69. -/
  capW : BitVec 8 := 0x28
  measW : BitVec 8 := 0
  sdC : BitVec 8 := 0x69
  /-- `GST_SUSPECT` (R511). Reset 0x10, 0x3E8. -/
  suspectCount : BitVec 8 := 0x10
  suspectMs : BitVec 16 := 0x3E8
  /-- `GST_VIOL` COUNT, SUSPECT (R511). Reset 0. -/
  viol : BitVec 32 := 0
  suspect : Bool := false
  violWin : ViolWin := {}
  /-- `GST_WIN_w_BASE`, `GST_WIN_w_LIMIT` (R511). Reset 0. -/
  wins : List (BitVec 64 × BitVec 64) := List.replicate 8 (0, 0)
  /-- Each window as its two registers last agreed (R409, R504). Reset 0. -/
  winsWere : List (BitVec 64 × BitVec 64) := List.replicate 8 (0, 0)
  /-- Byte credits for reads and writes, and command credit in millionths of a command, with the time they were filled (R505). Reset 65536. -/
  rdCredit : Nat := 65536
  wrCredit : Nat := 65536
  cmdCredit : Nat := 0
  creditAt : Nat := 0
  /-- Messages that wait for credit (R505). Reset empty. -/
  waiting : List Msg := []
  /-- Commands waiting to be fetched for the granted ring (R506). Reset empty. -/
  cmdQueue : List (Cmd × BitVec 16) := []
  /-- Last GUEST_TEMP, and when GUEST_THROTTLE was sent (R508). Reset 0, none. -/
  tempAt : Nat := 0
  throttleAt : Option Nat := none
  /-- Limit of training (R507). Reset none. -/
  trainAt : Option Nat := none
  deriving DecidableEq, Repr

/-- The IEEE 1149.1 test access port (R500). -/
inductive TapIr where
  | bypass | idcode | samplePreload | extest
  deriving DecidableEq, Repr

/-- Test access state. -/
structure TapState where
  /-- Current instruction. Reset IDCODE: PRESUMED (IEEE 1149.1), log entry 60. -/
  ir : TapIr := .idcode
  /-- Data register selected by it, as shifted to `TDO` (R500). Reset IDCODE value: PRESUMED, log entry 60. -/
  dr : BitVec 64 := 0x1E2439E7
  /-- Boundary register contents (R500). Reset 0: DESIGN CHOICE, log entry 60. -/
  boundary : BitVec 64 := 0
  /-- EXTEST drives the boundary contacts (R500). Reset false. -/
  driving : Bool := false
  deriving DecidableEq, Repr

/-- What the package sends: each list is in sending order. -/
structure Outputs where
  /-- Cornis messages, with their ports (R323), as their last flits have gone. Reset empty. -/
  cornis : List (Nat × Msg) := []
  /-- Flits sent (R314). Reset empty. -/
  flits : List Flit := []
  /-- Time frames by port (R338). Reset empty. -/
  time : List TimeFrame := []
  /-- Hellos sent to the twin (R349). Reset empty. -/
  hello : List Hello := []
  /-- Unit records sent (R75): destination and record. Reset empty. -/
  records : List (Nat × RemoteRec) := []
  /-- Writes to host memory: bus address and bytes (R394, R391). Reset empty. -/
  host : List (BitVec 64 × List (BitVec 8)) := []
  /-- Host read completions through the aperture: bytes, or none for a failed completion with its kind. Reset empty. -/
  apert : List (Option (List (BitVec 8)) × Bool) := []
  /-- Interrupt vectors sent (R395). Reset empty. -/
  irq : List (BitVec 6) := []
  /-- Facility frames sent (R481). Reset empty. -/
  fac : List (List (BitVec 8)) := []
  /-- Messages to guests (R503): site and message. Reset empty. -/
  guest : List (Nat × Msg) := []
  /-- SPDM and DOE responses (R433). Reset empty. -/
  doe : List (List (BitVec 8)) := []
  deriving DecidableEq, Repr

/-- The whole package. -/
structure State where
  /-- The model's own queue of commands that wait, first in first out. Reset empty. -/
  pending : List Instr := []
  /-- The model's own counter of free values used (opaque functions of Config are applied to it). Reset 0: DESIGN CHOICE,
  log entry 5. -/
  free : Nat := 0
  time : TimeState := {}
  tick : TickState := {}
  units : UnitsState := {}
  /-- The tiles, by 64 s + t; a tile not listed is as a fresh tile (R113). Reset empty. -/
  tiles : KV Tile := []
  /-- Stack memory of the own package by local address: bytes that are not zero (R93, R280). Reset empty: DESIGN CHOICE for
  a byte nothing has written, log entry 3. -/
  mem : List Host.Cell := []
  /-- Messages on the meshes (R515), in sending order. Reset empty. -/
  mesh : List MeshMsg := []
  cornis : CornisState := {}
  twin : TwinState := {}
  host : HostState := {}
  events : EventState := {}
  bu : BringUp := {}
  sec : SecState := {}
  power : PowerState := {}
  therm : ThermState := {}
  fac : FacState := {}
  /-- Guest sites 0 and 1 (R501). -/
  guest0 : Guest := {}
  guest1 : Guest := {}
  tap : TapState := {}
  out : Outputs := {}
  deriving DecidableEq, Repr

/-- The package at power-on, before power is good (R9, R496). -/
def State.reset : State := {}

end Sys2Proof.Machine
end

