-- ==== Sys2Proof/Machine/Codes.lean ====
section
/-! DEFINITION. Sys2Proof/Machine/Codes.lean: the status codes of R396, the reason codes of R397 and of the chapters
it names, and the event codes with their severities (R403, R404 and the chapters' own lists). -/

namespace Sys2Proof.Machine

/-! Status codes (R396). -/

/-- OK (R396). -/
abbrev St.ok : Code := 0x00
/-- PARTIAL (R396). -/
abbrev St.partial : Code := 0x01
/-- REJECTED (R396). -/
abbrev St.rejected : Code := 0x02
/-- CONFIG_MISMATCH (R396). -/
abbrev St.configMismatch : Code := 0x03
/-- POISONED (R396). -/
abbrev St.poisoned : Code := 0x04
/-- TABLE_CHANGED (R396). -/
abbrev St.tableChanged : Code := 0x05
/-- OVERRUN (R396). -/
abbrev St.overrun : Code := 0x06
/-- NOT_READY (R396). -/
abbrev St.notReady : Code := 0x07
/-- PEER_VIOLATION (R396). -/
abbrev St.peerViolation : Code := 0x08
/-- RANGE (R396). -/
abbrev St.range : Code := 0x09
/-- THROTTLED (R396). -/
abbrev St.throttled : Code := 0x0A
/-- ABORTED (R396). -/
abbrev St.aborted : Code := 0x0B

/-! Reason codes. -/

/-- BAD_OPCODE (R397). -/
abbrev Rs.badOpcode : Code := 0x01
/-- BAD_FIELD (R397). -/
abbrev Rs.badField : Code := 0x02
/-- BAD_UNIT (R397). -/
abbrev Rs.badUnit : Code := 0x03
/-- BAD_COUNT (R397). -/
abbrev Rs.badCount : Code := 0x04
/-- TAG_IN_USE (R397). -/
abbrev Rs.tagInUse : Code := 0x05
/-- DEST_SMALL (R397). -/
abbrev Rs.destSmall : Code := 0x06
/-- IN_SERVICE (R397). -/
abbrev Rs.inService : Code := 0x07
/-- NOT_EXACT (R397). -/
abbrev Rs.notExact : Code := 0x08
/-- TEST_FAILED (R397). -/
abbrev Rs.testFailed : Code := 0x09
/-- HOST_ABORT (R397). -/
abbrev Rs.hostAbort : Code := 0x0A
/-- BAD_ACCESS (R397). -/
abbrev Rs.badAccess : Code := 0x0B
/-- BAD_DOORBELL (R397). -/
abbrev Rs.badDoorbell : Code := 0x0C
/-- SLOT_WRITE (R397). -/
abbrev Rs.slotWrite : Code := 0x0D
/-- BAD_PERIOD (R397). -/
abbrev Rs.badPeriod : Code := 0x10
/-- BAD_STEP (R397). -/
abbrev Rs.badStep : Code := 0x11
/-- SCHEDULE_RUNNING (R397). -/
abbrev Rs.scheduleRunning : Code := 0x12
/-- TOO_SOON (R397). -/
abbrev Rs.tooSoon : Code := 0x13
/-- CHANGE_PENDING (R397). -/
abbrev Rs.changePending : Code := 0x14
/-- QUEUE_FULL (R397). -/
abbrev Rs.queueFull : Code := 0x15
/-- STEP_PASSED (R397). -/
abbrev Rs.stepPassed : Code := 0x16
/-- PLAN_EXISTS (R397). -/
abbrev Rs.planExists : Code := 0x17
/-- BAD_ENTRY (R397). -/
abbrev Rs.badEntry : Code := 0x18
/-- PLAN_RUNNING (R397). -/
abbrev Rs.planRunning : Code := 0x19
/-- NO_SCHEDULE (R397). -/
abbrev Rs.noSchedule : Code := 0x1A
/-- NO_PACKAGE (R397). -/
abbrev Rs.noPackage : Code := 0x20
/-- LOCAL_HOLE (R397). -/
abbrev Rs.localHole : Code := 0x21
/-- NO_WRITE (R397). -/
abbrev Rs.noWrite : Code := 0x22
/-- NON_CANONICAL (R397). -/
abbrev Rs.nonCanonical : Code := 0x23
/-- BEYOND_LIMIT (R397). -/
abbrev Rs.beyondLimit : Code := 0x24
/-- NO_CONTEXT (R397). -/
abbrev Rs.noContext : Code := 0x25
/-- BAD_TABLE (R397). -/
abbrev Rs.badTable : Code := 0x26
/-- NOT_MAPPED (R397). -/
abbrev Rs.notMapped : Code := 0x27
/-- NO_READ (R397). -/
abbrev Rs.noRead : Code := 0x28
/-- APPEND_BEHIND (R397). -/
abbrev Rs.appendBehind : Code := 0x29
/-- NOT_COMPUTABLE (R397). -/
abbrev Rs.notComputable : Code := 0x2A
/-- NOT_REMOTE (R397). -/
abbrev Rs.notRemote : Code := 0x2B
/-- GROUP_CYCLE (R397). -/
abbrev Rs.groupCycle : Code := 0x2C
/-- GROUP_OVERLAP (R397). -/
abbrev Rs.groupOverlap : Code := 0x2D
/-- GROUP_IN_USE (R397). -/
abbrev Rs.groupInUse : Code := 0x2E
/-- NO_GROUP (R397). -/
abbrev Rs.noGroup : Code := 0x2F
/-- FUSED_OFF (R397). -/
abbrev Rs.fusedOff : Code := 0x30
/-- UNIT_HALTED (R397). -/
abbrev Rs.unitHalted : Code := 0x31
/-- STACK_OUT (R397). -/
abbrev Rs.stackOut : Code := 0x32
/-- WS_BOUNDS (R397). -/
abbrev Rs.wsBounds : Code := 0x40
/-- ACC_BOUNDS (R397). -/
abbrev Rs.accBounds : Code := 0x41
/-- DEP_FAILED (R397). -/
abbrev Rs.depFailed : Code := 0x42
/-- SHAPE (R397). -/
abbrev Rs.shape : Code := 0x43
/-- WS_SMALL (R397). -/
abbrev Rs.wsSmall : Code := 0x44
/-- FMT_CLAMPED (R397). -/
abbrev Rs.fmtClamped : Code := 0x48
/-- FMT_NAN_ZERO (R397). -/
abbrev Rs.fmtNanZero : Code := 0x49
/-- BAD_STRIDE (R397). -/
abbrev Rs.badStride : Code := 0x50
/-- REMOTE_COMBINE (R397). -/
abbrev Rs.remoteCombine : Code := 0x51
/-- INDEX_RANGE (R397). -/
abbrev Rs.indexRange : Code := 0x52
/-- IDX_ZEROED (R397). -/
abbrev Rs.idxZeroed : Code := 0x53
/-- CHANNEL_HALTED (R397). -/
abbrev Rs.channelHalted : Code := 0x54
/-- KV_HEADER (R397). -/
abbrev Rs.kvHeader : Code := 0x60
/-- BLOCK_TOO_BIG (R397). -/
abbrev Rs.blockTooBig : Code := 0x61
/-- BLOCK_ALIGN (R397). -/
abbrev Rs.blockAlign : Code := 0x62
/-- NO_BLOCK (R397). -/
abbrev Rs.noBlock : Code := 0x63
/-- APPEND_FULL (R397). -/
abbrev Rs.appendFull : Code := 0x64
/-- PLANE_RANGE (R397). -/
abbrev Rs.planeRange : Code := 0x65
/-- HOME_MOVED (R397). -/
abbrev Rs.homeMoved : Code := 0x66
/-- CAND_EXISTS (R397). -/
abbrev Rs.candExists : Code := 0x67
/-- NO_CAND (R397). -/
abbrev Rs.noCand : Code := 0x68
/-- TOO_LONG (R397). -/
abbrev Rs.tooLong : Code := 0x69
/-- TABLE_FULL (R397). -/
abbrev Rs.tableFull : Code := 0x6A
/-- BAD_PARENT (R397). -/
abbrev Rs.badParent : Code := 0x6B
/-- BAD_PATH (R397). -/
abbrev Rs.badPath : Code := 0x6C
/-- NEW_MISMATCH (R397). -/
abbrev Rs.newMismatch : Code := 0x6D
/-- APPEND_MISSING (R397). -/
abbrev Rs.appendMissing : Code := 0x6E
/-- PART_SMALL (R397). -/
abbrev Rs.partSmall : Code := 0x6F
/-- OUT_SMALL (R397). -/
abbrev Rs.outSmall : Code := 0x70
/-- INPUT_FLAGGED (R397). -/
abbrev Rs.inputFlagged : Code := 0x71
/-- EMPTY_ROW (R397). -/
abbrev Rs.emptyRow : Code := 0x72
/-- NOT_LOCAL (R397). -/
abbrev Rs.notLocal : Code := 0x80
/-- TAG_BUSY (R397). -/
abbrev Rs.tagBusy : Code := 0x81
/-- NO_VECTORS (R397). -/
abbrev Rs.noVectors : Code := 0x82
/-- FENCE_EMPTY (R397). -/
abbrev Rs.fenceEmpty : Code := 0x83
/-- REGION_INIT (R397). -/
abbrev Rs.regionInit : Code := 0x88
/-- CHANNEL_OUT (R397). -/
abbrev Rs.channelOut : Code := 0x89
/-- REPAIR_HOLD (R397). -/
abbrev Rs.repairHold : Code := 0x8A
/-- PORT_DOWN (R397). -/
abbrev Rs.portDown : Code := 0x90
/-- TTL_EXPIRED (R397). -/
abbrev Rs.ttlExpired : Code := 0x91
/-- STALLED (R397). -/
abbrev Rs.stalled : Code := 0x92
/-- XLT_DISAGREE (R397). -/
abbrev Rs.xltDisagree : Code := 0x93
/-- NO_RESPONSE (R397). -/
abbrev Rs.noResponse : Code := 0x94
/-- ARR_BUSY (R397). -/
abbrev Rs.arrBusy : Code := 0x95
/-- BAD_CRC (R397). -/
abbrev Rs.badCrc : Code := 0x96
/-- BAD_MESSAGE (R397). -/
abbrev Rs.badMessage : Code := 0x97
/-- SUSPECT (R397). -/
abbrev Rs.suspect : Code := 0x98
/-- PORT_MISMATCH (R397). -/
abbrev Rs.portMismatch : Code := 0x99
/-- TWIN_STALE_GEN (R397). -/
abbrev Rs.twinStaleGen : Code := 0xA0
/-- TWIN_DIVERGED (R397). -/
abbrev Rs.twinDiverged : Code := 0xA1
/-- TWIN_RESYNC (R397). -/
abbrev Rs.twinResync : Code := 0xA2
/-- TWIN_SOLO (R397). -/
abbrev Rs.twinSolo : Code := 0xA3
/-- TWIN_LOST (R397). -/
abbrev Rs.twinLost : Code := 0xA4
/-- BAD_TWIN (R397). -/
abbrev Rs.badTwin : Code := 0xA5
/-- TWIN_MODEL (R397). -/
abbrev Rs.twinModel : Code := 0xA6
/-- TWIN_FIRMWARE (R397). -/
abbrev Rs.twinFirmware : Code := 0xA7
/-- TWIN_ABSENT (R397). -/
abbrev Rs.twinAbsent : Code := 0xA8
/-- NOT_MIRRORED (R397). -/
abbrev Rs.notMirrored : Code := 0xA9
/-- NOT_STALE (R397). -/
abbrev Rs.notStale : Code := 0xAA
/-- NOT_PAIRED (R397). -/
abbrev Rs.notPaired : Code := 0xAB
/-- CAP_RANGE (R455). -/
abbrev Rs.capRange : Code := 0xB0
/-- CAP_CEILING (R455). -/
abbrev Rs.capCeiling : Code := 0xB1
/-- NO_JOB (R455). -/
abbrev Rs.noJob : Code := 0xB2
/-- SHUTDOWN (R488). -/
abbrev Rs.shutdown : Code := 0xC0
/-- NOT_REARMED (R488). -/
abbrev Rs.notRearmed : Code := 0xC1
/-- FAC_BAD_CRC (R488). -/
abbrev Rs.facBadCrc : Code := 0xC2
/-- FAC_BAD_FRAME (R488). -/
abbrev Rs.facBadFrame : Code := 0xC3
/-- FAC_WINDOW (R488). -/
abbrev Rs.facWindow : Code := 0xC4
/-- FAC_RANGE (R488). -/
abbrev Rs.facRange : Code := 0xC5
/-- FAC_ADDRESS (R488). -/
abbrev Rs.facAddress : Code := 0xC6
/-- OUT_OF_ORDER (R436). -/
abbrev Rs.outOfOrder : Code := 0xD0
/-- STEP_BUSY (R436). -/
abbrev Rs.stepBusy : Code := 0xD1
/-- REF_LOCK (R436). -/
abbrev Rs.refLock : Code := 0xD2
/-- FUSE_CHECK (R436). -/
abbrev Rs.fuseCheck : Code := 0xD3
/-- NO_TILES (R436). -/
abbrev Rs.noTiles : Code := 0xD4
/-- BUNDLE_ABORT (R436). -/
abbrev Rs.bundleAbort : Code := 0xD5
/-- FW_FORMAT (R436). -/
abbrev Rs.fwFormat : Code := 0xD6
/-- FW_SIGNATURE (R436). -/
abbrev Rs.fwSignature : Code := 0xD7
/-- FW_ROLLBACK (R436). -/
abbrev Rs.fwRollback : Code := 0xD8
/-- FW_DIGEST (R436). -/
abbrev Rs.fwDigest : Code := 0xD9
/-- NO_PACKAGE_NUM (R436). -/
abbrev Rs.noPackageNum : Code := 0xDA
/-- NOT_LOCKED (R436). -/
abbrev Rs.notLocked : Code := 0xDB
/-- FW_REGION (R436). -/
abbrev Rs.fwRegion : Code := 0xDC
/-- NOT_STARTED (R436). -/
abbrev Rs.notStarted : Code := 0xDD
/-- SVN_LOWER (R436). -/
abbrev Rs.svnLower : Code := 0xDE
/-- GUEST_WINDOW (R512). -/
abbrev Rs.guestWindow : Code := 0xDF
/-- GUEST_CLASS (R512). -/
abbrev Rs.guestClass : Code := 0xE0
/-- GUEST_DENIED (R512). -/
abbrev Rs.guestDenied : Code := 0xE1
/-- GUEST_RESET (R512). -/
abbrev Rs.guestReset : Code := 0xE2
/-- GUEST_POWER (R512). -/
abbrev Rs.guestPower : Code := 0xE3
/-- GUEST_HOT (R512). -/
abbrev Rs.guestHot : Code := 0xE4
/-- GUEST_SILENT (R512). -/
abbrev Rs.guestSilent : Code := 0xE5
/-- GUEST_LINK (R512). -/
abbrev Rs.guestLink : Code := 0xE6

/-! Event codes. -/

/-- UNIT_STATE (R404). -/
abbrev Ev.unitState : BitVec 16 := 0x0101
/-- TILE_TRAP (R149). -/
abbrev Ev.tileTrap : BitVec 16 := 0x0102
/-- RANGE_FAULT (R111). -/
abbrev Ev.rangeFault : BitVec 16 := 0x0201
/-- DMA_HALT (R204). -/
abbrev Ev.dmaHalt : BitVec 16 := 0x0202
/-- MEM_POISONED (R304). -/
abbrev Ev.memPoisoned : BitVec 16 := 0x0203
/-- MEM_CORRECTED_HIGH (R304). -/
abbrev Ev.memCorrectedHigh : BitVec 16 := 0x0204
/-- REFRESH_BAND (R304). -/
abbrev Ev.refreshBand : BitVec 16 := 0x0205
/-- SPARE_SWITCHED (R304). -/
abbrev Ev.spareSwitched : BitVec 16 := 0x0206
/-- CHANNEL_FAILED (R304). -/
abbrev Ev.channelFailed : BitVec 16 := 0x0207
/-- REGION_READY (R304). -/
abbrev Ev.regionReady : BitVec 16 := 0x0208
/-- STEP_REPORT (R50). -/
abbrev Ev.stepReport : BitVec 16 := 0x0301
/-- PLAN_MISSING (R44). -/
abbrev Ev.planMissing : BitVec 16 := 0x0302
/-- PLAN_HUNG (R48). -/
abbrev Ev.planHung : BitVec 16 := 0x0303
/-- LATE_ARRIVAL (R55). -/
abbrev Ev.lateArrival : BitVec 16 := 0x0304
/-- TICK_PERIOD_CHANGED (R52). -/
abbrev Ev.tickPeriodChanged : BitVec 16 := 0x0305
/-- TICK_REALIGNED (R54). -/
abbrev Ev.tickRealigned : BitVec 16 := 0x0306
/-- INVAR_HOLDOVER (R32). -/
abbrev Ev.invarHoldover : BitVec 16 := 0x0307
/-- INVAR_LOCKED (R32). -/
abbrev Ev.invarLocked : BitVec 16 := 0x0308
/-- KV_SPILL (R225). -/
abbrev Ev.kvSpill : BitVec 16 := 0x0401
/-- PORT_UP (R344). -/
abbrev Ev.portUp : BitVec 16 := 0x0501
/-- PORT_DOWN (R344). -/
abbrev Ev.portDown : BitVec 16 := 0x0502
/-- PORT_NARROW (R344). -/
abbrev Ev.portNarrow : BitVec 16 := 0x0503
/-- PORT_MISMATCH (R344). -/
abbrev Ev.portMismatch : BitVec 16 := 0x0504
/-- CNS_FALLBACK (R344). -/
abbrev Ev.cnsFallback : BitVec 16 := 0x0505
/-- CNS_VIOLATION (R344). -/
abbrev Ev.cnsViolation : BitVec 16 := 0x0506
/-- PEER_SUSPECT (R344). -/
abbrev Ev.peerSuspect : BitVec 16 := 0x0507
/-- ROUTE_STALL (R344). -/
abbrev Ev.routeStall : BitVec 16 := 0x0508
/-- ARRIVAL_ABANDONED (R344). -/
abbrev Ev.arrivalAbandoned : BitVec 16 := 0x0509
/-- TWIN_PAIRED (R375). -/
abbrev Ev.twinPaired : BitVec 16 := 0x0601
/-- TWIN_REFUSED (R375). -/
abbrev Ev.twinRefused : BitVec 16 := 0x0602
/-- TWIN_LOST (R375). -/
abbrev Ev.twinLost : BitVec 16 := 0x0603
/-- TWIN_STALE (R375). -/
abbrev Ev.twinStale : BitVec 16 := 0x0604
/-- TWIN_CONFLICT (R375). -/
abbrev Ev.twinConflict : BitVec 16 := 0x0605
/-- TWIN_RESYNC_DONE (R375). -/
abbrev Ev.twinResyncDone : BitVec 16 := 0x0606
/-- TWIN_RESYNC_FAULT (R375). -/
abbrev Ev.twinResyncFault : BitVec 16 := 0x0607
/-- TWIN_TAIL_REPAIRED (R375). -/
abbrev Ev.twinTailRepaired : BitVec 16 := 0x0608
/-- TWIN_DIVERGED (R375). -/
abbrev Ev.twinDiverged : BitVec 16 := 0x0609
/-- TWIN_DETACHED (R375). -/
abbrev Ev.twinDetached : BitVec 16 := 0x060A
/-- THERMAL_SLOW (R489). -/
abbrev Ev.thermalSlow : BitVec 16 := 0x0701
/-- SENSOR_DISAGREE (R489). -/
abbrev Ev.sensorDisagree : BitVec 16 := 0x0702
/-- THERMAL_WARNING (R489). -/
abbrev Ev.thermalWarning : BitVec 16 := 0x0703
/-- THERMAL_ENFORCED (R489). -/
abbrev Ev.thermalEnforced : BitVec 16 := 0x0704
/-- THERMAL_CLEAR (R489). -/
abbrev Ev.thermalClear : BitVec 16 := 0x0705
/-- SENSOR_FAILED (R489). -/
abbrev Ev.sensorFailed : BitVec 16 := 0x0706
/-- THERMAL_SHUTDOWN (R488). -/
abbrev Ev.thermalShutdown : BitVec 16 := 0x0707
/-- FLOW_LOW (R489). -/
abbrev Ev.flowLow : BitVec 16 := 0x0708
/-- FLOW_LOST (R489). -/
abbrev Ev.flowLost : BitVec 16 := 0x0709
/-- FLOW_DISAGREE (R489). -/
abbrev Ev.flowDisagree : BitVec 16 := 0x070A
/-- INLET_TEMP (R489). -/
abbrev Ev.inletTemp : BitVec 16 := 0x070B
/-- PWR_EXCURSION (R456). -/
abbrev Ev.pwrExcursion : BitVec 16 := 0x0710
/-- PWR_STAGE_FAULT (R456). -/
abbrev Ev.pwrStageFault : BitVec 16 := 0x0711
/-- INPUT_VOLTAGE (R456). -/
abbrev Ev.inputVoltage : BitVec 16 := 0x0712
/-- MODEL_RANGE (R456). -/
abbrev Ev.modelRange : BitVec 16 := 0x0713
/-- JOB_TABLE_FULL (R456). -/
abbrev Ev.jobTableFull : BitVec 16 := 0x0714
/-- DROOP_HIGH (R456). -/
abbrev Ev.droopHigh : BitVec 16 := 0x0715
/-- MARGIN_EXHAUSTED (R456). -/
abbrev Ev.marginExhausted : BitVec 16 := 0x0716
/-- CAP_CHANGED (R456). -/
abbrev Ev.capChanged : BitVec 16 := 0x0717
/-- FAC_VIOLATION (R489). -/
abbrev Ev.facViolation : BitVec 16 := 0x0720
/-- FAC_SUSPECT (R489). -/
abbrev Ev.facSuspect : BitVec 16 := 0x0721
/-- FAC_SILENT (R489). -/
abbrev Ev.facSilent : BitVec 16 := 0x0722
/-- FAC_ALARM (R489). -/
abbrev Ev.facAlarm : BitVec 16 := 0x0723
/-- BRINGUP_STEP (R436). -/
abbrev Ev.bringupStep : BitVec 16 := 0x0801
/-- DEVICE_READY (R436). -/
abbrev Ev.deviceReady : BitVec 16 := 0x0802
/-- FW_REJECTED (R436). -/
abbrev Ev.fwRejected : BitVec 16 := 0x0803
/-- SVN_COMMITTED (R436). -/
abbrev Ev.svnCommitted : BitVec 16 := 0x0804
/-- GUEST_UP (R512). -/
abbrev Ev.guestUp : BitVec 16 := 0x0840
/-- GUEST_FAULT (R512). -/
abbrev Ev.guestFault : BitVec 16 := 0x0841
/-- GUEST_VIOLATION (R512). -/
abbrev Ev.guestViolation : BitVec 16 := 0x0842
/-- GUEST_SUSPECT (R512). -/
abbrev Ev.guestSuspect : BitVec 16 := 0x0843
/-- GUEST_MESSAGE (R512). -/
abbrev Ev.guestMessage : BitVec 16 := 0x0844
/-- REFCLK_LOST (R512). -/
abbrev Ev.refclkLost : BitVec 16 := 0x0845
/-- EVENT_OVERFLOW (R404). -/
abbrev Ev.eventOverflow : BitVec 16 := 0x0901
/-- HOST_VIOLATION (R404). -/
abbrev Ev.hostViolation : BitVec 16 := 0x0902
/-- HOST_SUSPECT (R404). -/
abbrev Ev.hostSuspect : BitVec 16 := 0x0903
/-- HOST_RESET (R404). -/
abbrev Ev.hostReset : BitVec 16 := 0x0904
/-- COUPLED_MISMATCH (R404). -/
abbrev Ev.coupledMismatch : BitVec 16 := 0x0905
/-- HOST_ACCESS_FAULT (R404). -/
abbrev Ev.hostAccessFault : BitVec 16 := 0x0906

/-- The event codes with their severities, in code order (R403, R404, R436, R456, R489, R512). -/
def eventTable : List (Nat × Nat) :=
  [(0x0101, 1), (0x0102, 2), (0x0201, 2), (0x0202, 2), (0x0203, 2), (0x0204, 1), (0x0205, 1), (0x0206, 1),
   (0x0207, 2), (0x0208, 0), (0x0301, 0), (0x0302, 1), (0x0303, 2), (0x0304, 1), (0x0305, 0), (0x0306, 1),
   (0x0307, 1), (0x0308, 0), (0x0401, 1), (0x0501, 0), (0x0502, 1), (0x0503, 1), (0x0504, 2), (0x0505, 1),
   (0x0506, 1), (0x0507, 2), (0x0508, 1), (0x0509, 1), (0x0601, 0), (0x0602, 1), (0x0603, 2), (0x0604, 1),
   (0x0605, 2), (0x0606, 0), (0x0607, 1), (0x0608, 1), (0x0609, 2), (0x060A, 0), (0x0701, 1), (0x0702, 1)]
  ++ [(0x0703, 1), (0x0704, 1), (0x0705, 0), (0x0706, 2), (0x0707, 3), (0x0708, 1), (0x0709, 3), (0x070A, 1),
   (0x070B, 1), (0x0710, 1), (0x0711, 2), (0x0712, 1), (0x0713, 1), (0x0714, 1), (0x0715, 1), (0x0716, 2),
   (0x0717, 0), (0x0720, 1), (0x0721, 2), (0x0722, 1), (0x0723, 1), (0x0801, 0), (0x0802, 0), (0x0803, 2),
   (0x0804, 1), (0x0840, 0), (0x0841, 2), (0x0842, 1), (0x0843, 2), (0x0844, 0), (0x0845, 3), (0x0901, 1),
   (0x0902, 1), (0x0903, 2), (0x0904, 1), (0x0905, 1), (0x0906, 1)]

/-- Severity of an event code (R403). -/
def severityOf (code : BitVec 16) : Nat := ((eventTable.find? (fun e => e.1 = code.toNat)).map Prod.snd).getD 0

/-- `STATE` code of a unit (R70). -/
def UnitSt.code : UnitSt → Nat
  | .absent => 0 | .removed => 1 | .starting => 2 | .ready => 3 | .degraded => 4 | .halted => 5 | .unreachable => 6

/-- In service: READY or DEGRADED (R67). -/
def UnitSt.inService : UnitSt → Bool
  | .ready => true
  | .degraded => true
  | .absent => false
  | .removed => false
  | .starting => false
  | .halted => false
  | .unreachable => false

/-- `STATE` code of a pair member (R347). -/
def PairSt.code : PairSt → Nat
  | .unpaired => 0 | .paired => 1 | .solo => 2 | .source => 3 | .stale => 4 | .target => 5 | .detached => 6
  | .conflict => 7

/-- `STATE` code of a guest site (R511). -/
def GuestSt.code : GuestSt → Nat
  | .absent => 0 | .reset => 1 | .training => 2 | .up => 3 | .faulted => 4

/-- `STATE` code of a lane group (R312). -/
def GroupSt.code : GroupSt → Nat
  | .idle => 0 | .training => 1 | .inService => 2 | .out => 3

/-- `STATE` code of a port (R312). -/
def PortSt.code : PortSt → Nat
  | .down => 0 | .training => 1 | .up => 2 | .narrow => 3

/-- `STATE` code of a diode (R486). -/
def DieSt.code : DieSt → Nat
  | .normal => 0 | .warning => 1 | .throttle => 2 | .shutdown => 3

end Sys2Proof.Machine
end

