-- ==== Sys2Proof/Machine/Ops.lean ====
section
/-! DEFINITION. Sys2Proof/Machine/Ops.lean: the shared operations over the state: sparse tables and byte stores, byte
order (R4), unit identifiers (R12 to R14), the clock, tiles and counters, events (R401, R402), unit states (R70, R88),
messages of the meshes, and the end of a Normor command (R391, R392). -/

namespace Sys2Proof.Machine

/-! ### Sparse tables and byte stores -/

/-- The entry of key `n`. -/
def kvFind {α : Type} : KV α → Nat → Option α
  | [], _ => none
  | (k, v) :: r, n => if k = n then some v else kvFind r n

/-- The entry of key `n`, or the table's default. -/
def kvGet {α : Type} (l : KV α) (n : Nat) (d : α) : α := (kvFind l n).getD d

/-- Set the entry of key `n`, keeping the keys in rising order. -/
def kvPut {α : Type} : KV α → Nat → α → KV α
  | [], n, v => [(n, v)]
  | (k, w) :: r, n, v => if n < k then (n, v) :: (k, w) :: r else if n = k then (n, v) :: r else (k, w) :: kvPut r n v

/-- Remove the entry of key `n`. -/
def kvErase {α : Type} (l : KV α) (n : Nat) : KV α := l.filter fun e => e.1 ≠ n

/-- Change the entry of key `n`. -/
def kvMod {α : Type} (l : KV α) (n : Nat) (d : α) (f : α → α) : KV α := kvPut l n (f (kvGet l n d))

/-- Insert into a sorted list, ahead of what is not less. -/
def insertBy {α : Type} (le : α → α → Bool) (a : α) : List α → List α
  | [] => [a]
  | b :: r => if le a b then a :: b :: r else b :: insertBy le a r

/-- Sort a list, equals keeping their order. -/
def sortBy {α : Type} (le : α → α → Bool) : List α → List α
  | [] => []
  | a :: r => insertBy le a (sortBy le r)

/-- Read one byte; an address not listed holds zero (R280). -/
def cellGet : List Host.Cell → Nat → Byte
  | [], _ => 0
  | (k, v) :: r, a => if k = a then v else cellGet r a

/-- Put a byte that is not zero at an address, keeping the addresses in rising order. -/
def cellPut : List Host.Cell → Nat → Byte → List Host.Cell
  | [], a, b => [(a, b)]
  | (k, v) :: r, a, b =>
    if a < k then (a, b) :: (k, v) :: r else if a = k then (a, b) :: r else (k, v) :: cellPut r a b

/-- Write one byte in canonical form: a zero byte leaves the list. -/
def cellSet (m : List Host.Cell) (a : Nat) (b : Byte) : List Host.Cell :=
  if b = 0 then m.filter fun e => e.1 ≠ a else cellPut m a b

/-- Read `n` bytes from an address. -/
def cellRead (m : List Host.Cell) (a n : Nat) : List Byte := (List.range n).map fun i => cellGet m (a + i)

/-- Write bytes from an address on. -/
def cellWrite (m : List Host.Cell) (a : Nat) : List Byte → List Host.Cell
  | [] => m
  | b :: bs => cellWrite (cellSet m a b) (a + 1) bs

/-- Zero the `n` bytes from an address on. -/
def cellZero (m : List Host.Cell) (a n : Nat) : List Host.Cell := m.filter fun e => e.1 < a ∨ a + n ≤ e.1

/-- The canonical form of a byte store: addresses strictly rising, no byte zero. -/
def Memory.wf : List Host.Cell → Bool
  | [] => true
  | [(_, b)] => b ≠ 0
  | (a, b) :: (c, d) :: r => b ≠ 0 && a < c && Memory.wf ((c, d) :: r)

/-! ### Bytes and numbers (R4) -/

/-- The number that bytes spell, least significant first. -/
def natLE : List Byte → Nat
  | [] => 0
  | b :: bs => b.toNat + 256 * natLE bs

/-- The low `n` bytes of a number, least significant first. -/
def bytesLE : Nat → Nat → List Byte
  | 0, _ => []
  | n + 1, v => BitVec.ofNat 8 v :: bytesLE n (v / 256)

/-- A number as a 64-bit item or parameter. -/
def w64 (n : Nat) : Word := BitVec.ofNat 64 n

/-- A signed number as a 64-bit item. -/
def i64 (n : Int) : Word := BitVec.ofInt 64 n

/-- A number read as a signed field of `w` bits. -/
def signedOf (w n : Nat) : Int := if 2 * (n % 2 ^ w) < 2 ^ w then (n % 2 ^ w : Nat) else (n % 2 ^ w : Nat) - (2 ^ w : Nat)

/-- Bytes padded with zeros, or cut, to `n`. -/
def padTo (n : Nat) (l : List Byte) : List Byte := (l ++ List.replicate (n - l.length) 0).take n

/-- The number of set bits below bit `n`. -/
def popCount (n v : Nat) : Nat := ((List.range n).filter fun i => v.testBit i).length

/-- The value with the bits listed set. -/
def bitsOn (l : List Nat) : Nat := l.foldl (fun a i => a ||| 1 <<< i) 0

/-- Round up to a quotient. -/
def ceilDiv (a b : Nat) : Nat := (a + b - 1) / b

/-- One bit of CRC-32C, reflected polynomial 0x82F63B78. -/
def crc32cBit (c : Nat) : Nat := if c % 2 = 1 then (c / 2) ^^^ 0x82F63B78 else c / 2

/-- CRC-32C of bytes (R318), as Castagnoli defines it. -/
def crc32c (l : List Byte) : Nat :=
  (l.foldl (fun c b => crc32cBit (crc32cBit (crc32cBit (crc32cBit (crc32cBit (crc32cBit (crc32cBit (crc32cBit
    (c ^^^ b.toNat))))))))) 0xFFFFFFFF) ^^^ 0xFFFFFFFF

/-! ### Unit identifiers (R12 to R15) -/

/-- Level of an identifier. -/
def unitLevel (u : BitVec 32) : Nat := bitsOf u 31 29

/-- Package an identifier of level 1, 2, 3 or 7 names. -/
def unitPkg (u : BitVec 32) : Nat := 2 * bitsOf u 28 20 + bitsOf u 19 19

/-- Pair of an identifier. -/
def unitPair (u : BitVec 32) : Nat := bitsOf u 28 20

/-- Stack of an identifier. -/
def unitStack (u : BitVec 32) : Nat := bitsOf u 18 14

/-- Tile of an identifier within its stack. -/
def unitTileNo (u : BitVec 32) : Nat := bitsOf u 13 8

/-- Group index of an identifier (R14). -/
def unitGroup (u : BitVec 32) : Nat := bitsOf u 11 0

/-- Tile by 64 s + t of an identifier. -/
def unitTileRef (u : BitVec 32) : TileRef := 64 * unitStack u + unitTileNo u

/-- Identifier of package `p`. -/
def pkgUnit (p : Nat) : BitVec 32 := BitVec.ofNat 32 (3 * 2 ^ 29 + (p / 2) * 2 ^ 20 + (p % 2) * 2 ^ 19)

/-- Identifier of pair `k`. -/
def pairUnit (k : Nat) : BitVec 32 := BitVec.ofNat 32 (4 * 2 ^ 29 + k * 2 ^ 20)

/-- Identifier of the domain. -/
def domainUnit : BitVec 32 := BitVec.ofNat 32 (5 * 2 ^ 29)

/-- Identifier of stack `st` of package `p`. -/
def stackUnit (p st : Nat) : BitVec 32 :=
  BitVec.ofNat 32 (2 * 2 ^ 29 + (p / 2) * 2 ^ 20 + (p % 2) * 2 ^ 19 + st * 2 ^ 14)

/-- Identifier of tile `t` (64 s + t) of package `p`. -/
def tileUnit (p : Nat) (t : TileRef) : BitVec 32 :=
  BitVec.ofNat 32 (2 ^ 29 + (p / 2) * 2 ^ 20 + (p % 2) * 2 ^ 19 + (t / 64) * 2 ^ 14 + (t % 64) * 2 ^ 8)

/-- Identifier of group `g` of package `p` (R14). -/
def groupUnit (p g : Nat) : BitVec 32 :=
  BitVec.ofNat 32 (7 * 2 ^ 29 + (p / 2) * 2 ^ 20 + (p % 2) * 2 ^ 19 + g)

/-- An identifier of R12 that R15 does not reject. -/
def unitValid (u : BitVec 32) : Bool :=
  match unitLevel u with
  | 1 => unitStack u < 24 && bitsOf u 7 0 = 0
  | 2 => unitStack u < 24 && bitsOf u 13 0 = 0
  | 3 => bitsOf u 18 0 = 0
  | 4 => bitsOf u 19 0 = 0
  | 5 => bitsOf u 28 0 = 0
  | 7 => bitsOf u 18 12 = 0
  | _ => false

/-! ### The clock (R6, R28) -/

/-- A duration in ns, in the clock's units of 1/7 ns. -/
def ns (n : Nat) : Nat := 7 * n

/-- A duration in µs, in the clock's units. -/
def us (n : Nat) : Nat := 7000 * n

/-- A duration in ms, in the clock's units. -/
def ms (n : Nat) : Nat := 7000000 * n

/-- A duration in core cycles, in the clock's units (R6). -/
def cc (n : Nat) : Nat := 10 * n

/-- Millionths of a ns that the Invar count gains in a whole ns, at a rate adjustment in ppm (R28). -/
def invarRate (ppm : Int) : Nat := ((1000000 : Int) + ppm).toNat

/-- Bring the clock forward to a time; a time already past changes nothing. The count takes whole ns, and what is left below one is
carried on (R28). -/
def State.advanceTo (s : State) (u : Nat) : State :=
  if s.time.now < u then
    let n := (u / 7 - s.time.now / 7) * invarRate s.time.ratePpm + s.time.invarRest
    { s with time := { s.time with now := u, invar := s.time.invar + w64 (n / 1000000), invarRest := n % 1000000 } }
  else s

/-- Bring the clock forward until the Invar count has reached a value (R36). -/
def State.advanceInvar (s : State) (target : Nat) : State :=
  if s.time.invar.toNat < target then
    let need := (target - s.time.invar.toNat) * 1000000
    let rate := invarRate s.time.ratePpm
    let d := ceilDiv (need - s.time.invarRest) (max 1 rate)
    { s with time := { s.time with
        now := max s.time.now (7 * (s.time.now / 7 + d)), invar := w64 target, invarRest := s.time.invarRest + d * rate - need } }
  else s

/-- Brass runs: power is up and no fault of R25 has stopped it. -/
def State.brassRuns (s : State) : Bool := s.bu.powered && s.bu.brassOk

/-- Nothing is commanded: while the reference clock runs, and Brass with it (R25), one core cycle passes (R6). -/
def State.idle (s : State) : State := if s.brassRuns && s.bu.refOk then s.advanceTo (s.time.now + cc 1) else s

/-- Elapsed whole µs between two times. -/
def usBetween (a b : Nat) : Nat := (b - a) / 7000

/-! ### Tiles -/

/-- A tile number of R11, 64 s + t. -/
def tileOk (t : TileRef) : Bool := t < 1536

/-- The tile. -/
def State.tile (s : State) (t : TileRef) : Tile := kvGet s.tiles t {}

/-- Replace the tile. -/
def State.setTile (s : State) (t : TileRef) (x : Tile) : State := { s with tiles := kvPut s.tiles t x }

/-- Change the tile. -/
def State.modTile (s : State) (t : TileRef) (f : Tile → Tile) : State := s.setTile t (f (s.tile t))

/-- Count `n` more in counter `k` of R72 of a tile. -/
def Tile.count (x : Tile) (k n : Nat) : Tile := { x with counters := kvMod x.counters k 0 (· + w64 n) }

/-- Count `n` more in activity counter `k` of R444 of a tile. -/
def Tile.act (x : Tile) (k n : Nat) : Tile := { x with activity := kvMod x.activity k 0 (· + w64 n) }

/-- The descriptor slot of a tile. -/
def Tile.slot (x : Tile) (i : Nat) : Option DescSlot := kvFind x.slots i

/-- Replace a descriptor slot. -/
def Tile.setSlot (x : Tile) (i : Nat) (d : DescSlot) : Tile := { x with slots := kvPut x.slots i d }

/-! ### The tiles' core clocks (R6, R443, R449) -/

/-- Length of a tile's core-clock period, in sixteenths of its length at full frequency: the limiter's stretch lengthens it (R443), and
a droop doubles it (R449). -/
def State.slow (s : State) (x : Tile) : Nat := (16 + s.power.stretch) * (if x.droopSince.isSome then 2 else 1)

/-- Core time of a tile now: 10 units for each edge of its core clock. -/
def State.coreNow (s : State) (x : Tile) : Nat := x.core + (s.time.now - x.coreAt) * 16 / s.slow x

/-- Time at which a tile's core clock reaches a core time; now, when it has. -/
def State.coreWall (s : State) (x : Tile) (c : Nat) : Nat := s.time.now + ceilDiv ((c - s.coreNow x) * s.slow x) 16

/-- The time of a core cycle of a tile, to come or past. -/
def State.wallAt (s : State) (x : Tile) (c : Nat) : Nat :=
  let n := s.coreNow x
  if n ≤ c then s.coreWall x c else s.time.now - (n - c) * s.slow x / 16

/-- Note work of an engine for a job, or of none for fill, with what the activity counters have risen by (R447). -/
def Tile.note (x : Tile) (job : Option (BitVec 16)) (queue start stop : Nat) : Tile :=
  let act := x.activity.filterMap fun e =>
    let d := e.2 - kvGet x.spanMark e.1 0
    if d = 0 then none else some (e.1, d)
  { x with spans := x.spans ++ [{ job := job, queue := queue, start := start, stop := stop, act := act }], spanMark := x.activity }

/-- Bring the clock forward until a tile's core clock has reached a core time. -/
def State.advanceCore (s : State) (t : TileRef) (c : Nat) : State := s.advanceTo (s.coreWall (s.tile t) c)

/-- Edges of a tile's core clock since its core time was last taken, where its period is stretched (R443, R449): a cycle that the
limiter and a droop both stretch is one stretched cycle. -/
def State.stretched (s : State) (x : Tile) : Nat :=
  if s.slow x = 16 || !x.unit.inService then 0 else s.coreNow x / 10 - x.core / 10

/-- The tile with its core time taken anew, ahead of a change of its period; activity counter 23 takes the stretched cycles of the
old one (R444). -/
def State.rebase (s : State) (x : Tile) : Tile :=
  let n := s.stretched x
  { (if n = 0 then x else x.act 23 n) with core := s.coreNow x, coreAt := s.time.now }

/-- Own package number (R309, `CNS_SELF`). -/
def State.self (s : State) : Nat := s.cornis.self

/-- Package of a global address (R92). -/
def pkgOf (g : Nat) : Nat := g / 2 ^ 46 % 1024

/-- Local part of a global address. -/
def localOf (g : Nat) : Nat := g % 2 ^ 46

/-- Unit identifier of an own tile. -/
def State.tileId (s : State) (t : TileRef) : BitVec 32 := tileUnit s.self t

/-! ### Whether the package runs -/

/-- The dies other than Brass run: the core clocks run (R495) and power is good (R496). -/
def State.clocksRun (s : State) : Bool := s.brassRuns && s.bu.s0 && s.bu.refOk && !s.bu.refLost

/-- A tile in service (R67). -/
def State.tileUp (s : State) (t : TileRef) : Bool := tileOk t && s.clocksRun && (s.tile t).unit.inService

/-- Bring-up has completed S13 and the package serves commands (R415, R430). -/
def State.ready (s : State) : Bool := s.bu.ready

/-! ### Events (R401, R402) -/

/-- The event ring is full: one more record would meet the head (R394, R402). -/
def EventRing.full (q : EventRing) : Bool := q.tail + 1 = q.head

/-- The 128 bytes of an event record (R401). -/
def eventBytes (e : Event) (phase : Bool) : List Byte :=
  padTo 128 (bytesLE 2 e.code.toNat ++ bytesLE 1 (e.severity + if phase then 4 else 0) ++ bytesLE 1 e.items.length
    ++ bytesLE 4 e.unit.toNat ++ bytesLE 8 e.seq ++ bytesLE 8 e.invar.toNat ++ bytesLE 8 0
    ++ (e.items.take 12).flatMap fun w => bytesLE 8 w.toNat)

/-- The device can master the host bus (R412). -/
def State.hostReach (s : State) : Bool := s.host.linkUp && s.host.busMaster

/-- MSI-X entry of a vector; its mask bit is set until the host clears it (PCI Express). -/
def State.msixEntry (s : State) (v : Nat) : BitVec 128 := kvGet s.host.msix v (BitVec.ofNat 128 (2 ^ 96))

/-- Send an interrupt vector, or leave it pending while masked (R395). -/
def State.interrupt (s : State) (v : BitVec 6) : State :=
  if !s.host.msixOn then s
  else if bitAt (s.msixEntry v.toNat) 96 then { s with host := { s.host with pba := s.host.pba ||| w64 (1 <<< v.toNat) } }
  else { s with out := { s.out with irq := s.out.irq ++ [v] } }

/-- Enter an event in the log with the next `SEQ`, keeping the newest 65,536 (R402). -/
def State.logEvent (s : State) (e : Event) : State :=
  let log := s.events.log ++ [e]
  { s with events := { s.events with next := (s.events.next + 1) % 2 ^ 64, log := log.drop (log.length - 65536) } }

/-- The record an event makes (R401). -/
def State.event (s : State) (code : BitVec 16) (unit : BitVec 32) (items : List Word) : Event :=
  { code, severity := severityOf code, unit, seq := s.events.next, invar := s.time.invar, items }

/-- Put an event's record in the event ring, which is not full (R402). -/
def State.postEvent (s : State) (e : Event) : State :=
  let q := s.host.eq
  let t' := q.tail + 1
  let un := q.unsignalled + 1
  let fire := q.irqEn && (max 1 q.coalN.toNat ≤ un)
  let q' := { q with
    ring := kvPut q.ring q.tail.toNat (e, q.phase), tail := t', phase := if t' = 0 then !q.phase else q.phase,
    unsignalled := if fire then 0 else un,
    unsignalledAt := if fire then none else some (q.unsignalledAt.getD s.time.now) }
  let image := q.enable && s.hostReach
  let s := { s with host := { s.host with eq := q' } }
  let s := if image then { s with out := { s.out with
      host := s.out.host ++ [(BitVec.ofNat 64 (q.addr.toNat * 4096 + 128 * q.tail.toNat), eventBytes e q.phase)] } } else s
  if fire then s.interrupt q'.vector else s

/-- An event of a code goes to the event ring as well as the log: `RUN` is 1, its action is 0 (R402), and S13 has been reached
(R436). -/
def State.rings (s : State) (code : BitVec 16) : Bool :=
  s.host.eq.run && s.host.ringsOpen && !s.events.logOnly.contains code

/-- Raise EVENT_OVERFLOW when records were missed and the ring has space again; it is posted first, unless its own action keeps it to the
log (R402). -/
def State.postOverflow (s : State) : State :=
  match s.host.eq.missed with
  | none => s
  | some (a, b) =>
    if s.host.eq.run && !s.host.eq.full then
      let e := s.event Ev.eventOverflow (pkgUnit s.self) [w64 a, w64 b]
      let s := s.logEvent e
      let s : State := { s with host := { s.host with eq := { s.host.eq with missed := none } } }
      if s.rings Ev.eventOverflow then s.postEvent e else s
    else s

/-- Raise an event in a state whose event image is reachable or off. -/
def State.raise0 (s : State) (code : BitVec 16) (unit : BitVec 32) (items : List Word) : State :=
  let s := s.postOverflow
  let e := s.event code unit items
  let s := s.logEvent e
  if !s.rings code then s
  else if s.host.eq.full then
    { s with host := { s.host with eq := { s.host.eq with
        lost := s.host.eq.lost + 1
        missed := some ((s.host.eq.missed.map Prod.fst).getD e.seq, e.seq) } } }
  else s.postEvent e

/-- Count a fault of R382, R391 or R394 and raise HOST_ACCESS_FAULT at most once per second, with the first fault since the
last such event (R513). -/
def State.hostFault (s : State) (status reason : Code) (space : Nat) (addr : Nat) : State :=
  let since := s.host.faultSince + 1
  let f := s.host.faultFirst.getD (status, reason, space, addr)
  let s := { s with host := { s.host with faults := s.host.faults + 1, faultSince := since, faultFirst := some f } }
  let due := match s.host.faultAt with
    | none => true
    | some a => a + ms 1000 ≤ s.time.now
  if due then
    let s := s.raise0 Ev.hostAccessFault (pkgUnit s.self) [w64 f.1.toNat, w64 f.2.1.toNat, w64 f.2.2.1, w64 f.2.2.2, w64 since]
    { s with host := { s.host with faultSince := 0, faultAt := some s.time.now, faultFirst := none } }
  else s

/-- Raise an event (R402). An event image that cannot be written is disabled, and the failure is counted (R394). -/
def State.raise (s : State) (code : BitVec 16) (unit : BitVec 32) (items : List Word) : State :=
  if s.host.eq.enable && !s.hostReach && s.rings code && !s.host.eq.full then
    let a := s.host.eq.addr.toNat * 4096 + 128 * s.host.eq.tail.toNat
    let s := { s with host := { s.host with eq := { s.host.eq with enable := false } } }
    (s.raise0 code unit items).hostFault St.range Rs.hostAbort 2 a
  else s.raise0 code unit items

/-- Raise an event whose unit is the package. -/
def State.raiseP (s : State) (code : BitVec 16) (items : List Word) : State := s.raise code (pkgUnit s.self) items

/-- A rate limit of one event per `gap`: due when never raised or `gap` ago. -/
def dueAfter (last : Option Nat) (now gap : Nat) : Bool :=
  match last with
  | none => true
  | some a => a + gap ≤ now

/-! ### Violation windows (R341, R411, R485, R510) -/

/-- Record a violation at a time; a window of 0 ms acts as 1. -/
def ViolWin.add (v : ViolWin) (now winMs : Nat) : ViolWin :=
  { v with times := now :: v.times.filter (fun a => now < a + ms (max 1 winMs)), since := v.since + 1 }

/-- The violations in the window have reached the count; 0 disables marking. -/
def ViolWin.reached (v : ViolWin) (count : Nat) : Bool := count ≠ 0 && count ≤ v.times.length

/-! ### Coupled pairs (R408, R513) -/

/-- The next disagreement of a coupled pair raises its event again: the pair agrees, after a write of one half or at a use. -/
def State.forgetPair (s : State) (key : Nat) : State :=
  { s with events := { s.events with coupled := s.events.coupled.filter (· ≠ key) } }

/-- A half of a coupled pair was written (R408). -/
def State.pairWritten (s : State) (key : Nat) (agree : Bool) : State := if agree then s.forgetPair key else s

/-- The pace pair agrees (R60, R409). -/
def TickState.paceAgrees (k : TickState) : Bool := k.paceRatio = 0 || k.pacePeriod = k.sched.periodUs

/-- The first use that finds a coupled pair disagreeing raises COUPLED_MISMATCH; a use that finds it agreed lets the next
disagreement raise it again. `key` numbers the pair. -/
def State.coupledUse (s : State) (key : Nat) (agree : Bool) (a b : Nat) (unit : BitVec 32) : State :=
  if agree then s.forgetPair key
  else if s.events.coupled.contains key then s
  else ({ s with events := { s.events with coupled := key :: s.events.coupled } } : State).raise Ev.coupledMismatch unit
    [w64 a, w64 b, w64 unit.toNat]

/-! ### Unit states (R69, R70, R88, R404) -/

/-- State of a stack; STARTING until S6. -/
def State.stackState (s : State) (st : Nat) : UnitSt := (kvGet s.units.stackSt st (.starting, 0)).1

/-- A stack whose head die is in service (R89). -/
def State.stackUp (s : State) (st : Nat) : Bool := st < 24 && (s.stackState st).inService

/-- Record slot of a tile, stack or package (R95). -/
def recSlotTile (t : TileRef) : Nat := 64 + t

/-- One more change in the records named by their slots (R69). -/
def State.bump (s : State) (slots : List Nat) : State :=
  { s with units := { s.units with changeCounts := slots.foldl (fun l k => kvMod l k 0 (· + 1)) s.units.changeCounts } }

/-- Members of a group, as listed. -/
def State.groupMembers (s : State) (g : Nat) : List (BitVec 32) := kvGet s.units.groups g []

/-- The list of a group: an own one's, or another package's as its last records show it (R75, R80). -/
def State.groupList (s : State) (u : BitVec 32) : List (BitVec 32) :=
  if unitPkg u = s.self then s.groupMembers (unitGroup u)
  else match kvFind s.units.remote (unitPkg u) with
    | some r => kvGet r.groups (unitGroup u) []
    | none => []

/-- Nesting bound of groups. -/
def State.depth (s : State) : Nat := s.units.groups.length + (s.units.remote.map fun e => e.2.groups.length).sum + 4

/-- A unit holds a unit that `hit` picks, at some level of its lists, to the depth given. -/
def State.holdsUnit (s : State) (hit : BitVec 32 → Bool) : Nat → BitVec 32 → Bool
  | 0, _ => false
  | d + 1, u => hit u || (unitLevel u = 7 && (s.groupList u).any (s.holdsUnit hit d))

/-- A unit that is no group covers an own tile. -/
def State.covers (s : State) (t : TileRef) (u : BitVec 32) : Bool :=
  match unitLevel u with
  | 1 => unitPkg u = s.self && unitTileRef u = t
  | 2 => unitPkg u = s.self && unitStack u = t / 64
  | 3 => unitPkg u = s.self
  | 4 => unitPair u = s.self / 2
  | 5 => true
  | _ => false

/-- A unit that is no group has something of a package. -/
def unitHas (p : Nat) (u : BitVec 32) : Bool :=
  match unitLevel u with
  | 4 => unitPair u = p / 2
  | 5 => true
  | 7 => false
  | _ => unitPkg u = p

/-- The last record of another package, with its state as R70 shows it. -/
def State.remoteRec (s : State) (p : Nat) : RemoteRec :=
  match kvFind s.units.remote p with
  | none => { package := p, state := 6 }
  | some r => if s.units.silent.contains p then { r with state := 6 } else r

/-- A package belongs to the domain seen from here: itself, its twin, or a routing entry that is not empty (R321). -/
def State.inDomain (s : State) (p : Nat) : Bool :=
  p = s.self || p = s.self ^^^ 1 || kvGet s.cornis.routes p 0 ≠ 0

/-- Pairs present in the domain, ascending (R66). -/
def State.domainPairs (s : State) : List Nat := (List.range 512).filter fun k => s.inDomain (2 * k) || s.inDomain (2 * k + 1)

/-- The state that a code of R70 names. -/
def unitStOf (n : BitVec 8) : UnitSt :=
  match n.toNat with
  | 0 => .absent | 1 => .removed | 2 => .starting | 3 => .ready | 4 => .degraded | 5 => .halted | _ => .unreachable

/-- State of a tile of another package, by its last records (R67, R75). -/
def State.remoteTile (s : State) (p : Nat) (t : TileRef) : UnitSt :=
  let r := s.remoteRec p
  if r.state = 6 then .unreachable else unitStOf (kvGet r.tileRecs t (2, [])).1

/-- State of a stack of another package, by its last records. -/
def State.remoteStack (s : State) (p st : Nat) : UnitSt :=
  let r := s.remoteRec p
  if r.state = 6 then .unreachable else unitStOf ((r.stackRecs[st]?).getD (6, 0)).1

/-- Members of a unit in member-list order (R66); a group of another package lists what its owner's last records show (R75). -/
def State.members (s : State) (u : BitVec 32) : List (BitVec 32) :=
  match unitLevel u with
  | 2 => (List.range 64).map fun t => tileUnit (unitPkg u) (64 * unitStack u + t)
  | 3 => (List.range 24).map fun st => stackUnit (unitPkg u) st
  | 4 => [pkgUnit (2 * unitPair u), pkgUnit (2 * unitPair u + 1)]
  | 5 => s.domainPairs.map pairUnit
  | 7 => s.groupList u
  | _ => []

/-- `STATE` of any unit (R70, R75, R80). -/
def State.stateAt (s : State) : Nat → BitVec 32 → UnitSt
  | 0, _ => .removed
  | d + 1, u =>
    let own := unitPkg u = s.self
    match unitLevel u with
    | 1 => if own then (s.tile (unitTileRef u)).unit else s.remoteTile (unitPkg u) (unitTileRef u)
    | 2 => if own then s.stackState (unitStack u) else s.remoteStack (unitPkg u) (unitStack u)
    | 3 => if own then s.units.package else unitStOf (s.remoteRec (unitPkg u)).state
    | _ =>
      let l := (s.members u).map (s.stateAt d)
      if unitLevel u = 7 && !own && (s.remoteRec (unitPkg u)).state = 6 then .unreachable
      else if !l.isEmpty && l.all (· = .ready) then .ready else if l.any UnitSt.inService then .degraded else .removed

/-- Record slots of the own groups that hold a unit that `hit` picks. -/
def State.groupSlots (s : State) (hit : BitVec 32 → Bool) : List Nat :=
  (s.units.groups.filter fun g => s.holdsUnit hit s.depth (groupUnit s.self g.1)).map fun g => 2048 + g.1

/-- Records that change with a tile's resources: its own, its stack's, the package's, the pair's, the domain's. -/
def State.slotsOfTile (s : State) (t : TileRef) : List Nat := [recSlotTile t, 16 + t / 64, 0, 1, 2] ++ s.groupSlots (s.covers t)

/-- A change of capacity or out list under a tile (R69). -/
def State.bumpTile (s : State) (t : TileRef) : State := s.bump (s.slotsOfTile t)

/-- Records that change with a stack or a package resource. -/
def State.bumpStack (s : State) (st : Nat) : State := s.bump ([16 + st, 0, 1, 2] ++ s.groupSlots fun u => unitLevel u ≠ 1 && s.covers (64 * st) u)

/-- The records that change when a stack leaves or enters service: with its own and those above, its tiles' and those of groups that hold
any of them, for their memory counts with the stack (R69, R71). -/
def State.bumpUnder (s : State) (st : Nat) : State :=
  s.bump (((List.range 64).map fun i => recSlotTile (64 * st + i)) ++ [16 + st, 0, 1, 2] ++ s.groupSlots fun u =>
    if unitLevel u = 1 then unitPkg u = s.self && unitStack u = st else s.covers (64 * st) u)

/-- A change of the package's own resources. -/
def State.bumpPkg (s : State) : State := s.bump ([0, 1, 2] ++ s.groupSlots fun u => 3 ≤ unitLevel u && unitHas s.self u)

/-- A change in what another package's last record shows: the pair's record, the domain's, and those of groups that reach it (R69,
R75). -/
def State.bumpRemote (s : State) (p : Nat) : State :=
  s.bump ((if p / 2 = s.self / 2 then [1] else []) ++ 2 :: s.groupSlots (unitHas p))

/-- Items of UNIT_STATE (R404). -/
def unitStateItems (u : BitVec 32) (old new : UnitSt) (cause : Nat) : List Word :=
  [w64 u.toNat, w64 old.code, w64 new.code, w64 cause]

/-- UNIT_STATE for the units of a list whose `STATE` follows from their members' (R70, R80), where a change has changed it (R404). -/
def State.noteStates (s old : State) (l : List (BitVec 32)) (cause : Nat) : State :=
  l.foldl (fun (q : State) u =>
    let a := old.stateAt old.depth u
    let b := s.stateAt s.depth u
    if a = b then q else q.raise Ev.unitState u (unitStateItems u a b cause)) s

/-- The groups that a package had before and has after a change. -/
def State.groupUnits (s old : State) : List (BitVec 32) :=
  (s.units.groups.filter fun g => (kvFind old.units.groups g.1).isSome).map fun g => groupUnit s.self g.1

/-- The same for the own groups, and for the pair and the domain, whose `STATE` follows from packages' alone. -/
def State.noteGroups (s old : State) (cause : Nat) : State := s.noteStates old (s.groupUnits old) cause

/-- The pair, the domain and the groups. -/
def State.noteAbove (s old : State) (cause : Nat) : State :=
  s.noteStates old ([pairUnit (s.self / 2), domainUnit] ++ s.groupUnits old) cause

/-- The same after what is known of another package has changed: the package itself where it became or is no longer UNREACHABLE, which
only this package sees (R70), and the units above it. -/
def State.notePackage (s old : State) (p : Nat) : State :=
  (if s.units.silent.contains p = old.units.silent.contains p then s else s.noteStates old [pkgUnit p] 0).noteAbove old 0

/-- Change a tile's `STATE`: the event comes before the change (R404). -/
def State.tileState (s : State) (t : TileRef) (new : UnitSt) (cause : Nat) : State :=
  let x := s.tile t
  if x.unit = new then (if x.cause = cause then s else (s.setTile t { x with cause }).bumpTile t)
  else
    let s := s.raise Ev.unitState (s.tileId t) (unitStateItems (s.tileId t) x.unit new cause)
    ((s.modTile t fun x => { x with unit := new, cause := cause }).bumpTile t).noteGroups s cause

/-- Change a stack's `STATE` (R404). -/
def State.setStackState (s : State) (st : Nat) (new : UnitSt) (cause : Nat) : State :=
  let old := s.stackState st
  if old = new then
    if kvFind s.units.stackSt st = some (new, cause) then s
    else ({ s with units := { s.units with stackSt := kvPut s.units.stackSt st (new, cause) } } : State).bumpStack st
  else
    let u := stackUnit s.self st
    let s := s.raise Ev.unitState u (unitStateItems u old new cause)
    let t : State := { s with units := { s.units with stackSt := kvPut s.units.stackSt st (new, cause) } }
    (if old.inService = new.inService then t.bumpStack st else t.bumpUnder st).noteGroups s cause

/-- Change the package's `STATE` (R404). -/
def State.setPackageState (s : State) (new : UnitSt) (cause : Nat) : State :=
  if s.units.package = new then s
  else
    let u := pkgUnit s.self
    let s := s.raise Ev.unitState u (unitStateItems u s.units.package new cause)
    ({ s with units := { s.units with package := new } } : State).bumpPkg.noteAbove s cause

/-- Every channel and Pewter unit of a tile is in service (R70). -/
def Tile.whole (x : Tile) : Bool := x.unit = .ready && x.pewter.out.isEmpty && x.mem.channels.all fun c => c.2.state = 0

/-- Stack that carries a lane group (R16). -/
def groupStack (g : Nat) : Nat :=
  ([6, 12, 18, 18, 19, 19, 20, 20, 21, 21, 22, 22, 23, 23, 17, 11][g]?).getD 0

/-- Every lane group of a stack is in service. -/
def State.groupsWhole (s : State) (st : Nat) : Bool :=
  ((List.range 16).zip s.cornis.groups).all fun e => groupStack e.1 ≠ st || e.2.state ≠ .out

/-- State of a stack that has its head die: READY or DEGRADED from its tiles and lane groups, and out of service when all its tiles are
(R67, R70). -/
def State.stackLevel (s : State) (st : Nat) : UnitSt :=
  let tiles := (List.range 64).map fun i => s.tile (64 * st + i)
  if tiles.all (·.whole) && s.groupsWhole st then .ready
  else if tiles.any (·.unit.inService) then .degraded else .removed

/-- State of the package from its stacks and lane groups (R67, R70). -/
def State.packageLevel (s : State) : UnitSt :=
  if (List.range 24).all (fun i => s.stackState i = .ready)
    && s.cornis.groups.all (fun g => g.state ≠ .out) then .ready
  else if (List.range 24).any fun i => s.stackUp i then .degraded else .removed

/-- After a change under a stack: an in-service stack, and the package over it, take READY or DEGRADED anew (R88). -/
def State.settle (s : State) (st : Nat) (cause : Nat) : State :=
  let s := if s.stackUp st then s.setStackState st (s.stackLevel st) cause else s
  if s.units.package.inService || s.units.package = .removed then s.setPackageState s.packageLevel cause else s

/-- After a change of package resources. -/
def State.settlePkg (s : State) (cause : Nat) : State :=
  if s.units.package.inService || s.units.package = .removed then s.setPackageState s.packageLevel cause else s

/-! ### Mesh messages (R515) -/

/-- Send a message over the meshes; it is due after its path's latency. -/
def State.meshSend (s : State) (dest : TileRef) (delay : Nat) (b : MeshBody) : State :=
  { s with mesh := s.mesh ++ [{ dest, due := s.time.now + delay, body := b }] }

/-- The same, behind the messages for that tile that `p` picks: a path keeps their order. -/
def State.meshSendAfter (s : State) (dest : TileRef) (delay : Nat) (b : MeshBody) (p : MeshBody → Bool) : State :=
  let last := (s.mesh.filter fun m => m.dest = dest && p m.body).foldl (fun (a : Nat) m => max a m.due) 0
  s.meshSend dest (max delay (last - s.time.now)) b

/-- The messages for a tile that `p` picks. -/
def meshDues {α : Type} (t : TileRef) (p : MeshBody → Option α) (l : List MeshMsg) : List Nat :=
  l.filterMap fun m => if m.dest = t && (p m.body).isSome then some m.due else none

/-- The first message for a tile that `p` picks and that is due by `last`, and the rest. -/
def meshTakeBy {α : Type} (t : TileRef) (p : MeshBody → Option α) (last : Nat) : List MeshMsg → Option (α × MeshMsg × List MeshMsg)
  | [] => none
  | m :: r =>
    match if m.dest = t ∧ m.due ≤ last then p m.body else none with
    | some a => some (a, m, r)
    | none => (meshTakeBy t p last r).map fun (a, x, l) => (a, x, m :: l)

/-- The message for a tile that `p` picks and that arrives first, and the rest. -/
def meshTake {α : Type} (t : TileRef) (p : MeshBody → Option α) (l : List MeshMsg) : Option (α × MeshMsg × List MeshMsg) :=
  match (meshDues t p l).min? with
  | none => none
  | some d => meshTakeBy t p d l

/-! ### Normor commands (R387 to R394) -/

/-- The command has been fetched and started, and its own step is to come. -/
def State.started (s : State) (c : Cmd) : Bool := s.host.slots.any fun k => k.cmd = c && k.ph = .started

/-- Change the started slot of a command. -/
def State.modCmd (s : State) (c : Cmd) (f : CmdSlot → CmdSlot) : State :=
  { s with host := { s.host with slots := s.host.slots.map fun k => if k.cmd = c && k.ph = .started then f k else k } }

/-- A started command finishes with a completion to post (R392). -/
def State.finish (s : State) (c : Cmd) (k : Compl) : State := s.modCmd c fun z => { z with ph := .finished, compl := k }

/-- Finish with a status and a reason. -/
def State.finishWith (s : State) (c : Cmd) (status reason : Code) : State := s.finish c { status, reason }

/-- Finish OK with two results. -/
def State.finishOk (s : State) (c : Cmd) (r0 r1 : Word) : State := s.finish c { result0 := r0, result1 := r1 }

/-- Finish with return data (R391): 16 bytes or fewer in the results, more at `RET` when there is one and it has the room. -/
def State.finishData (s : State) (c : Cmd) (bytes : List Byte) (k : Compl) : State :=
  if bytes.length ≤ 16 then
    s.finish c { k with result0 := w64 (natLE (bytes.take 8)), result1 := w64 (natLE (bytes.drop 8)) }
  else if c.retLen.toNat < bytes.length || c.ret = 0 then
    s.finish c { status := St.rejected, reason := Rs.destSmall, result0 := w64 bytes.length }
  else s.modCmd c fun z => { z with ph := .finished, ret := bytes, compl := k }

/-- Take the next free value of `w` bits (a value the spec does not state). -/
def State.freeVal (s : State) (w : Nat) : BitVec w × State :=
  (BitVec.ofNat w (Config.freeBits w s.free), { s with free := s.free + 1 })

end Sys2Proof.Machine
end

