-- ==== Sys2Proof/Machine/Operands.lean ====
section
/-! DEFINITION. Sys2Proof/Machine/Operands.lean: the operand forms: what each Normor command accepts in its 64 bytes (R389,
R390, R398), and the common header of a descriptor (R123, R125). -/

namespace Sys2Proof.Machine

/-! ### Normor commands -/

/-- What a Normor command accepts: the levels of its `UNIT` (none: `UNIT` is zero), the widths of its parameters from `P0`,
and whether it starts work (R471). -/
structure CmdForm where
  levels : List Nat
  widths : List Nat
  work : Bool := false
  deriving DecidableEq, Repr

/-- Every level of R66. -/
def anyUnit : List Nat := [1, 2, 3, 4, 5, 7]
/-- A package or above (R65); a group of units is one too (R76). -/
def pkgUp : List Nat := [3, 4, 5, 7]

/-- The commands by code (R65, R112, R250, R303, R343, R374, R399, R435, R455, R488); any other code is BAD_OPCODE (R398). -/
def cmdForm : Nat → Option CmdForm
  | 0x0101 => some ⟨anyUnit, [4], false⟩
  | 0x0102 => some ⟨anyUnit, [], false⟩
  | 0x0103 => some ⟨[], [4, 16], false⟩
  | 0x0110 => some ⟨[], [12, 64, 64], false⟩
  | 0x0111 => some ⟨[], [12], false⟩
  | 0x0112 => some ⟨[], [12], false⟩
  | 0x0120 => some ⟨[1, 2], [], false⟩
  | 0x0121 => some ⟨[1, 2], [], true⟩
  | 0x0201 => some ⟨anyUnit, [12, 44, 8], false⟩
  | 0x0202 => some ⟨anyUnit, [12, 9, 9, 8], false⟩
  | 0x0203 => some ⟨anyUnit, [12, 64, 64], false⟩
  | 0x0204 => some ⟨[], [12], false⟩
  | 0x0205 => some ⟨[1], [12, 64], false⟩
  | 0x0210 => some ⟨anyUnit, [], false⟩
  | 0x0220 => some ⟨anyUnit, [32, 1, 3], false⟩
  | 0x0221 => some ⟨anyUnit, [32, 2], false⟩
  | 0x0222 => some ⟨anyUnit, [], false⟩
  | 0x0223 => some ⟨anyUnit, [32], false⟩
  | 0x0224 => some ⟨[1], [5], false⟩
  | 0x0225 => some ⟨anyUnit, [], false⟩
  | 0x0301 => some ⟨[], [], false⟩
  | 0x0302 => some ⟨[], [64, 64, 64], true⟩
  | 0x0303 => some ⟨[], [64, 64], true⟩
  | 0x0304 => some ⟨[], [], false⟩
  | 0x0305 => some ⟨pkgUp, [64], true⟩
  | 0x0310 => some ⟨anyUnit, [64, 16, 64], true⟩
  | 0x0311 => some ⟨anyUnit, [64], false⟩
  | 0x0312 => some ⟨anyUnit, [64], false⟩
  | 0x0320 => some ⟨pkgUp, [], false⟩
  | 0x0401 => some ⟨[], [64, 8], false⟩
  | 0x0402 => some ⟨[], [64, 8], false⟩
  | 0x0403 => some ⟨[], [64, 8], false⟩
  | 0x0404 => some ⟨anyUnit, [], false⟩
  | 0x0501 => some ⟨anyUnit, [], false⟩
  | 0x0502 => some ⟨anyUnit, [10, 11, 64], false⟩
  | 0x0503 => some ⟨[3], [], false⟩
  | 0x0504 => some ⟨[3], [4], false⟩
  | 0x0505 => some ⟨anyUnit, [64], false⟩
  | 0x0506 => some ⟨[], [56, 2, 2, 64, 64], false⟩
  | 0x0507 => some ⟨[3], [], false⟩
  | 0x0601 => some ⟨[3, 4], [], false⟩
  | 0x0602 => some ⟨[4], [64, 13], false⟩
  | 0x0603 => some ⟨[4], [], false⟩
  | 0x0604 => some ⟨[4], [1, 1], false⟩
  | 0x0605 => some ⟨[3], [12, 64, 64], false⟩
  | 0x0701 => some ⟨anyUnit, [], false⟩
  | 0x0702 => some ⟨anyUnit, [64], false⟩
  | 0x0703 => some ⟨anyUnit, [17], false⟩
  | 0x0704 => some ⟨anyUnit, [16], false⟩
  | 0x0705 => some ⟨[3], [], false⟩
  | 0x0706 => some ⟨[3], [], false⟩
  | 0x0720 => some ⟨anyUnit, [], false⟩
  | 0x0721 => some ⟨[3], [64, 48], false⟩
  | 0x0722 => some ⟨[3], [], false⟩
  | 0x0723 => some ⟨[3], [], false⟩
  | 0x0724 => some ⟨[3], [], false⟩
  | 0x0801 => some ⟨[], [], false⟩
  | 0x0802 => some ⟨[], [64, 28], false⟩
  | 0x0803 => some ⟨[], [64], false⟩
  | 0x0810 => some ⟨[], [], false⟩
  | 0x0811 => some ⟨[], [], false⟩
  | 0x0901 => some ⟨[], [64, 64], false⟩
  | 0x0902 => some ⟨[], [16, 1], false⟩
  | 0x0903 => some ⟨[], [], false⟩
  | 0x0910 => some ⟨[], [4, 16], false⟩
  | 0x0A01 => some ⟨[1, 2, 7], [6], true⟩
  | 0x0A02 => some ⟨[1, 2, 7], [12, 64, 64, 64], true⟩
  | 0x0A03 => some ⟨anyUnit, [], false⟩
  | 0x0A04 => some ⟨[3], [4, 64], false⟩
  | _ => none

/-- The five parameters. -/
def cmdParams (c : Cmd) : List Word := [c.p0, c.p1, c.p2, c.p3, c.p4]

/-- No Reserved bit of the command is set: those of R389, and parameter bits beyond the widths (R390). -/
def cmdReservedClear (c : Cmd) (f : CmdForm) : Bool :=
  c.reserved = 0 && (List.range 5).all fun i =>
    (((cmdParams c)[i]?).getD 0).toNat < 2 ^ ((f.widths[i]?).getD 0)

/-- The refusal of a malformed command, if any: BAD_OPCODE, BAD_FIELD, BAD_UNIT (R15, R398). -/
def cmdMalformed (c : Cmd) : Option Code :=
  match cmdForm c.opcode.toNat with
  | none => some Rs.badOpcode
  | some f =>
    if !cmdReservedClear c f then some Rs.badField
    else if f.levels.isEmpty then (if c.unit = 0 then none else some Rs.badField)
    else if !unitValid c.unit then some Rs.badUnit
    else if f.levels.contains (unitLevel c.unit) then none
    else some Rs.badUnit

/-- The 64 bytes of a command as a command slot holds them (R389). -/
def decodeCmd (ring : Nat) (w : BitVec 512) : Cmd :=
  let f := fun (byte n : Nat) => bitsOf w (8 * byte + n - 1) (8 * byte)
  { ring, opcode := BitVec.ofNat 16 (f 0 16), tag := BitVec.ofNat 16 (f 2 16), unit := BitVec.ofNat 32 (f 4 32),
    notify := bitAt w 64, order := bitAt w 65, devAddr := bitAt w 66, reserved := BitVec.ofNat 32 (bitsOf w 95 67),
    retLen := BitVec.ofNat 32 (f 12 32), ret := w64 (f 16 64), p0 := w64 (f 24 64), p1 := w64 (f 32 64),
    p2 := w64 (f 40 64), p3 := w64 (f 48 64), p4 := w64 (f 56 64) }

/-- The 64 bytes of a command (R389). -/
def encodeCmd (c : Cmd) : List Byte :=
  bytesLE 2 c.opcode.toNat ++ bytesLE 2 c.tag.toNat ++ bytesLE 4 c.unit.toNat
    ++ bytesLE 4 (c.notify.toNat + 2 * c.order.toNat + 4 * c.devAddr.toNat + 8 * c.reserved.toNat)
    ++ bytesLE 4 c.retLen.toNat ++ bytesLE 8 c.ret.toNat ++ (cmdParams c).flatMap fun p => bytesLE 8 p.toNat

/-! ### Descriptors -/

/-- Bits [hi:lo] of the field at a byte offset of a descriptor (R4, R123). -/
def fld (d : BitVec 512) (byte hi lo : Nat) : Nat := bitsOf d (8 * byte + hi) (8 * byte + lo)

/-- Whether every bit of the field is zero (Reserved, R10). -/
def fldZero (d : BitVec 512) (byte hi lo : Nat) : Bool := fld d byte hi lo = 0

/-- `OPCODE` of a descriptor. -/
def dOpcode (d : BitVec 512) : Nat := fld d 0 7 0
/-- `BARRIER`. -/
def dBarrier (d : BitVec 512) : Bool := fld d 1 0 0 = 1
/-- `WAIT_EN`. -/
def dWaitEn (d : BitVec 512) : Bool := fld d 1 1 1 = 1
/-- `SIG_EN`. -/
def dSigEn (d : BitVec 512) : Bool := fld d 1 2 2 = 1
/-- `SIG_ON_OK`. -/
def dSigOnOk (d : BitVec 512) : Bool := fld d 1 3 3 = 1
/-- `SATURATE`. -/
def dSaturate (d : BitVec 512) : Bool := fld d 1 4 4 = 1
/-- `WAIT_SEM`. -/
def dWaitSem (d : BitVec 512) : Nat := fld d 2 4 0
/-- `SIG_SEM`. -/
def dSigSem (d : BitVec 512) : Nat := fld d 3 4 0
/-- `WAIT_VALUE`. -/
def dWaitValue (d : BitVec 512) : Nat := fld d 4 31 0
/-- `SIG_AMOUNT`. -/
def dSigAmount (d : BitVec 512) : Nat := fld d 8 15 0
/-- Target tile of a remote signal, 64 s + t. -/
def dSigTile (d : BitVec 512) : TileRef := 64 * fld d 10 10 6 + fld d 10 5 0
/-- `SIG_STACK`. -/
def dSigStack (d : BitVec 512) : Nat := fld d 10 10 6
/-- `SIG_REMOTE`. -/
def dSigRemote (d : BitVec 512) : Bool := fld d 10 11 11 = 1
/-- `TARGET`. -/
def dTarget (d : BitVec 512) : BitVec 32 := BitVec.ofNat 32 (fld d 12 31 0)

/-- The Reserved bits of the common header are zero. -/
def headerReserved (d : BitVec 512) : Bool :=
  fldZero d 1 7 5 && fldZero d 2 7 5 && fldZero d 3 7 5 && fldZero d 10 15 12

/-- The engine queues (R116): matrix, vector, the four DMA channels, attention, Pewter, and the sequencer, which has
no queue. -/
inductive EngineQ where
  | matrix | vector | dma (c : Nat) | attention | pewter | sequencer
  deriving DecidableEq, Repr

/-- Key of a queue in `Tile.queues`. -/
def EngineQ.key : EngineQ → Nat
  | .matrix => 0 | .vector => 1 | .dma c => 2 + c % 4 | .attention => 6 | .pewter => 7 | .sequencer => 8

/-- The 64 bytes of a descriptor as one word. -/
def descOf (bytes : List Byte) : BitVec 512 := BitVec.ofNat 512 (natLE bytes)

/-- A descriptor as bytes. -/
def descBytes (d : BitVec 512) : List Byte := bytesLE 64 d.toNat

/-- A descriptor with the field at a byte offset, `n` bytes wide, replaced. -/
def setField (d : BitVec 512) (byte n v : Nat) : BitVec 512 :=
  let l := descBytes d
  descOf (l.take byte ++ bytesLE n v ++ l.drop (byte + n))

/-- Work-store bytes of a tile (R113). -/
abbrev wsSize : Nat := 0x180000

/-- A work-store range lies within the store (R124). -/
def wsFits (off n : Nat) : Bool := n = 0 || off + n ≤ wsSize

/-- An outcome with no member map. -/
def outc (status reason : Code) : Outc := { status, reason }

end Sys2Proof.Machine
end

