-- ==== Sys2Proof/Machine/Flags.lean ====
section
/-! DEFINITION. Sys2Proof/Machine/Flags.lean: the marks a run of an engine leaves beside its status: what its conversions did
(R168) and how they, and an enforced pause (R61), show in its completion. -/

namespace Sys2Proof.Machine

/-- What the conversions of a descriptor did (R168). -/
structure FmtFlags where
  clamped : Bool := false
  nanZero : Bool := false
  deriving DecidableEq, Repr

/-- Either did. -/
def FmtFlags.or (a b : FmtFlags) : FmtFlags := { clamped := a.clamped || b.clamped, nanZero := a.nanZero || b.nanZero }

/-- The reason a completion carries for its conversions (R168). -/
def FmtFlags.reason (f : FmtFlags) : Code := if f.nanZero then Rs.fmtNanZero else if f.clamped then Rs.fmtClamped else 0

/-- An OK outcome with its conversions' reason. -/
def FmtFlags.done (f : FmtFlags) : Outc := { status := St.ok, reason := f.reason }

/-- OK under an enforced pause ratio reads THROTTLED (R61). -/
def throttled (ratio : Nat) (o : Outc) : Outc := if o.status = St.ok && ratio ≠ 0 then { o with status := St.throttled } else o

end Sys2Proof.Machine
end

