-- ==== Sys2Proof/Machine/Series.lean ====
section
/-! DEFINITION. Sys2Proof/Machine/Series.lean: exponentials, logarithms, sines and cosines in fixed point with 400 fraction bits,
from their series. The spec bounds the error of each function that rests on them (R147, R222, R237), and these values stand for
the exact ones in those bounds. -/

namespace Sys2Proof.Machine

/-- Fraction bits of the fixed point. -/
abbrev fixBits : Nat := 400

/-- One. -/
def fixOne : Nat := 2 ^ fixBits

/-- A number m × 2^e in fixed point, rounded down. -/
def fixOf (neg : Bool) (m : Nat) (e : Int) : Int :=
  let v : Int := if 0 ≤ e + fixBits then m * 2 ^ (e + fixBits).toNat else m / 2 ^ (-(e + fixBits)).toNat
  if neg then -v else v

/-- Sum of q^(2k+1) / (2k+1) for q = a / b ≤ 1/3, with the terms' signs alternating or not: atan, or the inverse hyperbolic
tangent. -/
def oddSeries (alternate : Bool) (a b : Nat) : Int :=
  ((List.range 140).foldl (fun (acc : Int × Nat) (k : Nat) =>
    let t : Int := acc.2 / (2 * k + 1)
    (acc.1 + (if alternate && k % 2 = 1 then -t else t), acc.2 * a * a / (b * b))) (0, fixOne * a / b)).1

/-- ln 2. -/
def lnTwo : Int := 2 * oddSeries false 1 3

/-- π by Machin's formula: the series in 1/5 needs its first 140 terms. -/
def fixPi : Int := 16 * oddSeries true 1 5 - 4 * oddSeries true 1 239

/-- ln (m × 2^e) for m ≠ 0. -/
def fixLn (m : Nat) (e : Int) : Int :=
  let l := Nat.log2 m
  2 * oddSeries false (m - 2 ^ l) (m + 2 ^ l) + ((l : Int) + e) * lnTwo

/-- Power series of e^r for r from 0 to 1. -/
def expSeries (r : Nat) : Nat :=
  ((List.range 110).foldl (fun (acc : Nat × Nat) (k : Nat) => (acc.1 + acc.2, acc.2 * r / fixOne / (k + 1))) (0, fixOne)).1

/-- e^x as (mantissa, exponent): mantissa × 2^exponent, for x held to ±2,000. -/
def fixExp (x : Int) : Nat × Int :=
  let x := max (-2000 * (fixOne : Int)) (min (2000 * (fixOne : Int)) x)
  let k := x / lnTwo
  (expSeries (x - k * lnTwo).toNat, k - fixBits)

/-- Sine of r, 0 ≤ r < 2π, when `from_` is 1; cosine when it is 0. -/
def circular (from_ : Nat) (r : Int) : Int :=
  ((List.range 80).foldl (fun (acc : Int × Int) (k : Nat) =>
    let n := 2 * k + from_
    (acc.1 + acc.2, -(acc.2 * r / fixOne * r / fixOne / ((n + 1) * (n + 2) : Nat)))) (0, if from_ = 0 then (fixOne : Int) else r)).1

/-- A fixed-point angle reduced modulo 2π (R222). -/
def reduceAngle (a : Int) : Int := a % (2 * fixPi)

end Sys2Proof.Machine
end

