-- ==== Sys2Proof/Machine/Num.lean ====
section
/-! DEFINITION. Sys2Proof/Machine/Num.lean: number formats and arithmetic (chapter 05): encodings (R152, R155), packing (R162 to
R164), exact values and their rounding (R165, R166), conversion with its flags (R167, R168), block scales (R158, R161, R169 to
R171) and FP32 arithmetic (R147, R157, R174). -/

namespace Sys2Proof.Machine

/-! ### Exact values -/

/-- A value of an engine's arithmetic: NaN, an infinity, or (−1)^neg × m × 2^e, with a signed zero (R152, R157). -/
inductive Fv where
  | nan
  | inf (neg : Bool)
  | fin (neg : Bool) (m : Nat) (e : Int)
  deriving DecidableEq, Repr

/-- +0. -/
def Fv.zero : Fv := .fin false 0 0

/-- An integer as a value. -/
def Fv.ofInt (n : Int) : Fv := .fin (n < 0) n.natAbs 0

/-- Sign bit; false for NaN. -/
def Fv.neg : Fv → Bool
  | .nan => false
  | .inf n => n
  | .fin n _ _ => n

/-- The value with its sign cleared. -/
def Fv.abs : Fv → Fv
  | .nan => .nan
  | .inf _ => .inf false
  | .fin _ m e => .fin false m e

/-- NaN. -/
def Fv.isNan : Fv → Bool
  | .nan => true
  | .inf _ => false
  | .fin _ _ _ => false

/-- An infinity. -/
def Fv.isInf : Fv → Bool
  | .nan => false
  | .inf _ => true
  | .fin _ _ _ => false

/-- Finite and zero. -/
def Fv.isZero : Fv → Bool
  | .nan => false
  | .inf _ => false
  | .fin _ m _ => m = 0

/-- Mantissas of two finite values brought to the lower exponent, as signed integers, with that exponent. -/
def alignFin (n1 : Bool) (m1 : Nat) (e1 : Int) (n2 : Bool) (m2 : Nat) (e2 : Int) : Int × Int × Int :=
  let e := min e1 e2
  let a : Int := m1 * 2 ^ (e1 - e).toNat
  let b : Int := m2 * 2 ^ (e2 - e).toNat
  (if n1 then -a else a, if n2 then -b else b, e)

/-- Exact product (R172, R173). -/
def Fv.mul : Fv → Fv → Fv
  | .nan, _ => .nan
  | _, .nan => .nan
  | .inf a, .inf b => .inf (a != b)
  | .inf a, .fin b m _ => if m = 0 then .nan else .inf (a != b)
  | .fin a m _, .inf b => if m = 0 then .nan else .inf (a != b)
  | .fin a m e, .fin b n f => .fin (a != b) (m * n) (e + f)

/-- Exact sum; an exact zero is +0 unless both terms are −0 (R173). -/
def Fv.add : Fv → Fv → Fv
  | .nan, _ => .nan
  | _, .nan => .nan
  | .inf a, .inf b => if a = b then .inf a else .nan
  | .inf a, .fin _ _ _ => .inf a
  | .fin _ _ _, .inf b => .inf b
  | .fin a m e, .fin b n f =>
    let (x, y, g) := alignFin a m e b n f
    let z := x + y
    .fin (if z = 0 then a && b && m = 0 && n = 0 else z < 0) z.natAbs g

/-- Numeric order of two values that are not NaN. -/
def Fv.lt : Fv → Fv → Bool
  | .nan, _ => false
  | _, .nan => false
  | .inf a, .inf b => a && !b
  | .inf a, .fin _ _ _ => a
  | .fin _ _ _, .inf b => !b
  | .fin a m e, .fin b n f =>
    let (x, y, _) := alignFin a m e b n f
    x < y

/-- Numeric equality. -/
def Fv.same (a b : Fv) : Bool := !a.isNan && !b.isNan && !a.lt b && !b.lt a

/-! ### Formats (R151, R152) -/

/-- A floating-point format: exponent and mantissa bits, bias, and which codes are not finite. -/
structure FFmt where
  ebits : Nat
  mbits : Nat
  bias : Nat
  hasInf : Bool
  hasNan : Bool
  deriving DecidableEq, Repr

/-- Floating-point formats by code (R152). -/
def ffmt : Nat → Option FFmt
  | 0 => some ⟨8, 23, 127, true, true⟩
  | 1 => some ⟨8, 7, 127, true, true⟩
  | 2 => some ⟨5, 10, 15, true, true⟩
  | 3 => some ⟨4, 3, 7, false, true⟩
  | 4 => some ⟨5, 2, 15, true, true⟩
  | 5 => some ⟨2, 3, 1, false, false⟩
  | 6 => some ⟨2, 1, 1, false, false⟩
  | _ => none

/-- Bits of an element (R151). -/
def fmtBits : Nat → Nat
  | 0 => 32 | 1 => 16 | 2 => 16 | 3 => 8 | 4 => 8 | 5 => 6 | 6 => 4 | 7 => 8 | 8 => 4 | 9 => 32 | _ => 0

/-- Integer formats: signed width. -/
def fmtInt : Nat → Option Nat
  | 7 => some 8
  | 8 => some 4
  | 9 => some 32
  | _ => none

/-- Largest finite value of a format, as mantissa and exponent (R152). -/
def FFmt.maxFin (f : FFmt) : Nat × Int :=
  if f.hasInf then (2 ^ (f.mbits + 1) - 1, (2 ^ f.ebits - 2 : Nat) - f.bias - (f.mbits : Int))
  else if f.hasNan then (2 ^ (f.mbits + 1) - 2, (2 ^ f.ebits - 1 : Nat) - f.bias - (f.mbits : Int))
  else (2 ^ (f.mbits + 1) - 1, (2 ^ f.ebits - 1 : Nat) - f.bias - (f.mbits : Int))

/-- Largest finite value of a format code, integers included. -/
def maxOf (fmt : Nat) : Fv :=
  match ffmt fmt with
  | some f => .fin false f.maxFin.1 f.maxFin.2
  | none => .fin false (2 ^ (fmtBits fmt - 1) - 1) 0

/-- Value of a code of a format (R152, R155). -/
def decodeNum (fmt code : Nat) : Fv :=
  match ffmt fmt with
  | none => .ofInt (signedOf (fmtBits fmt) code)
  | some f =>
    let neg := (code / 2 ^ (f.ebits + f.mbits)) % 2 = 1
    let e := (code / 2 ^ f.mbits) % 2 ^ f.ebits
    let m := code % 2 ^ f.mbits
    if e = 2 ^ f.ebits - 1 && f.hasInf then (if m = 0 then .inf neg else .nan)
    else if e = 2 ^ f.ebits - 1 && f.hasNan && m = 2 ^ f.mbits - 1 then .nan
    else if e = 0 then .fin neg m (1 - (f.bias : Int) - f.mbits)
    else .fin neg (2 ^ f.mbits + m) ((e : Int) - f.bias - f.mbits)

/-- Canonical NaN of a format (R157); +0 for the formats without one. -/
def nanCode : Nat → Nat
  | 0 => 0x7FC00000 | 1 => 0x7FC0 | 2 => 0x7E00 | 3 => 0x7F | 4 => 0x7E | _ => 0

/-! ### Rounding (R165) -/

/-- m × 2^−k rounded to an integer, nearest with ties to even. -/
def rne (m k : Nat) : Nat :=
  let q := m / 2 ^ k
  let r := 2 * (m % 2 ^ k)
  if r < 2 ^ k then q else if 2 ^ k < r then q + 1 else q + q % 2

/-- m × 2^e rounded to a multiple of the format's unit in the last place there, without an upper limit: (n, q) for n × 2^q. -/
def FFmt.round (f : FFmt) (m : Nat) (e : Int) : Nat × Int :=
  let x : Int := e + (Nat.log2 m : Int)
  let q : Int := max x (1 - (f.bias : Int)) - f.mbits
  if q ≤ e then (m * 2 ^ (e - q).toNat, q) else (rne m (q - e).toNat, q)

/-- The code of a finite magnitude n × 2^q that the format holds, sign apart. -/
def FFmt.pack (f : FFmt) (n : Nat) (q : Int) : Nat :=
  let (n, q) := if n = 2 ^ (f.mbits + 1) then (2 ^ f.mbits, q + 1) else (n, q)
  if n < 2 ^ f.mbits then n
  else (q + f.mbits + f.bias).toNat * 2 ^ f.mbits + (n - 2 ^ f.mbits)

/-- Sign bit of a format. -/
def FFmt.signBit (f : FFmt) (neg : Bool) : Nat := if neg then 2 ^ (f.ebits + f.mbits) else 0

/-- Code of the largest finite value. -/
def FFmt.maxCode (f : FFmt) : Nat := f.pack f.maxFin.1 f.maxFin.2

/-- Code of +infinity. -/
def FFmt.infCode (f : FFmt) : Nat := (2 ^ f.ebits - 1) * 2 ^ f.mbits

/-- An overflowing magnitude: saturated, infinite or NaN (R166). -/
def FFmt.over (f : FFmt) (fmt : Nat) (sat neg : Bool) : Nat × FmtFlags :=
  if sat || !f.hasNan then (f.signBit neg + f.maxCode, { clamped := true })
  else if f.hasInf then (f.signBit neg + f.infCode, {})
  else (nanCode fmt, {})

/-- Convert a value to a format (R165 to R167): its code, and what the conversion did. -/
def convert (fmt : Nat) (sat : Bool) (v : Fv) : Nat × FmtFlags :=
  match ffmt fmt with
  | some f =>
    match v with
    | .nan => if f.hasNan then (nanCode fmt, {}) else (0, { nanZero := true })
    | .inf neg =>
      if f.hasInf && !sat then (f.signBit neg + f.infCode, {})
      else if f.hasNan && !f.hasInf && !sat then (nanCode fmt, {})
      else (f.signBit neg + f.maxCode, { clamped := true })
    | .fin neg m e =>
      if m = 0 then (f.signBit neg, {})
      else
        let (n, q) := f.round m e
        if (Fv.fin false f.maxFin.1 f.maxFin.2).lt (.fin false n q) then f.over fmt sat neg
        else (f.signBit neg + f.pack n q, {})
  | none =>
    let w := fmtBits fmt
    let hi : Int := 2 ^ (w - 1) - 1
    let lo : Int := -(2 ^ (w - 1))
    let enc := fun (n : Int) => (n % (2 ^ w : Int)).toNat
    match v with
    | .nan => (0, { nanZero := true })
    | .inf neg => (enc (if neg then lo else hi), { clamped := true })
    | .fin neg m e =>
      let n : Nat := if 0 ≤ e then m * 2 ^ e.toNat else rne m (-e).toNat
      let z : Int := if neg then -(n : Int) else n
      if hi < z then (enc hi, { clamped := true })
      else if z < lo then (enc lo, { clamped := true })
      else (enc z, {})

/-- Round a value to FP32 as an intermediate result: overflow is infinite (R166). -/
def toF32 (v : Fv) : BitVec 32 := BitVec.ofNat 32 (convert 0 false v).1

/-- Value of FP32 bits. -/
def f32 (b : BitVec 32) : Fv := decodeNum 0 b.toNat

/-- The FP32 value nearest to a value (R165). -/
def round32 (v : Fv) : Fv := f32 (toF32 v)

/-- n / d × 2^e for d ≠ 0 as a value that rounds to every format as the quotient does: enough bits and a sticky one. -/
def quotient (neg : Bool) (n d : Nat) (e : Int) : Fv :=
  if n = 0 then .fin neg 0 0
  else
    let k := 40 + Nat.log2 d - Nat.log2 n
    let q := n * 2 ^ k / d
    let sticky := if n * 2 ^ k % d = 0 then 0 else 1
    .fin neg (2 * q + sticky) (e - k - 1)

/-- Quotient of two values, to be rounded once. -/
def Fv.div : Fv → Fv → Fv
  | .nan, _ => .nan
  | _, .nan => .nan
  | .inf _, .inf _ => .nan
  | .inf a, .fin b _ _ => .inf (a != b)
  | .fin a _ _, .inf b => .fin (a != b) 0 0
  | .fin a m e, .fin b n f => if n = 0 then (if m = 0 then .nan else .inf (a != b)) else quotient (a != b) m n (e - f)

/-! ### FP32 arithmetic (R147, R174) -/

/-- Sum rounded to FP32. -/
def addF (a b : BitVec 32) : BitVec 32 := toF32 ((f32 a).add (f32 b))

/-- Product rounded to FP32. -/
def mulF (a b : BitVec 32) : BitVec 32 := toF32 ((f32 a).mul (f32 b))

/-- a × b + c rounded once. -/
def fmaF (a b c : BitVec 32) : BitVec 32 := toF32 (((f32 a).mul (f32 b)).add (f32 c))

/-- Maximum; NaN if either is NaN (R174). Of equal values the first is taken, with +0 above −0. -/
def maxF (a b : BitVec 32) : BitVec 32 :=
  if (f32 a).isNan || (f32 b).isNan then 0x7FC00000
  else if (f32 a).lt (f32 b) then b
  else if (f32 b).lt (f32 a) then a
  else if a = 0x80000000 then b else a

/-- Minimum; NaN if either is NaN. -/
def minF (a b : BitVec 32) : BitVec 32 :=
  if (f32 a).isNan || (f32 b).isNan then 0x7FC00000
  else if (f32 a).lt (f32 b) then a
  else if (f32 b).lt (f32 a) then b
  else if a = 0x80000000 then a else b

/-- Exact difference of two FP32 values, rounded. -/
def subF (a b : BitVec 32) : BitVec 32 := toF32 ((f32 a).add (match f32 b with
  | .nan => .nan
  | .inf n => .inf (!n)
  | .fin n m e => .fin (!n) m e))

/-- Quotient rounded once to FP32. -/
def divF (a b : BitVec 32) : BitVec 32 := toF32 ((f32 a).div (f32 b))

/-- Move a finite FP32 result by a number of units in the last place, staying on its side of zero. -/
def ulpMove (b : BitVec 32) (k : Int) : BitVec 32 :=
  match f32 b with
  | .nan => b
  | .inf _ => b
  | .fin _ _ _ =>
    let mag : Int := (b.toNat % 2 ^ 31 : Nat)
    let z := max 0 (min 0x7F7FFFFF (mag + k))
    BitVec.ofNat 32 ((b.toNat / 2 ^ 31) * 2 ^ 31 + z.toNat)

/-- An FP32 value lies within `n` units in the last place of a value, the unit being that of the value's own binade. -/
def ulpNear (v : Fv) (n : Nat) (c : BitVec 32) : Bool :=
  match v, f32 c with
  | .fin a m e, .fin b k g =>
    let (x, y, z) := alignFin a m e b k g
    let u := (FFmt.round ⟨8, 23, 127, true, true⟩ m e).2
    (y - x).natAbs * 2 ^ (z - u).toNat ≤ n * 2 ^ (u - z).toNat
  | _, _ => false

/-- A function's result: the nearest FP32 value moved by a free number of units in the last place, as far as it stays within `n`
of them from the function's value (R147 bounds an error and gives no value). -/
def ulpHeld (which n : Nat) (a : BitVec 32) (v : Fv) : BitVec 32 :=
  let r := toF32 v
  let c := ulpMove r (max (-(n : Int)) (min n (Config.ulpOffset which a)))
  if ulpNear v n c then c else r

/-- RECIP: 1 / a within 1 unit in the last place (R147, R174). -/
def recipF (a : BitVec 32) : BitVec 32 :=
  match f32 a with
  | .fin neg m e => if m = 0 then divF 0x3F800000 a else ulpHeld 1 1 a (quotient neg 1 m (-e))
  | .nan => divF 0x3F800000 a
  | .inf _ => divF 0x3F800000 a

/-- 1 / √(m × 2^e) to more bits than FP32 holds. -/
def rsqrtExact (m : Nat) (e : Int) : Fv :=
  let (m, e) := if e % 2 = 0 then (m, e) else (2 * m, e - 1)
  let k := 2 * (40 + Nat.log2 m)
  quotient false (2 ^ (k / 2)) (Nat.sqrt (m * 2 ^ k / 1)) (-(e / 2))

/-- RSQRT: 1 / √a within 2 units in the last place; NaN of a negative value (R147, R174). -/
def rsqrtF (a : BitVec 32) : BitVec 32 :=
  match f32 a with
  | .nan => 0x7FC00000
  | .inf neg => if neg then 0x7FC00000 else 0
  | .fin neg m e =>
    if m = 0 then (if neg then 0xFF800000 else 0x7F800000)
    else if neg then 0x7FC00000
    else ulpHeld 2 2 a (rsqrtExact m e)

/-- e^x, x in fixed point. -/
def expExact (x : Int) : Fv := .fin false (fixExp x).1 (fixExp x).2

/-- EXP2 within 2 units in the last place, with the special values of IEEE 754 (R147, R174). -/
def exp2F (a : BitVec 32) : BitVec 32 :=
  match f32 a with
  | .nan => 0x7FC00000
  | .inf neg => if neg then 0 else 0x7F800000
  | .fin neg m e => if m = 0 then 0x3F800000 else ulpHeld 3 2 a (expExact (fixOf neg m e * lnTwo / fixOne))

/-- A fixed-point number as a value. -/
def fixExact (x : Int) : Fv := .fin (x < 0) x.natAbs (-(fixBits : Int))

/-- A fixed-point number rounded to FP32. -/
def fixNearest (x : Int) : BitVec 32 := toF32 (fixExact x)

/-- LOG2 within 2 units in the last place (R147, R174). -/
def log2F (a : BitVec 32) : BitVec 32 :=
  match f32 a with
  | .nan => 0x7FC00000
  | .inf neg => if neg then 0x7FC00000 else 0x7F800000
  | .fin neg m e =>
    if m = 0 then 0xFF800000
    else if neg then 0x7FC00000
    else ulpHeld 4 2 a (fixExact (fixLn m e * fixOne / lnTwo))

/-- The natural logarithm. DESIGN CHOICE, log entry 65: within 2 units in the last place, as LOG2 (R237, R248). -/
def lnF (a : BitVec 32) : BitVec 32 :=
  match f32 a with
  | .nan => 0x7FC00000
  | .inf neg => if neg then 0x7FC00000 else 0x7F800000
  | .fin neg m e =>
    if m = 0 then 0xFF800000
    else if neg then 0x7FC00000
    else ulpHeld 7 2 a (fixExact (fixLn m e))

/-- 1 / (1 + 2^−x) for x = ±m × 2^e (R145). -/
def sigmoidExact (neg : Bool) (m : Nat) (e : Int) : Fv :=
  let (q, k) := fixExp (fixOf true m e * lnTwo / fixOne)
  let one := 2 ^ (-k).toNat
  quotient false (if neg then q else one) (one + q) 0

/-- SIGMOID of the product formed in FP32, within 2 units in the last place (R145, R147). -/
def sigmoidF (a : BitVec 32) : BitVec 32 :=
  match f32 a with
  | .nan => 0x7FC00000
  | .inf neg => if neg then 0 else 0x3F800000
  | .fin neg m e => if m = 0 then 0x3F000000 else ulpHeld 5 2 a (sigmoidExact neg m e)

/-- The natural exponential within 2 units in the last place (R237). -/
def expF (a : BitVec 32) : BitVec 32 :=
  match f32 a with
  | .nan => 0x7FC00000
  | .inf neg => if neg then 0 else 0x7F800000
  | .fin neg m e => if m = 0 then 0x3F800000 else ulpHeld 6 2 a (expExact (fixOf neg m e))

/-- A free FP32 value held within 2^−22 of a fixed-point number: where it lies outside, the nearest (R222). -/
def heldNear (x : Int) (free : BitVec 32) : BitVec 32 :=
  match f32 free with
  | .nan => fixNearest x
  | .inf _ => fixNearest x
  | .fin neg m e => if (fixOf neg m e - x).natAbs ≤ 2 ^ (fixBits - 22) + 2 ^ (fixBits - 64) then free else fixNearest x

/-! ### Packing (R162 to R164) -/

/-- Element `i` of a packed run. -/
def getElem (fmt : Nat) (bytes : List Byte) (i : Nat) : Nat :=
  match fmtBits fmt with
  | 4 => (((bytes[i / 2]?).getD 0).toNat / (if i % 2 = 0 then 1 else 16)) % 16
  | 6 => (natLE ((bytes.drop (3 * (i / 4))).take 3) / 2 ^ (6 * (i % 4))) % 64
  | w => natLE ((bytes.drop (w / 8 * i)).take (w / 8))

/-- Bytes of a run of `n` elements, padded to a byte or a 3-byte group (R164). -/
def runBytes (fmt n : Nat) : Nat :=
  match fmtBits fmt with
  | 4 => ceilDiv n 2
  | 6 => 3 * ceilDiv n 4
  | w => w / 8 * n

/-- Elements 4i to 4i + 3 as three bytes. -/
def packSix : List Nat → List Byte
  | a :: b :: c :: d :: r => bytesLE 3 (a + b * 64 + c * 4096 + d * 262144) ++ packSix r
  | [a, b, c] => bytesLE 3 (a + b * 64 + c * 4096)
  | [a, b] => bytesLE 3 (a + b * 64)
  | [a] => bytesLE 3 a
  | [] => []

/-- Elements 2i and 2i + 1 as a byte. -/
def packFour : List Nat → List Byte
  | a :: b :: r => BitVec.ofNat 8 (a + 16 * b) :: packFour r
  | [a] => [BitVec.ofNat 8 a]
  | [] => []

/-- Pack a run of codes (R162 to R164). -/
def packRun (fmt : Nat) (codes : List Nat) : List Byte :=
  match fmtBits fmt with
  | 4 => packFour codes
  | 6 => packSix codes
  | w => codes.flatMap fun c => bytesLE (w / 8) c

/-- The first `n` codes of a packed run. -/
def unpackRun (fmt n : Nat) (bytes : List Byte) : List Nat := (List.range n).map (getElem fmt bytes)

/-! ### Block scales (R158 to R161, R169 to R171) -/

/-- Elements of a block under a scale mode. -/
def blockSize : Nat → Nat
  | 1 => 32
  | 2 => 16
  | _ => 1

/-- Formats and scale modes that go together (R159). -/
def scaleAllowed (fmt smode : Nat) : Bool :=
  match smode with
  | 0 => fmt ≤ 9
  | 1 => 3 ≤ fmt && fmt ≤ 8
  | 2 => fmt = 3 || fmt = 4 || fmt = 6 || fmt = 8
  | _ => false

/-- Scale bytes of a row of `n` elements. -/
def scaleCount (smode n : Nat) : Nat := if smode = 0 then 0 else ceilDiv n (blockSize smode)

/-- Value of a scale byte (R158). -/
def scaleValue (smode code : Nat) : Fv :=
  match smode with
  | 1 => if code = 255 then .nan else .fin false 1 ((code : Int) - 127)
  | 2 => decodeNum 3 code
  | _ => .fin false 1 0

/-- Exact decoded value: element × block scale × tensor scale; under a zero scale every element that is not NaN is a zero,
an infinity too (R161). -/
def decodeScaled (fmt smode code scale : Nat) (tscale : Fv) : Fv :=
  let v := decodeNum fmt code
  match smode with
  | 0 => v
  | 1 => v.mul (scaleValue 1 scale)
  | _ =>
    let k := scaleValue 2 scale
    if k.isZero && !v.isNan then .fin (v.neg != k.neg) 0 0 else (v.mul k).mul tscale

/-- emax of R169. -/
def emaxOf : Nat → Int
  | 3 => 8 | 4 => 15 | 5 => 2 | 6 => 2 | 7 => 6 | 8 => 2 | _ => 0

/-- Largest magnitude of a block, or none when it holds an infinity or a NaN. -/
def blockMax : List Fv → Option Fv
  | [] => some .zero
  | v :: r =>
    if v.isNan || v.isInf then none
    else (blockMax r).map fun m => if m.lt v.abs then v.abs else m

/-- floor(log2) of a positive finite value. -/
def floorLog2 : Fv → Int
  | .fin _ m e => e + (Nat.log2 m : Int)
  | .nan => 0
  | .inf _ => 0

/-- Round a positive value up to the nearest FP8 E4M3 value at or above it, at most 448; and whether it exceeded 448. -/
def e4m3Up (v : Fv) : Nat × Bool :=
  match (List.range 127).find? fun c => !(decodeNum 3 c).lt v with
  | some c => (c, false)
  | none => (0x7E, true)

/-- Scale code of a block (R169, R170), whether the block is written as zeros, and the flags. -/
def chooseScale (fmt smode : Nat) (t : Fv) (block : List Fv) : Nat × Bool × FmtFlags :=
  match blockMax block with
  | none => (if smode = 1 then 255 else 0x7F, true, {})
  | some a =>
    if a.isZero then (0, false, {})
    else if smode = 1 then ((max (-127) (min 127 (floorLog2 a - emaxOf fmt)) + 127).toNat, false, {})
    else
      let q := round32 (a.div ((maxOf fmt).mul t))
      let (c, big) := e4m3Up q
      (c, false, { clamped := big })

/-- Codes of a block's elements under its scale (R171): always saturated, with no flag. -/
def quantBlock (fmt smode : Nat) (t : Fv) (scale : Nat) (zero : Bool) (block : List Fv) : List Nat :=
  if zero then block.map fun _ => 0
  else
    let d := match smode with
      | 1 => scaleValue 1 scale
      | _ => (scaleValue 2 scale).mul t
    block.map fun v => if v.isZero then (convert fmt true v).1 else if d.isZero then (convert fmt true (.inf v.neg)).1
      else (convert fmt true (v.div d)).1

/-- Cut a list into blocks of `n`, at most `fuel` of them. -/
def chunks {α : Type} (n : Nat) : Nat → List α → List (List α)
  | 0, _ => []
  | fuel + 1, l => if l.isEmpty then [] else l.take n :: chunks n fuel (l.drop n)

/-- Quantise a row: element codes, scale codes and flags (R160, R168 to R171). A row without scales converts each value. -/
def quantRow (fmt smode : Nat) (sat : Bool) (t : Fv) (row : List Fv) : List Nat × List Nat × FmtFlags :=
  if smode = 0 then
    let cs := row.map (convert fmt sat)
    (cs.map Prod.fst, [], cs.foldl (fun a c => a.or c.2) {})
  else
    let bs := chunks (blockSize smode) row.length row
    let q := bs.map fun b =>
      let k := chooseScale fmt smode t b
      (quantBlock fmt smode t k.1 k.2.1 b, k.1, k.2.2)
    (q.flatMap (fun e => e.1), q.map (fun e => e.2.1), q.foldl (fun a e => a.or e.2.2) {})

/-- A tensor scale that quantising accepts: positive and finite (R170). -/
def tscaleOk (b : BitVec 32) : Bool :=
  match f32 b with
  | .fin neg m _ => !neg && m ≠ 0
  | .nan => false
  | .inf _ => false

end Sys2Proof.Machine
end

