-- ==== Sys2Proof/Machine/Bch.lean ====
section
/-! DEFINITION. Sys2Proof/Machine/Bch.lean: the shortened binary BCH code over GF(2^15) of a protected page (R290). A polynomial over GF(2)
is the number whose bit k is its coefficient of x^k. -/

namespace Sys2Proof.Machine

/-- A polynomial less multiples of one of degree `d`, from the coefficient of x^(d + n - 1) down. -/
def polyMod (g d : Nat) : Nat → Nat → Nat
  | 0, a => a
  | n + 1, a => polyMod g d n (if a.testBit (d + n) then a ^^^ (g <<< n) else a)

/-- The product of two elements of GF(2^15) under a polynomial of degree 15. -/
def gfMul (p a b : Nat) : Nat :=
  polyMod p 15 15 ((List.range 15).foldl (fun r k => if b.testBit k then r ^^^ (a <<< k) else r) 0)

/-- A power of an element; `fuel` covers the bits of the exponent. -/
def gfPow (p a : Nat) : Nat → Nat → Nat
  | 0, _ => 1
  | fuel + 1, n => let r := gfPow p (gfMul p a a) fuel (n / 2); if n % 2 = 1 then gfMul p a r else r

/-- A polynomial of degree 15 is primitive: x has order 2^15 - 1 = 7 * 31 * 151. -/
def bchPrimitive (p : Nat) : Bool :=
  p / 2 ^ 15 = 1 && gfPow p 2 16 32767 = 1 && gfPow p 2 16 (32767 / 7) ≠ 1 && gfPow p 2 16 (32767 / 31) ≠ 1
    && gfPow p 2 16 (32767 / 151) ≠ 1

/-- The polynomial of the field. DESIGN CHOICE, log entry 66: any primitive one, for the spec does not name it. -/
def bchField : Nat := if bchPrimitive Config.bchPoly then Config.bchPoly else 0x8003

/-- Coefficients, lowest first, of the product of a polynomial over GF(2^15) and x + r. -/
def gfRoot (p r : Nat) (l : List Nat) : List Nat :=
  ((0 :: l).zip (l.map (gfMul p r) ++ [0])).map fun e => e.1 ^^^ e.2

/-- The minimal polynomial of the i-th power of x: its conjugates are its powers by 2^j. -/
def minimalPoly (p i : Nat) : Nat :=
  let l := (List.range 15).foldl (fun l j => gfRoot p (gfPow p 2 16 (i * 2 ^ j % 32767)) l) [1]
  ((List.range 16).map fun k => (l[k]?).getD 0 * 2 ^ k).sum

/-- The product of two polynomials over GF(2), the second of degree 15. -/
def polyMul (a b : Nat) : Nat := (List.range 16).foldl (fun r k => if b.testBit k then r ^^^ (a <<< k) else r) 0

/-- The generator of the code of strength t: its roots are the first 2t powers of x. -/
def bchGenerator (t : Nat) : Nat := (List.range t).foldl (fun g k => polyMul g (minimalPoly bchField (2 * k + 1))) 1

/-- Bits of a page's data and check bits. -/
def bchBits (t : Nat) : Nat := 16384 + 15 * t

/-- Check bits of a page's data: the data, bit k of the page the coefficient of x^(15t + k), is completed to a multiple of the generator.
DESIGN CHOICE, log entry 66: this order of the bits. -/
def bchParity (t : Nat) (data : List Byte) : Nat := polyMod (bchGenerator t) (15 * t) 16384 (natLE data <<< (15 * t))

/-- A codeword reached by changing exactly `k` of the lowest `m` bits of a word. -/
def bchSearch (g d n : Nat) : Nat → Nat → Nat → Option Nat
  | _, 0, w => if polyMod g d n w = 0 then some w else none
  | 0, _ + 1, _ => none
  | m + 1, k + 1, w =>
    match bchSearch g d n m k (w ^^^ 2 ^ m) with
    | some c => some c
    | none => bchSearch g d n m (k + 1) w

/-- The codeword within `t` errors of a page's data and check bits, if there is one, and the number of errors: of several it would be the
nearest, but two codewords differ in more than 2t bits. -/
def bchNearest (t : Nat) (data : List Byte) (check : Nat) : Option (List Byte × Nat) :=
  let g := bchGenerator t
  let w := natLE data <<< (15 * t) ||| check
  (List.range (t + 1)).findSome? fun k =>
    (bchSearch g (15 * t) 16384 (bchBits t) k w).map fun c => (bytesLE 2048 (c >>> (15 * t)), k)

end Sys2Proof.Machine
end

