-- ==== Sys2Proof/Machine/Memory.lean ====
section
/-! DEFINITION. Sys2Proof/Machine/Memory.lean: stack memory as an access meets it: where a page lies (R277, R278, R298),
what stops an access (R279, R280, R292, R298, R299, R301), the read of a page and its verdict (R284 to R286, R291), and
whole-page and narrow writes (R287, R288). -/

namespace Sys2Proof.Machine

/-- An access to another package that a run needs answered before it can go on: a read, or a write of bytes. -/
structure Need where
  pkg : Nat
  dva : BitVec 64
  gaddr : Nat
  len : Nat
  bulk : Bool := false
  put : Option (List Byte) := none
  deriving DecidableEq, Repr

/-- Why a run of accesses stops: a status with its reason and what the fault record takes (R110), or a remote read to wait
for. -/
structure Stop where
  status : Code
  reason : Code := 0
  kind : Nat := 0
  dva : BitVec 64 := 0
  need : Option Need := none
  deriving DecidableEq, Repr

/-- Accesses over the state, ending early with a `Stop`; the state up to there is kept (R87). -/
abbrev M (α : Type) := EStateM Stop State α

/-- Stop with a status and reason. -/
def M.stop {α : Type} (status reason : Code) (kind : Nat := 0) (dva : BitVec 64 := 0) : M α :=
  throw { status, reason, kind, dva }

/-- Stop with a status and reason unless a condition holds. -/
def M.check (ok : Bool) (status reason : Code) : M Unit := if ok then pure () else M.stop status reason

/-- Change the state. -/
def M.upd (f : State → State) : M Unit := modify f

/-- Run to the end: the final state and how it ended. -/
def M.result {α : Type} (m : M α) (s : State) : Except Stop α × State :=
  match m.run s with
  | .ok a s' => (.ok a, s')
  | .error e s' => (.error e, s')

/-- What a run would answer, leaving no trace; one that stops answers `d`. -/
def M.peek {α : Type} (d : α) (m : M α) : M α := do
  match (m.result (← get)).1 with
  | .ok a => pure a
  | .error e => if e.need.isSome then throw e else pure d

/-! ### Where a page lies -/

/-- Bytes of a page (R277). -/
abbrev pageSize : Nat := 2048

/-- Bytes of stack memory in a package (R93). -/
abbrev stackEnd : Nat := 0x30000000000

/-- Tile whose slice holds a local address of stack memory (R94). -/
def tileOfLocal (a : Nat) : TileRef := a / 2 ^ 31

/-- Local address of the first byte of a slice page (R94). -/
def pageAddr (t : TileRef) (page : Nat) : Nat := t * 2 ^ 31 + page * pageSize

/-- Region of a slice page (R277). -/
def regionOf (page : Nat) : Nat := page / 32768

/-- A region's settings. -/
def Tile.region (x : Tile) (r : Nat) : Region := kvGet x.mem.regions r {}

/-- A channel's registers. -/
def Tile.channel (x : Tile) (l : Nat) : Channel := kvGet x.mem.channels l {}

/-- The region that forms a coupled pair with `r` (R279). -/
def pairRegion (r : Nat) : Nat := if r < 16 then r + 16 else r - 16

/-- The slice is degraded: channels were mapped out when its layout was fixed (R298). -/
def Tile.degraded (x : Tile) : Bool := !x.mem.layoutOut.isEmpty

/-- The interleave of a region agrees with that of its pair (R279); a degraded slice ignores it (R298). -/
def Tile.ilvAgrees (x : Tile) (r : Nat) : Bool :=
  let a := (x.region r).ilv.toNat
  let b := (x.region (pairRegion r)).ilv.toNat
  x.degraded || (a = 0 && b = 0) || (a = 1 && b = 2) || (a = 2 && b = 1)

/-- Layers in service under the fixed layout, ascending (R298). -/
def Tile.remaining (x : Tile) : List Nat := (List.range 16).filter fun l => !x.mem.layoutOut.contains l

/-- The interleave of a region in force: its `ILV` while the pair agrees, else that under which its pages still lie (R278 to R280). -/
def Tile.ilvInForce (x : Tile) (r : Nat) : Nat := if x.ilvAgrees r then (x.region r).ilv.toNat else (x.region r).laid.toNat

/-- Layer, bank and row of a slice page (R278, R298). -/
def Tile.pageLoc (x : Tile) (page : Nat) : Nat × Nat × Nat :=
  let r := regionOf page
  let p := page % 32768
  if x.degraded then
    let n := x.remaining.length
    ((x.remaining[(page / 16) % n]?).getD 0, page % 16, page / (16 * n))
  else
    match x.ilvInForce r with
    | 0 => ((p / 16) % 16, p % 16, 256 * (r % 16) + 128 * (r / 16) + p / 256)
    | 1 => ((p / 16) % 8, p % 16, 256 * (r % 16) + p / 128)
    | _ => (8 + (p / 16) % 8, p % 16, 256 * (r % 16) + p / 128)

/-- The region exists in the slice (R298). -/
def Tile.regionPresent (x : Tile) (r : Nat) : Bool := !x.degraded || r < 2 * x.remaining.length

/-- The highest region present, which holds the reserved area in its top 8 MiB (R423). -/
def Tile.topRegion (x : Tile) : Nat := if x.degraded then 2 * x.remaining.length - 1 else 31

/-- Local address of the first byte of a tile's reserved area (R423). -/
def Tile.reservedAt (x : Tile) (t : TileRef) : Nat := pageAddr t (32768 * (x.topRegion + 1)) - 8 * 2 ^ 20

/-- The tile image goes into a tile's code page (R423, R427). -/
def State.writeCode (s : State) (t : TileRef) : State :=
  { s with mem := cellWrite s.mem ((s.tile t).reservedAt t) s.sec.tileImage }

/-- Bits corrected per page under a strength code (R290). -/
def strength (t : BitVec 3) : Nat := ([8, 16, 24, 32, 48, 64][t.toNat]?).getD 0

/-- The first 15t bits of a check area, the rest zero (R290). -/
def checkBits (t : Nat) (area : List Byte) : List Byte := bytesLE 128 (natLE area % 2 ^ (15 * t))

/-- The check area that a page's data has when written through the code (R290, R291). -/
def checkArea (g : Region) (data : List Byte) : List Byte :=
  if g.computable then padTo 128 (bytesLE 4 (crc32c data)) else bytesLE 128 (bchParity (strength g.t) data)

/-- Bits in which two byte strings differ. -/
def bitErrors (a b : List Byte) : Nat := ((a.zip b).map fun e => popCount 8 (e.1 ^^^ e.2).toNat).sum

/-- Errors of a stored page against the codeword of some data (R290). -/
def codeErrors (g : Region) (data area word : List Byte) : Nat :=
  bitErrors data word + bitErrors (checkBits (strength g.t) area) (checkArea g word)

/-- Decode of a protected page (R290): the one codeword within t errors, that of the stored data or of what the row held before a
RAW_WRITE where it is one of these. -/
def bchDecode (g : Region) (data area was : List Byte) : Option (List Byte × Nat) :=
  let t := strength g.t
  match ([data, was].map fun w => (w, codeErrors g data area w)).find? fun e => e.2 ≤ t with
  | some r => some r
  | none => bchNearest t data (natLE area % 2 ^ (15 * t))

/-- Key of the region pair of a tile among the coupled pairs of R409. -/
def regionKey (t : TileRef) (r : Nat) : Nat := 2 ^ 20 + 16 * t + r % 16

/-- BAR0 offset of a tile's register block (R379). -/
def tileBlock (t : TileRef) : Nat := 0x1000000 + 0x2000 * t

/-! ### Poison (R292) -/

/-- The page's poison bit. -/
def Tile.poisoned (x : Tile) (page : Nat) : Bool := x.mem.poison.contains page

/-- Put a number in a rising list without repeats. -/
def insertRising (n : Nat) : List Nat → List Nat
  | [] => [n]
  | a :: r => if n < a then n :: a :: r else if n = a then a :: r else a :: insertRising n r

/-- Set a page's poison bit once: the event and the counters (R292, R304). -/
def State.poisonPage (s : State) (t : TileRef) (page kind : Nat) : State :=
  if (s.tile t).poisoned page then s
  else
    let s := s.modTile t fun x =>
      { x.count 17 1 with mem := { x.mem with
          poison := insertRising page x.mem.poison
          uncorrectable := x.mem.uncorrectable + 1 } }
    s.raise Ev.memPoisoned (s.tileId t) [w64 (s.tileId t).toNat, w64 (s.self * 2 ^ 46 + pageAddr t page), w64 kind]

/-- Count a corrected page; heavy correction raises its event at most once per slice per minute (R286). -/
def State.correctedPage (s : State) (t : TileRef) (page bits : Nat) : State :=
  let s := s.modTile t fun x => { x.count 16 1 with mem := { x.mem with corrected := x.mem.corrected + 1 } }
  let x := s.tile t
  if strength (x.region (regionOf page)).t < 2 * bits && dueAfter x.mem.highAt s.time.now (ms 60000) then
    (s.modTile t fun x => { x with mem := { x.mem with highAt := some s.time.now } }).raise Ev.memCorrectedHigh (s.tileId t)
      [w64 (s.tileId t).toNat, w64 page, w64 bits]
  else s

/-- Count a page moved over a near or far channel of its slice (R444); `write` for a page written. -/
def State.pageMoved (s : State) (t : TileRef) (page : Nat) (write : Bool) : State :=
  s.modTile t fun x =>
    let near := (x.pageLoc page).1 < 8
    x.act (if near then (if write then 13 else 12) else (if write then 15 else 14)) 1

/-! ### Access to a page -/

/-- The outcome that stops any access to a page before it is read: the stack out (R89), a region absent (R298), a coupled
pair that disagrees (R279), reinitialisation (R280), a held layer (R301). -/
def State.pageStop (s : State) (t : TileRef) (page : Nat) : Option (Code × Code) :=
  let x := s.tile t
  let r := regionOf page
  if !s.stackUp (t / 64) then some (St.notReady, 0)
  else if !x.regionPresent r then some (St.range, Rs.channelOut)
  else if !x.ilvAgrees r then some (St.configMismatch, 0)
  else if (x.region r).init then some (St.notReady, Rs.regionInit)
  else if x.mem.hold = some (x.pageLoc page).1 then some (St.notReady, Rs.repairHold)
  else none

/-- Note the use of a region pair (R408). -/
def State.useRegion (s : State) (t : TileRef) (page : Nat) : State :=
  let r := regionOf page % 16
  s.coupledUse (regionKey t r) ((s.tile t).ilvAgrees r) (0x3F0000000000 + tileBlock t + 0x300 + 8 * r)
    (0x3F0000000000 + tileBlock t + 0x300 + 8 * (r + 16)) (s.tileId t)

/-- The page's channel is failing (R299). -/
def Tile.pageFailing (x : Tile) (page : Nat) : Bool := (x.channel (x.pageLoc page).1).state = 2

/-- The stored check area of a page whose row was written raw, and what its decode gives; a page written through the code
decodes clean. -/
def State.decodePage (s : State) (t : TileRef) (page : Nat) : Option (List Byte × Nat) :=
  let x := s.tile t
  let data := cellRead s.mem (pageAddr t page) pageSize
  if x.mem.marched.contains page then none
  else match kvFind x.mem.raw page with
    | none => some (data, 0)
    | some (area, was) =>
      let g := x.region (regionOf page)
      if g.computable then (if area.take 4 = bytesLE 4 (crc32c data) then some (data, 0) else none) else bchDecode g data area was

/-- A page written whole through the code: its poison bit clears, and what the repair window left of it is gone (R287, R292,
R301). -/
def State.putPage (s : State) (t : TileRef) (page : Nat) (data : List Byte) : State :=
  (({ s with mem := cellWrite s.mem (pageAddr t page) data } : State).pageMoved t page true).modTile t fun x =>
    { x with mem := { x.mem with
        poison := x.mem.poison.filter (· ≠ page), marched := x.mem.marched.filter (· ≠ page), raw := kvErase x.mem.raw page } }

/-- Near pages of a region (R277, R278, R298). -/
def Tile.nearPages (x : Tile) (r : Nat) : Nat :=
  if x.degraded then 16 * ((List.range 2048).filter fun k => (x.pageLoc (32768 * r + 16 * k)).1 < 8).length
  else match x.ilvInForce r with
    | 0 => 16384
    | 1 => 32768
    | _ => 0

/-- Every page of a region is written: the near and the far ones count (R280, R283, R444). -/
def Tile.countRegion (x : Tile) (r : Nat) : Tile := (x.act 13 (x.nearPages r)).act 15 (32768 - x.nearPages r)

/-- A corrected page written back, its check area made anew: a repair write, or a scrub's write-back (R286, R289, R294). -/
def State.rewritePage (s : State) (t : TileRef) (page : Nat) (data : List Byte) : State :=
  (({ s with mem := cellWrite s.mem (pageAddr t page) data } : State).pageMoved t page true).modTile t fun x =>
    { x with mem := { x.mem with raw := kvErase x.mem.raw page } }

/-- Narrow writes that wait on a page whose verdict is uncorrectable end POISONED; they are the host's, which counts them (R288,
R382). -/
def State.loseNarrow (s : State) (t : TileRef) (page : Nat) : State :=
  (s.modTile t fun x => { x with mem := { x.mem with narrow := kvErase x.mem.narrow page } }).hostFault St.poisoned 0 1
    (s.self * 2 ^ 46 + pageAddr t page)

/-- The narrow writes that wait on a page meet its verdict: joined writes that cover the page are written whole, whatever it is; others
are merged in one read-modify-write, or end POISONED (R288). `counted` tells that the verdict's correction has been counted already
(R286). -/
def State.mergeNarrow (s : State) (t : TileRef) (page : Nat) (counted : Bool := false) : State :=
  match kvFind (s.tile t).mem.narrow page with
  | none => s
  | some ws =>
    if (s.pageStop t page).isSome then s else
    let put := fun (data : List Byte) => ws.foldl (fun d w => d.set w.1 w.2) data
    let gone := fun (s : State) (whole : Bool) => s.modTile t fun x => { x with mem := { x.mem with
      narrow := kvErase x.mem.narrow page
      rmw := if whole then x.mem.rmw else x.mem.rmw + 1
      whole := if whole then x.mem.whole + 1 else x.mem.whole } }
    if (List.range pageSize).all fun o => ws.any fun w => w.1 = o then
      gone (s.putPage t page (put (List.replicate pageSize 0))) true
    else if (s.tile t).poisoned page || (s.tile t).pageFailing page then s.loseNarrow t page
    else match s.decodePage t page with
      | none => (s.poisonPage t page 8).loseNarrow t page
      | some (data, bits) =>
        let s := s.pageMoved t page false
        let s := if bits = 0 || counted then s else s.correctedPage t page bits
        gone (s.rewritePage t page (put data)) false

/-- An ordinary access to the page that a bank's Pewter slice reads waits for the slice's boundary (R269). -/
def State.awaitSlice (s : State) (t : TileRef) (page : Nat) : State :=
  match (s.tile t).pewter.busy.find? fun b => b.2.1 = page with
  | none => s
  | some b =>
    if s.time.now < b.2.2.1 then
      (s.modTile t fun x => { x with pewter := { x.pewter with waitAcc := x.pewter.waitAcc + 1 } }).advanceTo b.2.2.1
    else s

/-- What every access to a page begins with: the region pair's use, a slice's boundary, and the narrow writes that wait. -/
def State.meetPage (s : State) (t : TileRef) (page : Nat) : State := ((s.useRegion t page).awaitSlice t page).mergeNarrow t page

/-- A corrected verdict: counted, and the page written back where more than t/2 bits were wrong or `always` (R286, R294). -/
def State.correctPage (s : State) (t : TileRef) (page : Nat) (data : List Byte) (bits : Nat) (always : Bool) : State :=
  let s := s.correctedPage t page bits
  if always || strength ((s.tile t).region (regionOf page)).t < 2 * bits then s.rewritePage t page data else s

/-- Read `len` bytes at an offset of a slice page, with the page's verdict (R284, R292). -/
def readPage (t : TileRef) (page off len kind : Nat) : M (List Byte) := do
  M.upd fun s => s.meetPage t page
  let s ← get
  match s.pageStop t page with
  | some (st, rs) => M.stop st rs kind
  | none =>
    let x := s.tile t
    if x.pageFailing page || x.poisoned page then M.stop St.poisoned 0 kind
    else
      M.upd fun s => s.pageMoved t page false
      if x.mem.marched.isEmpty && x.mem.raw.isEmpty then pure (cellRead s.mem (pageAddr t page + off) len)
      else match s.decodePage t page with
        | none =>
          M.upd fun s => s.poisonPage t page kind
          M.stop St.poisoned 0 kind
        | some (data, bits) =>
          if bits ≠ 0 then M.upd fun s => s.correctPage t page data bits false
          pure ((data.drop off).take len)

/-- A local write to a page that is being fetched from the twin waits until the fetched data has landed (R369). -/
def State.holdWrite (s : State) (a : Nat) (bytes : List Byte) : State :=
  { s with twin := { s.twin with fetching := s.twin.fetching.map fun e =>
      if e.1 = a / pageSize * pageSize then (e.1, e.2 ++ ((List.range bytes.length).zip bytes).map fun b => (a + b.1, b.2)) else e } }

/-- Write bytes at an offset of a slice page: the whole page without a read, or the narrow-write path (R287, R288). -/
def writePage (t : TileRef) (page off kind : Nat) (bytes : List Byte) : M Unit := do
  M.upd fun s => s.meetPage t page
  let s ← get
  match s.pageStop t page with
  | some (st, rs) => M.stop st rs kind
  | none =>
    let x := s.tile t
    if s.twin.fetching.any fun e => e.1 = pageAddr t page then M.upd fun s => s.holdWrite (pageAddr t page + off) bytes
    else if x.pageFailing page then M.stop St.poisoned 0 kind
    else if off = 0 ∧ bytes.length = pageSize then M.upd fun s => s.putPage t page bytes
    else if x.poisoned page then M.stop St.poisoned 0 kind
    else match s.decodePage t page with
      | none =>
        M.upd fun s => s.poisonPage t page kind
        M.stop St.poisoned 0 kind
      | some (data, bits) =>
        if bits ≠ 0 then M.upd fun s => s.correctedPage t page bits
        M.upd fun s => { s with mem := if bits ≠ 0 then cellWrite s.mem (pageAddr t page) data else s.mem }
        M.upd fun s =>
          let s := { s with mem := cellWrite s.mem (pageAddr t page + off) bytes }
          ((s.pageMoved t page false).pageMoved t page true).modTile t fun x =>
            { x with mem := { x.mem with
                rmw := x.mem.rmw + 1
                raw := kvErase x.mem.raw page } }

/-- Bytes of a narrow write wait for their page's verdict; once the writes that wait cover the page, it is written whole (R288). -/
def State.waitNarrow (s : State) (t : TileRef) (page off : Nat) (bytes : List Byte) : State :=
  let s := s.modTile t fun x => { x with mem := { x.mem with
    narrow := kvMod x.mem.narrow page [] (· ++ ((List.range bytes.length).zip bytes).map fun b => (off + b.1, b.2)) } }
  match kvFind (s.tile t).mem.narrow page with
  | some ws => if (List.range pageSize).all fun o => ws.any fun w => w.1 = o then s.mergeNarrow t page else s
  | none => s

/-- The parts of `n` bytes from an address, cut at multiples of `size`: (address, length), at most `fuel` of them. -/
def cutAt (size : Nat) : Nat → Nat → Nat → List (Nat × Nat)
  | 0, _, _ => []
  | fuel + 1, a, n =>
    if n = 0 then [] else
      let k := min n (size - a % size)
      (a, k) :: cutAt size fuel (a + k) (n - k)

/-- The page parts of an access (R284). -/
def pageParts (a n : Nat) : List (Nat × Nat) := cutAt pageSize (n / pageSize + 2) a n

/-- Read bytes of own stack memory by local address. -/
def readStack (a n kind : Nat) : M (List Byte) := do
  let parts ← (pageParts a n).mapM fun p =>
    readPage (tileOfLocal p.1) (p.1 % 2 ^ 31 / pageSize) (p.1 % pageSize) p.2 kind
  pure parts.flatten

/-- Write bytes of own stack memory by local address, page by page; earlier pages stay written (R109). -/
def writeStack (a kind : Nat) (bytes : List Byte) : M Unit :=
  (pageParts a bytes.length).forM fun p =>
    writePage (tileOfLocal p.1) (p.1 % 2 ^ 31 / pageSize) (p.1 % pageSize) kind ((bytes.drop (p.1 - a)).take p.2)

/-- Whether a local address lies in stack memory. -/
def isStack (a : Nat) : Bool := a < stackEnd

/-- The region of a local address holds protected pages (R280). -/
def State.protectedAt (s : State) (a : Nat) : Bool :=
  isStack a && !((s.tile (tileOfLocal a)).region (regionOf (a % 2 ^ 31 / pageSize))).computable

end Sys2Proof.Machine
end

