-- ==== Sys2Proof/Machine/Translate.lean ====
section
/-! DEFINITION. Sys2Proof/Machine/Translate.lean: translation of device virtual addresses: contexts and their seals (R97,
R98), the limits (R96, R99), the table walk (R100, R101), the translation cache (R102, R103) and the protection bits
(R105). -/

namespace Sys2Proof.Machine

/-- The context, disabled unless set (R97). -/
def State.context (s : State) (ctx : Nat) : Context := kvGet s.units.contexts (ctx % 4096) {}

/-- The two seals of a context agree (R98). -/
def Context.sealed (c : Context) : Bool := c.baseSeal = c.limitSeal

/-- Local address of a context's entry among the Brass-resident tables. DESIGN CHOICE, log entry 8: the contexts stand at
the start of the tables. -/
def contextAddr (ctx : Nat) : Nat := 0x3E0000000000 + 32 * ctx

/-- The 32 bytes of a context's entry (R97). -/
def contextBytes (c : Context) : List Byte :=
  padTo 32 (bytesLE 8 (c.root + c.baseSeal.toNat * 2 ^ 56) ++ bytesLE 8 (c.pos + c.neg * 2 ^ 16 + c.limitSeal.toNat * 2 ^ 56))

/-- A use of a context checks its seals (R98, R408). -/
def State.useContext (s : State) (ctx : Nat) : State :=
  s.coupledUse ctx (s.context ctx).sealed (contextAddr ctx) (contextAddr ctx + 8) (pkgUnit s.self)

/-- Bits [63:57] of a DVA all equal bit 56 (R96). -/
def canonical (dva : BitVec 64) : Bool := bitsOf dva 63 56 = 0 || bitsOf dva 63 56 = 255

/-- Root index of a DVA (R99). -/
def rootIndex (dva : BitVec 64) : Nat := bitsOf dva 56 48

/-- The root index lies in a usable range (R97, R99). -/
def Context.reaches (c : Context) (dva : BitVec 64) : Bool := rootIndex dva < c.pos || 512 - c.neg ≤ rootIndex dva

/-- What a table entry says at a level (R101). -/
inductive EntryKind where
  | notMapped
  | bad
  | node (next : Nat)
  /-- Leaf: page base, log2 of the page size, bits [7:2]. -/
  | leaf (base size : Nat) (prot : BitVec 6)
  deriving DecidableEq, Repr

/-- Decode a table entry at level 3, 2, 1 or 0 (R101). -/
def tableEntry (level : Nat) (e : BitVec 64) : EntryKind :=
  if !bitAt e 0 then .notMapped
  else if !bitAt e 1 then
    if level = 0 || bitsOf e 11 2 ≠ 0 || bitsOf e 63 56 ≠ 0 then .bad else .node (bitsOf e 55 12 * 4096)
  else if level ≥ 2 || bitsOf e 9 8 ≠ 0 || bitsOf e 63 56 ≠ 0 then .bad
  else if level = 1 then
    if bitsOf e 29 10 ≠ 0 || bitAt e 4 then .bad else .leaf (bitsOf e 55 30 * 2 ^ 30) 30 (BitVec.ofNat 6 (bitsOf e 7 2))
  else .leaf (bitsOf e 55 21 * 2 ^ 21) 21 (BitVec.ofNat 6 (bitsOf e 7 2))

/-- Index of a DVA at a level (R100). -/
def levelIndex (level : Nat) (dva : BitVec 64) : Nat := bitsOf dva (29 + 9 * level) (21 + 9 * level)

/-- Local address of a node that lies in this package's stack memory, in a protected region (R100). -/
def State.nodeLocal (s : State) (g : Nat) : Option Nat :=
  if g / 2 ^ 46 = s.self && s.protectedAt (g % 2 ^ 46) then some (g % 2 ^ 46) else none

/-- Walk the tables from a node at a level (R100); the answer is the leaf with its local address.
An entry that does not map or is bad is a fault of the access; a node that cannot be read is one of the walk (R110, R293). -/
def walk (dva : BitVec 64) (kind : Nat) : Nat → Nat → M (Nat × Nat × BitVec 6 × Nat)
  | 0, node => do
    match (← get).nodeLocal node with
    | none => M.stop St.range Rs.badTable 3 dva
    | some a =>
      let la := a + 8 * levelIndex 0 dva
      let e := w64 (natLE (← readStack la 8 3))
      match tableEntry 0 e with
      | .notMapped => M.stop St.range Rs.notMapped kind dva
      | .bad => M.stop St.range Rs.badEntry kind dva
      | .node _ => M.stop St.range Rs.badEntry kind dva
      | .leaf b z p => pure (b, z, p, la)
  | level + 1, node => do
    match (← get).nodeLocal node with
    | none => M.stop St.range Rs.badTable 3 dva
    | some a =>
      let la := a + 8 * levelIndex (level + 1) dva
      let e := w64 (natLE (← readStack la 8 3))
      match tableEntry (level + 1) e with
      | .notMapped => M.stop St.range Rs.notMapped kind dva
      | .bad => M.stop St.range Rs.badEntry kind dva
      | .node n => walk dva kind level n
      | .leaf b z p => pure (b, z, p, la)

/-- An entry maps a DVA in a context (R102). -/
def XEntry.maps (e : XEntry) (ctx : Nat) (dva : BitVec 64) : Bool :=
  e.ctx = ctx && e.dva / 2 ^ e.size = dva.toNat / 2 ^ e.size

/-- The checks that come before the cache: canonical form, seals, context and limits (R96, R98, R99). -/
def contextCheck (ctx : Nat) (dva : BitVec 64) (kind : Nat) : M Unit := do
  if !canonical dva then M.stop St.range Rs.nonCanonical kind dva
  M.upd fun s => s.useContext ctx
  let c := (← get).context ctx
  if !c.sealed then M.stop St.configMismatch 0 kind dva
  if c.root = 0 then M.stop St.range Rs.noContext kind dva
  if !c.reaches dva then M.stop St.range Rs.beyondLimit kind dva

/-- Translate a DVA for a tile: a hit moves the entry to the front, a miss walks and fills, dropping the least recently
used of 512 (R102). -/
def translate (t : TileRef) (ctx : Nat) (dva : BitVec 64) (kind : Nat) : M XEntry := do
  let ctx := ctx % 4096
  contextCheck ctx dva kind
  match ((← get).tile t).xlt.find? (fun e => e.maps ctx dva) with
  | some e =>
    M.upd fun s => s.modTile t fun x => { x.count 13 1 with xlt := e :: x.xlt.filter (fun k => !(k.maps ctx dva)) }
    pure e
  | none =>
    M.upd fun s => s.modTile t fun x => x.count 14 1
    let (b, z, p, la) ← walk dva kind 3 ((← get).context ctx).root
    let e : XEntry := { ctx, dva := dva.toNat / 2 ^ z * 2 ^ z, size := z, base := b, prot := p, leaf := la }
    M.upd fun s => s.modTile t fun x => { x with xlt := (e :: x.xlt).take 512 }
    pure e

/-- Translate without the cache and without trace, as an agent that has no tile does: host commands, arrivals and Brass. -/
def translatePlain (ctx : Nat) (dva : BitVec 64) (kind : Nat) : M XEntry := do
  let ctx := ctx % 4096
  contextCheck ctx dva kind
  let (b, z, p, la) ← walk dva kind 3 ((← get).context ctx).root
  pure { ctx, dva := dva.toNat / 2 ^ z * 2 ^ z, size := z, base := b, prot := p, leaf := la }

/-- Global address of a DVA under an entry. -/
def XEntry.global (e : XEntry) (dva : BitVec 64) : Nat := e.base + dva.toNat % 2 ^ e.size

/-- `READ` (R105). -/
def XEntry.canRead (e : XEntry) : Bool := e.prot.getLsbD 0
/-- `WRITE`. -/
def XEntry.canWrite (e : XEntry) : Bool := e.prot.getLsbD 1
/-- `APPEND_ONLY`. -/
def XEntry.appendOnly (e : XEntry) : Bool := e.prot.getLsbD 2
/-- `COMPUTABLE`. -/
def XEntry.computable (e : XEntry) : Bool := e.prot.getLsbD 3
/-- `REMOTE`. -/
def XEntry.remote (e : XEntry) : Bool := e.prot.getLsbD 4
/-- `TWIN_MIRRORED`. -/
def XEntry.mirrored (e : XEntry) : Bool := e.prot.getLsbD 5

/-- Remove from a tile's cache the entries of a context that map a byte of [lo, hi), or all of them (R103, R104). -/
def Tile.invalidate (x : Tile) (ctx : Nat) (range : Option (Nat × Nat)) : Tile :=
  { x with xlt := x.xlt.filter fun e =>
      !(e.ctx = ctx && match range with
        | none => true
        | some (lo, hi) => lo < e.dva + 2 ^ e.size && e.dva < hi) }

/-- Remove a context's entries from every tile's cache (R98). -/
def State.invalidateContext (s : State) (ctx : Nat) : State :=
  { s with tiles := s.tiles.map fun e => (e.1, e.2.invalidate ctx none) }

/-- Check and advance the append mark of an `APPEND_ONLY` leaf for a write of [a, b) within its page, as one action on the
entry (R106). -/
def appendMark (e : XEntry) (dva : BitVec 64) (a b kind : Nat) : M Unit := do
  let w := w64 (natLE (← readStack e.leaf 8 3))
  let mark := bitsOf w 20 10
  if a < mark * pageSize then M.stop St.range Rs.appendBehind kind dva
  let m' := max mark (ceilDiv b pageSize)
  if m' ≠ mark then
    writeStack e.leaf 3 (bytesLE 8 (w.toNat - mark * 1024 + m' * 1024))

end Sys2Proof.Machine
end

