-- ==== Sys2Proof/Machine/Checks.lean ====
section
/-! DEFINITION. Sys2Proof/Machine/Checks.lean: the checks of admission (R124), opcode by opcode: the Reserved fields, the ranges
that each chapter's table states, and the work-store and accumulator ranges that are known before the descriptor starts. -/

namespace Sys2Proof.Machine

/-- What admission knows of an opcode (R125): its queue, its Reserved fields (byte, high bit, low bit), whether the other
fields are in range, the work-store ranges it names, the accumulator rows it uses, and whether its `TARGET` must be zero. -/
structure OpForm where
  queue : EngineQ
  reserved : List (Nat × Nat × Nat)
  rangeOk : Bool := true
  ws : List (Nat × Nat) := []
  acc : Option (Nat × Nat) := none
  targetZero : Bool := false
  deriving DecidableEq, Repr

/-- Chunk length and cycles per chunk of two operand formats (R129). -/
def chunkOf (fa fb : Nat) : Nat × Nat :=
  let w := max (fmtBits fa) (fmtBits fb)
  if w = 16 then (64, 2) else if w = 4 then (256, 1) else (128, 1)

/-- A matrix-engine operand format (R129, R177). -/
def mxFmt (f : Nat) : Bool := 1 ≤ f && f ≤ 8

/-- NOP (R123). -/
def nopForm (d : BitVec 512) : OpForm :=
  { queue := .sequencer, reserved := [], rangeOk := bitsOf d 511 128 = 0 }

/-- Step a RECEIVE_FENCE awaits, given its plan's logical step: none outside 0 to 2^48 − 2 (R59). -/
def fenceStep (d : BitVec 512) (step : Nat) : Option Nat :=
  let z : Int := if fld d 16 4 4 = 1 then signedOf 48 (fld d 24 47 0) + step else fld d 24 47 0
  if 0 ≤ z ∧ z < 2 ^ 48 - 1 then some z.toNat else none

/-- RECEIVE_FENCE (R58, R59). -/
def receiveFenceForm (d : BitVec 512) (step : Nat) : OpForm :=
  { queue := .sequencer
    reserved := [(16, 7, 5), (17, 7, 0), (18, 15, 0), (30, 15, 0), (36, 223, 0)]
    rangeOk := fld d 20 31 0 ≠ 0 && (fenceStep d step).isSome }

/-- XLT_INVALIDATE (R104). -/
def xltForm (d : BitVec 512) : OpForm :=
  let all := fld d 32 13 13 = 1
  { queue := .sequencer
    reserved := [(32, 31, 14), (36, 223, 0)]
    rangeOk := (all || (fld d 24 63 0 ≠ 0 && canonical (w64 (fld d 16 63 0)))) && (fld d 32 12 12 = 0 || fld d 32 11 0 = 0) }

/-- MATMUL (R134, R135). -/
def matmulForm (d : BitVec 512) : OpForm :=
  let fa := fld d 32 3 0
  let fb := fld d 32 7 4
  let sa := fld d 33 1 0
  let sb := fld d 33 3 2
  let m := fld d 36 10 0
  let nb := fld d 38 10 0
  let kc := fld d 40 13 0
  { queue := .matrix
    reserved := [(16, 31, 21), (20, 31, 21), (24, 31, 21), (28, 31, 21), (33, 7, 5), (34, 15, 10), (36, 15, 11), (38, 15, 11),
      (40, 15, 14), (42, 15, 9), (44, 15, 6), (48, 127, 0)]
    rangeOk := mxFmt fa && mxFmt fb && scaleAllowed fa sa && scaleAllowed fb sb && 1 ≤ m && m ≤ 1024 && 1 ≤ nb && nb ≤ 1024
      && 1 ≤ kc && kc ≤ 8192 && fld d 42 8 0 ≤ (chunkOf fa fb).1 && fld d 44 5 0 ≤ 32
      && fld d 16 6 0 = 0 && fld d 20 6 0 = 0 && (sa = 0 || fld d 24 3 0 = 0) && (sb = 0 || fld d 28 3 0 = 0)
    ws := [(fld d 16 20 0, kc * m * 128), (fld d 20 20 0, nb * kc * 32 * 128)]
      ++ (if sa = 0 then [] else [(fld d 24 20 0, kc * m * 16)])
      ++ (if sb = 0 then [] else [(fld d 28 20 0, nb * kc * 32 * 16)])
    acc := some (fld d 34 9 0, m * nb) }

/-- Value of a field where zero means `n`. -/
def zeroMeans (v n : Nat) : Nat := if v = 0 then n else v

/-- Slots of a BCAST operand up to the last one in which a drained row falls (R141). -/
def drainSlots (fmt rows m : Nat) : Nat :=
  let per := (chunkOf fmt fmt).1 / 32 * m
  let last := (rows - 1) / per
  last * m + min m (rows - last * per)

/-- ACC_DRAIN (R140, R141). -/
def drainForm (d : BitVec 512) : OpForm :=
  let fmt := fld d 21 3 0
  let sm := fld d 21 5 4
  let bcast := fld d 21 6 6 = 1
  let rows := fld d 18 10 0
  let cols := zeroMeans (fld d 20 5 0) 32
  let pitch := fld d 36 17 0
  let m := fld d 40 10 0
  { queue := .matrix
    reserved := [(16, 15, 10), (18, 15, 11), (20, 7, 6), (22, 15, 0), (28, 31, 21), (32, 31, 21), (36, 31, 18), (40, 15, 11),
      (42, 175, 0)]
    rangeOk := fmt ≤ 8 && scaleAllowed fmt sm && 1 ≤ rows && rows ≤ 1024 && cols ≤ 32 && (8 ≤ fmtBits fmt || cols = 32)
      && (if bcast then mxFmt fmt && 1 ≤ m && m ≤ 1024 else runBytes fmt cols ≤ pitch)
    ws := if bcast then
        [(fld d 28 20 0, drainSlots fmt rows m * 128)] ++ (if sm = 0 then [] else [(fld d 32 20 0, drainSlots fmt rows m * 16)])
      else
        [(fld d 28 20 0, (rows - 1) * pitch + runBytes fmt cols)]
          ++ (if sm = 0 then [] else [(fld d 32 20 0, rows * scaleCount sm cols)])
    acc := some (fld d 16 9 0, rows) }

/-- GEMM (R142). -/
def gemmForm (d : BitVec 512) : OpForm :=
  { queue := .matrix
    reserved := [(40, 31, 21), (44, 31, 21), (48, 15, 10), (50, 15, 11), (52, 7, 1), (53, 7, 4), (54, 15, 0), (60, 31, 0)]
    rangeOk := fld d 40 6 0 = 0 && 1 ≤ fld d 44 20 0 && fld d 44 20 0 ≤ wsSize && 16 ≤ fld d 50 10 0 && fld d 50 10 0 ≤ 1024
      && fld d 53 3 0 ≠ 0
    ws := [(fld d 40 20 0, fld d 44 20 0)]
    acc := some (fld d 48 9 0, fld d 50 10 0) }

/-- Operations of R145. -/
def vopOk (v : Nat) : Bool := [1, 2, 3, 4, 5, 6, 8, 9, 10, 11, 12, 16, 17, 18, 19, 20, 21].contains v

/-- The operation answers one value per row (R145). -/
def vopReduces (v : Nat) : Bool := [16, 17, 18, 20, 21].contains v

/-- The operation reads operand b. -/
def vopUsesB (v : Nat) : Bool := [1, 2, 3, 4, 5, 8, 12, 19].contains v

/-- Row pitch of `n` elements of a format, rounded up to 4 bytes (R145). -/
def vecPitch (fmt n : Nat) : Nat := ceilDiv (fmtBits fmt / 8 * n) 4 * 4

/-- Output format of a VECTOR: INT32 is forced for the index results (R146). -/
def vecOut (d : BitVec 512) : Nat := if fld d 16 7 0 = 20 || fld d 16 7 0 = 21 then 9 else fld d 17 7 4

/-- Work-store bytes of `rows` rows of `n` elements. -/
def vecBytes (fmt rows n : Nat) : Nat := (rows - 1) * vecPitch fmt n + fmtBits fmt / 8 * n

/-- VECTOR (R145 to R147). -/
def vectorForm (d : BitVec 512) : OpForm :=
  let v := fld d 16 7 0
  let fi := fld d 17 3 0
  let fo := vecOut d
  let n := fld d 36 20 0
  let rows := fld d 40 15 0
  let bImm := fld d 18 0 0 = 1
  let bRow := fld d 18 1 1 = 1
  { queue := .vector
    reserved := [(18, 15, 2), (20, 31, 21), (24, 31, 21), (28, 31, 21), (36, 31, 21), (42, 175, 0)]
    rangeOk := vopOk v && fi ≤ 2 && (v = 20 || v = 21 || fo ≤ 4 || fo = 7) && 1 ≤ n && n ≤ 1048576 && 1 ≤ rows
      && fld d 20 1 0 = 0
    ws := [(fld d 20 20 0, vecBytes fi rows n), (fld d 28 20 0, if vopReduces v then vecBytes fo rows 1 else vecBytes fo rows n)]
      ++ (if vopUsesB v && !bImm then
            [(fld d 24 20 0, if v = 19 then vecBytes fi (if bRow then 1 else rows) 1 else vecBytes fi (if bRow then 1 else rows) n)]
          else []) }

/-- MERGE (R247). -/
def mergeForm (d : BitVec 512) : OpForm :=
  { queue := .vector
    reserved := [(40, 15, 13), (42, 7, 4), (43, 167, 0)]
    rangeOk := 1 ≤ fld d 40 12 0 && fld d 40 12 0 ≤ 4096 && fld d 42 3 0 ≤ 2 && fld d 16 10 0 = 0 && fld d 32 10 0 = 0 }

/-- LOAD and STORE (R190, R185 to R188). -/
def loadStoreForm (d : BitVec 512) (store : Bool) : OpForm :=
  let f := fld d 32 3 0
  let lay := fld d 33 1 0
  let chan := fld d 34 5 4
  { queue := .dma chan
    reserved := [(24, 31, 21), (28, 31, 21), (32, 7, 6), (33, 7, 4), (34, 7, 6), (35, 3, 3), (36, 31, 18), (44, 159, 0)]
    rangeOk := scaleAllowed f (fld d 32 5 4) && lay ≠ 3 && fld d 32 5 4 ≠ 3
      && (lay = 0 || (mxFmt f && mxFmt (fld d 34 3 0) && fld d 24 6 0 = 0 && (fld d 32 5 4 = 0 || fld d 28 3 0 = 0)))
      && (if store then lay = 0 && fld d 33 3 3 = 0 else fld d 35 2 0 = 0) }

/-- COPY (R191). -/
def copyForm (d : BitVec 512) : OpForm :=
  { queue := .dma (fld d 32 1 0), reserved := [(32, 7, 3), (33, 3, 3), (34, 239, 0)] }

/-- GATHER and SCATTER (R199). -/
def gatherForm (d : BitVec 512) (scatter : Bool) : OpForm :=
  let f := fld d 40 3 0
  let lay := fld d 41 1 0
  { queue := .dma (fld d 42 3 2)
    reserved := [(32, 31, 21), (36, 31, 21), (40, 7, 6), (41, 7, 5), (42, 7, 7), (44, 31, 18), (52, 95, 0)]
    rangeOk := f ≤ 8 && scaleAllowed f (fld d 40 5 4) && fld d 40 5 4 ≠ 3
      && (if scatter then lay = 0 else (lay = 0 || lay = 1) && fld d 42 6 4 = 0)
      && (lay = 0 || (mxFmt f && mxFmt (fld d 43 7 4) && fld d 32 6 0 = 0 && (fld d 40 5 4 = 0 || fld d 36 3 0 = 0))) }

/-- KV_APPEND (R217). -/
def appendForm (d : BitVec 512) : OpForm :=
  { queue := .attention, reserved := [(32, 15, 13), (34, 7, 2), (35, 231, 0)], targetZero := true
    rangeOk := 1 ≤ fld d 32 12 0 && fld d 32 12 0 ≤ 4096 && fld d 34 1 0 ≠ 3 }

/-- ATTENTION (R231). -/
def attentionForm (d : BitVec 512) : OpForm :=
  { queue := .attention, reserved := [(36, 15, 13), (38, 15, 9), (41, 23, 0), (48, 31, 24), (52, 95, 0)]
    rangeOk := fld d 24 10 0 = 0 && fld d 32 10 0 = 0 && 1 ≤ fld d 36 12 0 && fld d 36 12 0 ≤ 4096
      && 2 ≤ fld d 38 8 0 && fld d 38 8 0 ≤ 256 && 1 ≤ fld d 40 6 0 && fld d 40 6 0 ≤ 64 }

/-- Elements of a weight page (R254); 0 for a combination that R252 does not allow. -/
def pewterKs (fmt smode : Nat) : Nat :=
  if fmt = 6 || fmt = 8 then ([4096, 3840, 3584][smode]?).getD 0
  else if fmt = 3 then ([2048, 1984, 1920][smode]?).getD 0
  else if fmt = 7 then ([2048, 1984][smode]?).getD 0
  else 0

/-- PEWTER_MV (R256, R257). -/
def pewterForm (d : BitVec 512) : OpForm :=
  let ks := pewterKs (fld d 32 3 0) (fld d 32 5 4)
  let v := fld d 33 6 4
  let rows := fld d 36 11 0
  let cnt := fld d 42 15 0
  let k1 := cnt * ks
  let outWs := fld d 34 6 6 = 1
  let vload := fld d 34 5 5 = 1
  let stride := fld d 52 31 0
  { queue := .pewter, targetZero := true
    reserved := [(32, 7, 6), (33, 7, 7), (35, 7, 0), (36, 15, 12), (44, 31, 21), (56, 15, 12), (58, 47, 0)]
    rangeOk := ks ≠ 0 && (fld d 33 3 0 = 1 || fld d 33 3 0 = 2) && 1 ≤ v && v ≤ 4 && rows * v ≤ 2048 && cnt ≠ 0
      && fld d 40 15 0 + cnt ≤ fld d 38 15 0 && fld d 56 11 0 ≤ ks && v * k1 * 2 ≤ 65536 && stride % 4 = 0 && 4 * rows ≤ stride
      && fld d 16 10 0 = 0 && fld d 24 1 0 = 0 && (!outWs || fld d 24 63 21 = 0) && (rows ≠ 0 || vload) && fld d 44 1 0 = 0
    ws := (if vload then [(fld d 44 20 0, v * k1 * 2)] else [])
      ++ (if outWs && rows ≠ 0 then [(fld d 24 20 0, (v - 1) * stride + 4 * rows)] else []) }

/-- FENCE (R263). -/
def fenceForm (d : BitVec 512) : OpForm :=
  { queue := .pewter, reserved := [(18, 367, 0)], targetZero := true, rangeOk := fld d 16 15 0 ≠ 0 }

/-- The form of a descriptor, by its opcode (R125); none for any other value. -/
def opForm (d : BitVec 512) (step : Nat) : Option OpForm :=
  match dOpcode d with
  | 0x01 => some (nopForm d)
  | 0x02 => some (receiveFenceForm d step)
  | 0x03 => some (xltForm d)
  | 0x10 => some (matmulForm d)
  | 0x11 => some (drainForm d)
  | 0x12 => some (gemmForm d)
  | 0x18 => some (vectorForm d)
  | 0x19 => some (mergeForm d)
  | 0x20 => some (loadStoreForm d false)
  | 0x21 => some (loadStoreForm d true)
  | 0x22 => some (copyForm d)
  | 0x23 => some (gatherForm d false)
  | 0x24 => some (gatherForm d true)
  | 0x30 => some (appendForm d)
  | 0x31 => some (attentionForm d)
  | 0x40 => some (pewterForm d)
  | 0x41 => some (fenceForm d)
  | _ => none

/-- Units of `SIG` fields in range (R124). -/
def signalOk (d : BitVec 512) : Bool := !(dSigEn d && dSigAmount d = 0) && !(dSigRemote d && 23 < dSigStack d)

/-- The first check of R124 that a descriptor fails, in the order of its table. -/
def admitCheck (d : BitVec 512) (step : Nat) : Option Outc :=
  match opForm d step with
  | none => some (outc St.rejected Rs.badOpcode)
  | some f =>
    if !headerReserved d || f.reserved.any (fun r => !fldZero d r.1 r.2.1 r.2.2) then some (outc St.rejected Rs.badField)
    else if !signalOk d then some (outc St.rejected Rs.badField)
    else if !f.rangeOk || (f.targetZero && dTarget d ≠ 0) then some (outc St.rejected Rs.badField)
    else if dTarget d ≠ 0 && !unitValid (dTarget d) then some (outc St.rejected Rs.badUnit)
    else if f.ws.any (fun r => !wsFits r.1 r.2) then some (outc St.range Rs.wsBounds)
    else match f.acc with
      | some (a, n) => if 1024 < a + n then some (outc St.range Rs.accBounds) else none
      | none => none

end Sys2Proof.Machine
end

