-- ==== Sys2Proof/Machine/Shapes.lean ====
section
/-! DEFINITION. Sys2Proof/Machine/Shapes.lean: what the times of data movement follow from: tensor descriptors and element addresses
(R179 to R183), the paths of a package and their costs (R102, R281, R287, R515), and the runs and rates of a channel (R196, R197). -/

namespace Sys2Proof.Machine

/-! ### Tensor descriptors (R179, R180) -/

/-- A tensor descriptor (R179): sizes and strides of its `RANK` dimensions. -/
structure TDesc where
  base : Nat
  sclBase : Nat
  fmt : Nat
  smode : Nat
  tscale : BitVec 32
  sizes : List Nat
  strides : List Int
  deriving DecidableEq, Repr

/-- `RANK`. -/
def TDesc.rank (t : TDesc) : Nat := t.sizes.length

/-- Elements per addressing unit (R164). -/
def unitElems (fmt : Nat) : Nat := if fmtBits fmt = 4 then 2 else if fmtBits fmt = 6 then 4 else 1

/-- Bytes per addressing unit. -/
def unitBytes (fmt : Nat) : Nat := if fmtBits fmt = 4 then 1 else if fmtBits fmt = 6 then 3 else fmtBits fmt / 8

/-- The check of R180 that 64 bytes of a tensor descriptor fail, in the order of its table; `fmts` are the formats the role
accepts (R177). -/
def tdCheck (d : BitVec 512) (fmts : Nat → Bool) : Option Outc :=
  let rank := fld d 17 2 0
  let fmt := fld d 16 3 0
  let sm := fld d 16 5 4
  let size := fun k => fld d (24 + 4 * k) 31 0
  let stride := fun k => fld d (44 + 4 * k) 31 0
  let ok := 1 ≤ rank && rank ≤ 5
    && (List.range 5).all (fun k => if k < rank then size k ≠ 0 else size k = 0 && stride k = 0)
    && ((List.range rank).map size).prod ≤ 2 ^ 40
  let u := unitElems fmt
  let strideOk := u = 1 || ((stride 0 = 0 || stride 0 = 1)
    && (List.range rank).all fun k => k = 0 || (signedOf 32 (stride k)) % u = 0)
  if !ok then some (outc St.rejected Rs.badField)
  else if !(fmts fmt && scaleAllowed fmt sm) then some (outc St.rejected Rs.badField)
  else if !strideOk then some (outc St.rejected Rs.badStride)
  else if !fldZero d 16 7 6 || !fldZero d 17 7 3 || !fldZero d 18 15 0 then some (outc St.rejected Rs.badField)
  else none

/-- The fields of a tensor descriptor. -/
def tdOf (d : BitVec 512) : TDesc :=
  let rank := fld d 17 2 0
  { base := fld d 0 63 0, sclBase := fld d 8 63 0, fmt := fld d 16 3 0, smode := fld d 16 5 4
    tscale := BitVec.ofNat 32 (fld d 20 31 0)
    sizes := (List.range rank).map fun k => fld d (24 + 4 * k) 31 0
    strides := (List.range rank).map fun k => signedOf 32 (fld d (44 + 4 * k) 31 0) }

/-! ### Elements (R181 to R183) -/

/-- Element offset of an index (R181). -/
def TDesc.offset (t : TDesc) (ix : List Nat) : Int := ((ix.zip t.strides).map fun e => (e.1 : Int) * e.2).sum

/-- Byte address, place in its unit, and bytes of the unit of an element offset (R162, R163, R181). -/
def TDesc.place (t : TDesc) (e : Int) : Nat × Nat :=
  let u : Int := unitElems t.fmt
  ((((t.base : Int) + e.fdiv u * unitBytes t.fmt) % 2 ^ 64).toNat, (e.fmod u).toNat)

/-- Dense row number over the outer dimensions whose stride is not zero, the innermost fastest (R183). -/
def scaleRow : List (Nat × Nat × Int) → Nat
  | [] => 0
  | (i, n, s) :: r => if s = 0 then scaleRow r else i + n * scaleRow r

/-- Address of the block scale of an index (R183). -/
def TDesc.scaleAddr (t : TDesc) (ix : List Nat) : Nat :=
  let b := blockSize t.smode
  let g := ceilDiv ((t.sizes[0]?).getD 1) b
  let j := if (t.strides[0]?).getD 0 = 0 then 0 else (ix[0]?).getD 0 / b
  let r := scaleRow (((ix.zip (t.sizes.zip t.strides)).drop 1).map fun e => (e.1, e.2.1, e.2.2))
  (t.sclBase + r * g + j) % 2 ^ 64

/-- Every index of a shape, dimension 0 fastest. -/
def indices : List Nat → List (List Nat)
  | [] => [[]]
  | n :: r => (indices r).flatMap fun t => (List.range n).map (· :: t)

/-- Every index of the outer dimensions of a shape. -/
def outerIndices (sizes : List Nat) : List (List Nat) := indices (sizes.drop 1)

/-! ### The two sides of a move -/

/-- One side of a move: format, scale mode and tensor scale. -/
structure SideFmt where
  fmt : Nat
  smode : Nat
  tscale : BitVec 32 := 0
  deriving DecidableEq, Repr

/-- Format and scales of a tensor in memory. -/
def TDesc.side (t : TDesc) : SideFmt := { fmt := t.fmt, smode := t.smode, tscale := t.tscale }

/-- The two sides have one format and scale mode: elements move as they are (R189). -/
def SideFmt.same (a b : SideFmt) : Bool := a.fmt = b.fmt && a.smode = b.smode

/-- The work-store side of a move. -/
structure WsSide where
  base : Nat
  scl : Nat
  side : SideFmt
  layout : Nat
  pitch : Nat
  pair : Nat
  deriving DecidableEq, Repr

/-! ### Paths and their costs (R102, R281, R287, R515) -/

/-- Stack-mesh hops between two stacks (R21). -/
def stackHops (a b : Nat) : Nat := ((a % 6 : Int) - b % 6).natAbs + ((a / 6 : Int) - b / 6).natAbs

/-- Duration of `n` core cycles of a tile as its clock runs now (R6). -/
def State.coreSpan (s : State) (t : TileRef) (n : Nat) : Nat := ceilDiv (cc n * s.slow (s.tile t)) 16

/-- Core time of a tile that passes in a duration, as its clock runs now: a duration in ns keeps its length when the clock is stretched
(R6, R443). -/
def State.inCore (s : State) (t : TileRef) (n : Nat) : Nat := ceilDiv (n * 16) (s.slow (s.tile t))

/-- Time of a message between tiles of the package. -/
def meshDelay (a b : TileRef) : Nat :=
  if a = b then 0 else if a / 64 = b / 64 then ns 180 else ns (350 + 60 * stackHops (a / 64) (b / 64))

/-- Time that the bytes of a message between tiles take (R515). -/
def meshTime (a b : TileRef) (n : Nat) : Nat :=
  if a = b then 0 else if a / 64 = b / 64 then ceilDiv (7 * n) 256 else ceilDiv (7 * n) 2000

/-- The page of a local address of stack memory lies on a near layer (R277, R278). -/
def State.nearAt (s : State) (a : Nat) : Bool := ((s.tile (tileOfLocal a)).pageLoc (a % 2 ^ 31 / pageSize)).1 < 8

/-- Latency of an access of a tile at a local address, in units of 1/7 ns: first data for a read, completion for a write of a whole
page (R281, R287). -/
def State.latency (s : State) (t : TileRef) (write : Bool) (a : Nat) : Nat :=
  if !isStack a then ns 450
  else
    let o := tileOfLocal a
    if o = t then
      if s.nearAt a then ns (if write then 110 else 90) else ns (if write then 116 else 96)
    else if o / 64 = t / 64 then ns (if write then 320 else 180)
    else ns (350 + 60 * stackHops (t / 64) (o / 64))

/-- What a narrow write at a local address takes beyond the write of a whole page (R287). -/
def State.narrowExtra (s : State) (t : TileRef) (a : Nat) : Nat := if tileOfLocal a = t && !s.nearAt a then ns 232 else ns 220

/-- Time of bytes over a tile's path to a local address: 256 GB/s in its own stack, 2.0 TB/s over the stack mesh, 64 GB/s to Brass
(R281). -/
def State.pathTimeTo (_ : State) (t : TileRef) (a n : Nat) : Nat :=
  if !isStack a then ceilDiv (7 * n) 64 else if tileOfLocal a / 64 = t / 64 then ceilDiv (7 * n) 256 else ceilDiv (7 * n) 2000

/-- The translation a tile's access to a DVA uses, taken without trace: the cached entry, or else the tables' (R102). -/
def xltUsed (t : TileRef) (ctx : Nat) (dva : BitVec 64) : M XEntry := do
  match ((← get).tile t).xlt.find? (fun e => e.maps (ctx % 4096) dva) with
  | some e => pure e
  | none => translatePlain ctx dva 1

/-- Own local address that a tile's access to a DVA reaches; none for another package, whose answer is awaited, or no translation. -/
def State.reaches (s : State) (t : TileRef) (ctx : Nat) (dva : BitVec 64) : Option Nat :=
  match ((xltUsed t ctx dva).result s).1 with
  | .ok e => if pkgOf (e.global dva) = s.self then some (localOf (e.global dva)) else none
  | .error _ => none

/-- Local addresses of the table entries that a walk reads, from a node at a level on (R100). -/
def State.walkReads (s : State) (dva : BitVec 64) : Nat → Nat → List Nat
  | 0, node => ((s.nodeLocal node).map fun a => a + 8 * levelIndex 0 dva).toList
  | level + 1, node =>
    match s.nodeLocal node with
    | none => []
    | some a =>
      let la := a + 8 * levelIndex (level + 1) dva
      la :: match tableEntry (level + 1) (w64 (natLE (cellRead s.mem la 8))) with
        | .node n => State.walkReads s dva level n
        | _ => []

/-- Time that the translation of a DVA adds to a tile's access: nothing for a hit, the reads of the walk for a miss (R102). -/
def State.walkTime (s : State) (t : TileRef) (ctx : Nat) (dva : BitVec 64) : Nat :=
  if (s.tile t).xlt.any fun e => e.maps (ctx % 4096) dva then 0
  else ((s.walkReads dva 3 (s.context ctx).root).map (s.latency t false)).sum

/-- Latency of an access of a tile to a DVA (R281, R287). -/
def State.dvaLatency (s : State) (t : TileRef) (ctx : Nat) (write : Bool) (dva : BitVec 64) : Nat :=
  ((s.reaches t ctx dva).map (s.latency t write)).getD 0

/-- Time of bytes over a tile's path to a DVA (R197, R281). -/
def State.dvaPathTime (s : State) (t : TileRef) (ctx : Nat) (dva : BitVec 64) (n : Nat) : Nat :=
  ((s.reaches t ctx dva).map fun a => s.pathTimeTo t a n).getD 0

/-- Time until the tensor descriptors of a descriptor are in, read together (R144, R198). -/
def State.openTime (s : State) (t : TileRef) (ctx : Nat) (tds : List (BitVec 64)) : Nat :=
  ((tds.map fun v => s.walkTime t ctx v + s.dvaLatency t ctx false v).max?).getD 0

/-- The narrow-write time of writes to stretches of DVAs: that of the pages of protected regions that they cover in part (R198, R287). -/
def State.narrowTime (s : State) (t : TileRef) (ctx : Nat) (l : List (Nat × Nat)) : Nat :=
  let ends := l.flatMap fun p => (if p.1 % pageSize = 0 then [] else [p.1])
    ++ if (p.1 + p.2) % pageSize = 0 then [] else [p.1 + p.2 - 1]
  ((((ends.filterMap fun a => s.reaches t ctx (w64 a)).filter s.protectedAt).map (s.narrowExtra t)).max?).getD 0

/-! ### Divisions (R194) -/

/-- Elements of a divided dimension of `n` that a range of granules takes: first and number. -/
def granuleRange (range : Option (Nat × Nat)) (g n : Nat) : Nat × Nat :=
  match range with
  | none => (0, n)
  | some (a, k) => (a * g, min (k * g) (n - a * g))

/-! ### Runs and rates (R196, R197) -/

/-- Part of a tensor moved, and what of it misses the rule of R196: runs, their elements, and elements moved singly. -/
structure Slow where
  runs : Nat := 0
  elems : Nat := 0
  singles : Nat := 0
  deriving DecidableEq, Repr

/-- Two parts together. -/
def Slow.add (a b : Slow) : Slow := { runs := a.runs + b.runs, elems := a.elems + b.elems, singles := a.singles + b.singles }

/-- Elements of an index on from another. -/
def addIndex : List Nat → List Nat → List Nat
  | a :: l, b :: m => (a + b) :: addIndex l m
  | [], m => m
  | l, [] => l

/-- Elements of a run of the part of a tensor with these sizes, and the number of dimensions that join in it (R196); none where the
innermost stride makes elements move singly (R197). -/
def TDesc.run (t : TDesc) (sizes : List Nat) : Option (Nat × Nat) :=
  let s0 := (t.strides.head?).getD 1
  let n0 := (sizes.head?).getD 1
  if s0 ≠ 1 ∧ s0 ≠ -1 then none
  else
    let joined := ((t.strides.zip sizes).drop 1).foldl (fun (acc : Nat × Bool × Nat) e =>
      if acc.2.1 && e.1 = s0 * acc.1 then (acc.1 * e.2, true, acc.2.2 + 1) else (acc.1, false, acc.2.2)) (n0, true, 1)
    some (joined.1, joined.2.2)

/-- A run of `len` elements in `dims` dimensions, of the part from an index on, has a lowest byte address or a length that is no multiple
of 64 bytes (R196). -/
def TDesc.runMisses (t : TDesc) (len dims : Nat) (first tail : List Nat) : Bool :=
  let e := t.offset (addIndex first (List.replicate dims 0 ++ tail))
  let a := (t.place (if (t.strides.head?).getD 1 < 0 then e - ((len : Int) - 1) else e)).1
  a % 64 ≠ 0 || runBytes t.fmt len % 64 ≠ 0

/-- What the part of a tensor with these sizes from an index on misses of the rule (R196, R197). -/
def TDesc.slow (t : TDesc) (sizes first : List Nat) : Slow :=
  match t.run sizes with
  | none => { singles := sizes.prod }
  | some (len, dims) =>
    let bad := ((indices (sizes.drop dims)).filter (t.runMisses len dims first)).length
    { runs := bad, elems := bad * len }

/-- An element, by its index in the part, lies in a run that misses the rule. -/
def TDesc.misses (t : TDesc) (sizes first ix : List Nat) : Bool :=
  match t.run sizes with
  | none => false
  | some (len, dims) => t.runMisses len dims first (ix.drop dims)

/-- Sizes of what a read of a part fetches: a dimension of stride zero once (R197). -/
def TDesc.fetched (t : TDesc) (sizes : List Nat) : List Nat := (sizes.zip t.strides).map fun e => if e.2 = 0 then 1 else e.1

/-- A work-store row of `n0` elements misses the rule; BCAST and WROW slots always keep it (R196). -/
def WsSide.rowMisses (w : WsSide) (n0 r : Nat) : Bool :=
  w.layout = 0 && ((w.base + r * w.pitch) % 64 ≠ 0 || runBytes w.side.fmt n0 % 64 ≠ 0)

/-- What some work-store rows miss of the rule. -/
def WsSide.slow (w : WsSide) (n0 : Nat) (rows : List Nat) : Slow :=
  let bad := (rows.filter (w.rowMisses n0)).length
  { runs := bad, elems := bad * n0 }

/-- Elements of a move: all, those in runs at half rate on either side, and those moved singly (R196, R197). -/
structure Moved where
  n : Nat
  half : Nat := 0
  singles : Nat := 0
  deriving DecidableEq, Repr

/-- Bytes that `n` elements count for on a channel: of the wider format, with the scales (R197). -/
def moveBytes (a b : SideFmt) (n : Nat) : Nat :=
  runBytes (if fmtBits a.fmt < fmtBits b.fmt then b.fmt else a.fmt) n + max (scaleCount a.smode n) (scaleCount b.smode n)

/-- Cycles of a move on a channel at its own rate: 16 single elements per cc, and of the others 512 bytes per cc, or half of it for those
in runs that miss the rule on either side and, with `half`, for all of them (R197). -/
def channelCycles (a b : SideFmt) (m : Moved) (half : Bool) : Nat :=
  let all := moveBytes a b (m.n - m.singles)
  let slow := if half then all else min all (moveBytes a b (min m.half (m.n - m.singles)))
  ceilDiv m.singles 16 + ceilDiv (all + slow) 512

/-- Bytes that `n` fetched or written elements take of a path: 64 for each that moves singly (R197). -/
def pathBytes (a b : SideFmt) (n singles : Nat) : Nat := if singles ≠ 0 then 64 * n else moveBytes a b n

end Sys2Proof.Machine
end

