-- ==== Sys2Proof/Machine/Groups.lean ====
section
/-! DEFINITION. Sys2Proof/Machine/Groups.lean: when the matrix queue's descriptors run: the fields of MATMUL (R134, R136) and
ACC_DRAIN (R140), the groups' stagger, the back-to-back case and the warm hold (R137, R138), the order on accumulator rows (R139),
and the number of groups active (`MX_GROUPS`, R114, R138, R451). -/

namespace Sys2Proof.Machine

/-! ### Fields -/

/-- Fields of MATMUL (R134). -/
structure MatArgs where
  aBase : Nat
  bBase : Nat
  aScl : Nat
  bScl : Nat
  fa : Nat
  fb : Nat
  sa : Nat
  sb : Nat
  add : Bool
  row : Nat
  m : Nat
  nb : Nat
  kc : Nat
  kLast : Nat
  nLast : Nat
  hold : Nat
  deriving DecidableEq, Repr

/-- Read the fields of MATMUL. -/
def matArgs (d : BitVec 512) : MatArgs :=
  let fa := fld d 32 3 0
  let fb := fld d 32 7 4
  { aBase := fld d 16 20 0, bBase := fld d 20 20 0, aScl := fld d 24 20 0, bScl := fld d 28 20 0, fa := fa, fb := fb
    sa := fld d 33 1 0, sb := fld d 33 3 2, add := fld d 33 4 4 = 1, row := fld d 34 9 0, m := fld d 36 10 0, nb := fld d 38 10 0
    kc := fld d 40 13 0, kLast := zeroMeans (fld d 42 8 0) (chunkOf fa fb).1, nLast := zeroMeans (fld d 44 5 0) 32
    hold := fld d 46 15 0 }

/-- Chunk length. -/
def MatArgs.l (a : MatArgs) : Nat := (chunkOf a.fa a.fb).1

/-- Valid elements of a chunk. -/
def MatArgs.valid (a : MatArgs) (kc : Nat) : Nat := if kc + 1 = a.kc then a.kLast else a.l

/-- Slot numbers of R132. -/
def MatArgs.aSlot (a : MatArgs) (kc m : Nat) : Nat := kc * a.m + m
/-- Slot of B. -/
def MatArgs.bSlot (a : MatArgs) (nb kc u : Nat) : Nat := (nb * a.kc + kc) * 32 + u

/-- Issue cycles (R136). -/
def MatArgs.cycles (a : MatArgs) : Nat := a.nb * a.kc * max ((chunkOf a.fa a.fb).2 * a.m) 6

/-- Fields of ACC_DRAIN (R140). -/
structure DrainArgs where
  row : Nat
  rows : Nat
  cols : Nat
  fmt : Nat
  smode : Nat
  bcast : Bool
  clear : Bool
  scale : BitVec 32
  dest : Nat
  scl : Nat
  pitch : Nat
  m : Nat
  deriving DecidableEq, Repr

/-- Read the fields of ACC_DRAIN. -/
def drainArgs (d : BitVec 512) : DrainArgs :=
  { row := fld d 16 9 0, rows := fld d 18 10 0, cols := zeroMeans (fld d 20 5 0) 32, fmt := fld d 21 3 0, smode := fld d 21 5 4
    bcast := fld d 21 6 6 = 1, clear := fld d 21 7 7 = 1, scale := BitVec.ofNat 32 (fld d 24 31 0), dest := fld d 28 20 0
    scl := fld d 32 20 0, pitch := fld d 36 17 0, m := fld d 40 10 0 }

/-! ### The order on accumulator rows (R137, R139) -/

/-- Two ranges of rows meet. -/
def rowsMeet (a b : Nat × Nat) : Bool := a.1 < b.1 + b.2 && b.1 < a.1 + a.2

/-- Core time from which a row may be drained: group 7 has applied the last update of this run to it (R137); 0 for a row that the
run does not write. -/
def MxRun.rowReady (r : MxRun) (row : Nat) : Nat :=
  if row < r.row || r.row + r.m * r.nb ≤ row then 0
  else
    let i := row - r.row
    let m := max 1 r.m
    r.start + cc ((i / m * r.kc + (r.kc - 1)) * max (r.c * r.m) 6 + r.c * (i % m + 1) + 34)

/-- Core time at which an earlier drain has read the last row that a descriptor on `row` and `n` rows writes; 0 for disjoint rows. -/
def drainedAt (row n : Nat) (d : Nat × Nat × Nat) : Nat :=
  if rowsMeet (row, n) (d.1, d.2.1) then d.2.2 + cc (min (row + n) (d.1 + d.2.1) - d.1) else 0

/-- Core time at which every earlier drain has read the rows that a descriptor writes (R139). -/
def Tile.rowsDrained (x : Tile) (row n : Nat) : Nat := (x.drains.map (drainedAt row n)).foldl max 0

/-- End of the last pause of R61 on the matrix engine. -/
def Tile.mxPause (x : Tile) : Nat := (kvGet x.pauses 0 (0, 0)).2

/-- Core time at which group 0 takes up a MATMUL dispatched at a core time: after the previous one's last issue while that has not
completed, else at once (R137, R138), and not before the drains ahead of it have read the rows it writes (R139). -/
def Tile.mxStart (x : Tile) (a : MatArgs) (at_ : Nat) : Nat :=
  max (if at_ < x.mxEnd then x.mxEnd - cc 34 else at_) (max x.mxPause (x.rowsDrained a.row (a.m * a.nb)))

/-- The run of a MATMUL that starts at a core time. -/
def MatArgs.run (a : MatArgs) (start : Nat) : MxRun :=
  { row := a.row, m := a.m, nb := a.nb, kc := a.kc, c := (chunkOf a.fa a.fb).2, cycles := a.cycles, start := start }

/-- Core time at which a run completes: group 7 has applied the last update (R137). -/
def MxRun.last (r : MxRun) : Nat := r.start + cc (r.cycles + 34)

/-- Runs kept: the engine holds at most the 16 of its queue and those before them whose rows are still awaited (R116, R139). -/
abbrev runsKept : Nat := 32

/-- A MATMUL takes the groups. -/
def Tile.takeGroups (x : Tile) (r : MxRun) : Tile := { x with mxEnd := r.last, mxRuns := (r :: x.mxRuns).take runsKept }

/-- Core time at which the drain path takes up an ACC_DRAIN dispatched at a core time: after the drain before it, and late enough that
each row has had the last update of every earlier MATMUL when it is read, one row per cc (R139, R141). -/
def Tile.drainStart (x : Tile) (a : DrainArgs) (at_ : Nat) : Nat :=
  let ready := (List.range a.rows).map fun i => (x.mxRuns.map fun r => r.rowReady (a.row + i)).foldl max 0 - cc i
  max (max at_ x.drainEnd) (max x.mxPause (ready.foldl max 0))

/-- An ACC_DRAIN takes the drain path; it ends `ROWS` + 8 cc on (R141). -/
def Tile.takeDrain (x : Tile) (a : DrainArgs) (start : Nat) : Tile :=
  { x with drains := ((a.row, a.rows, start) :: x.drains).take runsKept, drainEnd := start + cc (a.rows + 8) }

/-! ### Groups active (R138, R451) -/

/-- Group `g` is issuing a run's broadcasts at a core time. -/
def MxRun.active (r : MxRun) (at_ g : Nat) : Bool := r.start + cc (4 * g) ≤ at_ && at_ < r.start + cc (r.cycles + 4 * g)

/-- Group `g` runs the zero operands of a warm hold, which group 7 ends at `holdEnd` (R138). -/
def Tile.holding (x : Tile) (at_ g : Nat) : Bool :=
  match x.holdEnd with
  | none => false
  | some e => x.mxEnd + cc (4 * g) ≤ at_ + cc 34 && at_ + cc (4 * (7 - g)) < e

end Sys2Proof.Machine
end

