-- ==== Sys2Proof/Machine/GemmTime.lean ====
section
/-! DEFINITION. Sys2Proof/Machine/GemmTime.lean: the block sizes of a GEMM share and the times of its steps (R144), and the groups that the
matrix queue's descriptors keep active (R138, R451). -/

namespace Sys2Proof.Machine

/-! ### Blocks and passes (R144) -/

/-- Window bytes of a block size and pass width (R144). -/
def gemmNeed (s kc cb mb p : Nat) : Nat := p * kc * 32 * s + 2 * mb * kc * s + 2 * mb * p * 32 * cb

/-- Block rows and pass width (R144); none for WS_SMALL. -/
def gemmSize (s kc cb nbs wsSize accRows : Nat) : Option (Nat × Nat) :=
  match [256, 128, 64, 32, 16, 8].find? fun mb => gemmNeed s kc cb mb nbs ≤ wsSize && 2 * mb * nbs ≤ accRows with
  | some mb => some (mb, nbs)
  | none =>
    let fits := (List.range (min nbs (accRows / 16) + 1)).filter fun p => p ≠ 0 && gemmNeed s kc cb 8 p ≤ wsSize
    (fits.getLast?).map fun p => (8, p)

/-- A C format that GEMM accepts (R143, R177). -/
def gemmOut (f : Nat) : Bool := f ≤ 8 && 8 ≤ fmtBits f

/-- What a GEMM does here: its three tensors, the rows and columns of C that its share covers, first and number, and the rows of a block
and column blocks of a pass that R144 chooses. -/
structure GemmShare where
  a : TDesc
  b : TDesc
  c : TDesc
  rows : Nat × Nat
  cols : Nat × Nat
  mb : Nat
  p : Nat
  deriving DecidableEq, Repr

/-- K. -/
def GemmShare.k (g : GemmShare) : Nat := (g.a.sizes.head?).getD 1

/-- The share of a GEMM over its tensors; none for WS_SMALL (R143, R144). -/
def gemmShare (slot : DescSlot) (a b c : TDesc) : Option GemmShare :=
  let d := slot.desc
  let cut := slot.share.bind (·.range)
  let byCols := fld d 52 0 0 = 1
  let rows := granuleRange (if byCols then none else cut) 1 ((a.sizes[1]?).getD 0)
  let cols := granuleRange (if byCols then cut else none) 32 ((b.sizes[1]?).getD 0)
  let l := (chunkOf a.fmt b.fmt).1
  let s := if a.smode ≠ 0 || b.smode ≠ 0 then 144 else 128
  (gemmSize s (ceilDiv ((a.sizes.head?).getD 1) l) (fmtBits c.fmt / 8) (ceilDiv cols.2 32) (fld d 44 20 0) (fld d 50 10 0)).map fun z =>
    { a := a, b := b, c := c, rows := rows, cols := cols, mb := min z.1 rows.2, p := z.2 }

/-- Parts of `n` from a first on, `k` at a time: first and number of each. -/
def partsOf (k : Nat) : Nat → Nat → Nat → List (Nat × Nat)
  | 0, _, _ => []
  | fuel + 1, a, n => if n = 0 then [] else (a, min k n) :: partsOf k fuel (a + min k n) (n - min k n)

/-! ### The times of a share's steps (R144) -/

/-- What a share's steps have reached, in core time: the ends of its last LOAD and of its last MATMUL's issue, that MATMUL's start, the
ends of the last two drains and of the last two STOREs, latest first, and its MATMULs, latest first. -/
structure GemmAt where
  load : Nat
  issue : Nat
  begun : Nat := 0
  drains : Nat × Nat := (0, 0)
  stores : Nat × Nat := (0, 0)
  half : Nat := 0
  runs : List MxRun := []
  deriving DecidableEq, Repr

/-- Core time of a LOAD of `n` rows of an operand from `first` on: the latency of its first access, and its bytes at the lower of the
channel's rate and the path's (R144, R197, R198). BCAST and WROW slots keep the rule of R196. -/
def State.gemmLoad (s : State) (t : TileRef) (ctx : Nat) (x : TDesc) (first n : Nat) : Nat :=
  let sizes := [(x.sizes.head?).getD 1, n]
  let got := x.slow (x.fetched sizes) [0, first]
  let dva := w64 (x.place (x.offset [0, first])).1
  let m : Moved := { n := sizes.prod, half := got.elems, singles := got.singles }
  s.inCore t (s.dvaLatency t ctx false dva) + max (cc (channelCycles x.side x.side m false))
    (s.inCore t (s.dvaPathTime t ctx dva (pathBytes x.side x.side (x.fetched sizes).prod got.singles)))

/-- Core time of a STORE of a block of C: its bytes at their rate, and the write of its last page (R144, R197, R287). -/
def State.gemmStore (s : State) (t : TileRef) (ctx : Nat) (x : TDesc) (cols rows : Nat × Nat) : Nat :=
  let sizes := [cols.2, rows.2]
  let got := x.slow sizes [cols.1, rows.1]
  let last := w64 (x.place (x.offset [cols.1 + cols.2 - 1, rows.1 + rows.2 - 1])).1
  let m : Moved := { n := sizes.prod, half := got.elems, singles := got.singles }
  let ends := (List.range rows.2).map fun i => ((x.place (x.offset [cols.1, rows.1 + i])).1, unitBytes x.fmt * cols.2)
  max (cc (channelCycles x.side x.side m false))
      (s.inCore t (s.dvaPathTime t ctx last (pathBytes x.side x.side sizes.prod got.singles)))
    + s.inCore t (s.dvaLatency t ctx true last + s.narrowTime t ctx (ends.drop (rows.2 - 1)))

/-- One block of a pass (R144): its A block is loaded while the MATMUL before it runs, into the half that the MATMUL two before has read;
the MATMUL follows back-to-back, its accumulator half drained; its drain follows its completion, its staging half stored, and then its
STORE. -/
def GemmShare.block (g : GemmShare) (s : State) (t : TileRef) (ctx row : Nat) (cols : Nat × Nat) (q : GemmAt) (rows : Nat × Nat) : GemmAt :=
  let f := chunkOf g.a.fmt g.b.fmt
  let nb := ceilDiv cols.2 32
  let kc := ceilDiv g.k f.1
  let load := max q.load q.begun + s.gemmLoad t ctx g.a rows.1 rows.2
  let run : MxRun :=
    { row := row + q.half * (g.mb * g.p), m := rows.2, nb := nb, kc := kc, c := f.2, cycles := nb * kc * max (f.2 * rows.2) 6
      start := max load (max q.issue q.drains.2) }
  let drained := max run.last (max q.drains.1 q.stores.2) + cc (rows.2 * nb + 8)
  { load := load, issue := run.start + cc run.cycles, begun := run.start, drains := (drained, q.drains.1)
    stores := (max drained q.stores.1 + s.gemmStore t ctx g.c cols rows, q.stores.1), half := 1 - q.half, runs := run :: q.runs }

/-- One pass: its B load when the MATMULs before it have read theirs, then its blocks. -/
def GemmShare.pass (g : GemmShare) (s : State) (t : TileRef) (ctx row : Nat) (q : GemmAt) (cols : Nat × Nat) : GemmAt :=
  (partsOf g.mb (g.rows.2 + 1) g.rows.1 g.rows.2).foldl (g.block s t ctx row cols)
    { q with load := max q.load q.issue + s.gemmLoad t ctx g.b cols.1 cols.2 }

/-- The steps of a share from a core time on: its three tensor descriptors read together, then its passes (R144). -/
def GemmShare.times (g : GemmShare) (s : State) (t : TileRef) (d : DescSlot) (start : Nat) : GemmAt :=
  let ctx := d.job.toNat % 4096
  let tds := [fld d.desc 16 63 0, fld d.desc 24 63 0, fld d.desc 32 63 0].map w64
  let walks := (([g.a, g.b].map fun (x : TDesc) => s.walkTime t ctx (w64 (x.place 0).1)).max?).getD 0
  let at_ := start + s.inCore t (s.openTime t ctx tds + walks)
  (partsOf (32 * g.p) (g.cols.2 + 1) g.cols.1 g.cols.2).foldl (g.pass s t ctx (fld d.desc 48 9 0)) { load := at_, issue := at_ }

/-- End of a share: its last STORE. -/
def GemmAt.last (q : GemmAt) : Nat := max q.stores.1 q.load

/-- Core time at which a GEMM takes the engine: after what its queue held before it. -/
def Tile.gemmStart (x : Tile) (at_ : Nat) : Nat := max (max at_ x.mxPause) (max x.mxEnd x.drainEnd)

/-- A tensor descriptor that lies in the package's stack memory, as a descriptor would read it now. -/
def State.peekTd (s : State) (t : TileRef) (ctx : Nat) (dva : BitVec 64) (fmts : Nat → Bool) : Option TDesc :=
  match s.reaches t ctx dva with
  | none => none
  | some a =>
    let d := descOf (cellRead s.mem a 64)
    if isStack a && (tdCheck d fmts).isNone then some (tdOf d) else none

/-- The share of a GEMM that has not run yet, where its tensor descriptors can be seen. -/
def State.peekGemm (s : State) (t : TileRef) (d : DescSlot) : Option GemmShare :=
  let td := fun (o : Nat) (fmts : Nat → Bool) => s.peekTd t (d.job.toNat % 4096) (w64 (fld d.desc o 63 0)) fmts
  match td 16 mxFmt, td 24 mxFmt, td 32 gemmOut with
  | some a, some b, some c => if a.rank = 2 && b.rank = 2 && c.rank = 2 && a.sizes.head? = b.sizes.head? then gemmShare d a b c else none
  | _, _, _ => none

/-! ### The matrix queue (R139) -/

/-- Descriptors of the matrix queue that have not run yet, in order. A descriptor keeps its place until it completes. -/
def Tile.mxWaiting (x : Tile) : List (Nat × DescSlot) :=
  (kvGet x.queues 0 []).filterMap fun i => match x.slot i with
    | some d => if d.applied || d.ph = .finished then none else some (i, d)
    | none => none

/-- Accumulator rows of a MATMUL or ACC_DRAIN: first and number. -/
def mxRows (d : BitVec 512) : Nat × Nat :=
  if dOpcode d = 0x10 then let a := matArgs d; (a.row, a.m * a.nb) else let a := drainArgs d; (a.row, a.rows)

/-- A descriptor of the matrix queue may run: nothing waits ahead of it, but for MATMULs ahead of an ACC_DRAIN, or drains ahead of a MATMUL,
on disjoint rows (R139). -/
def Tile.mxNext (x : Tile) (i : Nat) : Bool :=
  match (x.mxWaiting.find? fun e => e.1 = i) with
  | none => false
  | some (_, d) =>
    let op := dOpcode d.desc
    (x.mxWaiting.takeWhile fun e => e.1 ≠ i).all fun e =>
      (op = 0x10 || op = 0x11) && dOpcode e.2.desc = 0x21 - op && !rowsMeet (mxRows d.desc) (mxRows e.2.desc)

/-! ### Groups active (R114, R138, R451) -/

/-- The tile as the matrix queue will have it once the descriptors in the queue have started. -/
def State.foreseen (s : State) (t : TileRef) (x : Tile) : Tile :=
  x.mxWaiting.foldl (fun (x : Tile) e =>
    let d := e.2
    if dOpcode d.desc = 0x10 then
      let a := matArgs d.desc
      { x.takeGroups (a.run (x.mxStart a d.dispatchCore)) with holdEnd := none }
    else if dOpcode d.desc = 0x11 then
      let a := drainArgs d.desc
      x.takeDrain a (x.drainStart a d.dispatchCore)
    else match s.peekGemm t d with
      | none => x
      | some g =>
        let q := g.times s t d (x.gemmStart d.dispatchCore)
        { x with mxRuns := q.runs ++ x.mxRuns, mxEnd := q.last, drainEnd := q.last }) x

/-- Groups that products or a hold keep active at a core time. -/
def State.groupsAt (s : State) (t : TileRef) (x : Tile) (at_ : Nat) : Nat :=
  let y := s.foreseen t x
  ((List.range 8).filter fun g => y.mxRuns.any (fun r => r.active at_ g) || y.holding at_ g).length

/-- DMA channels that a GEMM uses at a core time: those of its mask, from its start on. Which step uses which of them R144 does not say:
DESIGN CHOICE, log entry 17. -/
def Tile.gemmChannels (x : Tile) (at_ : Nat) : List Nat :=
  match x.mxWaiting with
  | (_, d) :: _ =>
    if dOpcode d.desc = 0x12 && x.gemmStart d.dispatchCore ≤ at_ then (List.range 4).filter (fld d.desc 53 3 0).testBit else []
  | [] => []

end Sys2Proof.Machine
end

