-- ==== Sys2Proof/Machine/Units.lean ====
section
/-! DEFINITION. Sys2Proof/Machine/Units.lean: units and their records (R66 to R75), groups (R76 to R80), splitting (R81 to
R83), the outcome of several members (R84 to R86), and the commands that act on units as such. -/

namespace Sys2Proof.Machine

/-! ### Members and weights (R66, R67) -/

/-- Tiles of a stack in service; none while the stack is out. -/
def State.tilesOf (s : State) (st : Nat) : List TileRef :=
  if s.stackUp st then ((List.range 64).map (64 * st + ·)).filter fun t => (s.tile t).unit.inService else []

/-- All own tiles in service. -/
def State.tilesUp (s : State) : List TileRef := (List.range 24).flatMap s.tilesOf

/-- A remote package in service: its record says READY or DEGRADED (R67). -/
def State.remoteUp (s : State) (p : Nat) : Bool := (s.remoteRec p).state = 3 || (s.remoteRec p).state = 4

/-- Packages of the domain, ascending. -/
def State.domainPkgs (s : State) : List Nat := (List.range 1024).filter s.inDomain

/-- A tile of another package is in service, under its stack and package. -/
def State.remoteTileUp (s : State) (p : Nat) (t : TileRef) : Bool :=
  s.remoteUp p && (s.remoteStack p (t / 64)).inService && (s.remoteTile p t).inService

/-- Weight of a unit: its tiles in service, zero for a unit out of service (R66, R67). The fuel bounds group nesting. -/
def State.weightAt (s : State) : Nat → BitVec 32 → Nat
  | 0, _ => 0
  | d + 1, u =>
    let own := unitPkg u = s.self
    match unitLevel u with
    | 1 => if own then (if (s.tilesOf (unitStack u)).contains (unitTileRef u) then 1 else 0)
      else if s.remoteTileUp (unitPkg u) (unitTileRef u) then 1 else 0
    | 2 => if own then (s.tilesOf (unitStack u)).length
      else if s.remoteUp (unitPkg u) && (s.remoteStack (unitPkg u) (unitStack u)).inService then
        (((s.remoteRec (unitPkg u)).stackRecs[unitStack u]?).getD (0, 0)).2
      else 0
    | 3 => if own then (if s.units.package.inService then s.tilesUp.length else 0)
      else if s.remoteUp (unitPkg u) then (((s.remoteRec (unitPkg u)).cap[0]?).getD 0).toNat else 0
    | 7 => if own || s.remoteUp (unitPkg u) then ((s.groupList u).map (s.weightAt d)).sum else 0
    | _ => ((s.members u).map (s.weightAt d)).sum

/-- Weight of a unit. -/
def State.weight (s : State) (u : BitVec 32) : Nat := s.weightAt s.depth u

/-- A unit in service, with members in service (R67). -/
def State.unitUp (s : State) (u : BitVec 32) : Bool := 0 < s.weight u

/-- Members of a unit in service, with their positions in its member list. -/
def State.liveMembers (s : State) (u : BitVec 32) : List (Nat × BitVec 32) :=
  ((List.range (s.members u).length).zip (s.members u)).filter fun m => s.unitUp m.2

/-- Cut an extent of `w` granules over weights by the rule of R81: lengths in order. -/
def shareLens (w : Nat) (weights : List Nat) : List Nat :=
  let total := weights.sum
  if total = 0 then weights.map fun _ => 0
  else
    let base := weights.map fun x => w * x / total
    let r := w - base.sum
    (List.range base.length).zip base |>.map fun e => if e.1 < r then e.2 + 1 else e.2

/-- Start of each share: the sum of the lengths before it (R81). -/
def shareStarts : Nat → List Nat → List Nat
  | _, [] => []
  | a, n :: r => a :: shareStarts (a + n) r

/-- The members that receive work, with the range of granules each takes (R81, R82). -/
def State.split (s : State) (u : BitVec 32) (w : Nat) : List (Nat × BitVec 32 × Nat × Nat) :=
  let live := s.liveMembers u
  let lens := shareLens w (live.map fun m => s.weight m.2)
  ((live.zip (shareStarts 0 lens)).zip lens).filterMap fun e =>
    if e.2 = 0 then none else some (e.1.1.1, e.1.1.2, e.1.2, e.2)

/-! ### The outcome of several members (R84, R85) -/

/-- OK or THROTTLED. -/
def Outc.good (o : Outc) : Bool := o.status = St.ok || o.status = St.throttled

/-- Failed: neither OK, THROTTLED nor PARTIAL (R84). -/
def Outc.failed (o : Outc) : Bool := !o.good && (o.status ≠ St.partial)

/-- Bit of a member map that covers position `i` of `n` (R85). -/
def mapBit (n i : Nat) : Nat := if n ≤ 64 then i else i / ceilDiv n 64

/-- The overall outcome of the members that received work, given as positions and outcomes in member-list order, for a
unit of `n` members (R84, R85). -/
def combine (n : Nat) (ms : List (Nat × Outc)) : Outc :=
  let map : BitVec 64 := ms.foldl (fun a m => if m.2.good then a else a ||| w64 (1 <<< mapBit n m.1)) 0
  match ms with
  | [] => { status := St.notReady }
  | (_, o) :: _ =>
    if ms.all fun m => m.2.good then
      { status := if ms.any fun m => m.2.status = St.throttled then St.throttled else St.ok }
    else if ms.all fun m => m.2.failed then { status := o.status, reason := o.reason, map := map }
    else { status := St.partial, map := map }

/-- Reasons that leave a status as it is, in the order in which one takes the place of another (R168, R201, R248). DEDUCED, log
entry 65: a MERGE carries R248's reasons before those of R168, on one tile and divided alike. -/
def noteReasons : List Code := [Rs.inputFlagged, Rs.emptyRow, Rs.fmtNanZero, Rs.fmtClamped, Rs.idxZeroed]

/-- The reason that outcomes which did not fail leave to the whole. -/
def noteReason (ms : List Outc) : Code :=
  (noteReasons.find? fun r => ms.any fun o => !o.failed && o.reason = r).getD 0

/-- The overall outcome of a descriptor's members: that of R84, and the reason that R168, R201 or R248 gives the whole. -/
def combineNoted (n : Nat) (ms : List (Nat × Outc)) : Outc :=
  let o := combine n ms
  if o.failed then o else { o with reason := noteReason (ms.map Prod.snd) }

/-- Positions of a split's first level, ascending. -/
def firstPlaces (l : List (Path × Outc)) : List Nat :=
  sortBy (fun a b => a ≤ b) (l.filterMap fun e => e.1.head?.map Prod.fst).dedup

/-- What lies under a position of the first level. -/
def underPlace (l : List (Path × Outc)) (p : Nat) : List (Path × Outc) :=
  (l.filter fun e => e.1.head?.map Prod.fst = some p).map fun e => (e.1.tail, e.2)

/-- Overall outcome of a split of several levels, from its leaves' places and outcomes (R84). -/
def combineTree : Nat → List (Path × Outc) → Outc
  | 0, _ => {}
  | fuel + 1, l =>
    match l with
    | [] => { status := St.notReady }
    | ([], o) :: _ => o
    | ((_, n, _) :: _, _) :: _ => combineNoted n ((firstPlaces l).map fun p => (p, combineTree fuel (underPlace l p)))

/-- Levels of a split at most. -/
abbrev splitLevels : Nat := 64

/-- The detail list of a split, numbered from `base` on: its direct members, then the list of each that reported PARTIAL and whose members
are known here, whose first entry is its `CHILD` (R86; the order of the lists is the model's: log entry 34). -/
def detailList : Nat → Nat → List (Path × Outc) → List (BitVec 32 × Outc × Nat)
  | 0, _, _ => []
  | fuel + 1, base, l =>
    let ps := firstPlaces l
    let r := ps.foldl (fun (acc : List (BitVec 32 × Outc × Nat) × List (BitVec 32 × Outc × Nat)) p =>
      let sub := underPlace l p
      let o := combineTree splitLevels sub
      let u := ((l.find? fun e => e.1.head?.map Prod.fst = some p).bind fun e => e.1.head?.map fun k => k.2.2).getD 0
      let next := base + ps.length + acc.2.length
      let child := if o.status = St.partial then detailList fuel next sub else []
      (acc.1 ++ [(u, o, if child.isEmpty then 0 else next)], acc.2 ++ child)) ([], [])
    r.1 ++ r.2

/-! ### Records (R69 to R75) -/

/-- `CHANGE_COUNT` of a record slot. -/
def State.changeCount (s : State) (slot : Nat) : BitVec 32 := kvGet s.units.changeCounts slot 0

/-- A channel's memory counts: in service, under a stack in service of a package that has not halted (R71). -/
def State.channelCounts (s : State) (t : TileRef) (l : Nat) : Bool :=
  s.stackUp (t / 64) && s.units.package ≠ .halted && ((s.tile t).channel l).state = 0

/-- A Pewter unit in service (R71): its own entry, and its channel's. -/
def Tile.bankUp (x : Tile) (b : Nat) : Bool := (kvFind x.pewter.out b).isNone && (x.channel (b / 16)).state = 0

/-- Capacity entries 0–15 of a tile, from whether it is in service, its channels that count and its Pewter units in service (R71). -/
def capOf (up ch banks : Nat) : List Nat :=
  [up, 134217728 * ch, ch, banks, 8192 * up, 4096 * up, 1024 * up, 64 * up, 16000 * ch, 2000 * banks, wsSize * up,
   131072 * up, 262144 * up, 256 * up, 0, 0]

/-- Capacity entries of an own tile (R71). -/
def State.tileCap (s : State) (t : TileRef) : List Nat :=
  let x := s.tile t
  let up := if (s.tilesOf (t / 64)).contains t then 1 else 0
  capOf up ((List.range 16).filter fun l => s.channelCounts t l).length
    (if up = 1 then ((List.range 256).filter x.bankUp).length else 0)

/-- Entries of another package's out list of a kind in a stack, and in one tile of it (R73). -/
def State.remoteOuts (s : State) (p kind st : Nat) (t : Option Nat) : List Word :=
  (s.remoteRec p).outList.filter fun w => bitsOf w 3 0 = kind && bitsOf w 12 8 = st && t.all fun n => bitsOf w 21 16 = n

/-- Capacity entries of a tile of another package, from its last records (R71, R75). -/
def State.remoteTileCap (s : State) (p : Nat) (t : TileRef) : List Nat :=
  let up := if s.remoteTileUp p t then 1 else 0
  let ch := if (s.remoteStack p (t / 64)).inService && s.remoteUp p then
      16 - (s.remoteOuts p 2 (t / 64) (some (t % 64))).length else 0
  capOf up ch (if up = 1 then 256 - (s.remoteOuts p 3 (t / 64) (some (t % 64))).length else 0)

/-- Entry-wise sum of capacity or counter lists of `n` entries. -/
def sumLists (n : Nat) (l : List (List Nat)) : List Nat :=
  (List.range n).map fun i => (l.map fun e => (e[i]?).getD 0).sum

/-- Lane groups of a stack in service. -/
def State.stackGroups (s : State) (st : Nat) : Nat :=
  ((List.range 16).filter fun g => groupStack g = st && ((s.cornis.groups[g]?).map (·.state) ≠ some .out)).length

/-- The two stacks a stack-mesh link joins (R21). -/
def linkEnds (k : Nat) : Nat × Nat :=
  if k < 20 then (6 * (k / 5) + k % 5, 6 * (k / 5) + k % 5 + 1)
  else (k - 20, k - 20 + 6)

/-- Stack-mesh links in service whose ends are both in service (R71). -/
def State.linksUp (s : State) : Nat :=
  ((List.range 38).filter fun k =>
    (kvFind s.units.meshOut k).isNone && s.stackUp (linkEnds k).1 && s.stackUp (linkEnds k).2).length

/-- Capacity entries of an own stack. -/
def State.stackCap (s : State) (st : Nat) : List Nat :=
  (sumLists 15 ((List.range 64).map fun i => s.tileCap (64 * st + i))) ++ [s.stackGroups st]

/-- Capacity entries of a stack of another package: all zero while that is out of service or not heard of (R71, R75). -/
def State.remoteStackCap (s : State) (p st : Nat) : List Nat :=
  (sumLists 15 ((List.range 64).map fun i => s.remoteTileCap p (64 * st + i)))
    ++ [if s.remoteUp p && (s.remoteStack p st).inService then
        ((List.range 16).filter fun g => groupStack g = st).length - (s.remoteOuts p 4 st none).length else 0]

/-- Capacity entries of the own package; `MESH_LINKS` comes from the package itself (R71). -/
def State.packageCap (s : State) : List Nat :=
  let l := sumLists 16 ((List.range 24).map s.stackCap)
  l.set 14 s.linksUp

/-- Capacity entries of any unit (R71, R75). -/
def State.capAt (s : State) : Nat → BitVec 32 → List Nat
  | 0, _ => []
  | d + 1, u =>
    let own := unitPkg u = s.self
    match unitLevel u with
    | 1 => if own then s.tileCap (unitTileRef u) else s.remoteTileCap (unitPkg u) (unitTileRef u)
    | 2 => if own then s.stackCap (unitStack u) else s.remoteStackCap (unitPkg u) (unitStack u)
    | 3 => if own then s.packageCap else (s.remoteRec (unitPkg u)).cap.map BitVec.toNat
    | _ => sumLists 16 ((s.members u).map (s.capAt d))

/-- Counter entries of a tile, 0–18 (R72). -/
def State.tileCtr (s : State) (t : TileRef) : List Nat :=
  (List.range 19).map fun k => (kvGet (s.tile t).counters k 0).toNat

/-- Counter entries of a tile of another package, from its last records (R75). -/
def State.remoteTileCtr (s : State) (p : Nat) (t : TileRef) : List Nat := (kvGet (s.remoteRec p).tileRecs t (2, [])).2.map BitVec.toNat

/-- Counter entries of any unit (R72), wrapping at 2^64. -/
def State.ctrAt (s : State) : Nat → BitVec 32 → List Nat
  | 0, _ => []
  | d + 1, u =>
    let own := unitPkg u = s.self
    match unitLevel u with
    | 1 => if own then s.tileCtr (unitTileRef u) else s.remoteTileCtr (unitPkg u) (unitTileRef u)
    | 2 => sumLists 19 ((List.range 64).map fun i =>
        if own then s.tileCtr (64 * unitStack u + i) else s.remoteTileCtr (unitPkg u) (64 * unitStack u + i))
    | 3 => if own then sumLists 19 (s.tiles.map fun e => s.tileCtr e.1)
      else (s.remoteRec (unitPkg u)).ctr.map BitVec.toNat
    | _ => sumLists 19 ((s.members u).map (s.ctrAt d))

/-- The 8 bytes of an out-list entry, as a number (R73). -/
def outEntryWord (pkg : Nat) (e : OutEntry) : Word :=
  w64 (e.kind + e.cause * 2 ^ 4 + e.stack * 2 ^ 8 + e.tile * 2 ^ 16 + e.layer * 2 ^ 24 + e.bank * 2 ^ 28
    + e.index * 2 ^ 32 + pkg * 2 ^ 48)

/-- A unit state that stands in the out list. -/
def UnitSt.isOut : UnitSt → Bool
  | .absent => true | .removed => true | .halted => true
  | .starting => false | .ready => false | .degraded => false | .unreachable => false

/-- Resources of an own tile out of service, of one kind (R73). -/
def State.tileOut (s : State) (t : TileRef) (kind : Nat) : List OutEntry :=
  let x := s.tile t
  match kind with
  | 1 => if x.unit.isOut then [{ kind := 1, cause := x.cause, stack := t / 64, tile := t % 64 }] else []
  | 2 => x.mem.channels.filterMap fun c => if c.2.state = 0 then none
      else some { kind := 2, cause := c.2.cause.toNat, stack := t / 64, tile := t % 64, layer := c.1 }
  | 3 => ((List.range 256).filter fun b => !x.bankUp b).map fun b =>
      { kind := 3, stack := t / 64, tile := t % 64, layer := b / 16, bank := b % 16
        cause := (kvFind x.pewter.out b).getD (x.channel (b / 16)).cause.toNat }
  | _ => []

/-- Lane groups of a stack out of service. -/
def State.groupsOut (s : State) (st : Nat) : List OutEntry :=
  (List.range 16).filterMap fun g =>
    match s.cornis.groups[g]? with
    | some x => if groupStack g = st && x.state = .out then some { kind := 4, cause := x.cause, stack := st, index := g } else none
    | none => none

/-- Out list of an own tile, stack or package in sort order (R73). -/
def State.ownOut (s : State) (u : BitVec 32) : List OutEntry :=
  let sts := match unitLevel u with
    | 3 => List.range 24
    | _ => [unitStack u]
  let tiles := match unitLevel u with
    | 1 => [unitTileRef u]
    | _ => sts.flatMap fun st => (List.range 64).map (64 * st + ·)
  let above := unitLevel u ≠ 1
  (tiles.flatMap fun t => s.tileOut t 1) ++ (tiles.flatMap fun t => s.tileOut t 2) ++ (tiles.flatMap fun t => s.tileOut t 3)
    ++ (if above then sts.flatMap s.groupsOut else [])
    ++ (if unitLevel u = 3 then s.units.meshOut.map fun k => { kind := 5, cause := k.2, index := k.1 } else [])
    ++ (if above then sts.filterMap fun st =>
          if (s.stackState st).isOut then some { kind := 6, cause := (kvGet s.units.stackSt st (.starting, 0)).2, stack := st }
          else none
        else [])

/-- Place of an out-list entry in sort order: package, kind, stack, tile, layer, bank, index (R73). -/
def outKey (w : Word) : Nat :=
  bitsOf w 57 48 * 2 ^ 40 + bitsOf w 3 0 * 2 ^ 36 + bitsOf w 12 8 * 2 ^ 28 + bitsOf w 21 16 * 2 ^ 20 + bitsOf w 27 24 * 2 ^ 16
    + bitsOf w 31 28 * 2 ^ 12 + bitsOf w 39 32

/-- Out list of any unit, as words in sort order (R73, R75). -/
def State.outAt (s : State) : Nat → BitVec 32 → List Word
  | 0, _ => []
  | d + 1, u =>
    let own := unitPkg u = s.self
    match unitLevel u with
    | 4 | 5 => (s.members u).flatMap (s.outAt d)
    | 7 => sortBy (fun a b => outKey a ≤ outKey b) ((s.members u).flatMap (s.outAt d))
    | 3 => if own then (s.ownOut u).map (outEntryWord s.self) else (s.remoteRec (unitPkg u)).outList
    | 2 => if own then (s.ownOut u).map (outEntryWord s.self)
      else [1, 2, 3, 4, 6].flatMap fun k => s.remoteOuts (unitPkg u) k (unitStack u) none
    | _ => if own then (s.ownOut u).map (outEntryWord s.self)
      else [1, 2, 3].flatMap fun k => s.remoteOuts (unitPkg u) k (unitStack u) (some (unitTileNo u))

/-- Record slot of a unit (R95). -/
def recordSlot (u : BitVec 32) : Nat :=
  match unitLevel u with
  | 1 => 64 + unitTileRef u
  | 2 => 16 + unitStack u
  | 3 => 0
  | 4 => 1
  | 5 => 2
  | _ => 2048 + unitGroup u

/-- The pair state of a code (R347). -/
def pairOf (n : Nat) : PairSt :=
  match n % 8 with
  | 0 => .unpaired | 1 => .paired | 2 => .solo | 3 => .source | 4 => .stale | 5 => .target | 6 => .detached | _ => .conflict

/-- `SOLO` of a pair record (R347): a member is in SOLO, SOURCE, DETACHED or CONFLICT. -/
def PairSt.isSolo : PairSt → Bool
  | .solo => true | .source => true | .detached => true | .conflict => true
  | .unpaired => false | .paired => false | .stale => false | .target => false

/-- The bytes of a unit record with the sections of a mask ([0] capacity, [1] counters, [2] out list, [3] members) and at
most `maxOut` out-list entries (R69, R73). -/
def State.recordBytes (s : State) (u : BitVec 32) (mask maxOut : Nat) : List Byte :=
  let lv := unitLevel u
  let mem := s.members u
  let outAll := s.outAt s.depth u
  let out := outAll.take maxOut
  let cap := if mask.testBit 0 then (s.capAt s.depth u).map w64 else []
  let ctr := if mask.testBit 1 then (s.ctrAt s.depth u).map w64 else []
  let outL := if mask.testBit 2 then out else []
  let memL := if mask.testBit 3 then mem else []
  let isPkg := lv = 3
  let flags := (if lv = 4 && unitPair u = s.self / 2 && (s.twin.state.isSolo || (pairOf s.twin.peerState).isSolo) then 1 else 0)
    + (if isPkg && unitPkg u ≠ s.self && s.cornis.suspects.contains (unitPkg u) then 2 else 0)
    + (if outL.length < outAll.length then 4 else 0)
  let order : List Byte := if isPkg then padTo 16 ([0x4F, 0x56, 0x4C, 0x2D, 0x45, 0x32, 0x34, 0x2D, 0x33, 0x54]) else padTo 16 []
  let header := bytesLE 4 u.toNat ++ bytesLE 1 (s.stateAt s.depth u).code ++ bytesLE 1 1 ++ bytesLE 2 mem.length
    ++ bytesLE 2 (s.liveMembers u).length ++ bytesLE 2 flags ++ bytesLE 4 (s.changeCount (recordSlot u)).toNat
    ++ bytesLE 8 s.time.invar.toNat
    ++ bytesLE 2 8 ++ bytesLE 2 cap.length ++ bytesLE 2 (8 + cap.length) ++ bytesLE 2 ctr.length
    ++ bytesLE 2 (8 + cap.length + ctr.length) ++ bytesLE 2 outL.length
    ++ bytesLE 2 (8 + cap.length + ctr.length + outL.length) ++ bytesLE 2 0
    ++ order ++ bytesLE 1 (if isPkg then 0xB0 else 0) ++ padTo 7 []
  header ++ (cap ++ ctr ++ outL).flatMap (fun w => bytesLE 8 w.toNat) ++ memL.flatMap fun m => bytesLE 4 m.toNat

/-- The unit whose record stands in a slot (R95). -/
def State.slotUnit (s : State) (slot : Nat) : Option (BitVec 32) :=
  if slot = 0 then some (pkgUnit s.self)
  else if slot = 1 then some (pairUnit (s.self / 2))
  else if slot = 2 then some domainUnit
  else if 16 ≤ slot ∧ slot < 40 then some (stackUnit s.self (slot - 16))
  else if 64 ≤ slot ∧ slot < 1600 then some (tileUnit s.self (slot - 64))
  else if 2048 ≤ slot ∧ slot < 6144 ∧ (kvFind s.units.groups (slot - 2048)).isSome then some (groupUnit s.self (slot - 2048))
  else none

/-- A record slot's 32 KiB (R95): the record with at most 1,024 out-list entries, then zeros. -/
def State.slotBytes (s : State) (slot : Nat) : List Byte :=
  match s.slotUnit slot with
  | none => []
  | some u => s.recordBytes u 15 1024

/-! ### Replicated commands (R68, R81) -/

/-- Own tiles a unit reaches, with duplicates dropped (R82). -/
def State.tilesReached (s : State) : Nat → BitVec 32 → List TileRef
  | 0, _ => []
  | d + 1, u =>
    if unitLevel u = 1 then (if unitPkg u = s.self then [unitTileRef u] else [])
    else if unitLevel u = 2 then
      (if unitPkg u = s.self then (List.range 64).map (64 * unitStack u + ·) else [])
    else ((s.members u).flatMap (s.tilesReached d)).dedup

/-- The units that a replicated command reaches as wholes: own units up to the package, and units of other packages, with their places
(R68, R81). -/
def State.unitsUnder (s : State) : Nat → BitVec 32 → Path → List (BitVec 32 × Path)
  | 0, _, _ => []
  | d + 1, u, path =>
    if unitLevel u ≤ 3 || (unitLevel u = 7 && unitPkg u ≠ s.self) then [(u, path)]
    else
      let n := (s.members u).length
      (s.liveMembers u).flatMap fun m => s.unitsUnder d m.2 (path ++ [(m.1, n, m.2)])

/-- Everything that a unit reaches in service is of this package. -/
def State.ownOnly (s : State) (u : BitVec 32) : Bool := (s.unitsUnder s.depth u []).all fun e => unitPkg e.1 = s.self

/-- A replicated command's effect at one own unit, tile by tile (R81): the state after, and each tile's place and outcome. `leaf` is what
a tile does. Members out of service receive nothing. -/
def State.replicateAt (leaf : State → TileRef → State × Outc) : Nat → State → BitVec 32 → Path → State × List (Path × Outc)
  | 0, s, _, _ => (s, [])
  | d + 1, s, u, path =>
    if unitLevel u = 1 then
      let r := leaf s (unitTileRef u)
      (r.1, [(path, r.2)])
    else
      let n := (s.members u).length
      (s.liveMembers u).foldl (fun (acc : State × List (Path × Outc)) m =>
        if unitLevel m.2 ≤ 3 && unitPkg m.2 ≠ s.self then acc
        else
          let q := State.replicateAt leaf d acc.1 m.2 (path ++ [(m.1, n, m.2)])
          (q.1, acc.2 ++ q.2)) (s, [])

/-- The same, with the unit's outcome between the two (R84). -/
def State.replicate (leaf : State → TileRef → State × Outc) (d : Nat) (s : State) (u : BitVec 32) :
    State × Outc × List (Path × Outc) :=
  let r := State.replicateAt leaf d s u []
  (r.1, combineTree splitLevels r.2, r.2)

/-- Keep the members' outcomes for MEMBER_STATUS, replacing what the tag held (R86). -/
def State.setDetail (s : State) (c : Cmd) (l : List (Path × Outc)) : State :=
  { s with host := { s.host with
      details := { ring := c.ring, tag := c.tag, members := detailList splitLevels 0 l } ::
        s.host.details.filter fun d => !(d.ring = c.ring && d.tag = c.tag) } }

end Sys2Proof.Machine
end

