-- ==== Sys2Proof/Machine/Send.lean ====
section
/-! DEFINITION. Sys2Proof/Machine/Send.lean: how a message leaves the package: the path a destination has (R321 to R323,
R516), credit and flits (R316 to R318), requests and their transaction numbers (R330), and commands for units of other
packages (R68). -/

namespace Sys2Proof.Machine

/-- Message opcodes (R320). -/
abbrev Op.read : BitVec 8 := 0x01
abbrev Op.write : BitVec 8 := 0x02
abbrev Op.atomic : BitVec 8 := 0x03
abbrev Op.appendFwd : BitVec 8 := 0x04
abbrev Op.share : BitVec 8 := 0x05
abbrev Op.control : BitVec 8 := 0x06
abbrev Op.time : BitVec 8 := 0x07
abbrev Op.record : BitVec 8 := 0x08

/-- Port 0–8 of the package. -/
def State.port (s : State) (p : Nat) : Port := (s.cornis.ports[p]?).getD {}

/-- Change a port. -/
def State.modPort (s : State) (p : Nat) (f : Port → Port) : State :=
  { s with cornis := { s.cornis with ports := s.cornis.ports.modify p f } }

/-- The port carries traffic: UP or NARROW (R311). -/
def Port.up (x : Port) : Bool := x.state = .up || x.state = .narrow

/-- Lane groups whose role names port `p`: role 1 for logical ports, role 2 for the twin port (R306, R308). -/
def State.portGroups (s : State) (p : Nat) : List Nat :=
  (List.range 16).filter fun g =>
    match s.cornis.groups[g]? with
    | some x => if p = 8 then x.role = 2 else x.role = 1 && x.port.toNat = p
    | none => false

/-- A port's width agrees with the roles that name it: one group at 8 lanes, or one pair at 16 (R308, R310); a port no role
names is unused and agrees. -/
def State.widthAgrees (s : State) (p : Nat) : Bool :=
  let gs := s.portGroups p
  let w := (s.port p).width
  gs.isEmpty || (gs.length = 1 && w = 0) ||
    (gs.length = 2 && w = 1 && (gs[0]?).getD 0 / 2 = (gs[1]?).getD 0 / 2)

/-- Note the use of a port's width and roles (R408, R409). -/
def State.usePort (s : State) (p : Nat) : State :=
  s.coupledUse (8192 + p) (s.widthAgrees p) (0x3F0000000000 + 0x102000 + 0x100 + 8 * p)
    (0x3F0000000000 + 0x102000 + 0x40 + 8 * ((s.portGroups p)[0]?).getD 0) (pkgUnit s.self)

/-- Ports of a routing entry (R321). -/
def entryPorts (e : BitVec 16) : List Nat := (List.range 8).filter fun p => bitAt e p

/-- Ports by which a destination may be reached: the twin port for the twin while it is up, else its entry (R322). -/
def State.portsTo (s : State) (dst : Nat) : List Nat :=
  if dst = s.self ^^^ 1 && (s.port 8).up then [8] else entryPorts (kvGet s.cornis.routes dst 0)

/-- The up ports by which a destination is reached. -/
def State.upPortsTo (s : State) (dst : Nat) : List Nat :=
  (s.portsTo dst).filter fun p => (s.port p).up && s.widthAgrees p

/-- The outcome of a destination that cannot be sent to (R323, R408, R516). -/
def State.pathStop (s : State) (dst : Nat) : Option (Code × Code) :=
  if !s.inDomain dst then some (St.range, Rs.noPackage)
  else if !(s.upPortsTo dst).isEmpty then none
  else if (s.portsTo dst).any fun p => !s.widthAgrees p then some (St.configMismatch, 0)
  else some (St.notReady, Rs.portDown)

/-! ### Messages as bytes (R318, R319) -/

/-- Flits of a message (R318). -/
def flitsOf (m : Msg) : Nat := ceilDiv (68 + m.data.length) 248

/-- The 64 bytes of a message's header (R319). -/
def msgHeader (m : Msg) : List Byte :=
  bytesLE 1 m.op.toNat ++ bytesLE 1 (m.ordered.toNat + 2 * m.arrEn.toNat + 4 * m.arrFinal.toNat + 8 * m.phys.toNat)
    ++ bytesLE 2 (m.src % 1024) ++ bytesLE 2 (m.dst % 1024 + m.hops % 16 * 2 ^ 10) ++ bytesLE 2 m.job.toNat
    ++ bytesLE 4 m.srcUnit.toNat ++ bytesLE 2 m.txn.toNat ++ bytesLE 1 m.status.toNat ++ bytesLE 1 m.reason.toNat
    ++ bytesLE 8 m.dva.toNat ++ bytesLE 8 (m.gaddr % 2 ^ 56) ++ bytesLE 2 (m.length % 2 ^ 14) ++ bytesLE 2 m.arrId.toNat
    ++ bytesLE 4 m.arrMsgs
    ++ bytesLE 8 (m.arrStep % 2 ^ 48 + m.arrCtr % 16 * 2 ^ 48 + m.aop % 4 * 2 ^ 52 + m.atype % 4 * 2 ^ 54)
    ++ bytesLE 8 m.operand.toNat ++ bytesLE 8 m.operand2.toNat

/-- The CRC-32C of a message: over its header, with `HOPS`, `STATUS` and `REASON` as zero, and its data (R318). -/
def msgCrc (m : Msg) : Nat := crc32c (msgHeader { m with hops := 0, status := 0, reason := 0 } ++ m.data)

/-- A message's bytes: header, data, CRC (R318). -/
def msgBytes (m : Msg) : List Byte := msgHeader m ++ m.data ++ bytesLE 4 (msgCrc m)

/-- The body of a message's `k`-th flit; the bytes after the CRC are zero (R318). -/
def flitBody (m : Msg) (k : Nat) : List Byte := padTo 248 (((msgBytes m).drop (248 * k)).take 248)

/-- The messages that a message travels as: a command or reply of more than 8,192 bytes goes in several, with one `TXN` (R334). Each
of them holds the total of bytes in bits [31:0] of `OPERAND2`: DESIGN CHOICE, log entry 39. -/
def msgParts (m : Msg) : List Msg :=
  if (m.op = Op.control || m.op = Op.control + 0x80) && 8192 < m.data.length then
    (chunks 8192 m.data.length m.data).map fun b =>
      { m with data := b, length := b.length, ordered := true, operand2 := w64 m.data.length }
  else [m]

/-! ### Flits (R314 to R317) -/

/-- Sequenced flits a port has sent and the peer has not acknowledged (R316). -/
def Port.unacked (x : Port) : Nat := (x.txSeq - x.ackSeq - 1).toNat

/-- A port may send a flit of a channel: credit, and room in the replay buffer (R316, R317). -/
def Port.takes (x : Port) (vc : Nat) : Bool := 0 < (x.credit[vc]?).getD 0 && x.unacked < 16384

/-- The channel whose credits the next flit returns, and how many (R314, R317). -/
def Port.returned (x : Port) : Nat × Nat :=
  match (List.range 4).find? fun vc => 0 < (x.crDue[vc]?).getD 0 with
  | some vc => (vc, min 1023 ((x.crDue[vc]?).getD 0))
  | none => (0, 0)

/-- What a flit's header says of its message (R314). -/
structure FlitKind where
  idle : Bool
  vc : Nat
  first : Bool
  last : Bool
  seq : BitVec 16
  deriving DecidableEq, Repr

/-- A flit header (R314): with what the port acknowledges, refuses and returns now. -/
def Port.flitHeader (x : Port) (k : FlitKind) : Word :=
  let cr := x.returned
  w64 (k.vc + k.first.toNat * 2 ^ 2 + k.last.toNat * 2 ^ 3 + k.idle.toNat * 2 ^ 4 + x.nakDue.toNat * 2 ^ 5 + k.seq.toNat * 2 ^ 8
    + x.rxSeq.toNat * 2 ^ 24 + cr.1 * 2 ^ 40 + cr.2 * 2 ^ 42)

/-- Send one flit: a port deals them over its groups in service in turn (R315). -/
def State.emitFlit (s : State) (p : Nat) (k : FlitKind) (body : List Byte) : State :=
  let x := s.port p
  let gs := (s.portGroups p).filter fun g => (s.cornis.groups[g]?).map (·.state) = some .inService
  let f : Flit := { port := p, group := (gs[x.dealt % max 1 gs.length]?).getD 0, header := x.flitHeader k, body := body }
  let s := s.modPort p fun x => { x with
    dealt := x.dealt + 1, nakDue := false, ackSent := x.rxSeq, crDue := x.crDue.modify x.returned.1 (· - x.returned.2) }
  { s with out := { s.out with flits := s.out.flits ++ [f] } }

/-- Idle flits that carry an acknowledgement, a NAK or credits that no sequenced flit has carried (R316). Idle flits that would say
nothing new are left out: log entry 39. -/
def State.idleFlits (s : State) (p : Nat) : State :=
  let go := fun (s : State) => s.emitFlit p { idle := true, vc := 0, first := false, last := false, seq := (s.port p).txSeq } (padTo 248 [])
  let x := s.port p
  let s := if x.nakDue || x.ackSent ≠ x.rxSeq then go s else s
  (List.range 8).foldl (fun (s : State) _ => if (s.port p).returned.2 = 0 then s else go s) s

/-- A mirrored write to a page whose resync copy is unacknowledged waits for the acknowledgement (R364). -/
def State.copyPending (s : State) (m : Msg) : Bool :=
  m.op = Op.write && m.operand.toNat % 4 = 1 && (List.range ((m.dva.toNat % 2048 + m.length + 2047) / 2048)).any fun k =>
    s.cornis.txns.any fun x => x.user = .resync (m.job.toNat % 4096) (m.dva.toNat % 2 ^ 57 / 2048 + k)

/-- The message whose flit a channel of a port would send next, and how many of its flits have gone (R317). -/
def State.nextFlit (s : State) (p vc : Nat) : Option (Msg × Nat) :=
  match ((s.port p).txOpen[vc]?).getD none with
  | some e => some e
  | none => (s.cornis.held.find? fun e => e.1.port = p && e.1.vc = vc && !s.copyPending e.1).map fun e => (e.1, 0)

/-- The channel that takes the port's next flit slot (R317): by priority, but request and bulk within every eight slots while they have
flits and credit. How the share is kept is the model's: log entry 39. -/
def State.flitSlot (s : State) (p : Nat) : Option Nat :=
  let x := s.port p
  let can := fun vc => x.takes vc && (s.nextFlit p vc).isSome
  if can 2 && 7 ≤ (x.slotWaits[2]?).getD 0 then some 2
  else if can 0 && 6 ≤ (x.slotWaits[0]?).getD 0 then some 0
  else [3, 1, 0, 2].find? can

/-- A request's first flit goes now: its time to be answered starts (R330). -/
def State.noteSent (s : State) (m : Msg) : State :=
  { s with cornis := { s.cornis with txns := s.cornis.txns.map fun x =>
      if x.txn = m.txn && m.src = s.self && x.msg.op = m.op then { x with sentAt := s.time.now } else x } }

/-- Send the next flit of a channel (R314 to R318): it stays in the replay buffer until acknowledged. -/
def State.sendFlit (s : State) (p vc : Nat) : State :=
  match s.nextFlit p vc with
  | none => s
  | some (m, k) =>
    let last := decide (k + 1 = flitsOf m)
    let seq := (s.port p).txSeq
    let can := (List.range 4).map fun v => (s.port p).takes v && (s.nextFlit p v).isSome
    let s : State := if k = 0 then
        ({ s with cornis := { s.cornis with held := s.cornis.held.eraseP fun e => e.1 = m } } : State).noteSent m
      else s
    let s := s.emitFlit p { idle := false, vc := vc, first := decide (k = 0), last := last, seq := seq } (flitBody m k)
    let s := s.modPort p fun x => { x with
      credit := x.credit.modify vc (· - 1), buffer := x.buffer ++ [(seq, m, k)], txSeq := x.txSeq + 1
      txOpen := x.txOpen.set vc (if last then none else some (m, k + 1))
      slotWaits := (List.range 4).map fun v => if v ≠ vc && (can[v]?).getD false then (x.slotWaits[v]?).getD 0 + 1 else 0 }
    if last then { s with out := { s.out with cornis := s.out.cornis ++ [(p, m)] } } else s

/-- Flit slot by flit slot, until no channel has flits and credit. -/
def State.pumpFor : Nat → State → Nat → State
  | 0, s, _ => s
  | fuel + 1, s, p =>
    match s.flitSlot p with
    | some vc => State.pumpFor fuel (s.sendFlit p vc) p
    | none => s

/-- Flits queued on a channel of a port (R323). -/
def State.flitsQueued (s : State) (p vc : Nat) : Nat :=
  ((s.cornis.held.filter fun e => e.1.port = p && e.1.vc = vc).map fun e => flitsOf e.1).sum
    + match ((s.port p).txOpen[vc]?).getD none with
      | some (m, k) => flitsOf m - k
      | none => 0

/-- Send what waits on a port that is up (R316, R317). -/
def State.pump (s : State) (p : Nat) : State :=
  if !(s.port p).up then s else State.pumpFor (((List.range 4).map (s.flitsQueued p)).sum) s p

/-- Resend the flits of the replay buffer from a number on (R316). -/
def State.replayFlits (s : State) (p : Nat) : State :=
  match (s.port p).replay with
  | none => s
  | some from_ =>
    let s := s.modPort p fun x => { x with replay := none }
    ((s.port p).buffer.filter fun e => (e.1 - from_).toNat < 16384).foldl (fun (s : State) e =>
      s.emitFlit p { idle := false, vc := e.2.1.vc, first := decide (e.2.2 = 0), last := decide (e.2.2 + 1 = flitsOf e.2.1), seq := e.1 }
        (flitBody e.2.1 e.2.2)) s

/-- Queue a message on a port and send what can go (R316, R317, R324). -/
def State.transmit (s : State) (p : Nat) (m : Msg) : State :=
  let s : State := { s with cornis := { s.cornis with
    held := s.cornis.held ++ (msgParts { m with port := p }).map fun k => (k, s.time.now) } }
  s.pump p

/-- The port with the fewest flits queued on a channel, the lowest-numbered among equals (R323). -/
def State.leastQueued (s : State) (vc : Nat) : List Nat → Option Nat
  | [] => none
  | p :: r =>
    match s.leastQueued vc r with
    | some q => if s.flitsQueued q vc < s.flitsQueued p vc then some q else some p
    | none => some p

/-- The port that a message takes among those open to it: an `ORDERED` one the lowest-numbered (R323). -/
def State.choosePort (s : State) (m : Msg) (l : List Nat) : Option Nat := if m.ordered then l.head? else s.leastQueued m.vc l

/-- Send a message whose path is open (R323). -/
def State.sendMsg (s : State) (m : Msg) : State :=
  match s.choosePort m (s.upPortsTo m.dst) with
  | some p => s.transmit p ({ m with src := s.self, hops := 15 } : Msg)
  | none => s

/-- The first transaction number free of outstanding requests, from the next one on. -/
def State.freshTxn (s : State) : BitVec 16 :=
  ((List.range (s.cornis.txns.length + 1)).map (fun i => s.cornis.nextTxn + BitVec.ofNat 16 i)).find?
    (fun n => !s.cornis.txns.any fun t => t.txn = n) |>.getD s.cornis.nextTxn

/-- Send a request and wait for its answer (R330). -/
def State.request (s : State) (m : Msg) (user : TxnUser) : State :=
  let n := s.freshTxn
  let m : Msg := { m with txn := n }
  let s := { s with cornis := { s.cornis with
      nextTxn := n + 1
      txns := s.cornis.txns ++ [({ txn := n, dst := m.dst, sentAt := s.time.now, user := user, msg := m } : Txn)] } }
  s.sendMsg m

/-- The outstanding request a response answers, taken from the list. -/
def State.takeTxn (s : State) (n : BitVec 16) : Option (Txn × State) :=
  match s.cornis.txns.find? fun t => t.txn = n with
  | none => none
  | some t => some (t, { s with cornis := { s.cornis with txns := s.cornis.txns.filter fun k => k.txn ≠ n } })

/-- The response to a request, with data (R320). -/
def reply (m : Msg) (status reason : Code) (operand : BitVec 64 := 0) (data : List Byte := []) : Msg :=
  { op := m.op + 0x80, dst := m.src, txn := m.txn, srcUnit := m.srcUnit, status, reason, operand, data,
    length := data.length, vc := 1 }

/-- Send a response; none goes to a package outside the domain (R320). -/
def State.respond (s : State) (r : Msg) : State := if s.inDomain r.dst then s.sendMsg r else s

/-- The CONTROL message that carries a command for a unit of another package, with its parameter bytes behind it (R68,
R334). -/
def controlMsg (c : Cmd) (own dst : Nat) (unit : BitVec 32) (param : List Byte) : Msg :=
  let bytes := encodeCmd { c with unit := unit } ++ param
  { op := Op.control, srcUnit := pkgUnit own, dst := dst, data := bytes, length := bytes.length, vc := 3, ordered := true }

/-- The started slot of a command. -/
def State.cmdSlot (s : State) (c : Cmd) : Option CmdSlot := s.host.slots.find? fun k => k.cmd = c && k.ph = .started

/-- Parameter bytes a command has fetched. -/
def State.paramOf (s : State) (c : Cmd) : List Byte :=
  match (s.cmdSlot c).bind (·.param) with
  | some (.good b) => b
  | some .poisoned => []
  | some .failed => []
  | none => []

/-- Forward a command to one member in another package: its outcome at once when no path is open, else a member to wait
for (R68, R516). -/
def State.forward (s : State) (c : Cmd) (pkg : Nat) (unit : BitVec 32) (pos : Nat) : State × Member :=
  match s.pathStop pkg with
  | some (st, rs) => (s, { unit, pos, report := some { status := st, reason := rs }, remote := true })
  | none =>
    (s.request (controlMsg c s.self pkg unit (s.paramOf c)) (.command c.ring c.tag unit), { unit, pos, sentAt := s.time.now, remote := true })

/-- Send a command to another package under the name of a member (R68). -/
def State.forwardAs (s : State) (c : Cmd) (pkg pos : Nat) (member : BitVec 32) (param : List Byte) : State × Member :=
  match s.pathStop pkg with
  | some (st, rs) => (s, { unit := member, pos := pos, report := some (outc st rs), remote := true })
  | none => (s.request (controlMsg c s.self pkg c.unit param) (.command c.ring c.tag member)
      , { unit := member, pos := pos, sentAt := s.time.now, remote := true })

/-- Give a command to one member of a pair and end with its answer. -/
def State.passOn (s : State) (c : Cmd) (pkg : Nat) (param : List Byte) : State :=
  let r := s.forwardAs c pkg (pkg % 2) (pkgUnit pkg) param
  let s := r.1.modCmd c fun k => { k with members := [r.2] }
  match r.2.report with
  | some o => s.finishWith c o.status o.reason
  | none => s

/-- Every member of a slot has reported. -/
def CmdSlot.allIn (k : CmdSlot) : Bool := k.members.all fun m => m.report.isSome

/-- The outcome of a slot's members, for a unit of `n` members. -/
def CmdSlot.overall (k : CmdSlot) (n : Nat) : Outc :=
  combine n (k.members.filterMap fun m => m.report.map fun o => (m.pos, o))

/-- What a member of JOB_ENERGY_READ or JOB_CLOSE returns: 16-byte records, or 8 bytes of energy (R448, R455). A member's 16 bytes
or fewer travel in its results (R391). -/
def Member.energyBytes (m : Member) (close : Bool) : List Byte :=
  if !m.remote || !m.data.isEmpty then m.data
  else bytesLE 8 m.results.1.toNat ++ if close then [] else bytesLE 8 m.results.2.toNat

/-- Energy that a member's bytes tell, µJ. -/
def energySum (close : Bool) (b : List Byte) : Nat :=
  if close then natLE (b.take 8)
  else ((List.range (b.length / 16)).map fun i => natLE ((b.drop (16 * i + 8)).take 8)).sum

/-- Finish JOB_ENERGY_READ or JOB_CLOSE over several packages: `RESULT0` is the sum over members that reported OK (R448). -/
def State.finishEnergy (s : State) (c : Cmd) (ms : List Member) (k : Compl) : State :=
  let close : Bool := c.opcode = 0x0704
  let good := ms.filter fun m => (m.report.map (·.status)) = some St.ok
  let k := { k with result0 := w64 (good.map fun m => energySum close (m.energyBytes close)).sum, result1 := 0 }
  if close then s.finish c k
  else
    let data := good.flatMap fun m => m.energyBytes false
    if c.retLen.toNat < data.length || c.ret = 0 then
      if data.isEmpty then s.finish c k
      else s.finish c { status := St.rejected, reason := Rs.destSmall, result0 := w64 data.length }
    else s.modCmd c fun z => { z with ph := .finished, ret := data, compl := k }

/-- Bytes of one record of a command whose return data of a single package may be short enough to travel in the results (R391). -/
def recordSize (op : Nat) : Nat := if op = 0x0112 then 4 else if op = 0x0A03 then 8 else if op = 0x0404 then 16 else 0

/-- Return data of a member: where another package had 16 bytes or fewer, they came in its two results, and no record of these commands
is all zeros (R391). -/
def Member.bytes (m : Member) (op : Nat) : List Byte :=
  let n := recordSize op
  if !m.remote || !m.data.isEmpty || n = 0 then m.data
  else ((chunks n 16 (bytesLE 8 m.results.1.toNat ++ bytesLE 8 m.results.2.toNat)).filter fun r => r.any (· ≠ 0)).flatten

/-- A member's return data did not fit what its message allowed (R391). -/
def Member.small (m : Member) : Bool := m.report = some (outc St.rejected Rs.destSmall)

/-- Bytes of return data that a member has or needs (R391). -/
def Member.needs (m : Member) (op : Nat) : Nat := if m.small then m.results.1.toNat else (m.bytes op).length

/-- Give back a command's return data, or refuse the whole command where one member's did not fit (R391). -/
def State.finishReturn (s : State) (c : Cmd) (ms : List Member) (k : Compl) : State :=
  let op := c.opcode.toNat
  if ms.any (·.small) then
    s.finish c { status := St.rejected, reason := Rs.destSmall, result0 := w64 (ms.map fun m => m.needs op).sum }
  else
    let data := ms.flatMap fun m => m.bytes op
    if data.isEmpty then s.finish c k
    else s.finishData c data { k with result0 := if 16 < data.length then w64 data.length else 0 }

/-- Results of KA_VECTOR over several tiles (R400). DESIGN CHOICE, log entry 36: the elements that differ in all of them, and the first
index of the first tile with one. -/
def vectorResults (ms : List Member) : BitVec 64 × BitVec 64 :=
  ((ms.map fun m => m.results.1).sum, (((ms.find? fun m => m.results.1 ≠ 0).map fun m => m.results.2).getD 0))

/-- Places of a member's own members and their outcomes, or its own (R86). -/
def Member.tree (m : Member) : List (Path × Outc) :=
  if m.under.isEmpty then [(m.path, m.report.getD {})] else m.under.map fun e => (m.path ++ e.1, e.2)

/-- Finish a command whose members have all reported: the overall outcome, the detail of its members (R86), and the data
they returned, in member order (R391). -/
def State.finishMembers (s : State) (c : Cmd) (n : Nat) : State :=
  match s.cmdSlot c with
  | none => s
  | some k =>
    let o := match k.members with
      | [m] => if n = 1 then m.report.getD {} else k.overall n
      | _ => k.overall n
    let s := s.setDetail c (k.members.filterMap fun m => m.report.map fun o => ([(m.pos, n, m.unit)], o))
    let one := match k.members with
      | [m] => if m.data.isEmpty || m.small then m.results else (w64 m.data.length, 0)
      | _ => (0, 0)
    let compl : Compl := { status := o.status, reason := o.reason, map := o.map, detail := true, result0 := one.1
                           result1 := one.2 }
    if (c.opcode = 0x0703 || c.opcode = 0x0704) && n ≠ 1 then s.finishEnergy c k.members compl
    else match k.members with
      | [m] => if m.data.isEmpty then s.finish c compl else s.finishData c m.data compl
      | ms => s.finishReturn c ms compl

/-- Finish a command whose members have places of several levels: the outcome of R84, the members' detail (R86) and what they
returned; JOB_ENERGY_READ and JOB_CLOSE sum what theirs returned (R448). -/
def State.finishTree (s : State) (c : Cmd) : State :=
  match s.cmdSlot c with
  | none => s
  | some k =>
    let o := combineTree splitLevels (k.members.map fun m => (m.path, m.report.getD {}))
    let s := s.setDetail c (k.members.flatMap (·.tree))
    let r := if c.opcode = 0x0A02 then vectorResults k.members else (0, 0)
    let compl : Compl := { status := o.status, reason := o.reason, map := o.map, detail := true, result0 := r.1, result1 := r.2 }
    if c.opcode = 0x0703 || c.opcode = 0x0704 then s.finishEnergy c k.members compl
    else s.finishReturn c k.members compl

/-- What an own unit gives a replicated command: its outcome, the bytes it returns, and the outcomes of its own members with their places
in it (R86). -/
structure LeafOut where
  o : Outc := {}
  data : List Byte := []
  parts : List (Path × Outc) := []
  deriving DecidableEq, Repr

/-- Run a replicated command over units with their places (R81): own units now, units of other packages by CONTROL (R68), with the
outcome of R84 when all have reported. -/
def State.runUnits (s : State) (c : Cmd) (units : List (BitVec 32 × Path)) (leaf : State → BitVec 32 → State × LeafOut) : State :=
  let r := units.foldl (fun (acc : State × List Member) e =>
    let pos := (e.2.head?.map Prod.fst).getD 0
    if unitPkg e.1 = s.self then
      let q := leaf acc.1 e.1
      (q.1, acc.2 ++ [{ unit := e.1, pos := pos, report := some q.2.o, data := q.2.data, path := e.2, under := q.2.parts }])
    else
      let q := acc.1.forward c (unitPkg e.1) e.1 pos
      (q.1, acc.2 ++ [{ q.2 with path := e.2 }])) (s, [])
  let s := r.1.modCmd c fun k => { k with members := r.2 }
  if r.2.all fun m => m.report.isSome then s.finishTree c else s

/-- Run a replicated command (R81). `leaf` acts on an own unit as far as the command's members go; `units` lists the units of a command
that reaches other packages through a unit above them. -/
def State.runReplicatedOver (s : State) (c : Cmd) (units : List (BitVec 32 × Path)) (leaf : State → BitVec 32 → State × LeafOut) : State :=
  let u := c.unit
  if (unitLevel u ≤ 3 || unitLevel u = 7) && unitPkg u ≠ s.self then
    let (s, m) := s.forward c (unitPkg u) u 0
    let s := s.modCmd c fun k => { k with members := [m] }
    if m.report.isSome then s.finishMembers c 1 else s
  else if unitLevel u ≤ 3 || (unitLevel u = 7 && s.ownOnly u) then
    let (s, q) := leaf s u
    let s := s.setDetail c (if q.parts.isEmpty then [([(0, 1, u)], q.o)] else q.parts)
    let compl : Compl := { status := q.o.status, reason := q.o.reason, map := q.o.map, detail := true }
    if q.data.isEmpty then s.finish c compl
    else s.finishData c q.data { compl with result0 := if 16 < q.data.length then w64 q.data.length else 0 }
  else s.runUnits c units leaf

/-- Run a replicated command on every unit it reaches. -/
def State.runReplicated (s : State) (c : Cmd) (leaf : State → BitVec 32 → State × LeafOut) : State :=
  s.runReplicatedOver c (s.unitsUnder (s.depth + 2) c.unit []) leaf

/-- Units of a list, each package once: the first that lies in it. -/
def oncePerPackage : List (BitVec 32 × Path) → List (BitVec 32 × Path)
  | [] => []
  | e :: r => e :: (oncePerPackage r).filter fun k => unitPkg k.1 ≠ unitPkg e.1

/-- Run a command that replicates over packages, with what the own package does (R112). DESIGN CHOICE, log entry 34: a tile, a stack and a
group stand for the packages they lie in, each once. -/
def State.runPackages (s : State) (c : Cmd) (leaf : State → State × Outc × List Byte) : State :=
  s.runReplicatedOver c (oncePerPackage (s.unitsUnder (s.depth + 2) c.unit [])) fun s _ =>
    let (s, o, data) := leaf s
    (s, { o := o, data := data })

/-- Run a command that replicates over tiles: `leaf` acts on one own tile (R81). The members' detail goes down to tiles
(R86). -/
def State.runTiles (s : State) (c : Cmd) (leaf : State → TileRef → State × Outc) : State :=
  s.runReplicated c fun s u =>
    let r := State.replicate leaf (s.depth + 2) s u
    (r.1, { o := r.2.1, parts := r.2.2 })

/-- A command for one unit of a named package only: forwarded whole when the unit is elsewhere (R68). -/
def State.runAt (s : State) (c : Cmd) (here : State → State) : State :=
  if unitPkg c.unit = s.self then here s
  else
    let (s, m) := s.forward c (unitPkg c.unit) c.unit 0
    let s := s.modCmd c fun k => { k with members := [m] }
    if m.report.isSome then s.finishMembers c 1 else s

/-! ### Commands whose members report later (R68, R84) -/

/-- The tiles and remote units a command's work goes to, with their places at each level (R81, R84). -/
def State.leavesOf (s : State) : Nat → BitVec 32 → Path → List (BitVec 32 × Path)
  | 0, _, _ => []
  | f + 1, u, path =>
    if unitLevel u = 1 || ((unitLevel u ≤ 3 || unitLevel u = 7) && unitPkg u ≠ s.self) then [(u, path)]
    else
      let n := (s.members u).length
      (s.liveMembers u).flatMap fun m => s.leavesOf f m.2 (path ++ [(m.1, n, m.2)])

/-- Members that a finished command's unit has, for its outcome. -/
def State.countOf (s : State) (u : BitVec 32) : Nat := if 4 ≤ unitLevel u && unitLevel u ≠ 7 then (s.members u).length else 1

/-- A member of a command reports, with its two results and its data; the last one ends the command. GROUP_WRITE goes on
itself once the lists it asked for have come (R77); the parts of a TWIN_PAGE_FETCH are pages, not units. -/
def State.memberBack (s : State) (c : Cmd) (unit : BitVec 32) (o : Outc) (results : BitVec 64 × BitVec 64) (data : List Byte) : State :=
  let s := s.modCmd c fun k => { k with members := k.members.map fun m =>
    if m.unit = unit && m.report.isNone then { m with report := some o, data := data, results := results } else m }
  match s.cmdSlot c with
  | none => s
  | some k =>
    if !k.allIn || c.opcode = 0x0110 then s
    else if c.opcode = 0x0605 then
      let o := k.overall 1
      s.finishWith c o.status o.reason
    else if k.members.all fun m => m.path.isEmpty then s.finishMembers c (s.countOf c.unit)
    else s.finishTree c

/-- A member of a command reports. -/
def State.memberDone (s : State) (c : Cmd) (unit : BitVec 32) (o : Outc) (data : List Byte) : State := s.memberBack c unit o (0, 0) data

/-- Start a command on the leaves of a list: `leaf` acts on an own tile and gives its outcome, or none when the tile reports
later; units of other packages get it by CONTROL (R68). A tile reached a second time refuses (R82). -/
def State.runOver (s : State) (c : Cmd) (leaves : List (BitVec 32 × Path))
    (leaf : State → TileRef → State × Option Outc) (results : TileRef → BitVec 64 × BitVec 64 := fun _ => (0, 0)) : State :=
  let r := leaves.foldl (fun (acc : State × List Member) e =>
    if unitPkg e.1 = s.self && acc.2.any fun m => m.unit = e.1 then
      (acc.1, acc.2 ++ [{ unit := e.1, pos := (e.2.head?.map Prod.fst).getD 0, report := some (outc St.rejected Rs.groupOverlap), path := e.2 }])
    else if unitPkg e.1 = s.self then
      let q := leaf acc.1 (unitTileRef e.1)
      let m : Member := { unit := e.1, pos := (e.2.head?.map Prod.fst).getD 0, report := q.2, path := e.2 }
      (q.1, acc.2 ++ [{ m with results := results (unitTileRef e.1) }])
    else
      let q := acc.1.forward c (unitPkg e.1) e.1 ((e.2.head?.map Prod.fst).getD 0)
      (q.1, acc.2 ++ [{ q.2 with path := e.2 }])) (s, [])
  let s := r.1.modCmd c fun k => { k with members := r.2 }
  if r.2.all fun m => m.report.isSome then
    if r.2.all fun m => m.path.isEmpty then s.finishMembers c 1 else s.finishTree c
  else s

/-- Start a command on its tiles in service. -/
def State.runLater (s : State) (c : Cmd) (leaf : State → TileRef → State × Option Outc) : State :=
  s.runOver c (s.leavesOf (s.depth + 4) c.unit []) leaf

/-- The demand passes of a tile that leaves service end ABORTED (R303). -/
def State.endDemand (s : State) (t : TileRef) : State :=
  let l := (s.tile t).mem.demand
  let s := s.modTile t fun x => { x with mem := { x.mem with demand := [] } }
  l.foldl (fun (s : State) e => s.memberDone e.1 (s.tileId t) { status := St.aborted } []) s

/-- What a started command does; a command that has not been fetched and started changes nothing (R388), nor does one once Brass has
stopped (R25). -/
def State.onCmd (s : State) (op : Nat) (c : Cmd) (f : State → State) : State :=
  if c.opcode.toNat = op && s.started c && s.brassRuns then f s else s

end Sys2Proof.Machine
end

