-- ==== Sys2Proof/Machine/Regs.lean ====
section
/-! DEFINITION. Sys2Proof/Machine/Regs.lean: what every register of BAR0 reads (R379, R405): the bring-up window (R417), the
host-interface, tick, Cornis, twin, power, thermal, facility, guest and security blocks (R384, R38, R312, R348, R453, R486,
R487, R511, R428), and the tile blocks (R114, R56, R110, R205, R216, R275, R301, R302, R444, R454). -/

namespace Sys2Proof.Machine

/-- A truth value as a bit at a place. -/
def bitIf (b : Bool) (n : Nat) : Nat := if b then 2 ^ n else 0

/-- Low `w` bits of a signed number. -/
def sbits (w : Nat) (z : Int) : Nat := (z % (2 ^ w : Int)).toNat

/-- Next entry of a list of per-index registers: the index whose register lies at an offset. -/
def idx (o base stride n : Nat) : Option Nat :=
  if base ≤ o ∧ (o - base) % stride = 0 ∧ (o - base) / stride < n then some ((o - base) / stride) else none

/-- Logical step due or running (R38, R43). -/
def State.logicalStep (s : State) : Nat := s.tick.wall - s.tick.lag

/-- What a field with the Reset value Fuse reads: zero until step S3 has read the fuses (R9). -/
def State.fuseField (s : State) (n : Nat) : Nat := if 3 ≤ s.bu.done then n else 0

/-! ### Bring-up window (R417) -/

/-- Bits of the tiles of a stack that a list names. -/
def tileBits (l : List TileRef) (st : Nat) : Nat := bitsOn ((l.filter fun t => t / 64 = st).map (· % 64))

/-- `BU_STATE.ELAPSED_US`. -/
def State.buElapsed (s : State) : Nat :=
  if s.bu.busy then usBetween s.bu.startAt s.time.now
  else match s.bu.endAt with
    | some _ => usBetween s.bu.startAt s.time.now
    | none => 0

/-- Bring-up window. -/
def State.buReg (s : State) (o : Nat) : Nat :=
  let b := s.bu
  if o = 0x000 then 0xE24301B0
  else if o = 0x008 then b.go.toNat
  else if o = 0x010 then b.done % 16 + b.running % 16 * 16 + bitIf b.busy 8 + bitIf b.failed 9 + bitIf b.ready 10
    + bitIf b.refLost 11 + b.refusal.toNat * 2 ^ 16 + s.buElapsed % 2 ^ 32 * 2 ^ 32
  else if o = 0x018 then b.resetKey.toNat
  else if o = 0x020 then b.pkg.toNat + bitIf b.pkgValid 10 + bitIf b.pkgLocked 11
  else if o = 0x028 then b.fwAddr.toNat
  else if o = 0x030 then b.fwLen.toNat
  else if o = 0x038 then b.seed.toNat
  else if o = 0x040 then s.fuseField s.sec.svnFused + s.sec.svnRunning * 256
  else if o = 0x200 then bitsOn ((List.range 24).filter s.stackUp)
  else match idx o 0x100 8 14 with
  | some k =>
    let r := kvGet b.results k (0, 0, 0, 0)
    r.1.toNat + r.2.1.toNat * 2 ^ 8 + r.2.2.1 % 2 ^ 16 * 2 ^ 16 + r.2.2.2 % 2 ^ 32 * 2 ^ 32
  | none => match idx o 0x208 8 24 with
  | some st => bitsOn ((s.tilesOf st).map (· % 64))
  | none => match idx o 0x300 8 24 with
  | some st => s.fuseField (tileBits b.fusedTiles st)
  | none => match idx o 0x400 8 24 with
  | some st => tileBits b.testedTiles st
  | none => 0

/-! ### Host-interface block (R384) -/

/-- Ring that a command was fetched for; a guest's command is numbered 16 + 16 × site + ring, so that its tags are its own
(R506). -/
def ringNo (c : Cmd) : Nat := if c.guest.isSome then c.ring % 16 else c.ring

/-- Commands outstanding, in all or of one ring: those fetched for a ring whose completion is not posted (R387). -/
def State.outstanding (s : State) (r : Option Nat) : Nat :=
  (s.host.slots.filter fun k => k.cmd.origin.isNone && (match r with
    | none => true
    | some n => ringNo k.cmd = n)).length

/-- Ring `r`. -/
def State.ring (s : State) (r : Nat) : Ring := (s.host.rings[r]?).getD {}

/-- Change a ring. -/
def State.modRing (s : State) (r : Nat) (f : Ring → Ring) : State :=
  { s with host := { s.host with rings := s.host.rings.modify r f } }

/-- `RING_r_CTL` (R384). -/
def Ring.ctl (x : Ring) : Nat :=
  bitIf x.run 0 + bitIf x.halted 1 + bitIf x.resetBit 2 + x.vector.toNat * 2 ^ 8 + bitIf x.irqEn 14 + x.coalN.toNat * 2 ^ 16 + x.coalUs.toNat * 2 ^ 24

/-- Host-interface block. -/
def State.hostReg (s : State) (o : Nat) : Nat :=
  let h := s.host
  if o = 0x000 then h.linkGen.toNat + h.linkWidth.toNat * 8 + bitIf h.ringsOpen 6 + 0x0204 * 2 ^ 16
    + s.outstanding none % 2 ^ 13 * 2 ^ 32
  else if o = 0x008 then h.viol.toNat + bitIf h.suspect 32
  else if o = 0x010 then h.suspectCount.toNat + h.suspectMs.toNat * 2 ^ 8
  else if o = 0x018 then h.faults.toNat
  else if o = 0x300 then bitIf h.eq.run 0 + bitIf h.eq.resetBit 2 + h.eq.vector.toNat * 2 ^ 8 + bitIf h.eq.irqEn 14 + h.eq.coalN.toNat * 2 ^ 16
    + h.eq.coalUs.toNat * 2 ^ 24
  else if o = 0x308 then h.eq.tail.toNat + bitIf h.eq.phase 12
  else if o = 0x310 then s.events.next
  else if o = 0x318 then bitIf h.eq.enable 0 + h.eq.addr.toNat * 2 ^ 12
  else if o = 0x320 then h.eq.lost.toNat
  else match idx o 0x040 8 8 with
  | some w => let x := (h.wins[w]?).getD (false, 0); bitIf x.1 0 + x.2.toNat * 2 ^ 21
  | none => match idx o 0x100 0x20 16 with
  | some r => (s.ring r).ctl
  | none => match idx o 0x108 0x20 16 with
  | some r =>
    let x := s.ring r
    x.sqHead.toNat + x.cqTail.toNat * 2 ^ 16 + bitIf x.cqPhase 28 + s.outstanding (some r) % 2 ^ 13 * 2 ^ 32
  | none => match idx o 0x110 0x20 16 with
  | some r => let x := s.ring r; bitIf x.cqEnable 0 + x.cqAddr.toNat * 2 ^ 12
  | none => 0

/-! ### Tick block (R38) -/

/-- This package is time root: it holds itself as root (R29, R31). -/
def State.isRoot (s : State) : Bool := s.time.treeOn && s.time.root = s.self

/-- Tick block. -/
def State.tickReg (s : State) (o : Nat) : Nat :=
  let t := s.tick
  if o = 0x000 then bitIf t.running 0 + bitIf s.isRoot 1 + bitIf s.time.locked 2 + bitIf s.time.holdover 3
    + bitIf t.sched.change.isSome 4 + min t.lag 65535 * 2 ^ 16
  else if o = 0x008 then t.wall
  else if o = 0x010 then s.logicalStep
  else if o = 0x018 then t.sched.periodUs
  else if o = 0x020 then t.sched.baseStep
  else if o = 0x028 then t.sched.baseTime
  else if o = 0x030 then (t.sched.change.map Prod.fst).getD 0
  else if o = 0x038 then (t.sched.change.map Prod.snd).getD 0
  else if o = 0x040 then t.sched.version.toNat
  else if o = 0x048 then s.time.invar.toNat
  else if o = 0x050 then s.time.offset.toNat
  else if o = 0x058 then t.planLimit.toNat
  else if o = 0x060 then t.paceRatio
  else if o = 0x068 then t.pacePeriod
  else if o = 0x070 then t.lag
  else 0

/-! ### Cornis and twin blocks (R312, R348) -/

/-- Cornis block. -/
def State.cnsReg (s : State) (o : Nat) : Nat :=
  let c := s.cornis
  if o = 0x000 then bitIf c.valid 0 + bitIf c.fallback 1 + bitIf (decide (10 ≤ s.bu.done)) 2
  else if o = 0x008 then c.self
  else if o = 0x180 then c.suspectCount.toNat + c.suspectMs.toNat * 2 ^ 8
  else if o = 0x188 then c.violLink.toNat + c.violMsg.toNat * 2 ^ 32
  else if o = 0x190 then c.stalled.toNat + c.late.toNat * 2 ^ 32
  else match idx o 0x040 8 16 with
  | some g =>
    match c.groups[g]? with
    | some x => x.role.toNat + x.port.toNat * 4 + x.state.code * 2 ^ 8 + x.uncorr.toNat * 2 ^ 32 + x.corrected / 1000 % 65536 * 2 ^ 48
    | none => 0
  | none => match idx o 0x100 8 9 with
  | some p =>
    let x := s.port p
    x.width.toNat + x.state.code * 2 + bitIf (!s.widthAgrees p) 3 + bitIf x.suspect 4 + x.peer % 1024 * 2 ^ 5
      + x.peerPort % 16 * 2 ^ 15 + x.retrains.toNat * 2 ^ 32
  | none => 0

/-- Twin traffic uses the routing entry: the twin port is down and the pair is up (R322, R348). -/
def State.twinFabric (s : State) : Bool := !(s.port 8).up && kvGet s.cornis.routes (s.self ^^^ 1) 0 ≠ 0

/-- Twin block. -/
def State.twinReg (s : State) (o : Nat) : Nat :=
  let w := s.twin
  if o = 0x000 then w.state.code + bitIf s.twinFabric 3 + bitIf w.suspect 4 + bitIf w.incomplete 5 + bitIf w.fwExempt 6
    + w.cause.toNat * 2 ^ 8 + w.gen.toNat * 2 ^ 32
  else if o = 0x008 then w.lossMs.toNat
  else if o = 0x010 then w.share.toNat
  else if o = 0x018 then w.context % 4096 + w.phase % 4 * 2 ^ 12
  else if o = 0x020 then w.mark % 2 ^ 57
  else if o = 0x028 then w.bytes % 2 ^ 48
  else if o = 0x030 then w.partials.toNat + w.tailRepairs.toNat * 2 ^ 32
  else if o = 0x038 then w.faults.toNat
  else 0

/-! ### Power, thermal, facility, guest and security blocks -/

/-- A ratio held in 1/2^32 as FP32 bits. -/
def ratioBits (k : Nat) : BitVec 32 := toF32 (.fin false k (-32))

/-- Power block (R453). -/
def State.pwrReg (s : State) (o : Nat) : Nat :=
  let p := s.power
  if o = 0x000 then p.watts % 2 ^ 16 + p.vin10 % 2 ^ 16 * 2 ^ 16 + p.iin10 % 2 ^ 16 * 2 ^ 32
  else if o = 0x008 then p.cap.toNat + p.ceiling % 512 * 2 ^ 9
  else if o = 0x010 then p.pct.toNat + p.stretch % 32 * 2 ^ 8 + p.ratio % 1024 * 2 ^ 16 + p.usLimited.toNat * 2 ^ 32
  else if o = 0x018 then bitIf p.fillEnable 0 + p.fillSlew.toNat * 2 ^ 4 + p.fillMaxMw % 2 ^ 16 * 2 ^ 16
  else if o = 0x020 then (ratioBits p.kf).toNat + (ratioBits p.kLast).toNat * 2 ^ 32
  else if o = 0x028 then p.energyIn % 2 ^ 64
  else if o = 0x030 then p.residual % 2 ^ 64
  else if o = 0x038 then p.jobs.length % 2 ^ 13
  else match idx o 0x080 8 12 with
  | some k =>
    match p.stages[k]? with
    | some x => x.state.toNat + x.cause.toNat * 4 + x.outW % 1024 * 2 ^ 8 + x.vout % 2 ^ 16 * 2 ^ 32
      + x.iout / 10 % 2 ^ 16 * 2 ^ 48
    | none => 0
  | none => match idx o 0x100 8 24 with
  | some k =>
    match p.rails[k]? with
    | some x => x.mv % 1024 + s.fuseField (x.minMv % 1024) * 2 ^ 10 + s.fuseField (x.maxMv % 1024) * 2 ^ 20 + x.slack % 256 * 2 ^ 30
      + bitIf x.exhausted 38
    | none => 0
  | none => 0

/-- The six fields of a threshold register agree (R461). -/
def Thresh.ordered (k : Thresh) : Bool :=
  k.warnClr < k.warn && k.warn ≤ k.thr && k.thrClr < k.thr && k.thr ≤ k.sd && k.rearm < k.sd

/-- The thresholds of R458. -/
def defaultThresh : List Thresh :=
  [⟨98, 93, 105, 100, 115, 100⟩, ⟨92, 88, 98, 94, 105, 95⟩, ⟨100, 95, 108, 103, 118, 105⟩, ⟨110, 105, 120, 115, 130, 115⟩]

/-- A register's thresholds as they act: an `SD` above its default acts as the default (R461). -/
def Thresh.acting (x : Thresh) (k : Nat) : Thresh :=
  let d := (defaultThresh[k]?).getD x
  { x with sd := if d.sd < x.sd then d.sd else x.sd }

/-- A threshold register without its `MISMATCH` bit. -/
def Thresh.word (k : Thresh) : Nat :=
  k.warn.toNat + k.warnClr.toNat * 2 ^ 8 + k.thr.toNat * 2 ^ 16 + k.thrClr.toNat * 2 ^ 24 + k.sd.toNat * 2 ^ 32
    + k.rearm.toNat * 2 ^ 40

/-- Thermal block (R486). -/
def State.thermReg (s : State) (o : Nat) : Nat :=
  let t := s.therm
  if o = 0x000 then t.stage % 4 + bitIf t.decided 2 + bitIf t.halted 3 + bitIf t.immediate 4 + t.fraction % 1024 * 2 ^ 8
    + t.ratio % 1024 * 2 ^ 20 + t.targetW % 2 ^ 16 * 2 ^ 32 + t.estMs % 2 ^ 16 * 2 ^ 48
  else if o = 0x008 then t.graceMs.toNat + t.gain.toNat * 2 ^ 16 + t.budgetMs.toNat * 2 ^ 32 + t.horizonMs.toNat * 2 ^ 48
  else if o = 0x010 then t.die % 1024 + t.cause % 16 * 2 ^ 10
  else match idx o 0x020 8 4 with
  | some k =>
    match t.thresh[k]? with
    | some x => x.word + bitIf (!(x.acting k).ordered) 48
    | none => 0
  | none => match idx o 0x100 8 423 with
  | some i =>
    let d := kvGet t.diodes i {}
    sbits 16 d.temp + d.state.code * 2 ^ 16 + bitIf d.failed 18 + bitIf d.estimated 19 + bitIf d.disagree 20
  | none => 0

/-- Facility block (R487). -/
def State.facReg (s : State) (o : Nat) : Nat :=
  let f := s.fac
  if o = 0x000 then bitIf f.pg25 0
  else if o = 0x008 then (if f.suspect then 2 else if f.active then 1 else 0) + f.pump.toNat * 4
  else if o = 0x010 then f.reported % 2 ^ 16 + f.estimated % 2 ^ 16 * 2 ^ 16 + f.trend % 2 ^ 16 * 2 ^ 32 + bitIf f.repValid 48
    + bitIf f.estValid 49 + bitIf f.trendValid 50
  else if o = 0x018 then sbits 16 f.inlet + sbits 16 f.outlet * 2 ^ 16 + sbits 16 f.repInlet * 2 ^ 32
  else if o = 0x020 then f.limit % 512
  else if o = 0x028 then f.suspectCount.toNat + f.suspectMs.toNat * 2 ^ 8
  else if o = 0x030 then f.viol.toNat + bitIf f.suspect 32
  else if o = 0x038 then f.rx.toNat + f.tx.toNat * 2 ^ 32
  else 0

/-- Guest site 0 or 1. -/
def State.guest (s : State) (g : Nat) : Guest := if g = 0 then s.guest0 else s.guest1

/-- Replace a guest site. -/
def State.setGuest (s : State) (g : Nat) (x : Guest) : State := if g = 0 then { s with guest0 := x } else { s with guest1 := x }

/-- Firewall block of a site (R511). -/
def Guest.reg (x : Guest) (o : Nat) : Nat :=
  if o = 0x000 then bitIf x.reset 0
  else if o = 0x008 then x.state.code + x.width.toNat * 8 + x.cause.toNat * 2 ^ 8
  else if o = 0x010 then x.allow.toNat
  else if o = 0x018 then x.rdGbps.toNat + x.wrGbps.toNat * 2 ^ 8 + x.cmds.toNat * 2 ^ 16
  else if o = 0x020 then bitIf x.grant 0 + x.ring.toNat * 2
  else if o = 0x028 then x.capW.toNat + x.measW.toNat * 2 ^ 8 + x.sdC.toNat * 2 ^ 16
  else if o = 0x030 then x.suspectCount.toNat + x.suspectMs.toNat * 2 ^ 8
  else if o = 0x038 then x.viol.toNat + bitIf x.suspect 32
  else match idx o 0x100 0x10 8 with
  | some w => ((x.wins[w]?).getD (0, 0)).1.toNat
  | none => match idx o 0x108 0x10 8 with
  | some w => ((x.wins[w]?).getD (0, 0)).2.toNat
  | none => 0

/-- Security block (R428). -/
def State.secReg (s : State) (o : Nat) : Nat :=
  let c := s.sec
  if o = 0x000 then bitIf c.seRun 0 + bitIf c.cobaltRun 1 + bitIf c.bundleOk 2 + c.lastReason.toNat * 2 ^ 8
    + c.bundleVersion.toNat * 2 ^ 32
  else if o = 0x028 then s.fuseField c.svnFused + c.svnRunning * 256
  else if o = 0x030 then c.requests.toNat + c.errors.toNat * 2 ^ 32
  else if o = 0x038 then c.deviceId.toNat
  else match idx o 0x008 8 4 with
  | some k =>
    match c.images.find? fun i => i.kind = k + 1 with
    | some i => i.version.toNat + 2 ^ 32
    | none => 0
  | none => 0

/-! ### Tile block -/

/-- An engine queue holds a descriptor that executes (R114). -/
def Tile.queueBusy (x : Tile) (k : Nat) : Bool := !(kvGet x.queues k []).isEmpty

/-- `BAND` of a layer of a tile's stack (R295). -/
def State.bandOf (s : State) (t : TileRef) (l : Nat) : Nat := kvGet s.therm.bands (16 * (t / 64) + l) 0

/-- Bits free in `REPAIR_SPARES` for the selected bank (R300, R301); the Fuse fields read zero before S3 (R9). -/
def State.repairSpares (s : State) (t : TileRef) : Nat :=
  if s.bu.done < 3 && !(s.bu.busy && 3 < s.bu.running) then 0
  else
    let x := s.tile t
    let sel := x.mem.repairSel
    let l := bitsOf sel 3 0
    let b := bitsOf sel 7 4
    let inBank := x.mem.repairs.filter fun r => r.1 = l && r.2.1 = b
    let rows := (inBank.filter fun r => !r.2.2.2.1).length
    let cols := (inBank.filter fun r => r.2.2.2.1).length
    let fuses := (x.mem.repairs.filter fun r => r.1 = l && r.2.2.2.2).length
    (32 - rows) + (4 - cols) * 2 ^ 6 + (128 - fuses) * 2 ^ 9

/-- The word of `REGION_r` (R302). -/
def Tile.regionWord (x : Tile) (r : Nat) : Nat :=
  let g := x.region r
  bitIf g.computable 0 + g.t.toNat * 2 + g.ilv.toNat * 2 ^ 4 + bitIf g.init 6 + bitIf (!x.ilvAgrees r) 7
    + bitIf (!x.regionPresent r) 8

/-- The word of `CHANNEL_l` (R302). -/
def State.channelWord (s : State) (t : TileRef) (l : Nat) : Nat :=
  let c := (s.tile t).channel l
  c.state.toNat + c.cause.toNat * 2 ^ 2 + c.spare68.toNat * 2 ^ 6 + c.spare69.toNat * 2 ^ 13 + c.failed.toNat * 2 ^ 20
    + s.bandOf t l * 2 ^ 27 + c.linkErrs.toNat * 2 ^ 32

/-- Bytes of the append buffer allocated, of tail slots or staging slots alone (R214). -/
def Tile.kvUsed (x : Tile) : Nat := (x.kv.map (·.bytes)).sum

/-- Fall of a tile's fill level, in µW per 100 ns, times N (R451, R453). -/
def State.fillFall (s : State) : Nat := 939 * max 1 (min 360 s.power.fillSlew.toNat)

/-- A tile's fill level at a time: it began at `level` µW. -/
def State.fillLevel (s : State) (level start now : Nat) : Nat :=
  level - s.fillFall * ((now - start) / 7) / (100 * max 1 s.tilesUp.length)

/-- Setpoint of a tile's core rail, mV (R450). -/
def State.railMv (s : State) (t : TileRef) : Nat := ((s.power.rails[t / 64]?).map (·.mv)).getD 0

/-- Model energy of a note of work less its static term, fJ, over the counters that `which` admits (R445). -/
def State.spanFj (s : State) (t : TileRef) (which : Nat → Bool) (p : JobSpan) : Nat :=
  (p.act.map fun e => if which e.1 then e.2.toNat * Config.weight t (s.railMv t) e.1 else 0).sum

/-- How much of a note of work lies after `lo` and not after `hi`, and how much there is of it: a moment counts one. DESIGN CHOICE, log
entry 45: what the counters rise by at the end of work is spread evenly over it. -/
def JobSpan.part (p : JobSpan) (lo hi : Nat) : Nat :=
  if p.start < p.stop then min p.stop hi - max p.start lo else if lo < p.stop && p.stop ≤ hi then 1 else 0
def JobSpan.length (p : JobSpan) : Nat := max 1 (p.stop - p.start)

/-- What a tile has noted, and what its counters have risen by since, at this moment. -/
def State.noted (s : State) (t : TileRef) : List JobSpan := ((s.tile t).note none 9 s.time.now s.time.now).spans

/-- Model dynamic power of a tile over the last 64 µs, µW (R451). -/
def State.dynamicUw (s : State) (t : TileRef) : Nat :=
  let lo := s.time.now - us 64
  ((s.noted t).map fun p => s.spanFj t (fun _ => true) p * p.part lo s.time.now / p.length).sum / 64000

/-- Matrix groups whose model power comes closest to a tile's fill level from below: weight 4 is that of one group for one core cycle
(R444, R451). -/
def State.fillGroups (s : State) (t : TileRef) (x : Tile) : Nat :=
  match x.fill with
  | none => 0
  | some (level, a) => min 8 (s.fillLevel level a s.time.now * 10 / (7 * max 1 (Config.weight t (s.railMv t) 4)))

/-- `PEWTER_BUSY`: a sequence has started and not completed, or a fence is at work (R275). -/
def Tile.pewterBusy (x : Tile) : Bool :=
  x.pewter.seqs.any (fun q => !q.done) || x.slots.any fun e => dOpcode e.2.desc = 0x41 && (e.2.ph = .queued || e.2.ph = .running)

/-- `MX_GROUPS` (R114, R138): the groups that products, those of a GEMM among them, a warm hold or fill keep active. -/
def State.mxGroups (s : State) (t : TileRef) (x : Tile) : Nat :=
  let n := s.groupsAt t x (s.coreNow x)
  if x.mxWaiting.isEmpty then max n (s.fillGroups t x) else n

/-- An engine is executing: a descriptor is in its queue, and the pause after the one before it has passed, or a GEMM uses the channel
(R61, R114, R144). -/
def State.engineBusy (s : State) (x : Tile) (k : Nat) : Bool :=
  (x.queueBusy k && kvGet x.engineFree k 0 ≤ s.coreNow x) || (x.gemmChannels (s.coreNow x)).any fun c => (EngineQ.dma c).key = k

/-- A pause of R61 is in progress on an engine (R114). -/
def State.pausing (s : State) (x : Tile) : Bool := x.pauses.any fun e => e.2.1 ≤ s.coreNow x && s.coreNow x < e.2.2

/-- Tile block (R114). -/
def State.tileReg (s : State) (t : TileRef) (o : Nat) : Nat :=
  let x := s.tile t
  if o = 0x000 then x.unit.code + x.trap.toNat * 2 ^ 8
  else if o = 0x008 then x.slots.length % 512 + x.shares.length % 64 * 2 ^ 16
  else if o = 0x010 then
    s.mxGroups t x + bitsOn ((List.range 6).filterMap fun k => if s.engineBusy x (k + 1) then some (k + 4) else none)
      + bitIf x.pewterBusy 10 + bitIf (s.pausing x) 11
  else if o = 0x018 then x.planStep
  else if o = 0x020 then x.admitted % 2 ^ 15 + x.completed % 2 ^ 15 * 2 ^ 16
  else if o = 0x028 then x.cplBase
  else if o = 0x030 then x.trapInfo.toNat
  else if o = 0x038 then x.eccCorrected.toNat + x.eccUncorrected.toNat * 2 ^ 32
  else if o = 0x040 then x.dmaHalted.toNat
  else if o = 0x068 then x.halfRuns.toNat + x.singles / 1000 % 2 ^ 32 * 2 ^ 32
  else if o = 0x070 then x.reuse.toNat
  else if o = 0x080 then x.kvUsed % 2 ^ 19 + (x.kv.filter fun k => !k.staging).length % 256 * 2 ^ 32
    + (x.kv.filter fun k => k.staging).length % 256 * 2 ^ 40
  else if o = 0x088 then x.kvReserve.toNat
  else if o = 0x090 then x.spillBlocks.toNat + x.spillWrites.toNat * 2 ^ 32
  else if o = 0x098 then x.flushBlocks.toNat
  else if o = 0x0A0 then x.attnItems.toNat + x.attnStale.toNat * 2 ^ 32
  else if o = 0x0C0 then bitsOn (x.pewter.seqs.filterMap (·.half)) + bitsOn (x.pewter.vslots.map fun e => 2 + e.1)
    + bitsOn (x.pewter.seqs.filterMap fun q => q.half.map fun _ => 4 + q.tag)
  else if o = 0x0C8 then x.pewter.hint.toNat
  else if o = 0x0D0 then x.pewter.pages.toNat + x.pewter.fallback.toNat * 2 ^ 32
  else if o = 0x0D8 then x.pewter.waitAcc.toNat + x.pewter.waitRef.toNat * 2 ^ 32
  else if o = 0x0E0 then x.pewter.poison.toNat
  else if o = 0x100 then bitIf x.fault.valid 0 + bitIf x.fault.more 1 + x.fault.status.toNat * 2 ^ 8
    + x.fault.reason.toNat * 2 ^ 16 + x.fault.kind.toNat * 2 ^ 24
  else if o = 0x108 then x.fault.dva.toNat
  else if o = 0x110 then x.fault.slot.toNat + x.fault.context.toNat * 2 ^ 8
  else if o = 0x118 then x.fault.step.toNat
  else if o = 0x120 then x.faultCount.toNat
  else if o = 0x480 then x.mem.scrubPasses.toNat + x.mem.scrubPos % 2 ^ 20 * 2 ^ 32 + bitIf (!x.mem.demand.isEmpty) 52
  else if o = 0x488 then x.mem.scrubPeriod.toNat
  else if o = 0x490 then x.mem.corrected.toNat + x.mem.uncorrectable.toNat * 2 ^ 32
  else if o = 0x498 then x.mem.rmw.toNat + x.mem.whole.toNat * 2 ^ 32
  else if o = 0x4A0 then x.mem.poison.length % 2 ^ 21
  else if o = 0x500 then x.mem.repairSel.toNat
  else if o = 0x508 then bitIf x.mem.hold.isSome 0
  else if o = 0x510 then x.mem.repairCmd.toNat
  else if o = 0x518 then bitIf x.mem.repairBusy 0 + x.mem.repairResult.toNat * 2 + x.mem.marchErrs.toNat * 2 ^ 4
  else if o = 0x520 then s.repairSpares t
  else if o = 0x6C0 then x.droopEvents.toNat
  else if o = 0x6C8 then x.droopThresh.toNat
  else if o = 0x1080 then x.arrLate.toNat
  else match idx o 0x048 8 4 with
  | some c => (kvGet x.dmaPoison c 0).toNat
  | none => match idx o 0x200 8 32 with
  | some i => let m := kvGet x.sems i {}; m.value.toNat + bitIf m.failed 32
  | none => match idx o 0x300 8 32 with
  | some r => x.regionWord r
  | none => match idx o 0x400 8 16 with
  | some l => s.channelWord t l
  | none => match idx o 0x600 8 24 with
  | some i => (kvGet x.activity i 0).toNat
  | none => match idx o 0x1100 0x10 64 with
  | some i => (kvGet x.arr i (0, 0)).1.toNat
  | none => match idx o 0x1108 0x10 64 with
  | some i => (kvGet x.arr i (0, 0)).2.toNat
  | none =>
    if 0x800 ≤ o ∧ o < 0x1080 then natLE (cellRead x.mem.repairBuf (o - 0x800) 8) else 0

/-- Registers that block `o / 4096` of the blocks from 0x010_0000 holds (R379). -/
def State.blockReg (s : State) (o : Nat) : Nat :=
  let k := o % 4096
  match o / 4096 with
  | 0x100 => s.hostReg k
  | 0x101 => s.tickReg k
  | 0x102 => s.cnsReg k
  | 0x103 => s.twinReg k
  | 0x104 => s.pwrReg k
  | 0x105 => s.thermReg k
  | 0x106 => s.facReg k
  | 0x108 => s.guest0.reg k
  | 0x109 => s.guest1.reg k
  | 0x10A => s.secReg k
  | _ => if o < 0x100000 then s.buReg o else 0

/-- The 8-byte register at a BAR0 offset; offsets not listed read as zero (R379, R405). -/
def State.regRead (s : State) (o : Nat) : Word :=
  if 0x1000000 ≤ o ∧ o < 0x1000000 + 0x2000 * 1536 then w64 (s.tileReg ((o - 0x1000000) / 0x2000) ((o - 0x1000000) % 0x2000))
  else w64 (s.blockReg o)

/-- Bytes of the register window from a BAR0 offset. -/
def State.regBytes (s : State) (o n : Nat) : List Byte :=
  (List.range n).map fun i => BitVec.ofNat 8 ((s.regRead ((o + i) / 8 * 8)).toNat / 256 ^ ((o + i) % 8))

/-- Bytes of the Brass-resident tables: the translation contexts stand first (log entry 8); what stands where in the rest
the spec does not state, and it reads as free values. -/
def State.tableBytes (s : State) (o n : Nat) : List Byte :=
  (List.range n).map fun i =>
    let a := o + i
    if a < 131072 then ((contextBytes (s.context (a / 32)))[a % 32]?).getD 0
    else BitVec.ofNat 8 (Config.freeBits 8 (2 ^ 40 + a))

/-- Bytes of the unit-record slots (R95). -/
def State.recordWindow (s : State) (o n : Nat) : List Byte :=
  (List.range n).map fun i => ((s.slotBytes ((o + i) / 32768))[(o + i) % 32768]?).getD 0

/-- What a local address reaches (R93). -/
inductive LocalArea where
  | stack
  | tables (o : Nat)
  | records (o : Nat)
  | window (o : Nat)
  | hole
  deriving DecidableEq, Repr

/-- The local address map (R93). -/
def localArea (a : Nat) : LocalArea :=
  if a < stackEnd then .stack
  else if 0x3E0000000000 ≤ a ∧ a < 0x3E0004000000 then .tables (a - 0x3E0000000000)
  else if 0x3E8000000000 ≤ a ∧ a < 0x3E800C000000 then .records (a - 0x3E8000000000)
  else if 0x3F0000000000 ≤ a ∧ a < 0x3F0004000000 then .window (a - 0x3F0000000000)
  else .hole

/-- Read bytes of the own local address space; they lie within one page or one of the areas of R93. -/
def readLocal (a n kind : Nat) : M (List Byte) := do
  match localArea a with
  | .stack => readStack a n kind
  | .tables o => pure ((← get).tableBytes o n)
  | .records o => pure ((← get).recordWindow o n)
  | .window o => pure ((← get).regBytes o n)
  | .hole => M.stop St.range Rs.localHole kind

/-- Write bytes of the own local address space (R93). -/
def writeLocal (a kind : Nat) (bytes : List Byte) : M Unit :=
  match localArea a with
  | .stack => writeStack a kind bytes
  | .tables _ => M.stop St.range Rs.noWrite kind
  | .records _ => M.stop St.range Rs.noWrite kind
  | .window _ => M.stop St.range Rs.noWrite kind
  | .hole => M.stop St.range Rs.localHole kind

end Sys2Proof.Machine
end

