-- ==== Sys2Proof/Machine/Access.lean ====
section
/-! DEFINITION. Sys2Proof/Machine/Access.lean: how a tile reads and writes device virtual addresses: the checks of R105 to
R109, remote accesses (R326 to R328), mirrored writes (R353 to R356), arrival counts (R55, R195, R337) and the fault record
(R110, R111). -/

namespace Sys2Proof.Machine

/-- On whose behalf an access is made. -/
structure Env where
  t : TileRef
  slot : Nat
  ctx : Nat
  job : BitVec 16
  step : Nat
  fetched : List (Nat × List Byte) := []
  readFails : List (Nat × Nat × Code × Code) := []
  bulk : Bool := false
  /-- The attention front end acts, for no slot; whether its plane is in sync with the twin (R353, R366). -/
  front : Option Bool := none
  deriving DecidableEq, Repr

/-! ### Mirroring (R356) -/

/-- What happens to an operation on a `TWIN_MIRRORED` page (R356). -/
inductive MirrorWay where
  /-- Applied here and sent to the twin. -/
  | both
  /-- Applied here only; PARTIAL with the reason. -/
  | alone (reason : Code)
  /-- Not applied: NOT_READY, TWIN_RESYNC. -/
  | refuse
  deriving DecidableEq, Repr

/-- The 2 KiB page of a DVA lies below the watermark (R364). -/
def TwinState.below (w : TwinState) (ctx : Nat) (dva : BitVec 64) : Bool :=
  w.doneContexts.contains ctx || (w.phase = 1 && w.context = ctx && dva.toNat % 2 ^ 57 < w.mark)

/-- A page of a member that lost the source of its resync, above the watermark and not written whole since (R368). -/
def TwinState.invalid (w : TwinState) (ctx : Nat) (dva : BitVec 64) : Bool :=
  w.incomplete && !(w.validContexts.contains ctx || (w.validContext = ctx && dva.toNat % 2 ^ 57 < w.validMark)
    || w.restored.contains (ctx, dva.toNat % 2 ^ 57 / pageSize))

/-- The way that the state gives a page (R356). An UNPAIRED member has no twin and acts as a SOLO one: DESIGN CHOICE, log entry 10. -/
def TwinState.stateWay (w : TwinState) (ctx : Nat) (dva : BitVec 64) : MirrorWay :=
  match w.state with
  | .paired => .both
  | .source => if w.below ctx dva then .both else .alone Rs.twinResync
  | .target => if w.below ctx dva then .both else .refuse
  | .stale => .refuse
  | .solo => .alone Rs.twinSolo
  | .detached => .alone Rs.twinSolo
  | .conflict => .alone Rs.twinSolo
  | .unpaired => .alone Rs.twinSolo

/-- The way of a page (R356): an invalid one is refused, whatever the state (R368). -/
def TwinState.way (w : TwinState) (ctx : Nat) (dva : BitVec 64) : MirrorWay :=
  if w.invalid ctx dva then .refuse else w.stateWay ctx dva

/-- A write of an invalid page that covers it whole makes it valid (R368). -/
def TwinState.revives (w : TwinState) (ctx : Nat) (dva : BitVec 64) (n : Nat) : Bool := w.invalid ctx dva && n = pageSize

/-- The way of a write of `n` bytes within a page. -/
def TwinState.writeWay (w : TwinState) (ctx : Nat) (dva : BitVec 64) (n : Nat) : MirrorWay :=
  if w.revives ctx dva n then w.stateWay ctx dva else w.way ctx dva

/-- A page that was written whole is valid from now on (R368). -/
def TwinState.written (w : TwinState) (ctx : Nat) (dva : BitVec 64) (n : Nat) : TwinState :=
  if w.revives ctx dva n then { w with restored := (ctx, dva.toNat % 2 ^ 57 / pageSize) :: w.restored } else w

/-- The mirror word of R354. -/
def mirrorWord (kind : Nat) (poison : Bool) (gen : BitVec 32) : BitVec 64 :=
  w64 (kind + (if poison then 4 else 0) + gen.toNat * 2 ^ 32)

/-! ### Descriptor slots -/

/-- Change a descriptor slot in use. -/
def State.modSlot (s : State) (t : TileRef) (i : Nat) (f : DescSlot → DescSlot) : State :=
  s.modTile t fun x =>
    match x.slot i with
    | some d => x.setSlot i (f d)
    | none => x

/-- What a slot's descriptor accesses memory as. -/
def DescSlot.env (d : DescSlot) (t : TileRef) (i : Nat) : Env :=
  { t := t, slot := i, ctx := d.job.toNat % 4096, job := d.job, step := d.step, bulk := dOpcode d.desc = 0x22, fetched := d.fetched
    readFails := d.readFails }

/-! ### The fault record (R110, R111) -/

/-- The tile runs a plan that is not done (R46). -/
def Tile.runsPlan (x : Tile) : Bool :=
  match x.running with
  | none => false
  | some p => x.completed < p.descs.length

/-- The step in which a tile raises one event of a kind: its plan's, or the wall step (R55, R111). -/
def State.stepMark (s : State) (t : TileRef) : Bool × Nat :=
  let x := s.tile t
  if x.runsPlan then (true, x.planStep) else (false, s.tick.wall)

/-- Whether a stop enters the fault record: a range fault, NOT_COMPUTABLE, or an uncorrectable walk read (R105, R110,
R293). -/
def Stop.faults (e : Stop) : Bool :=
  e.kind ≠ 0 && (e.status = St.range || (e.status = St.rejected && e.reason = Rs.notComputable)
    || (e.status = St.poisoned && e.kind = 3))

/-- Enter a fault in the tile's record and raise RANGE_FAULT once per step (R110, R111). -/
def State.recordFault (s : State) (t : TileRef) (e : Stop) (slot ctx step : Nat) : State :=
  if !e.faults then s
  else
    let x := s.tile t
    let r : FaultRec := { valid := true, status := e.status, reason := e.reason, kind := BitVec.ofNat 4 e.kind, dva := e.dva
                          slot := BitVec.ofNat 8 slot, context := BitVec.ofNat 12 ctx, step := BitVec.ofNat 48 step }
    let x := { x with
      fault := if x.fault.valid then { x.fault with more := true } else r
      faultCount := if e.status = St.range then x.faultCount + 1 else x.faultCount }
    let x := if e.status = St.range then x.count 15 1 else x
    let mark := s.stepMark t
    let s := s.setTile t x
    if x.faultMark = some mark then s
    else (s.modTile t fun x => { x with faultMark := some mark }).raise Ev.rangeFault (s.tileId t)
      [w64 e.status.toNat, w64 e.reason.toNat, w64 e.kind, e.dva, w64 r.slot.toNat, w64 ctx, w64 step]

/-! ### Arrival counts (R55) -/

/-- Tagged data is in memory: the tile updates slot `step` mod 4 of counter `ctr` (R55). -/
def State.arrive (s : State) (t : TileRef) (ctr step : Nat) : State :=
  let x := s.tile t
  let k := 4 * ctr + step % 4
  let (held, n) := kvGet x.arr k (0, 0)
  if held.toNat = step then s.setTile t { x with arr := kvPut x.arr k (held, n + 1) }
  else if held.toNat < step then s.setTile t { x with arr := kvPut x.arr k (BitVec.ofNat 48 step, 1) }
  else
    let mark := s.stepMark t
    let s := s.setTile t { x with arrLate := x.arrLate + 1, lateMark := some mark }
    if x.lateMark = some mark then s
    else s.raise Ev.lateArrival (s.tileId t) [w64 ctr, w64 step, w64 held.toNat]

/-! ### Reading -/

/-- Give a stop the address of its access where it has none. -/
def atDva {α : Type} (dva : BitVec 64) (m : M α) : M α :=
  EStateM.adaptExcept (fun e => if e.dva = 0 then { e with dva := dva } else e) m

/-- The messages of a remote access: up to 8,192 bytes each, beginning on 2 KiB boundaries after the first (R327). -/
def cutMessages : Nat → Nat → Nat → List (Nat × Nat)
  | 0, _, _ => []
  | fuel + 1, g, n =>
    if n = 0 then [] else
      let k := min n (8192 - g % 2048)
      (g, k) :: cutMessages fuel (g + k) (n - k)

/-- Bytes of another package: fetched already, failed already, or needed. -/
def readAway (env : Env) (g n : Nat) (dva : BitVec 64) (kind : Nat) : M (List Byte) := do
  match env.readFails.find? fun r => r.1 ≤ g && g < r.1 + r.2.1 with
  | some r => M.stop r.2.2.1 r.2.2.2 kind dva
  | none =>
    match env.fetched.find? fun c => c.1 ≤ g && g + n ≤ c.1 + c.2.length with
    | some c => pure ((c.2.drop (g - c.1)).take n)
    | none =>
      match (← get).pathStop (pkgOf g) with
      | some (st, rs) => M.stop st rs kind dva
      | none => throw { status := 0, need := some { pkg := pkgOf g, dva := dva, gaddr := g, len := n, bulk := env.bulk } }

/-- Read global addresses of one translation page. -/
def readGlobal (env : Env) (g n : Nat) (dva : BitVec 64) (kind : Nat) : M (List Byte) := do
  if pkgOf g = (← get).self then
    let parts ← (pageParts (localOf g) n).mapM fun p => atDva (dva + w64 (p.1 - localOf g)) (readLocal p.1 p.2 kind)
    pure parts.flatten
  else
    let parts ← (cutMessages (n / 2048 + 2) g n).mapM fun p => readAway env p.1 p.2 (dva + w64 (p.1 - g)) kind
    pure parts.flatten

/-- A read of a `TWIN_MIRRORED` page is allowed where a write would be applied (R356). -/
def mirrorReadable (ctx : Nat) (dva : BitVec 64) (n kind : Nat) : M Unit := do
  let w := (← get).twin
  if (pageParts dva.toNat n).any fun p => w.way ctx (w64 p.1) = .refuse then M.stop St.notReady Rs.twinResync kind dva

/-- Read `n` bytes from a DVA, translation page by translation page (R105, R109); `perm` asks for `READ`, which the merge
of a narrow or sub-byte write does not. -/
def readParts (env : Env) (perm : Bool) (kind : Nat) : Nat → BitVec 64 → Nat → M (List Byte)
  | 0, _, _ => pure []
  | fuel + 1, dva, n => do
    if n = 0 then pure []
    else
      let e ← atDva dva (translate env.t env.ctx dva kind)
      if perm && !e.canRead then M.stop St.range Rs.noRead kind dva
      let k := min n (2 ^ e.size - dva.toNat % 2 ^ e.size)
      if e.mirrored && pkgOf (e.global dva) = (← get).self then mirrorReadable env.ctx dva k kind
      let here ← readGlobal env (e.global dva) k dva kind
      let rest ← readParts env perm kind fuel (dva + w64 k) (n - k)
      pure (here ++ rest)

/-- Read bytes of a DVA. -/
def readDva (env : Env) (dva : BitVec 64) (n kind : Nat) : M (List Byte) :=
  readParts env true kind (n / 2 ^ 21 + 2) dva n

/-- Read bytes that the descriptor reads once only (R184, R200): what it read before it waited for other packages stands, and the
repeated access only counts. -/
def readOnce (env : Env) (dva : BitVec 64) (n kind : Nat) : M (List Byte) := do
  match (((← get).tile env.t).slot env.slot).bind fun d => d.once.find? fun e => e.1 = dva.toNat && e.2.length = n with
  | some e =>
    EStateM.tryCatch (do let _ ← readDva env dva n kind) fun _ => pure ()
    pure e.2
  | none =>
    let b ← readDva env dva n kind
    M.upd fun s => s.modSlot env.t env.slot fun d => { d with once := d.once ++ [(dva.toNat, b)] }
    pure b

/-- Read bytes that a write merges with. -/
def readUnder (env : Env) (dva : BitVec 64) (n kind : Nat) : M (List Byte) :=
  readParts env false kind (n / 2 ^ 21 + 2) dva n

/-! ### Writing -/

/-- Count bytes that one tile sends another over the meshes of the package (R444). -/
def meshBytes (src dst : TileRef) (n : Nat) : M Unit :=
  if src = dst then pure ()
  else M.upd fun s => s.modTile src fun x => x.act (if src / 64 = dst / 64 then 17 else 18) n

/-- Slice pages that a local write covers: note the tile that receives bytes (R195). -/
def noteLanded (env : Env) (a : Nat) (n : Nat) : M Unit :=
  if isStack a then do
    meshBytes env.t (tileOfLocal a) n
    if env.front.isNone then
      M.upd fun s => s.modSlot env.t env.slot fun d =>
      { d with landed := if d.landed.contains (tileOfLocal a) then d.landed else d.landed ++ [tileOfLocal a] }
  else pure ()

/-- Stack of a port's controller: the head die of its lower-numbered group (R306). -/
def State.portStack (s : State) (p : Nat) : Option Nat := (s.portGroups p).head?.map groupStack

/-- Count the data bytes of a message that a tile is about to send another package: they cross the stack mesh unless the controller of
the port chosen for them lies in the tile's stack (R20, R306, R323, R444). -/
def State.countSent (s : State) (t : TileRef) (m : Msg) : State :=
  let n := m.data.length
  let here : Bool := match s.choosePort m (s.upPortsTo m.dst) with
    | some p => s.portStack p = some (t / 64)
    | none => true
  if n = 0 then s else s.modTile t fun x => if here then x.act 19 n else (x.act 19 n).act 18 n

/-- A tile's request to another package, its bytes counted. -/
def State.requestOf (s : State) (t : TileRef) (m : Msg) (user : TxnUser) : State := (s.countSent t m).request m user

/-- Queue a message of the descriptor; the front end sends at once. -/
def queueMsg (env : Env) (m : Msg) (mirror : Bool) : M Unit :=
  if env.front.isSome then M.upd fun s => s.requestOf env.t m (.front env.t)
  else M.upd fun s => s.modSlot env.t env.slot fun d => { d with toSend := d.toSend ++ [(m, mirror)] }

/-- Key under which an answered write stands among what has come from other packages: apart from every address that is read. -/
def writeKey (g : Nat) : Nat := g + 2 ^ 64

/-- A write to another package by an agent that holds no slot's messages: answered already, failed, or to be sent and awaited (R220,
R328). -/
def writeAway (env : Env) (g : Nat) (dva : BitVec 64) (kind : Nat) (bytes : List Byte) : M Unit :=
  match env.readFails.find? fun r => r.1 = writeKey g && r.2.1 = bytes.length with
  | some r => M.stop r.2.2.1 r.2.2.2 kind dva
  | none =>
    if env.fetched.any fun c => c.1 = writeKey g && c.2.length = bytes.length then pure ()
    else throw { status := 0, need := some { pkg := pkgOf g, dva := dva, gaddr := g, len := bytes.length, put := some bytes } }

/-- A WRITE message of a tile (R319, R326). -/
def writeMsg (s : State) (env : Env) (dst g : Nat) (dva : BitVec 64) (bytes : List Byte) (operand : BitVec 64) : Msg :=
  { op := Op.write, dst := dst, job := env.job, srcUnit := s.tileId env.t, dva := dva, gaddr := g, length := bytes.length,
    data := bytes, operand := operand, vc := if env.bulk then 2 else 0 }

/-- Remember that the twin does not hold a write (R356): the first reason stays. -/
def noteMirror (env : Env) (reason : Code) : M Unit :=
  if env.front.isSome then pure ()
  else M.upd fun s => s.modSlot env.t env.slot fun d =>
    { d with mirror := if d.mirror.status = St.ok then outc St.partial reason else d.mirror }

/-- Write within one slice page or area of the own package, with its mirroring (R353, R356). -/
def writeHere (env : Env) (mirrored : Bool) (a : Nat) (dva : BitVec 64) (kind : Nat) (bytes : List Byte) : M Unit := do
  let put := do
    atDva dva (writeLocal a kind bytes)
    noteLanded env a bytes.length
  if !mirrored || env.front = some true then put
  else
    let s ← get
    let put := do
      put
      M.upd fun s => { s with twin := s.twin.written env.ctx dva bytes.length }
    match s.twin.writeWay env.ctx dva bytes.length with
    | .both =>
      put
      if (s.pathStop (s.self ^^^ 1)).isSome then noteMirror env Rs.noResponse
      else queueMsg env (writeMsg s env (s.self ^^^ 1) 0 dva bytes (mirrorWord 1 false s.twin.gen)) true
    | .alone r =>
      put
      noteMirror env r
    | .refuse =>
      if env.front.isSome then put
      else M.stop St.notReady Rs.twinResync kind dva

/-- Write global addresses of one translation page. -/
def writeGlobal (env : Env) (mirrored : Bool) (g : Nat) (dva : BitVec 64) (kind : Nat) (bytes : List Byte) : M Unit := do
  let s ← get
  if pkgOf g = s.self then
    (pageParts (localOf g) bytes.length).forM fun p =>
      writeHere env mirrored p.1 (dva + w64 (p.1 - localOf g)) kind ((bytes.drop (p.1 - localOf g)).take p.2)
  else
    match s.pathStop (pkgOf g) with
    | some (st, rs) => M.stop st rs kind dva
    | none =>
      (cutMessages (bytes.length / 2048 + 2) g bytes.length).forM fun p =>
        let part := (bytes.drop (p.1 - g)).take p.2
        if env.front.isSome then writeAway env p.1 (dva + w64 (p.1 - g)) kind part
        else queueMsg env (writeMsg s env (pkgOf g) p.1 (dva + w64 (p.1 - g)) part 0) false

/-- Write bytes from a DVA on, translation page by translation page; earlier pages stay written (R105, R106, R109). -/
def writeParts (env : Env) (kind : Nat) : Nat → BitVec 64 → List Byte → M Unit
  | 0, _, _ => pure ()
  | fuel + 1, dva, bytes => do
    if bytes.isEmpty then pure ()
    else
      let e ← atDva dva (translate env.t env.ctx dva kind)
      if !e.canWrite then M.stop St.range Rs.noWrite kind dva
      let o := dva.toNat % 2 ^ e.size
      let k := min bytes.length (2 ^ e.size - o)
      if e.appendOnly then atDva dva (appendMark e dva o (o + k) kind)
      writeGlobal env e.mirrored (e.global dva) dva kind (bytes.take k)
      writeParts env kind fuel (dva + w64 k) (bytes.drop k)

/-- Write bytes from a DVA on. -/
def writeDva (env : Env) (dva : BitVec 64) (bytes : List Byte) (kind : Nat) : M Unit :=
  writeParts env kind (bytes.length / 2 ^ 21 + 2) dva bytes

/-! ### Ending a run of accesses -/

/-- The request for what a run needs: a READ, or a WRITE (R326, R327). -/
def readMsg (s : State) (env : Env) (n : Need) : Msg :=
  match n.put with
  | some b => writeMsg s env n.pkg n.gaddr n.dva b 0
  | none => { op := Op.read, dst := n.pkg, job := env.job, srcUnit := s.tileId env.t, dva := n.dva, gaddr := n.gaddr, length := n.len
              vc := if n.bulk then 2 else 0 }

/-- Ask another package for what a run needs. -/
def State.askNeed (s : State) (env : Env) (n : Need) (user : TxnUser) : State :=
  s.requestOf env.t (readMsg s env n) user

/-- What an answer adds to what has come: the bytes of a read, the mark of a write that was applied, or a failure. -/
def Outc.came (o : Outc) (m : Msg) (data : List Byte) : Except (Nat × Nat × Code × Code) (Nat × List Byte) :=
  let key := if m.op = Op.read then m.gaddr else writeKey m.gaddr
  if o.status = St.ok || (m.op ≠ Op.read && o.status = St.partial) then .ok (key, if m.op = Op.read then data else m.data)
  else .error (key, m.length, o.status, o.reason)

/-- Destination tile of a WRITE, with its package (R337). -/
def msgDest (m : Msg) : Nat := 1536 * m.dst + tileOfLocal (localOf m.gaddr)

/-- Tag a descriptor's messages: each tagged one carries the counter and step, the last to each destination tile the number
sent to it (R337). -/
def tagMsgs (ctr step arrId : Nat) : List (Msg × Bool) → List (Msg × Bool) → List (Msg × Bool)
  | _, [] => []
  | done, (m, mirror) :: r =>
    if mirror then (m, mirror) :: tagMsgs ctr step arrId done r
    else
      let here := fun (e : Msg × Bool) => !e.2 && msgDest e.1 = msgDest m
      let last := !r.any here
      let m' : Msg := { m with
        arrEn := true
        arrCtr := ctr
        arrStep := step
        arrId := BitVec.ofNat 16 arrId
        arrFinal := last
        arrMsgs := if last then (done.filter here).length + 1 else 0 }
      (m', mirror) :: tagMsgs ctr step arrId ((m, mirror) :: done) r

/-- Send a slot's queued messages; the slot waits for their answers. A path that has gone meanwhile answers at once
(R516). -/
def State.sendQueued (s : State) (t : TileRef) (slot : Nat) (msgs : List (Msg × Bool)) : State :=
  let s := s.modSlot t slot fun d => { d with toSend := [] }
  msgs.foldl (fun s e =>
    let n := s.freshTxn
    let user : TxnUser := if e.2 then .mirror t slot else .slot t slot
    (s.requestOf t e.1 user).modSlot t slot fun d => { d with waits := d.waits ++ [n] }) s

/-- Ask for the bytes a run needs: a slot waits for the answer, and its row runs again after it. Of the run so far, `ran`, only what
is read once stays. -/
def State.askFor (s : State) (env : Env) (ran : State) (n : Need) : State :=
  let x := s.freshTxn
  let once := (((ran.tile env.t).slot env.slot).map (·.once)).getD []
  (s.askNeed env n (.slot env.t env.slot)).modSlot env.t env.slot fun d =>
    { d with waits := d.waits ++ [x], ph := .running, once := once }

end Sys2Proof.Machine
end

