-- ==== Sys2Proof/Machine/Desc.lean ====
section
/-! DEFINITION. Sys2Proof/Machine/Desc.lean: the life of a descriptor in its tile: engine queues (R116), the end of a run,
completion with its log entry and signal (R117, R119, R120, R128), and splits and their reports (R126, R127). -/

namespace Sys2Proof.Machine

/-! ### Engine queues (R116) -/

/-- Slots in an engine's queue, in dispatch order. -/
def Tile.queue_ (x : Tile) (k : Nat) : List Nat := kvGet x.queues k []

/-- The queue has room; nothing enters the matrix queue beyond a GEMM. A descriptor keeps its place there until it completes (R116, R139). -/
def Tile.room (x : Tile) (k : Nat) : Bool :=
  (x.queue_ k).length < 16 &&
    !(k = 0 && (x.queue_ 0).any fun i => match x.slot i with
      | some d => dOpcode d.desc = 0x12
      | none => false)

/-- Put a slot at the end of a queue. -/
def Tile.enqueue (x : Tile) (k i : Nat) : Tile := { x with queues := kvPut x.queues k (x.queue_ k ++ [i]) }

/-- Take a slot out of every queue. -/
def Tile.dequeue (x : Tile) (i : Nat) : Tile := { x with queues := x.queues.map fun q => (q.1, q.2.filter (· ≠ i)) }

/-- The queue of a descriptor that passed admission. -/
def queueOf (d : DescSlot) : EngineQ := ((opForm d.desc d.step).map (·.queue)).getD .sequencer

/-- The engine has finished with a slot, and goes on no earlier than now; its result waits for DESCRIPTOR_COMPLETE. What is in the matrix
queue stays there until it completes (R139). -/
def State.finishSlot (s : State) (t : TileRef) (i : Nat) (o : Outc) : State :=
  s.modTile t fun x => match x.slot i with
    | some d =>
      let k := (queueOf d).key
      let y := x.setSlot i { d with ph := .finished, result := o }
      let y : Tile := if 1 ≤ k && k ≤ 5 && (y.queue_ k).head? = some i then
          { y with engineFree := kvMod y.engineFree k 0 (max (s.coreNow x)) }
        else y
      if k = 0 then y else y.dequeue i
    | none => x.dequeue i

/-! ### Channel halt (R204) -/

/-- Fail at once what is queued on a halted channel. -/
def State.failChannel (s : State) (t : TileRef) (c except : Nat) : State :=
  (((s.tile t).queue_ (EngineQ.dma c).key).filter (· ≠ except)).foldl
    (fun s i => s.finishSlot t i (outc St.aborted Rs.channelHalted)) s

/-- Halt a channel that met uncorrectable data: the first halt records the access and raises DMA_HALT (R204, R205). -/
def State.haltChannel (s : State) (t : TileRef) (c slot : Nat) (dva : BitVec 64) : State :=
  let x := s.tile t
  let s := if x.dmaHalted.getLsbD c then s
    else (s.setTile t { x with
        dmaHalted := x.dmaHalted ||| BitVec.ofNat 4 (1 <<< c)
        dmaPoison := kvPut x.dmaPoison c dva }).raise Ev.dmaHalt (s.tileId t) [w64 (s.tileId t).toNat, w64 c]
  s.failChannel t c slot

/-- The channel that a GEMM's stop halts: the lowest of its mask, for R144 gives none of its loads a channel of its own (DESIGN CHOICE,
log entry 17). -/
def gemmChannel (mask : Nat) : Option Nat := (List.range 4).find? mask.testBit

/-- The DMA channel of a descriptor, which its uncorrectable data halts (R204). -/
def DescSlot.channel (d : DescSlot) : Option Nat :=
  match queueOf d with
  | .dma c => some c
  | _ => if dOpcode d.desc = 0x12 then gemmChannel (fld d.desc 53 3 0) else none

/-- What a descriptor's answers leave of its outcome: a failed message in address order, then a mirror that the twin does
not hold (R328, R356). -/
def DescSlot.overall (d : DescSlot) : Outc :=
  if !d.result.good then d.result
  else match d.entries with
    | (_, o) :: _ => o
    | [] => if d.mirror.status = St.partial then d.mirror else d.result

/-- One more mirrored operation completes PARTIAL (R348, R356). -/
def State.countPartial (s : State) : State := { s with twin := { s.twin with partials := s.twin.partials + 1 } }

/-- A slot whose effect is made and whose answers are all in finishes (R328). -/
def State.settleSlot (s : State) (t : TileRef) (i : Nat) : State :=
  match (s.tile t).slot i with
  | none => s
  | some d =>
    if d.applied && d.waits.isEmpty && d.ph ≠ .finished then
      let s := if d.result.good && d.entries.isEmpty && d.mirror.status = St.partial then s.countPartial else s
      s.finishSlot t i d.overall
    else s

/-- An answer to one of a slot's messages (R328, R356). A write that met uncorrectable data halts the channel of its descriptor
(R204). -/
def State.slotAnswer (s : State) (t : TileRef) (i : Nat) (txn : BitVec 16) (o : Outc) (gaddr : Nat) (dva : BitVec 64) (mirror : Bool) :
    State :=
  let s := s.modSlot t i fun d =>
    let d := { d with waits := d.waits.filter (· ≠ txn) }
    if o.good then d
    else if mirror then { d with mirror := if d.mirror.status = St.ok then outc St.partial o.reason else d.mirror }
    else { d with entries := kvPut d.entries gaddr o }
  let s := match ((s.tile t).slot i).bind DescSlot.channel with
    | some c => if !mirror && o.status = St.poisoned then s.haltChannel t c i dva else s
    | none => s
  s.settleSlot t i

/-! ### Running a descriptor -/

/-- How a run of a descriptor ends: its outcome, the arrival counter it tags, and the core cycles of work it takes. -/
structure Done where
  outc : Outc := {}
  arr : Option Nat := none
  cycles : Nat := 0
  /-- What latencies and paths add to them, a time that the clock's stretch leaves alone, and the part ahead of it that overlaps the work
  before it on the engine: tensor descriptors and the first translation (R192, R198). -/
  latency : Nat := 0
  head : Nat := 0
  /-- Core time at which it ends, where the engine's rule gives one. -/
  endCore : Option Nat := none
  /-- Time before which it does not complete, where the engine's rule gives one. -/
  endAt : Option Nat := none
  deriving DecidableEq, Repr

/-- Pause that follows work of some core time, so that work takes at most (1,000 − P)/1,000 of the core cycles (R61). -/
def State.pauseOf (s : State) (work : Nat) : Nat :=
  if s.tick.stepRatio < 1000 then ceilDiv (work * s.tick.stepRatio) (1000 - s.tick.stepRatio) else 0

/-- Core time at which an engine takes up a slot: its dispatch, or the end of what the engine does before it, with its pause
(R61, R116). -/
def Tile.engineStart (x : Tile) (d : DescSlot) : Nat := max d.dispatchCore (kvGet x.engineFree (queueOf d).key 0)

/-- An engine ends the work of a slot at a core time, and a pause follows before the slot completes and the engine goes on (R61). -/
def Tile.endWork (x : Tile) (i k last pause : Nat) : Tile :=
  let x : Tile := if k < 6 then { x.act 22 (pause / 10) with
      engineFree := kvPut x.engineFree k (last + pause)
      pauses := if pause = 0 then x.pauses else kvPut x.pauses k (last, last + pause) } else x
  match x.slot i with
  | some d => x.setSlot i { d with readyCore := last + pause }
  | none => x

/-- The slot whose descriptor, with this opcode, may execute now: at the head of its queue, in the matrix queue as R139 orders it, or
resumed when what it waited for has come. -/
def State.runnable (s : State) (t : TileRef) (i op : Nat) : Option DescSlot :=
  match (s.tile t).slot i with
  | none => none
  | some d =>
    let k := (queueOf d).key
    let first := k = 8 || (if k = 0 then (s.tile t).mxNext i else ((s.tile t).queue_ k).head? = some i)
    let go := (d.ph = .queued && first) || (d.ph = .running && !d.split)
    if s.tileUp t && dOpcode d.desc = op && !d.applied && d.waits.isEmpty && go then some d else none

/-- Core time at which the work of a slot ends on its engine: it starts once the engine is free and what overlaps the work before it is
done (R116, R192). -/
def State.workEnd (s : State) (t : TileRef) (d : DescSlot) (r : Done) : Nat :=
  r.endCore.getD (max ((s.tile t).engineStart d) (d.dispatchCore + s.inCore t r.head) + cc r.cycles + s.inCore t r.latency)

/-- A run of a descriptor ends: the clock is at the end of its engine's work, but for a MATMUL, whose completion alone waits for it, so
that a drain of other or finished rows may end before it (R139). Its effect is made, its messages go out, arrivals in own slices count
(R195), and it finishes when the answers are in. -/
def State.conclude (s : State) (t : TileRef) (i : Nat) (r : Done) : State :=
  match (s.tile t).slot i with
  | none => s
  | some d =>
    let no := (d.share.map (·.shareNo)).getD 0
    let last := s.workEnd t d r
    let pause := s.pauseOf (cc r.cycles + s.inCore t r.latency)
    let s := s.modTile t fun x =>
      (x.endWork i (queueOf d).key last pause).note (some d.job) (queueOf d).key (s.wallAt x (x.engineStart d)) (s.wallAt x last)
    let s := if dOpcode d.desc = 0x10 then s else s.advanceCore t last
    let msgs := match r.arr with
      | some c => tagMsgs c d.step (i + 256 * no) [] d.toSend
      | none => d.toSend
    let s := match r.arr with
      | some c => if r.outc.good then d.landed.foldl (fun (s : State) k => s.arrive k c d.step) s else s
      | none => s
    let s := s.modSlot t i fun d => { d with
      applied := true, ph := .running, result := r.outc, landed := [], readyAt := r.endAt.getD s.time.now }
    (s.sendQueued t i msgs).settleSlot t i

/-- Run a descriptor's accesses. A run that needs remote bytes leaves no trace and waits for them; one that stops keeps what
it did, and its fault is recorded (R87, R111). `stopped` adds what the engine does at a stop. -/
def State.runDesc (s : State) (t : TileRef) (i op : Nat) (stopped : Stop → State → State) (body : DescSlot → Env → M Done) :
    State :=
  match s.runnable t i op with
  | none => s
  | some d =>
    let env := d.env t i
    match (body d env).result s with
    | (.ok r, s') => s'.conclude t i r
    | (.error e, s') =>
      match e.need with
      | some n => s.askFor env s' n
      | none => (stopped e (s'.recordFault t e i env.ctx env.step)).conclude t i { outc := outc e.status e.reason }

/-- An engine that does nothing more at a stop. -/
def noStop (_ : Stop) (s : State) : State := s

/-! ### Errors in the stores (R148) -/

/-- Errors that an engine met in the work store or the accumulator store count in `STORE_ECC` (R114, R148). -/
def State.countStore (s : State) (t : TileRef) (e : StoreErr) : State :=
  if e.corrected = 0 && e.bad.isNone then s
  else s.modTile t fun x => { x with
    eccCorrected := x.eccCorrected + BitVec.ofNat 32 e.corrected
    eccUncorrected := if e.bad.isSome then x.eccUncorrected + 1 else x.eccUncorrected }

/-- They count when the descriptor runs. -/
def State.meetStore (s : State) (t : TileRef) (i op : Nat) (e : StoreErr) : State :=
  if (s.runnable t i op).isSome then s.countStore t e else s

/-- An engine that meets an uncorrectable error in a store ends its descriptor POISONED and writes nothing from it; `DMA_POISON_c`
shows all ones for a work-store line (R148, R204, R205). -/
def guardStore (e : StoreErr) (body : DescSlot → Env → M Done) : DescSlot → Env → M Done :=
  if e.bad.isSome then fun _ _ => M.stop St.poisoned 0 0 (BitVec.allOnes 64) else body

/-! ### Completion -/

/-- Overall status of a plan from its descriptors (R50, R84). -/
def planStatus (n : Nat) (outs : KV Outc) : Outc :=
  combine n ((List.range n).map fun k => (k, kvGet outs k {}))

/-- A tile whose plan is done records it and takes its fill level: the lower of its dynamic power over the last 64 µs and `MAX_MW`,
less under a pace ratio (R46, R50, R451). -/
def State.planDone (s : State) (t : TileRef) (p : Plan) : State :=
  let x := s.tile t
  let o := planStatus p.descs.length x.planOuts
  let h : PlanHist := { step := p.step, job := p.job, outc := o, energy := 0 }
  let s := s.setTile t { x with planOutc := o, history := (h :: x.history).take 16 }
  if s.power.fillEnable && !s.therm.decided then
    let level := min (s.dynamicUw t) (1000 * s.power.fillMaxMw) * (1000 - s.tick.paceRatio) / 1000
    s.modTile t fun x => { x with fill := if level = 0 then none else some (level, s.time.now) }
  else s

/-- One more descriptor of the plan has completed (R46). -/
def State.countDone (s : State) (t : TileRef) (index : Nat) (o : Outc) : State :=
  let s := s.modTile t fun x => { x with
    completed := x.completed + 1
    planOuts := if o.status = St.ok && o.reason = 0 then x.planOuts else kvPut x.planOuts index o }
  match (s.tile t).running with
  | some p => if (s.tile t).completed = p.descs.length then s.planDone t p else s
  | none => s

/-- The 16 bytes of a completion log entry (R128). -/
def logEntry (o : Outc) (signalled split : Bool) (endCc : Nat) : List Byte :=
  bytesLE 1 o.status.toNat ++ bytesLE 1 o.reason.toNat
    ++ bytesLE 2 (1 + (if signalled then 2 else 0) + (if split then 4 else 0)) ++ bytesLE 4 (min endCc 0xFFFFFFFF)
    ++ bytesLE 8 o.map.toNat

/-- Local address of entry `index` of the log buffer of a step (R128). -/
def logAddr (x : Tile) (step index : Nat) : Nat := localOf x.cplBase + 0x40000 * (step % 4) + 16 * index

/-- Write a completion log entry; one that cannot be written is lost (R128). -/
def State.writeLog (s : State) (t : TileRef) (d : DescSlot) (index : Nat) (o : Outc) : State :=
  let x := s.tile t
  ((writeStack (logAddr x d.step index) 9 (logEntry o (dSigEn d.desc) d.split ((s.coreNow x - x.planCore) / 10))).result s).2

/-- Apply a signal to a semaphore; the slots that wait on it once it has failed (R118 to R120). -/
def State.signal (s : State) (t : TileRef) (sem amount : Nat) (fail : Bool) : State × List Nat :=
  if fail then
    let s := s.modTile t fun x => { x with sems := kvMod x.sems sem {} fun m => { m with failed := true } }
    (s, (s.tile t).slots.filterMap fun e =>
      if e.2.ph = .waiting && e.2.share.isNone && dWaitEn e.2.desc && dWaitSem e.2.desc = sem then some e.1 else none)
  else
    (s.modTile t fun x => { x with sems := kvMod x.sems sem {} fun m =>
        { m with value := BitVec.ofNat 32 (min (m.value.toNat + amount) 0xFFFFFFFF) } }, [])

/-- A descriptor's outcome as it completes: THROTTLED for OK under an enforced ratio (R61). -/
def State.asCompleted (s : State) (o : Outc) : Outc :=
  if o.status = St.ok && s.tick.stepRatio ≠ 0 then { o with status := St.throttled } else o

/-- The signal of a completing descriptor sets `FAILED` (R120). -/
def signalFails (d : BitVec 512) (o : Outc) : Bool := !o.good && dSigOnOk d

/-- Report a share to its lead (R127, R334). -/
def State.reportShare (s : State) (t : TileRef) (sh : Share) (o : Outc) : State :=
  match sh.leadMsg with
  | some (pkg, txn) =>
    s.respond { op := Op.share + 0x80, dst := pkg, txn := txn, srcUnit := sh.origin.1, status := o.status, reason := o.reason,
                operand := o.map, vc := 1 }
  | none => s.meshSend sh.lead (meshDelay t sh.lead) (.report sh.leadSlot sh.unit o)

/-- Complete one descriptor of a tile: counters, log entry and signal (R117 to R120, R128). `i` is its slot, none for one
never admitted. The answer lists slots whose dependency failed. -/
def State.completeOne (s : State) (t : TileRef) (i : Option Nat) (d : DescSlot) (o : Outc) : State × List Nat :=
  let o := s.asCompleted o
  let s := s.modTile t fun x => 
    ((((x.count 0 1).count (1 + o.status.toNat) 1).act 21 1).act 0
      (Config.seqBusy s.free t (kvGet x.activity 21 0).toNat)).note (some d.job) (queueOf d).key s.time.now s.time.now
  let free := fun (s : State) => match i with
    | some n => s.modTile t fun x => { x.dequeue n with slots := kvErase x.slots n }
    | none => s
  match d.share, d.index with
  | some sh, _ => ((free s).reportShare t sh o, [])
  | none, none => (free s, [])
  | none, some k =>
    let s := s.writeLog t d k o
    let fail := signalFails d.desc o
    if !dSigEn d.desc then ((free s).countDone t k o, [])
    else if dSigRemote d.desc && dSigTile d.desc ≠ t then
      let s := s.meshSend (dSigTile d.desc) (meshDelay t (dSigTile d.desc))
        (.signal (dSigSem d.desc) (dSigAmount d.desc) fail t (i.getD (256 + k)))
      match i with
      | some n => ((s.modTile t fun x => x.dequeue n).modSlot t n fun d => { d with
          signalling := true, ph := .finished, result := o }, [])
      | none => (s.modTile t fun x => { x with signalsOut := kvPut x.signalsOut k o }, [])
    else
      let r := s.signal t (dSigSem d.desc) (dSigAmount d.desc) fail
      ((free r.1).countDone t k o, r.2)

/-- Complete a slot and, in turn, the slots that its failure fails (R120). The fuel bounds the chain by the 256 slots. -/
def State.completeSlots (s : State) (t : TileRef) : Nat → List (Nat × Outc) → State
  | 0, _ => s
  | _, [] => s
  | fuel + 1, (i, o) :: r =>
    match (s.tile t).slot i with
    | none => State.completeSlots s t fuel r
    | some d =>
      if d.signalling then State.completeSlots s t fuel r
      else
        let c := s.completeOne t (some i) d o
        State.completeSlots c.1 t fuel (r ++ c.2.map fun n => (n, outc St.aborted Rs.depFailed))

/-- Fuel for a chain of completions. -/
abbrev slotFuel : Nat := 1024

/-! ### Splits (R126, R127) -/

/-- A member of a slot's split reports; the last report finishes the descriptor (R127). -/
def State.memberReport (s : State) (t : TileRef) (i : Nat) (unit : BitVec 32) (o : Outc) : State :=
  let s := s.modSlot t i fun d => { d with
    members := d.members.map fun m => if m.unit = unit && m.report.isNone then { m with report := some o } else m }
  match (s.tile t).slot i with
  | none => s
  | some d =>
    if d.split && d.ph = .running && d.members.all (fun m => m.report.isSome) then
      s.finishSlot t i (combineTree 8 (d.members.map fun m => (m.path, m.report.getD {})))
    else s

/-- Report an item to its lead: over the meshes, or by SHARE_DONE (R245). -/
def State.reportItem (s : State) (t : TileRef) (it : AttnItem) (o : Outc) (wrote : Bool) (poison : BitVec 64) : State :=
  match it.leadPkg with
  | none => s.meshSend it.lead (meshDelay t it.lead) (.itemReport it.leadSlot it.seq it.slotNo o wrote poison)
  | some (pkg, txn) =>
    s.respond { op := Op.share + 0x80, dst := pkg, txn := txn, srcUnit := s.tileId t, status := o.status, reason := o.reason
                operand := poison, operand2 := w64 (if wrote then 1 else 0), vc := 1 }

/-- The 10 ms without an answer from another package: the member or message counts as NOT_READY (R127, R330). -/
def noResponse : Outc := { status := St.notReady, reason := Rs.noResponse }

end Sys2Proof.Machine
end

