-- ==== Sys2Proof/Machine/Tensor.lean ====
section
/-! DEFINITION. Sys2Proof/Machine/Tensor.lean: tensors in memory and in the work store (R179 to R188): descriptors and their
checks, element addresses, runs, layouts, conversion on the fly (R189), collisions (R203) and splits (R194). -/

namespace Sys2Proof.Machine

/-! ### Tensor descriptors (R180, R184) -/

/-- Stop with an outcome that is no fault of an access. -/
def refuse {α : Type} (o : Outc) : M α := throw { status := o.status, reason := o.reason }

/-- Read a tensor descriptor, once, as one access of 64 bytes (R184). -/
def readTd (env : Env) (dva : BitVec 64) (fmts : Nat → Bool) : M TDesc := do
  let d := descOf (← readOnce env dva 64 1)
  match tdCheck d fmts with
  | some o => refuse o
  | none => pure (tdOf d)

/-- Refuse with REJECTED, BAD_FIELD unless a condition holds. -/
def needField (ok : Bool) : M Unit := M.check ok St.rejected Rs.badField

/-! ### Elements (R181 to R183) -/

/-- Stretches of bytes: an access that touches or adjoins the last stretch joins it (R196). -/
def joinSpans : List (Nat × Nat) → List (Nat × Nat) → List (Nat × Nat)
  | acc, [] => acc.reverse
  | [], (a, n) :: r => joinSpans [(a, n)] r
  | (s, k) :: acc, (a, n) :: r =>
    if s ≤ a ∧ a ≤ s + k then joinSpans ((s, max k (a + n - s)) :: acc) r
    else if a < s ∧ s ≤ a + n then joinSpans ((a, max n (s + k - a)) :: acc) r
    else joinSpans ((a, n) :: (s, k) :: acc) r

/-- Bytes of an address out of stretches that were read. -/
def spanBytes (l : List (Nat × List Byte)) (a n : Nat) : List Byte :=
  match l.find? fun c => c.1 ≤ a && a + n ≤ c.1 + c.2.length with
  | some c => (c.2.drop (a - c.1)).take n
  | none => []

/-- Read the accesses of a list as joined stretches. -/
def readSpans (env : Env) (kind : Nat) (l : List (Nat × Nat)) : M (List (Nat × List Byte)) :=
  (joinSpans [] l).mapM fun p => do pure (p.1, ← readDva env (w64 p.1) p.2 kind)

/-- The element codes at a list of offsets of a tensor in memory. -/
def readCodes (env : Env) (kind : Nat) (t : TDesc) (offs : List Int) : M (List Nat) := do
  let spans ← readSpans env kind (offs.map fun e => ((t.place e).1, unitBytes t.fmt))
  pure (offs.map fun e =>
    let p := t.place e
    getElem t.fmt (spanBytes spans p.1 (unitBytes t.fmt)) p.2)

/-- Codes and block-scale codes of a list of indices. -/
def readElems (env : Env) (kind : Nat) (t : TDesc) (ixs : List (List Nat)) : M (List (Nat × Nat)) := do
  let codes ← readCodes env kind t (ixs.map t.offset)
  if t.smode = 0 then pure (codes.map fun c => (c, 0))
  else
    let spans ← readSpans env kind (ixs.map fun ix => (t.scaleAddr ix, 1))
    pure (codes.zip (ixs.map fun ix => natLE (spanBytes spans (t.scaleAddr ix) 1)))

/-! ### Conversion on the fly (R189) -/

/-- Value of an element, rounded once to FP32 (R189 step 1). -/
def SideFmt.value (a : SideFmt) (e : Nat × Nat) : Fv := round32 (decodeScaled a.fmt a.smode e.1 e.2 (f32 a.tscale))

/-- First element of each block. -/
def blockHeads {α : Type} (n : Nat) (l : List α) : List α := (chunks n l.length l).filterMap (·.head?)

/-- A row of the destination from the source's elements: codes, scale codes and flags (R189). `asIs` moves them as they
are. -/
def convertRow (src dst : SideFmt) (asIs sat : Bool) (row : List (Nat × Nat)) : List Nat × List Nat × FmtFlags :=
  if asIs then
    (row.map Prod.fst, if dst.smode = 0 then [] else (blockHeads (blockSize dst.smode) row).map Prod.snd, {})
  else quantRow dst.fmt dst.smode sat (f32 dst.tscale) (row.map src.value)

/-- The two formats may be moved into each other (R178), and a quantising side's tensor scale is positive and finite
(R170). -/
def checkSides (src dst : SideFmt) (asIs : Bool) : M Unit := do
  needField ((src.fmt ≠ 9 && dst.fmt ≠ 9) || src.same dst)
  needField (asIs || dst.smode ≠ 2 || tscaleOk dst.tscale)

/-! ### The work store (R185 to R187) -/

/-- Read the work store. -/
def wsRead (t : TileRef) (a n : Nat) : M (List Byte) := do
  M.upd fun s => s.modTile t fun x => x.act 9 n
  pure (cellRead ((← get).tile t).ws a n)

/-- Write the work store. -/
def wsWrite (t : TileRef) (a : Nat) (bytes : List Byte) : M Unit :=
  M.upd fun s => s.modTile t fun x => { x.act 10 bytes.length with ws := cellWrite x.ws a bytes }

/-- `n` free bytes. -/
def freeBytes (n : Nat) : M (List Byte) := do
  let k := (← get).free
  M.upd fun s => { s with free := s.free + n }
  pure ((List.range n).map fun i => BitVec.ofNat 8 (Config.freeBits 8 (k + i)))

/-- Chunk length of the layout (R187). -/
def WsSide.chunk (w : WsSide) : Nat := (chunkOf w.side.fmt w.pair).1

/-- Slots of a BCAST or WROW side of `rows` rows of `n0` elements (R132). -/
def WsSide.slots (w : WsSide) (n0 rows : Nat) : Nat :=
  let kc := ceilDiv n0 w.chunk
  if w.layout = 1 then kc * rows
  else if rows % 32 = 0 then rows / 32 * kc * 32 else (rows / 32 * kc + (kc - 1)) * 32 + rows % 32

/-- The field checks of a work-store side once its shape is known, and its bounds (R124, R186, R187). -/
def WsSide.check (w : WsSide) (n0 rows : Nat) : M Unit := do
  if w.layout = 0 then
    needField (runBytes w.side.fmt n0 ≤ w.pitch)
    M.check (wsFits w.base ((rows - 1) * w.pitch + runBytes w.side.fmt n0)) St.range Rs.wsBounds
    M.check (wsFits w.scl (rows * scaleCount w.side.smode n0)) St.range Rs.wsBounds
  else
    needField (w.layout ≠ 1 || rows ≤ 1024)
    M.check (wsFits w.base (w.slots n0 rows * 128)) St.range Rs.wsBounds
    M.check (w.side.smode = 0 || wsFits w.scl (w.slots n0 rows * 16)) St.range Rs.wsBounds

/-- Write a row of codes and scales in the side's layout (R186, R187). -/
def WsSide.putRow (w : WsSide) (t : TileRef) (rows r : Nat) (codes scales : List Nat) : M Unit := do
  let sbytes := scales.map (BitVec.ofNat 8)
  if w.layout = 0 then
    wsWrite t (w.base + r * w.pitch) (packRun w.side.fmt codes)
    wsWrite t (w.scl + r * scales.length) sbytes
  else
    let l := w.chunk
    let per := if w.side.smode = 0 then 0 else l / blockSize w.side.smode
    let cs := chunks l codes.length codes
    ((List.range cs.length).zip cs).forM fun e => do
      let slot := if w.layout = 1 then e.1 * rows + r else (r / 32 * cs.length + e.1) * 32 + r % 32
      wsWrite t (w.base + slot * 128) (padTo 128 (packRun w.side.fmt e.2))
      if w.side.smode ≠ 0 then wsWrite t (w.scl + slot * 16) (padTo 16 ((sbytes.drop (e.1 * per)).take per))

/-- Write codes from an address on, keeping the elements that the last addressing unit holds further of a run of `len` elements; its
padding becomes zero (R164). -/
def mergeRun (t : TileRef) (fmt a len : Nat) (codes : List Nat) : M Unit := do
  let n := runBytes fmt codes.length
  let old ← wsRead t a n
  let full := ceilDiv codes.length (unitElems fmt) * unitElems fmt
  let rest := ((List.range full).drop codes.length).map fun i => if i < len then getElem fmt old i else 0
  wsWrite t a ((packRun fmt (codes ++ rest)).take n)

/-- Write the first elements of a row, keeping the rest: a GATHER along axis 0 that a fault cuts short (R201). -/
def WsSide.putPart (w : WsSide) (t : TileRef) (n0 rows r : Nat) (codes scales : List Nat) : M Unit := do
  let sbytes := scales.map (BitVec.ofNat 8)
  if w.layout = 0 then
    mergeRun t w.side.fmt (w.base + r * w.pitch) n0 codes
    wsWrite t (w.scl + r * scaleCount w.side.smode n0) sbytes
  else
    let l := w.chunk
    let per := if w.side.smode = 0 then 0 else l / blockSize w.side.smode
    let kc := ceilDiv n0 l
    let cs := chunks l codes.length codes
    ((List.range cs.length).zip cs).forM fun e => do
      let slot := if w.layout = 1 then e.1 * rows + r else (r / 32 * kc + e.1) * 32 + r % 32
      mergeRun t w.side.fmt (w.base + slot * 128) (n0 - e.1 * l) e.2
      if w.side.smode ≠ 0 then wsWrite t (w.scl + slot * 16) ((sbytes.drop (e.1 * per)).take per)

/-- The elements of row `r` of a ROW side of `n0` elements, with their scales (R186). -/
def WsSide.getRow (w : WsSide) (t : TileRef) (n0 r : Nat) : M (List (Nat × Nat)) := do
  let bytes ← wsRead t (w.base + r * w.pitch) (runBytes w.side.fmt n0)
  let codes := unpackRun w.side.fmt n0 bytes
  if w.side.smode = 0 then pure (codes.map fun c => (c, 0))
  else
    let sc ← wsRead t (w.scl + r * scaleCount w.side.smode n0) (scaleCount w.side.smode n0)
    pure (codes.zip ((List.range n0).map fun i => ((sc[i / blockSize w.side.smode]?).getD 0).toNat))

/-! ### Writing tensors to memory (R193, R203) -/

/-- A free choice among `n` (the spec leaves it open). -/
def choose (n : Nat) : M Nat := do
  let r := (← get).freeVal 32
  set r.2
  pure (if n = 0 then 0 else r.1.toNat % n)

/-- Put an item at a free place of a list. -/
def insertFree {α : Type} (a : α) (l : List α) : M (List α) := do
  let k ← choose (l.length + 1)
  pure (l.take k ++ a :: l.drop k)

/-- A list in a free order. -/
def shuffle {α : Type} : List α → M (List α)
  | [] => pure []
  | a :: r => do insertFree a (← shuffle r)

/-- Group codes by key, in order of arrival within a key. -/
def groupCodes : List (Int × Nat) → List (Int × List Nat) → List (Int × List Nat)
  | [], acc => acc.reverse
  | (e, c) :: r, acc =>
    match acc with
    | (k, l) :: t =>
      if k = e then groupCodes r ((k, l ++ [c]) :: t)
      else if acc.any fun g => g.1 = e then groupCodes r (acc.map fun g => if g.1 = e then (e, g.2 ++ [c]) else g)
      else groupCodes r ((e, [c]) :: acc)
    | [] => groupCodes r [(e, [c])]

/-- No two indices of a shape reach one element: the strides nest (R182). -/
def TDesc.nests (t : TDesc) (sizes : List Nat) : Bool :=
  let dims := sortBy (fun a b => a.1 ≤ b.1) (((sizes.zip t.strides).filter fun e => 1 < e.1).map fun e => (e.2.natAbs, e.1))
  (dims.foldl (fun (acc : Bool × Nat) d => (acc.1 && acc.2 < d.1, acc.2 + d.1 * (d.2 - 1))) (true, 0)).1

/-- One combine of R193 on codes of a destination format. -/
def combineCode (fmt mode : Nat) (sat : Bool) (old new : Nat) : Nat × FmtFlags :=
  if fmt = 9 then
    let a := signedOf 32 old
    let b := signedOf 32 new
    (((match mode with
      | 1 => a + b
      | 2 => max a b
      | _ => min a b) % 2 ^ 32).toNat, {})
  else
    let a := toF32 (decodeNum fmt old)
    let b := BitVec.ofNat 32 new
    let r := match mode with
      | 1 => (f32 a).add (f32 b)
      | 2 => f32 (maxF a b)
      | _ => f32 (minF a b)
    convert fmt sat r

/-- The code that lands at an element reached by several sources: one of them, by a free choice (R203). -/
def landOne (l : List Nat) : M Nat :=
  match l with
  | [c] => pure c
  | _ => do pure ((l[← choose l.length]?).getD 0)

/-- Join byte writes that adjoin in order. -/
def joinWrites : List (Nat × List Byte) → List (Nat × List Byte) → List (Nat × List Byte)
  | acc, [] => (acc.map fun e => (e.1, e.2.reverse)).reverse
  | [], (a, b) :: r => joinWrites [(a, b.reverse)] r
  | (s, k) :: acc, (a, b) :: r =>
    if s + k.length = a then joinWrites ((s, b.reverse ++ k) :: acc) r else joinWrites ((a, b.reverse) :: (s, k) :: acc) r

/-- Write byte runs to memory, joined. -/
def writeRuns (env : Env) (kind : Nat) (l : List (Nat × List Byte)) : M Unit :=
  (joinWrites [] l).forM fun e => writeDva env (w64 e.1) e.2 kind

/-- Elements of distinct offsets as byte writes. Elements of one unit are packed together; `merge` keeps the other elements of the
unit that lie in the run, `valid` in number, where the write is no whole run; padding becomes zero (R164, R203). -/
def unitWrites (env : Env) (kind : Nat) (t : TDesc) (merge : Bool) (valid : Int → Nat) (l : List (Int × Nat)) :
    M (List (Nat × List Byte)) := do
  let u := unitElems t.fmt
  if u = 1 then pure (l.map fun e => ((t.place e.1).1, bytesLE (unitBytes t.fmt) e.2))
  else
    let units := groupCodes (l.map fun e => (e.1.fdiv u, (t.place e.1).2 * 64 + e.2)) []
    units.mapM fun g => do
      let a := (t.place (g.1 * u)).1
      let old ← if merge then readUnder env (w64 a) (unitBytes t.fmt) kind else pure (List.replicate (unitBytes t.fmt) 0)
      let codes := (List.range u).map fun i =>
        match g.2.find? fun c => c / 64 = i with
        | some c => c % 64
        | none => if i < valid g.1 then getElem t.fmt old i else 0
      pure (a, packRun t.fmt codes)

/-- An arriving element: its offset, code, and for a scaled destination the address and code of its block's scale. -/
structure Landing where
  off : Int
  code : Nat
  scale : Option (Nat × Nat) := none
  /-- Elements of its addressing unit that lie in the tensor's run (R164). -/
  valid : Nat := 1
  deriving DecidableEq, Repr

/-- Elements of an index's addressing unit that lie in the run along the innermost dimension (R164). -/
def TDesc.unitValid (t : TDesc) (ix : List Nat) : Nat :=
  let u := unitElems t.fmt
  let i := (ix.head?).getD 0
  if (t.strides.head?).getD 0 = 0 then 1 else min u ((t.sizes.head?).getD 1 - i / u * u)

/-- Elements in the run, of the unit that arriving elements reach. -/
def validOf (t : TDesc) (l : List Landing) (g : Int) : Nat :=
  ((l.find? fun e => e.off.fdiv (unitElems t.fmt) = g).map (·.valid)).getD 0

/-- Write arriving elements plainly: where several reach one element or scale byte, exactly one lands (R203). -/
def landPlain (env : Env) (kind : Nat) (t : TDesc) (distinct merge : Bool) (l : List Landing) : M Unit := do
  let elems ← if distinct then pure (l.map fun e => (e.off, e.code))
    else (groupCodes (l.map fun e => (e.off, e.code)) []).mapM fun g => do pure (g.1, ← landOne g.2)
  writeRuns env kind (← unitWrites env kind t merge (validOf t l) elems)
  let sc := l.filterMap (·.scale)
  if !sc.isEmpty then
    let bytes ← (groupCodes (sc.map fun e => ((e.1 : Int), e.2)) []).mapM fun g => do
      let v ← landOne g.2.dedup
      pure (g.1.toNat, [BitVec.ofNat 8 v])
    writeRuns env kind bytes

/-- A combine-mode write faults in another package (R193). -/
def localOnly (env : Env) (kind : Nat) (a : Nat) : M Unit := do
  let e ← atDva (w64 a) (translate env.t env.ctx (w64 a) kind)
  if pkgOf (e.global (w64 a)) ≠ (← get).self then M.stop St.range Rs.remoteCombine kind (w64 a)

/-- Combine arriving elements into memory, several at one element in a free order (R193, R203). -/
def landCombine (env : Env) (kind mode : Nat) (sat : Bool) (t : TDesc) (l : List Landing) : M FmtFlags := do
  let groups := groupCodes (l.map fun e => (e.off, e.code)) []
  (joinSpans [] (groups.map fun g => ((t.place g.1).1, unitBytes t.fmt))).forM fun p =>
    (cutAt (2 ^ 21) (p.2 / 2 ^ 21 + 2) p.1 p.2).forM fun q => localOnly env kind q.1
  let old ← readCodes env kind t (groups.map (·.1))
  let done ← (groups.zip old).mapM fun g => do
    let order ← if g.1.2.length ≤ 1 then pure g.1.2 else shuffle g.1.2
    let r := order.foldl (fun (a : Nat × FmtFlags) c =>
      let k := combineCode t.fmt mode sat a.1 c
      (k.1, a.2.or k.2)) (g.2, {})
    pure (g.1.1, r)
  writeRuns env kind (← unitWrites env kind t false (validOf t l) (done.map fun e => (e.1, e.2.1)))
  pure (done.foldl (fun a e => a.or e.2.2) {})

/-- Write modes other than PLAIN accept these destinations (R193). -/
def checkMode (mode : Nat) (src dst : SideFmt) : M Unit :=
  needField (mode = 0 || (dst.smode = 0 && (dst.fmt ≤ 2 || dst.fmt = 9) && (dst.fmt ≠ 9 || src.fmt = 9)))

/-- Write a tensor, row by row of its innermost dimension, in a write mode: `rows` gives each row's index tail with its
first innermost index, and its source elements. `merge` for rows that are no whole run. -/
def writeTensor (env : Env) (kind mode : Nat) (sat asIs distinct merge : Bool) (t : TDesc) (src : SideFmt)
    (rows : List (List (List Nat) × List (Nat × Nat))) : M FmtFlags := do
  if mode = 0 then
    let conv := rows.map fun r => (r.1, convertRow src t.side asIs sat r.2)
    let flags := conv.foldl (fun (a : FmtFlags) e => a.or e.2.2.2) {}
    let l := conv.flatMap fun e =>
      ((e.1.zip e.2.1).zip (List.range e.1.length)).map fun z =>
        ({ off := t.offset z.1.1, code := z.1.2, valid := t.unitValid z.1.1
           scale := if t.smode = 0 then none
             else some (t.scaleAddr z.1.1, (e.2.2.1[z.2 / blockSize t.smode]?).getD 0) } : Landing)
    landPlain env kind t distinct merge l
    pure flags
  else
    let l := rows.flatMap fun r => (r.1.zip r.2).map fun z =>
      ({ off := t.offset z.1, code := if t.fmt = 9 then z.2.1 else (toF32 (src.value z.2)).toNat } : Landing)
    landCombine env kind mode sat t l

/-! ### Splits (R194) -/

/-- Granule of a division of dimension 0 (R194). With a 4-bit format on one side and FP6 on the other, the larger of the two units,
so that no share splits a 3-byte group: DEDUCED, log entry 16. -/
def dim0Granule (a b : SideFmt) : Nat :=
  if a.smode ≠ 0 || b.smode ≠ 0 then max (blockSize a.smode) (blockSize b.smode) else max (unitElems a.fmt) (unitElems b.fmt)

/-! ### Runs and rates (R196, R197, R205) -/

/-- Count the runs of the two sides that move at half rate, or the elements that move singly, in no run of either side, once (R197,
R205); that each side's runs count: log entry 16. -/
def countSlow (env : Env) (a b : Slow) : M Unit :=
  let singles := max a.singles b.singles
  M.upd fun s => s.modTile env.t fun x => { x with
    halfRuns := if singles ≠ 0 then x.halfRuns else x.halfRuns + BitVec.ofNat 32 (a.runs + b.runs)
    singles := x.singles + singles }

/-- Elements of which either side's run misses the rule (R196). -/
def halfOf (l : List (List Nat)) (a b : List Nat → Bool) : Nat := (l.filter fun ix => a ix || b ix).length

/-- Stretches of bytes of the elements at some indices of a tensor, and of their block scales. -/
def TDesc.stretches (t : TDesc) (l : List (List Nat)) : List (Nat × Nat) :=
  joinSpans [] ((l.map fun ix => ((t.place (t.offset ix)).1, unitBytes t.fmt))
    ++ if t.smode = 0 then [] else l.map fun ix => (t.scaleAddr ix, 1))

/-- Ahead of a descriptor's first data access: its tensor descriptors, read together (R198). -/
def openTds (env : Env) (tds : List (BitVec 64)) : M Nat := do pure ((← get).openTime env.t env.ctx tds)

/-- The walk of its first data access (R102, R198). -/
def firstWalk (env : Env) (dva : Nat) : M Nat := do pure ((← get).walkTime env.t env.ctx (w64 dva))

/-- What `bytes` of the path at a DVA take beyond the cycles of the channel (R197). -/
def pathExcess (env : Env) (k : Nat) (dva : Nat) (bytes : Nat) : M Nat := do
  let s ← get
  pure (s.dvaPathTime env.t env.ctx (w64 dva) bytes - s.coreSpan env.t k)

end Sys2Proof.Machine
end

