-- ==== Sys2Proof/Machine/Movement.lean ====
section
/-! DEFINITION. Sys2Proof/Machine/Movement.lean: the data-movement descriptors LOAD, STORE, COPY, GATHER and SCATTER (R188
to R206). -/

namespace Sys2Proof.Machine

/-! ### Channel halt (R204) -/

/-- What a channel does at a stop: uncorrectable data, other than in a table walk, halts it (R204). -/
def dmaStop (t : TileRef) (c slot : Nat) (e : Stop) (s : State) : State :=
  if e.status = St.poisoned && e.kind ≠ 3 then s.haltChannel t c slot e.dva else s

/-! ### Shapes -/

/-- Exchange the first two entries (R188). -/
def swap01 {α : Type} : List α → List α
  | a :: b :: r => b :: a :: r
  | l => l

/-- Exchange under `TRANSPOSE`. -/
def transposed {α : Type} (tr : Bool) (l : List α) : List α := if tr then swap01 l else l

/-- Add to the last index: the part of a divided tensor begins there (R194). -/
def shiftLast (a : Nat) : List Nat → List Nat
  | [] => []
  | [x] => [x + a]
  | x :: r => x :: shiftLast a r

/-- Dense row number of the outer indices of a shape, the innermost of them fastest (R186). -/
def rowNumber : List Nat → List Nat → Nat
  | i :: ix, n :: ns => i + n * rowNumber ix ns
  | _, _ => 0

/-- The part of the divided dimension of `n` elements that a slot has: first element and number (R194). -/
def DescSlot.part (d : DescSlot) (rank g n : Nat) : Nat × Nat :=
  granuleRange (d.share.bind (·.range)) (if rank = 1 then g else 1) n

/-- The memory tensor's shape with its last dimension cut to `k` elements. -/
def TDesc.cut (t : TDesc) (k : Nat) : List Nat := t.sizes.dropLast ++ [k]

/-- The last size of a tensor. -/
def TDesc.lastSize (t : TDesc) : Nat := (t.sizes.getLast?).getD 1

/-- Index of the first element of the part of a tensor from `a` on in its last dimension. -/
def TDesc.partAt (t : TDesc) (a : Nat) : List Nat := shiftLast a (t.sizes.map fun _ => 0)

/-- What reading a part of a tensor misses of the rule of R196: a dimension of stride zero is fetched once (R197). -/
def TDesc.slowRead (t : TDesc) (part : Nat × Nat) : Slow := t.slow (t.fetched (t.cut part.2)) (t.partAt part.1)

/-- What writing a part of a tensor misses of it. -/
def TDesc.slowPart (t : TDesc) (part : Nat × Nat) : Slow := t.slow (t.cut part.2) (t.partAt part.1)

/-- Address of the first element of a part of a tensor. -/
def TDesc.firstOf (t : TDesc) (part : Nat × Nat) : Nat := (t.place (t.offset (t.partAt part.1))).1

/-- The part of a tensor with this first index in its last dimension: an element, by its index in the part, lies in a run that misses the
rule of R196. -/
def TDesc.partMisses (t : TDesc) (sizes : List Nat) (part : Nat × Nat) (ix : List Nat) : Bool := t.misses sizes (t.partAt part.1) ix

/-- A work-store element of a shape lies in a row that misses it, with the axes exchanged under `TRANSPOSE` (R188, R196). -/
def WsSide.elemMisses (w : WsSide) (tr : Bool) (sizes ix : List Nat) : Bool :=
  let ws := transposed tr sizes
  let wx := transposed tr ix
  w.rowMisses ((ws.head?).getD 1) (rowNumber wx.tail ws.tail)

/-- The end of a move: its channel cycles, what the path at `first` takes beyond them for `bytes` bytes, and what its opening and its first
access take (R197, R198). `twice` for a combine, which reads and writes its destination; `narrow` the narrow-write time. -/
def moveDone (env : Env) (head : Nat) (a b : SideFmt) (m : Moved) (half twice write : Bool) (first bytes narrow : Nat) (r : Done) :
    M Done := do
  let s ← get
  let k := channelCycles a b m half
  let p ← pathExcess env k first (if twice then 2 * bytes else bytes)
  pure { r with cycles := k, head := head, latency := s.dvaLatency env.t env.ctx write (w64 first) + p + narrow }

/-! ### Loading and storing -/

/-- Move a part of a memory tensor into the work store (R186 to R190): the elements are all read before any is written. -/
def loadTensor (env : Env) (t : TDesc) (w : WsSide) (tr sat : Bool) (part : Nat × Nat) : M FmtFlags := do
  let sizes := transposed tr (t.cut part.2)
  let n0 := (sizes.head?).getD 1
  let rows := sizes.tail.prod
  w.check n0 rows
  let tails := outerIndices sizes
  let ixs := tails.map fun tl => (List.range n0).map fun i => shiftLast part.1 (transposed tr (i :: tl))
  let elems ← readElems env 1 t ixs.flatten
  countSlow env (t.slowRead part) (w.slow n0 (List.range rows))
  let asIs := t.side.same w.side
  let conv := (chunks n0 rows elems).map (convertRow t.side w.side asIs sat)
  ((List.range rows).zip conv).forM fun r => w.putRow env.t rows r.1 r.2.1 r.2.2.1
  pure (conv.foldl (fun (a : FmtFlags) e => a.or e.2.2) {})

/-- Move a work-store tensor in ROW layout to a part of a memory tensor (R190, R193). -/
def storeTensor (env : Env) (t : TDesc) (w : WsSide) (tr sat : Bool) (mode : Nat) (part : Nat × Nat) : M FmtFlags := do
  let wsSizes := transposed tr (t.cut part.2)
  let n0 := (wsSizes.head?).getD 1
  let rows := wsSizes.tail.prod
  w.check n0 rows
  let src ← (List.range rows).mapM (w.getRow env.t n0)
  let ixs := (outerIndices (t.cut part.2)).map fun tl => (List.range ((t.cut part.2).head?.getD 1)).map (· :: tl)
  let elems := ixs.map fun row => row.map fun ix =>
    let wx := transposed tr ix
    ((src[rowNumber wx.tail wsSizes.tail]?).getD [])[(wx.head?).getD 0]?.getD (0, 0)
  countSlow env (t.slowPart part) (w.slow n0 (List.range rows))
  writeTensor env 2 mode sat (w.side.same t.side) (t.nests (t.cut part.2)) false t w.side
    ((ixs.map fun row => row.map (shiftLast part.1)).zip elems)

/-- The work-store side of a LOAD or STORE. -/
def loadSide (d : BitVec 512) : WsSide :=
  { base := fld d 24 20 0, scl := fld d 28 20 0, layout := fld d 33 1 0, pitch := fld d 36 17 0, pair := fld d 34 3 0
    side := { fmt := fld d 32 3 0, smode := fld d 32 5 4, tscale := BitVec.ofNat 32 (fld d 40 31 0) } }

/-- The move of a part has this format of few bits and a transpose (R197). -/
def slowTranspose (tr : Bool) (a b : SideFmt) : Bool := tr && (fmtBits a.fmt < 8 || fmtBits b.fmt < 8)

/-- The end of a LOAD: what it fetches takes the path, every element the channel (R196 to R198). -/
def loadDone (env : Env) (head : Nat) (t : TDesc) (w : WsSide) (tr : Bool) (part : Nat × Nat) (r : Done) : M Done :=
  let sizes := t.cut part.2
  let got := t.fetched sizes
  let half := halfOf (indices sizes) (t.partMisses got part) (w.elemMisses tr sizes)
  let singles := (t.slowRead part).singles
  moveDone env head t.side w.side { n := sizes.prod, half := half, singles := singles } (slowTranspose tr t.side w.side) false false
    (t.firstOf part) (pathBytes t.side w.side got.prod singles) 0 r

/-- The end of a STORE. -/
def storeDone (env : Env) (head : Nat) (t : TDesc) (w : WsSide) (tr : Bool) (mode : Nat) (part : Nat × Nat) (r : Done) : M Done := do
  let sizes := t.cut part.2
  let ixs := indices sizes
  let half := halfOf ixs (t.partMisses sizes part) (w.elemMisses tr sizes)
  let singles := (t.slowPart part).singles
  let narrow := (← get).narrowTime env.t env.ctx (t.stretches (ixs.map (shiftLast part.1)))
  moveDone env head t.side w.side { n := sizes.prod, half := half, singles := singles } (mode ≠ 0 || slowTranspose tr t.side w.side)
    (mode ≠ 0) true (t.firstOf part) (pathBytes t.side w.side sizes.prod singles) narrow r

/-- LOAD (R190). -/
def loadBody (slot : DescSlot) (env : Env) : M Done := do
  let d := slot.desc
  let w := loadSide d
  let tr := fld d 33 2 2 = 1
  let opens ← openTds env [w64 (fld d 16 63 0)]
  let t ← readTd env (w64 (fld d 16 63 0)) (fun f => f ≤ 9)
  needField (!tr || (2 ≤ t.rank && (t.smode = 0 || w.side.smode = 0)))
  checkSides t.side w.side (t.side.same w.side)
  let part := slot.part t.rank (dim0Granule t.side w.side) t.lastSize
  let walk ← firstWalk env (t.firstOf part)
  let f ← loadTensor env t w tr (dSaturate d) part
  loadDone env (opens + walk) t w tr part { outc := f.done }

/-- STORE (R190): with `TRANSPOSE`, a scaled work store is a transposed source that R188 rejects. -/
def storeBody (slot : DescSlot) (env : Env) : M Done := do
  let d := slot.desc
  let w := loadSide d
  let tr := fld d 33 2 2 = 1
  let mode := fld d 35 1 0
  let opens ← openTds env [w64 (fld d 16 63 0)]
  let t ← readTd env (w64 (fld d 16 63 0)) (fun f => f ≤ 9)
  needField (!tr || (2 ≤ t.rank && w.side.smode = 0))
  checkSides w.side t.side (w.side.same t.side)
  checkMode mode w.side t.side
  let part := slot.part t.rank (dim0Granule t.side w.side) t.lastSize
  let walk ← firstWalk env (t.firstOf part)
  let f ← storeTensor env t w tr (dSaturate d) mode part
  storeDone env (opens + walk) t w tr mode part { outc := f.done, arr := if fld d 35 2 2 = 1 then some (fld d 35 7 4) else none }

/-- LOAD (R190). -/
def execLoad (t : TileRef) (slot : Nat) (e : StoreErr) (s : State) : Host.Outcome State Fault Refusal :=
  let c := (((s.tile t).slot slot).map fun d => fld d.desc 34 5 4).getD 0
  .next ((s.meetStore t slot 0x20 e).runDesc t slot 0x20 (dmaStop t c slot) (guardStore e loadBody))

/-- STORE (R190). -/
def execStore (t : TileRef) (slot : Nat) (e : StoreErr) (s : State) : Host.Outcome State Fault Refusal :=
  let c := (((s.tile t).slot slot).map fun d => fld d.desc 34 5 4).getD 0
  .next ((s.meetStore t slot 0x21 e).runDesc t slot 0x21 (dmaStop t c slot) (guardStore e storeBody))

/-! ### COPY (R191) -/

/-- Global bytes that a list of DVA stretches stands for: (DVA, global address, length), cut at 2 MiB. -/
def globalSpans (env : Env) (l : List (Nat × Nat)) : M (List (Nat × Nat × Nat)) := do
  let cut := l.flatMap fun p => cutAt (2 ^ 21) (p.2 / 2 ^ 21 + 2) p.1 p.2
  cut.mapM fun p => do
    let e ← xltUsed env.t env.ctx (w64 p.1)
    pure (p.1, e.global (w64 p.1), p.2)

/-- Destination bytes of a COPY that are source bytes too: (DVA, global address). -/
def overlapBytes (src dst : List (Nat × Nat × Nat)) : List (Nat × Nat) :=
  dst.flatMap fun q => ((List.range q.2.2).filter fun i => src.any fun p =>
    p.2.1 ≤ q.2.1 + i && q.2.1 + i < p.2.1 + p.2.2).map fun i => (q.1 + i, q.2.1 + i)

/-- Put a free byte at one DVA: in own memory, and in the messages that carry it (R191). -/
def freeByteAt (env : Env) (p : Nat × Nat) : M Unit := do
  let r := (← get).freeVal 8
  set r.2
  M.upd fun s =>
    let s := if pkgOf p.2 = s.self && isStack (localOf p.2) then { s with mem := cellSet s.mem (localOf p.2) r.1 } else s
    s.modSlot env.t env.slot fun d => { d with
      toSend := d.toSend.map fun e =>
        let a := e.1.dva.toNat
        if a ≤ p.1 && p.1 < a + e.1.data.length then ({ e.1 with data := e.1.data.set (p.1 - a) r.1 }, e.2) else e }

/-- COPY (R191). -/
def copyBody (slot : DescSlot) (env : Env) : M Done := do
  let d := slot.desc
  let tr := fld d 32 2 2 = 1
  let mode := fld d 33 1 0
  let opens ← openTds env [w64 (fld d 16 63 0), w64 (fld d 24 63 0)]
  let a ← readTd env (w64 (fld d 16 63 0)) (fun f => f ≤ 9)
  let b ← readTd env (w64 (fld d 24 63 0)) (fun f => f ≤ 9)
  needField (!tr || (2 ≤ a.rank && (a.smode = 0 || b.smode = 0)))
  M.check (a.rank = b.rank && transposed tr a.sizes = b.sizes) St.rejected Rs.shape
  checkSides a.side b.side (a.side.same b.side)
  checkMode mode a.side b.side
  let part := slot.part b.rank (dim0Granule a.side b.side) b.lastSize
  let sizes := b.cut part.2
  let n0 := (sizes.head?).getD 1
  let ixs := (outerIndices sizes).map fun tl => (List.range n0).map fun i => shiftLast part.1 (i :: tl)
  let srcIx := ixs.flatten.map (transposed tr)
  let firstA := transposed tr (b.partAt part.1)
  let walk ← firstWalk env (a.place (a.offset firstA)).1
  let elems ← readElems env 1 a srcIx
  let got := a.fetched (transposed tr sizes)
  let slowA := a.slow got firstA
  let slowB := b.slowPart part
  countSlow env slowA slowB
  let sSpan ← globalSpans env (a.stretches srcIx)
  let f ← writeTensor env 2 mode (dSaturate d) (a.side.same b.side) (b.nests sizes) false b a.side
    (ixs.zip (chunks n0 ixs.length elems))
  let dest := b.stretches ixs.flatten
  let dSpan ← globalSpans env dest
  (overlapBytes sSpan dSpan).forM (freeByteAt env)
  let s ← get
  let half := halfOf (indices sizes) (b.partMisses sizes part) fun ix => a.misses got firstA (transposed tr ix)
  let m : Moved := { n := sizes.prod, half := half, singles := max slowA.singles slowB.singles }
  let first := (a.place (a.offset firstA)).1
  let r ← moveDone env (opens + walk) a.side b.side m (mode ≠ 0 || slowTranspose tr a.side b.side) (mode ≠ 0) true (b.firstOf part)
    (pathBytes a.side b.side sizes.prod slowB.singles) (s.narrowTime env.t env.ctx dest)
    { outc := f.done, arr := if fld d 33 2 2 = 1 then some (fld d 33 7 4) else none }
  let p ← pathExcess env r.cycles first (pathBytes a.side b.side got.prod slowA.singles)
  pure { r with latency := max r.latency p + s.dvaLatency env.t env.ctx false (w64 first) }

/-- COPY (R191). -/
def execCopy (t : TileRef) (slot : Nat) (s : State) : Host.Outcome State Fault Refusal :=
  let c := (((s.tile t).slot slot).map fun d => fld d.desc 32 1 0).getD 0
  .next (s.runDesc t slot 0x22 (dmaStop t c slot) copyBody)

/-! ### GATHER and SCATTER (R199 to R202) -/

/-- What a policy makes of an index (R201): an index to use, a zero slice, or a fault. -/
inductive Picked where
  | use (v : Nat)
  | zero
  | fault
  deriving DecidableEq, Repr

/-- Decide an index `x` against a size (R201). -/
def pickIndex (policy size : Nat) (x : Int) : Picked :=
  let y := if 2 ≤ policy ∧ x < 0 then x + size else x
  if 0 ≤ y ∧ y < size then .use y.toNat else if policy % 2 = 1 then .zero else .fault

/-- The work-store side of a GATHER or SCATTER (R199). -/
def gatherSide (d : BitVec 512) : WsSide :=
  { base := fld d 32 20 0, scl := fld d 36 20 0, layout := fld d 41 1 0, pitch := fld d 44 17 0, pair := fld d 43 7 4
    side := { fmt := fld d 40 3 0, smode := fld d 40 5 4, tscale := BitVec.ofNat 32 (fld d 48 31 0) } }

/-- What GATHER and SCATTER set up: the memory tensor, the index tensor's positions of this share, and the axis. -/
structure IndexedMove where
  mem : TDesc
  idx : TDesc
  /-- First position and number of positions. -/
  first : Nat
  count : Nat
  axis : Nat
  policy : Nat
  deriving DecidableEq, Repr

/-- Read both tensor descriptors and check them (R180, R199, R200). -/
def indexedMove (slot : DescSlot) (env : Env) : M IndexedMove := do
  let d := slot.desc
  let m ← readTd env (w64 (fld d 16 63 0)) (fun f => f ≤ 8)
  let x ← readTd env (w64 (fld d 24 63 0)) (fun f => f = 9)
  let axis := fld d 41 4 2
  needField (axis < m.rank && x.sizes.prod ≤ 16777216)
  let part := granuleRange (slot.share.bind (·.range)) 1 x.sizes.prod
  pure { mem := m, idx := x, first := part.1, count := part.2, axis := axis, policy := fld d 42 1 0 }

/-- Index of the index tensor at a list position, dimension 0 fastest (R200). -/
def listIndex : List Nat → Nat → List Nat
  | [], _ => []
  | n :: r, p => (p % n) :: listIndex r (p / n)

/-- Byte address of an index of the list. -/
def IndexedMove.indexAt (v : IndexedMove) (p : Nat) : Nat :=
  (v.idx.place (v.idx.offset (listIndex v.idx.sizes (v.first + p)))).1

/-- Read an index and decide it; a fault carries the index's own address (R201). -/
def IndexedMove.pick (v : IndexedMove) (env : Env) (p : Nat) : M Picked := do
  let a := v.indexAt p
  let x := signedOf 32 (natLE (← readOnce env (w64 a) 4 4))
  match pickIndex v.policy ((v.mem.sizes[v.axis]?).getD 1) x with
  | .fault => M.stop St.range Rs.indexRange 4 (w64 a)
  | r => pure r

/-- Outer indices of a slice, the axis apart from dimension 0 left out: index tails over every dimension but 0 and the
axis. -/
def IndexedMove.shape (v : IndexedMove) : List Nat := v.mem.sizes.set v.axis v.count

/-- The outer index tails of the rows of one position, with the axis at that position. -/
def IndexedMove.tailsAt (v : IndexedMove) (p : Nat) : List (List Nat) :=
  if v.axis = 0 then outerIndices v.mem.sizes
  else (indices ((v.mem.sizes.set v.axis 1).drop 1)).map fun tl => tl.set (v.axis - 1) p

/-- Length of a row. -/
def IndexedMove.n0 (v : IndexedMove) : Nat := (v.shape.head?).getD 1

/-- Rows of the work-store tensor. -/
def IndexedMove.rows (v : IndexedMove) : Nat := v.shape.tail.prod

/-- Memory indices of the slice at `i` along the axis, row by row. -/
def IndexedMove.sliceIx (v : IndexedMove) (i : Nat) : List (List (List Nat)) :=
  if v.axis = 0 then (outerIndices v.mem.sizes).map fun tl => [i :: tl]
  else (v.tailsAt i).map fun tl => (List.range v.n0).map (· :: tl)

/-- Elements of a slice row by row; `none` for a zero slice. -/
abbrev Slice := List (List (Nat × Nat))

/-- Read a slice. -/
def IndexedMove.readSlice (v : IndexedMove) (env : Env) (i : Nat) : M Slice := do
  let ix := v.sliceIx i
  let e ← readElems env 4 v.mem ix.flatten
  pure (chunks ((ix.head?.map List.length).getD 1) ix.length e)

/-- Elements of a slice. -/
def IndexedMove.sliceSize (v : IndexedMove) : Nat := (v.mem.sizes.set v.axis 1).prod

/-- Index of the first element of the slice at `i`. -/
def IndexedMove.sliceAt (v : IndexedMove) (i : Nat) : List Nat := (v.mem.sizes.map fun _ => 0).set v.axis i

/-- What the slice at `i` misses of the rule of R196. Along axis 0 a slice is one element of each row: a run of one element, which is no
multiple of 64 bytes, or a single element where `STRIDE_0` is neither 1 nor −1 (R196, R197, R200). -/
def IndexedMove.slowAt (v : IndexedMove) (i : Nat) : Slow :=
  if v.axis = 0 then
    if (v.mem.run v.mem.sizes).isNone then { singles := v.rows } else { runs := v.rows, elems := v.rows }
  else v.mem.slow (v.mem.sizes.set v.axis 1) (v.sliceAt i)

/-- What the slices at a list of indices miss of it. -/
def IndexedMove.slowAll (v : IndexedMove) (l : List Nat) : Slow := (l.map v.slowAt).foldl Slow.add {}

/-- What a position of the list takes of its channel: a slice at an index that goes over the path, a copy of one that the reuse cache holds,
or zeros (R201, R202). -/
inductive SliceMove where
  | fetch (i : Nat)
  | copy
  | zero
  deriving DecidableEq, Repr

/-- The memory index that a position's slice goes to or comes from over the path. -/
def SliceMove.index : SliceMove → Option Nat
  | .fetch i => some i
  | _ => none

/-- Work-store rows that positions of the list fill or give, which along axis 0 are all rows (R200). -/
def IndexedMove.rowsAt (v : IndexedMove) (l : List Nat) : List Nat :=
  if v.axis = 0 then (if l.isEmpty then [] else List.range v.rows)
  else l.flatMap fun p => (v.tailsAt p).map fun tl => rowNumber tl v.shape.tail

/-- Elements of a position's slice in runs that miss the rule on either side; a copy and zeros have the work store's side alone. -/
def IndexedMove.halfAt (v : IndexedMove) (w : WsSide) (p : Nat) (k : SliceMove) : Nat :=
  let miss := fun (r : Nat) => w.rowMisses v.n0 r
  if v.axis = 0 then
    match k with
    | .fetch _ => v.rows
    | _ => ((List.range v.rows).filter miss).length
  else
    let sizes := v.mem.sizes.set v.axis 1
    ((v.tailsAt p).map fun tl =>
      if miss (rowNumber tl v.shape.tail) then v.n0
      else match k with
        | .fetch i => ((List.range v.n0).filter fun j => v.mem.misses sizes (v.sliceAt i) (j :: tl.set (v.axis - 1) 0)).length
        | _ => 0).sum

/-- Cycles of a position's slice on its channel: a copy takes no less than 1 cc (R197, R202). -/
def IndexedMove.cyclesAt (v : IndexedMove) (w : WsSide) (half : Bool) (p : Nat) (k : SliceMove) : Nat :=
  let m := fun (singles : Nat) => channelCycles v.mem.side w.side { n := v.sliceSize, half := v.halfAt w p k, singles := singles } half
  match k with
  | .fetch i => m (v.slowAt i).singles
  | .copy => max 1 (m 0)
  | .zero => m 0

/-- The reuse cache after a use: the index first, at most 16 (R202). -/
def reuse {α : Type} (c : List (Nat × α)) (i : Nat) (a : α) : List (Nat × α) := ((i, a) :: c.filter (fun e => e.1 ≠ i)).take 16

/-- The slices of positions `p` on, in order, with the reuse cache; a stop ends the list and is handed on (R201, R202). -/
def gatherSlices (v : IndexedMove) (env : Env) : Nat → Nat → List (Nat × Slice) → M (List (Option (Nat × Slice)) × Option Stop)
  | 0, _, _ => pure ([], none)
  | fuel + 1, p, cache => do
    let one : M (Option (Nat × Slice)) := do
      match ← v.pick env p with
      | .use i =>
        match cache.find? fun e => e.1 = i with
        | some e =>
          M.upd fun s => s.modTile env.t fun x => { x with reuse := x.reuse + 1 }
          pure (some e)
        | none => do pure (some (i, ← v.readSlice env i))
      | _ => pure none
    let r ← EStateM.tryCatch (do pure (Except.ok (← one))) fun (e : Stop) => pure (Except.error e)
    match r with
    | .error e => if e.need.isSome then throw e else pure ([], some e)
    | .ok none => do
      let rest ← gatherSlices v env fuel (p + 1) cache
      pure (none :: rest.1, rest.2)
    | .ok (some (i, sl)) => do
      let rest ← gatherSlices v env fuel (p + 1) (reuse cache i sl)
      pure (some (i, sl) :: rest.1, rest.2)

/-- What the positions of a GATHER take of its channel, in order, with its reuse cache (R202). -/
def sliceMoves : List (Option Nat) → List (Nat × Unit) → List SliceMove
  | [], _ => []
  | none :: r, cache => .zero :: sliceMoves r cache
  | some i :: r, cache =>
    (if cache.any fun e => e.1 = i then .copy else .fetch i) :: sliceMoves r (reuse cache i ())

/-- What a move of positions counts: runs of the memory side that go over the path, and work-store rows (R205). -/
def IndexedMove.tally (v : IndexedMove) (env : Env) (w : WsSide) (l : List (Nat × SliceMove)) : M Unit :=
  countSlow env (v.slowAll (l.filterMap fun e => e.2.index)) (w.slow v.n0 (v.rowsAt (l.map Prod.fst)))

/-- The end of a GATHER or SCATTER of positions: its first data access is that of an index, and its path carries the slices that go over it
(R197, R198, R202). -/
def IndexedMove.done (v : IndexedMove) (env : Env) (head : Nat) (w : WsSide) (mode : Nat) (l : List (Nat × SliceMove))
    (narrow : Nat) (r : Done) : M Done := do
  let s ← get
  let k := (l.map fun e => v.cyclesAt w (mode ≠ 0) e.1 e.2).sum
  let moved := l.filterMap fun e => e.2.index
  let bytes := pathBytes v.mem.side w.side (moved.length * v.sliceSize) (v.slowAll moved).singles
  let first := match moved with
    | i :: _ => (v.mem.place (v.mem.offset (v.sliceAt i))).1
    | [] => v.indexAt 0
  let p ← pathExcess env k first (if mode ≠ 0 then 2 * bytes else bytes)
  pure { r with cycles := k, head := head, latency := s.dvaLatency env.t env.ctx false (w64 (v.indexAt 0)) + p + narrow }

/-- The values of elements, zero for a zero slice. -/
def sliceValue (src : SideFmt) : Option (Nat × Nat) → Fv
  | none => .zero
  | some e => src.value e

/-- Write the slices along an outer axis: each is whole rows (R200). -/
def putSlices (v : IndexedMove) (env : Env) (w : WsSide) (sat : Bool) (l : List (Option Slice)) : M FmtFlags := do
  let asIs := v.mem.side.same w.side
  let rs := ((List.range l.length).zip l).flatMap fun e =>
    let tails := v.tailsAt e.1
    match e.2 with
    | none => tails.map fun tl => (rowNumber tl v.shape.tail, List.replicate v.n0 0,
        List.replicate (scaleCount w.side.smode v.n0) 0, ({} : FmtFlags))
    | some sl => (tails.zip sl).map fun z => (rowNumber z.1 v.shape.tail, convertRow v.mem.side w.side asIs sat z.2)
  rs.forM fun r => w.putRow env.t v.rows r.1 r.2.1 r.2.2.1
  pure (rs.foldl (fun (a : FmtFlags) e => a.or e.2.2.2) {})

/-- Write the slices along axis 0: position p is element p of every row (R200). -/
def putElements (v : IndexedMove) (env : Env) (w : WsSide) (sat : Bool) (l : List (Option Slice)) : M FmtFlags := do
  let asIs := v.mem.side.same w.side && w.side.smode = 0
  let conv := (List.range v.rows).map fun r =>
    let row := l.map fun o => o.bind fun sl => ((sl[r]?).getD [])[0]?
    if asIs then (row.map fun o => (o.getD (0, 0)).1, [], {})
    else quantRow w.side.fmt w.side.smode sat (f32 w.side.tscale) (row.map (sliceValue v.mem.side))
  ((List.range v.rows).zip conv).forM fun r =>
    if l.length = v.count then w.putRow env.t v.rows r.1 r.2.1 r.2.2.1
    else w.putPart env.t v.n0 v.rows r.1 r.2.1 r.2.2.1
  pure (conv.foldl (fun (a : FmtFlags) e => a.or e.2.2) {})

/-- The outcome of an indexed move: a conversion's reason, else IDX_ZEROED (R201). -/
def indexedDone (f : FmtFlags) (zeroed : Bool) : Outc := outc St.ok (if f.reason ≠ 0 then f.reason else if zeroed then Rs.idxZeroed else 0)

/-- GATHER (R199 to R202): the slices before a fault are written (R201). -/
def gatherBody (slot : DescSlot) (env : Env) : M Done := do
  let d := slot.desc
  let w := gatherSide d
  let opens ← openTds env [w64 (fld d 16 63 0), w64 (fld d 24 63 0)]
  let v ← indexedMove slot env
  let walk ← firstWalk env (v.indexAt 0)
  let asIs := v.mem.side.same w.side && (v.axis ≠ 0 || w.side.smode = 0)
  checkSides v.mem.side w.side asIs
  w.check v.n0 v.rows
  let r ← gatherSlices v env v.count 0 []
  let slices := r.1.map fun o => o.map Prod.snd
  let f ← if v.axis = 0 then putElements v env w (dSaturate d) slices else putSlices v env w (dSaturate d) slices
  let moved := (List.range r.1.length).zip (sliceMoves (r.1.map fun o => o.map Prod.fst) [])
  v.tally env w moved
  match r.2 with
  | some e => throw e
  | none => v.done env (opens + walk) w 0 moved 0 { outc := indexedDone f (slices.any (·.isNone)) }

/-- The positions of a SCATTER decided in order: the destination index of each, `none` where dropped, and the stop. -/
def scatterPicks (v : IndexedMove) (env : Env) : Nat → Nat → M (List (Option Nat) × Option Stop)
  | 0, _ => pure ([], none)
  | fuel + 1, p => do
    let r ← EStateM.tryCatch (do pure (Except.ok (← v.pick env p))) fun (e : Stop) => pure (Except.error e)
    match r with
    | .error e => if e.need.isSome then throw e else pure ([], some e)
    | .ok k => do
      let rest ← scatterPicks v env fuel (p + 1)
      pure ((match k with
        | .use i => some i
        | _ => none) :: rest.1, rest.2)

/-- SCATTER (R199 to R203): the slices before a fault are written (R201). Along axis 0 each element is written for
itself. -/
def scatterBody (slot : DescSlot) (env : Env) : M Done := do
  let d := slot.desc
  let w := gatherSide d
  let mode := fld d 42 5 4
  let opens ← openTds env [w64 (fld d 16 63 0), w64 (fld d 24 63 0)]
  let v ← indexedMove slot env
  let walk ← firstWalk env (v.indexAt 0)
  let asIs := w.side.same v.mem.side && (v.axis ≠ 0 || w.side.smode = 0)
  checkSides w.side v.mem.side asIs
  checkMode mode w.side v.mem.side
  w.check v.n0 v.rows
  let src ← (List.range v.rows).mapM (w.getRow env.t v.n0)
  let r ← scatterPicks v env v.count 0
  let rows := ((List.range r.1.length).zip r.1).flatMap fun e =>
    match e.2 with
    | none => []
    | some i =>
      if v.axis = 0 then (v.sliceIx i).zip (src.map fun row => [(row[e.1]?).getD (0, 0)])
      else (v.sliceIx i).zip ((v.tailsAt e.1).map fun tl => (src[rowNumber tl v.shape.tail]?).getD [])
  let distinct := (r.1.filterMap id).dedup.length = (r.1.filterMap id).length && v.mem.nests v.mem.sizes
  let f ← writeTensor env 4 mode (dSaturate d) asIs distinct (v.axis = 0) v.mem w.side rows
  let moved := ((List.range r.1.length).zip r.1).filterMap fun e => e.2.map fun i => (e.1, SliceMove.fetch i)
  v.tally env w moved
  match r.2 with
  | some e => throw e
  | none =>
    let narrow := (← get).narrowTime env.t env.ctx (v.mem.stretches (rows.flatMap Prod.fst))
    v.done env (opens + walk) w mode moved narrow
      { outc := indexedDone f (r.1.any (·.isNone)), arr := if fld d 42 6 6 = 1 then some (fld d 43 3 0) else none }

/-- GATHER (R199). -/
def execGather (t : TileRef) (slot : Nat) (e : StoreErr) (s : State) : Host.Outcome State Fault Refusal :=
  let c := (((s.tile t).slot slot).map fun d => fld d.desc 42 3 2).getD 0
  .next ((s.meetStore t slot 0x23 e).runDesc t slot 0x23 (dmaStop t c slot) (guardStore e gatherBody))

/-- SCATTER (R199). -/
def execScatter (t : TileRef) (slot : Nat) (e : StoreErr) (s : State) : Host.Outcome State Fault Refusal :=
  let c := (((s.tile t).slot slot).map fun d => fld d.desc 42 3 2).getD 0
  .next ((s.meetStore t slot 0x24 e).runDesc t slot 0x24 (dmaStop t c slot) (guardStore e scatterBody))

end Sys2Proof.Machine
end

