-- ==== Sys2Proof/Machine/Matrix.lean ====
section
/-! DEFINITION. Sys2Proof/Machine/Matrix.lean: the matrix engine: the adder tree (R131, R172, R173), MATMUL (R129 to R137), the
warm hold (R138), ACC_DRAIN (R139 to R141) and GEMM (R142 to R144). The times of the matrix queue are in Groups.lean. -/

namespace Sys2Proof.Machine

/-! ### Arithmetic (R131, R172) -/

/-- One operand's element on its way to the tree: format, scale mode, code, scale code; `none` enters as zero (R133). -/
abbrev Lane := Option (Nat × Nat)

/-- Exact sum of a list of values. -/
def sumFv : List Fv → Fv
  | [] => .zero
  | v :: r => r.foldl Fv.add v

/-- Exact product of two lanes. -/
def laneProduct (fa fb : Nat) (a b : Lane) : Fv :=
  match a, b with
  | some x, some y => (decodeNum fa x.1).mul (decodeNum fb y.1)
  | _, _ => .zero

/-- Multiply by the scale of a side when its mode is the one asked for. -/
def applyScale (mode smode : Nat) (l : Option Lane) (v : Fv) : Fv :=
  if smode = mode then v.mul (scaleValue smode ((l.getD none).getD (0, 0)).2) else v

/-- Value of a group of 32 products (R172 steps 1 to 4): two-level scales act on halves of 16, MX scales on the whole. -/
def groupValue (fa sa fb sb : Nat) (l : List (Lane × Lane)) : BitVec 32 :=
  let half := fun (h : List (Lane × Lane)) =>
    applyScale 2 sb (h.head?.map Prod.snd) (applyScale 2 sa (h.head?.map Prod.fst) (sumFv (h.map fun p => laneProduct fa fb p.1 p.2)))
  let whole := sumFv ((chunks 16 2 l).map half)
  toF32 (applyScale 1 sb (l.head?.map Prod.snd) (applyScale 1 sa (l.head?.map Prod.fst) whole))

/-- One level of the pairwise tree. -/
def pairAdd : List (BitVec 32) → List (BitVec 32)
  | a :: b :: r => addF a b :: pairAdd r
  | l => l

/-- The fixed pairwise tree over at most 8 group values (R172 step 5). -/
def treeSum (l : List (BitVec 32)) : BitVec 32 := ((pairAdd (pairAdd (pairAdd l))).head?).getD 0

/-- A chunk's contribution (R172). -/
def chunkSum (fa sa fb sb : Nat) (l : List (Lane × Lane)) : BitVec 32 :=
  treeSum ((chunks 32 8 l).map (groupValue fa sa fb sb))

/-- An accumulator after its chunks, in order; without `add` the first chunk overwrites it (R130, R134). -/
def accumulate (add : Bool) (old : BitVec 32) : List (BitVec 32) → BitVec 32
  | [] => old
  | c :: r => r.foldl addF (if add then addF old c else c)

/-! ### Accumulators -/

/-- Value of an accumulator. -/
def Tile.accAt (x : Tile) (row col : Nat) : BitVec 32 := kvGet x.acc (32 * row + col) 0

/-- Set an accumulator; zero is not listed. -/
def Tile.setAcc (x : Tile) (row col : Nat) (v : BitVec 32) : Tile :=
  { x with acc := if v = 0 then kvErase x.acc (32 * row + col) else kvPut x.acc (32 * row + col) v }

/-! ### MATMUL -/

/-- The lanes of a chunk in an element slot and its scale slot: `valid` elements, then zeros. -/
def slotLanes (t : TileRef) (fmt smode l valid elemAt sclAt : Nat) : M (List Lane) := do
  let bytes ← wsRead t elemAt (runBytes fmt l)
  let scl ← if smode = 0 then pure [] else wsRead t sclAt (l / blockSize smode)
  pure ((List.range l).map fun i =>
    if i < valid then some (getElem fmt bytes i, ((scl[i / blockSize smode]?).getD 0).toNat) else none)

/-- Activity counter of a format pair's group-cycles (R444). -/
def mxActivity (fa fb : Nat) : Nat :=
  let w := max (fmtBits fa) (fmtBits fb)
  if w = 4 then 1 else if w = 16 then 3 else 2

/-- One column of one block: its accumulators after the MATMUL. -/
def matColumn (t : TileRef) (a : MatArgs) (rows : List (List (List Lane))) (nb u : Nat) : M Unit := do
  let b ← (List.range a.kc).mapM fun kc =>
    slotLanes t a.fb a.sb a.l (a.valid kc) (a.bBase + a.bSlot nb kc u * 128) (a.bScl + a.bSlot nb kc u * 16)
  M.upd fun s => s.modTile t fun x =>
    ((List.range a.m).zip rows).foldl (fun (x : Tile) r =>
      let row := a.row + nb * a.m + r.1
      let sums := (r.2.zip b).map fun c => chunkSum a.fa a.sa a.fb a.sb (c.1.zip c.2)
      x.setAcc row u (accumulate a.add (x.accAt row u) sums)) x

/-- The products and sums of a MATMUL (R130). -/
def matProduct (t : TileRef) (a : MatArgs) : M Unit := do
  let rows ← (List.range a.m).mapM fun m => (List.range a.kc).mapM fun kc =>
    slotLanes t a.fa a.sa a.l (a.valid kc) (a.aBase + a.aSlot kc m * 128) (a.aScl + a.aSlot kc m * 16)
  (List.range a.nb).forM fun nb =>
    (List.range (if nb + 1 = a.nb then a.nLast else 32)).forM fun u => matColumn t a rows nb u
  M.upd fun s => s.modTile t fun x => (x.act (mxActivity a.fa a.fb) (8 * a.cycles)).act 11 (a.nb * a.kc * a.m)

/-- A hold is over by a core time: its group-cycles count, each group holding from its last issue on (R138, R444). -/
def Tile.endHold (x : Tile) (at_ : Nat) : Tile :=
  match x.holdEnd with
  | none => x
  | some e => { x.act 5 (8 * ((min at_ (e - cc 28) - (x.mxEnd - cc 34)) / 10)) with holdEnd := none }

/-- MATMUL: accumulators, times and the hold that follows when its queue holds nothing else; a pause of R61 follows the work and
leaves no hold (R130 to R138). -/
def matmulBody (slot : DescSlot) (env : Env) : M Done := do
  let a := matArgs slot.desc
  matProduct env.t a
  let s ← get
  let x := s.tile env.t
  let r := a.run (x.mxStart a slot.dispatchCore)
  let hold := a.hold ≠ 0 && x.mxWaiting.length ≤ 1 && s.tick.stepRatio = 0
  set (s.setTile env.t { (x.endHold r.start).takeGroups r with
    holdEnd := if hold then some (r.last + cc a.hold - cc 6) else none })
  pure { outc := outc St.ok 0, cycles := a.cycles, endCore := some r.last }

/-- A byte address lies in `n` bytes from a base. -/
def within (a base n : Nat) : Bool := base ≤ a && a < base + n

/-- An address lies in an element slot or its scale slot (R132). -/
def inSlot (a elemBase sclBase smode slot : Nat) : Bool :=
  within a (elemBase + slot * 128) 128 || (smode ≠ 0 && within a (sclBase + slot * 16) 16)

/-- Accumulator rows that a MATMUL updates from the operand slot at an address (R130, R132). -/
def MatArgs.rowsFrom (a : MatArgs) (addr : Nat) : List Nat :=
  (List.range a.nb).flatMap fun nb => ((List.range a.m).filter fun m => (List.range a.kc).any fun kc =>
    inSlot addr a.aBase a.aScl a.sa (a.aSlot kc m)
      || (List.range 32).any fun u => inSlot addr a.bBase a.bScl a.sb (a.bSlot nb kc u)).map fun m => a.row + nb * a.m + m

/-- Accumulator rows take free values (R135). -/
def freeRows (t : TileRef) (rows : List Nat) : M Unit :=
  M.upd fun s =>
    let k := s.free
    let s := s.modTile t fun x => ((List.range rows.length).zip rows).foldl (fun (x : Tile) r =>
      (List.range 32).foldl (fun (x : Tile) u => x.setAcc r.2 u (BitVec.ofNat 32 (Config.freeBits 32 (k + 32 * r.1 + u)))) x) x
    { s with free := k + 32 * rows.length }

/-- MATMUL with what its stores' code found: an uncorrectable error in an operand slot, whose address is given, leaves the rows
it updates from that slot unspecified and the others as computed (R135, R148). -/
def matmulWith (e : StoreErr) (slot : DescSlot) (env : Env) : M Done :=
  match e.bad with
  | none => matmulBody slot env
  | some a => do
    let r ← matmulBody slot env
    freeRows env.t ((matArgs slot.desc).rowsFrom a)
    pure { r with outc := outc St.poisoned 0 }

/-- MATMUL (R130, R148). -/
def execMatmul (t : TileRef) (slot : Nat) (e : StoreErr) (s : State) : Host.Outcome State Fault Refusal :=
  .next ((s.meetStore t slot 0x10 e).runDesc t slot 0x10 noStop (matmulWith e))

/-- HOLD_EXPIRY (R138): the groups stop at the end of the hold. -/
def execHoldExpiry (t : TileRef) (s : State) : Host.Outcome State Fault Refusal :=
  match (s.tile t).holdEnd with
  | none => .next s
  | some e => .next (if s.clocksRun then (s.advanceCore t e).modTile t fun x => x.endHold e else s)

/-! ### ACC_DRAIN -/

/-- The values of a drained row after `SCALE` (R141). -/
def drainRow (x : Tile) (a : DrainArgs) (i : Nat) : List Fv :=
  (List.range a.cols).map fun u => f32 (mulF (x.accAt (a.row + i) u) a.scale)

/-- Row-major output (R141). -/
def drainRows (t : TileRef) (a : DrainArgs) (sat : Bool) (rows : List (List Fv)) : M FmtFlags := do
  let q := rows.map (quantRow a.fmt a.smode sat (.fin false 1 0))
  ((List.range q.length).zip q).forM fun r => do
    wsWrite t (a.dest + r.1 * a.pitch) (packRun a.fmt r.2.1)
    wsWrite t (a.scl + r.1 * scaleCount a.smode a.cols) (r.2.2.1.map (BitVec.ofNat 8))
  pure (q.foldl (fun (f : FmtFlags) r => f.or r.2.2) {})

/-- BCAST output: every slot in which a drained row falls is written whole (R141). -/
def drainBcast (t : TileRef) (a : DrainArgs) (sat : Bool) (rows : List (List Fv)) : M FmtFlags := do
  let l := (chunkOf a.fmt a.fmt).1
  let per := l / 32
  let nbs := ceilDiv a.rows a.m
  let slots := (List.range (ceilDiv nbs per)).flatMap fun kc =>
    ((List.range a.m).filter fun m => kc * per * a.m + m < a.rows).map fun m => (kc, m)
  let fs ← slots.mapM fun p => do
    let vals := (List.range per).flatMap fun b =>
      let row := (rows[(p.1 * per + b) * a.m + p.2]?).getD []
      (row ++ List.replicate (32 - row.length) Fv.zero).take 32
    let q := quantRow a.fmt a.smode sat (.fin false 1 0) vals
    wsWrite t (a.dest + (p.1 * a.m + p.2) * 128) (padTo 128 (packRun a.fmt q.1))
    if a.smode ≠ 0 then wsWrite t (a.scl + (p.1 * a.m + p.2) * 16) (padTo 16 (q.2.1.map (BitVec.ofNat 8)))
    pure q.2.2
  pure (fs.foldl FmtFlags.or {})

/-- Set the rows read to +0.0 (R140). -/
def Tile.clearAcc (x : Tile) (row n : Nat) : Tile := { x with acc := x.acc.filter fun e => e.1 < 32 * row || 32 * (row + n) ≤ e.1 }

/-- ACC_DRAIN (R139 to R141). -/
def drainBody (slot : DescSlot) (env : Env) : M Done := do
  let a := drainArgs slot.desc
  let x := (← get).tile env.t
  let rows := (List.range a.rows).map (drainRow x a)
  let sat := dSaturate slot.desc
  let f ← if a.bcast then drainBcast env.t a sat rows else drainRows env.t a sat rows
  let start := x.drainStart a slot.dispatchCore
  M.upd fun s => s.modTile env.t fun x => (if a.clear then x.clearAcc a.row a.rows else x).takeDrain a start
  pure { outc := f.done, cycles := a.rows, endCore := some (start + cc (a.rows + 8)) }

/-- ACC_DRAIN (R141, R148). -/
def execAccDrain (t : TileRef) (slot : Nat) (e : StoreErr) (s : State) : Host.Outcome State Fault Refusal :=
  .next ((s.meetStore t slot 0x11 e).runDesc t slot 0x11 noStop (guardStore e drainBody))

/-! ### GEMM (R142 to R144) -/

/-- Chunks of lanes of a row of K elements, the last padded with zero elements (R187). -/
def rowLanes (l : Nat) (row : List (Nat × Nat)) : List (List Lane) :=
  let cs := chunks l row.length row
  cs.map fun c => (c ++ List.replicate (l - c.length) (0, 0)).map some

/-- Values that one block of rows stores: the drain's product and conversion to C's format (R143). -/
def gemmBlock (a b c : TDesc) (scale : BitVec 32) (sat : Bool) (as bs : List (List (List Lane))) : List (List Nat) × FmtFlags :=
  let q := as.map fun x => bs.map fun y =>
    let sums := (x.zip y).map fun z => chunkSum a.fmt a.smode b.fmt b.smode (z.1.zip z.2)
    convert c.fmt sat (f32 (mulF (accumulate false 0 sums) scale))
  (q.map fun r => r.map Prod.fst, q.foldl (fun f r => r.foldl (fun f e => f.or e.2) f) {})

/-- Put free values in the windows of a GEMM: the spec gives no place to what its steps leave there (R144). -/
def freeWindows (t : TileRef) (base n row rows : Nat) : M Unit :=
  M.upd fun s =>
    let k := s.free
    let s := s.modTile t fun x =>
      let ws := (List.range n).foldl (fun m i => cellSet m (base + i) (BitVec.ofNat 8 (Config.freeBits 8 (k + i)))) x.ws
      (List.range (32 * rows)).foldl (fun (x : Tile) i =>
        x.setAcc (row + i / 32) (i % 32) (BitVec.ofNat 32 (Config.freeBits 32 (k + n + i)))) { x with ws := ws }
    { s with free := k + n + 32 * rows }

/-- The blocks of a share: A rows from `m0` on, `mb` at a time. -/
def gemmRows (env : Env) (a b c : TDesc) (scale : BitVec 32) (sat : Bool) (l mb : Nat) (cols : Nat × Nat)
    (bs : List (List (List Lane))) : Nat → Nat → Nat → M FmtFlags
  | 0, _, _ => pure {}
  | fuel + 1, m0, n => do
    if n = 0 then pure {}
    else
      let k := min mb n
      let kd := (a.sizes.head?).getD 1
      let rows ← (List.range k).mapM fun i => readElems env 1 a ((List.range kd).map fun j => [j, m0 + i])
      let q := gemmBlock a b c scale sat (rows.map (rowLanes l)) bs
      let out := ((List.range k).zip q.1).map fun r =>
        ((List.range cols.2).map fun j => [cols.1 + j, m0 + r.1], r.2.map fun v => (v, 0))
      let _ ← writeTensor env 2 0 sat true (c.nests c.sizes) false c c.side out
      M.upd fun s => s.modTile env.t fun x => (x.act (mxActivity a.fmt b.fmt)
        (8 * ceilDiv cols.2 32 * ceilDiv kd l * max ((chunkOf a.fmt b.fmt).2 * k) 6)).act 11 (ceilDiv cols.2 32 * ceilDiv kd l * k)
      let f ← gemmRows env a b c scale sat l mb cols bs fuel (m0 + k) (n - k)
      pure (q.2.or f)

/-- The passes of a share: columns from `n0` on, `p` blocks at a time; A is read again in each (R144). -/
def gemmPasses (env : Env) (a b c : TDesc) (scale : BitVec 32) (sat : Bool) (l mb p : Nat) (rows : Nat × Nat) :
    Nat → Nat → Nat → M FmtFlags
  | 0, _, _ => pure {}
  | fuel + 1, n0, n => do
    if n = 0 then pure {}
    else
      let k := min (32 * p) n
      let kd := (b.sizes.head?).getD 1
      let bs ← (List.range k).mapM fun i => readElems env 1 b ((List.range kd).map fun j => [j, n0 + i])
      let f ← gemmRows env a b c scale sat l mb (n0, k) (bs.map (rowLanes l)) (rows.2 + 1) rows.1 rows.2
      let g ← gemmPasses env a b c scale sat l mb p rows fuel (n0 + k) (n - k)
      pure (f.or g)

/-- Factor of a tensor's per-tensor scale in the drain (R143). -/
def TDesc.drainScale (t : TDesc) (x : BitVec 32) : BitVec 32 := if t.smode = 2 then mulF x t.tscale else x

/-- A channel of a mask is halted (R204). -/
def Tile.maskHalted (x : Tile) (mask : Nat) : Bool := (List.range 4).any fun c => mask.testBit c && x.dmaHalted.getLsbD c

/-- GEMM (R142 to R144): one that finds a channel of its mask halted ends POISONED (R204). -/
def gemmBody (slot : DescSlot) (env : Env) : M Done := do
  let d := slot.desc
  M.check (!((← get).tile env.t).maskHalted (fld d 53 3 0)) St.poisoned 0
  let before ← get
  let a ← readTd env (w64 (fld d 16 63 0)) mxFmt
  let b ← readTd env (w64 (fld d 24 63 0)) mxFmt
  let c ← readTd env (w64 (fld d 32 63 0)) gemmOut
  needField (a.rank = 2 && b.rank = 2 && c.rank = 2 && c.smode = 0)
  M.check (a.sizes.head? = b.sizes.head? && c.sizes = [(b.sizes[1]?).getD 0, (a.sizes[1]?).getD 0]) St.rejected Rs.shape
  match gemmShare slot a b c with
  | none => M.stop St.rejected Rs.wsSmall
  | some g =>
    let l := (chunkOf a.fmt b.fmt).1
    let scale := b.drainScale (a.drainScale (BitVec.ofNat 32 (fld d 56 31 0)))
    let s ← get
    let start := (s.tile env.t).gemmStart slot.dispatchCore
    let last := (g.times before env.t slot start).last
    freeWindows env.t (fld d 40 20 0) (fld d 44 20 0) (fld d 48 9 0) (fld d 50 10 0)
    let f ← gemmPasses env a b c scale (dSaturate d) l g.mb g.p g.rows (g.cols.2 + 1) g.cols.1 g.cols.2
    M.upd fun s => s.modTile env.t fun x => { x with mxEnd := last, drainEnd := last }
    pure { outc := f.done, endCore := some last, cycles := (last - start) / 10 }

/-- GEMM (R144): uncorrectable data in memory halts the channel it used and ends the share POISONED (R204), and an error in
a store ends it POISONED too (R148). -/
def execGemm (t : TileRef) (slot : Nat) (e : StoreErr) (s : State) : Host.Outcome State Fault Refusal :=
  let mask := (((s.tile t).slot slot).map fun d => fld d.desc 53 3 0).getD 0
  .next ((s.meetStore t slot 0x12 e).runDesc t slot 0x12 (fun k s => match gemmChannel mask with
    | some c => if e.bad.isSome || (s.tile t).maskHalted mask then s else dmaStop t c 256 k s
    | none => s) (guardStore e gemmBody))

end Sys2Proof.Machine
end

