-- ==== Sys2Proof/Machine/Vector.lean ====
section
/-! DEFINITION. Sys2Proof/Machine/Vector.lean: the vector unit: VECTOR (R145 to R147, R174). -/

namespace Sys2Proof.Machine

/-- Fields of VECTOR (R146). -/
structure VecArgs where
  op : Nat
  fi : Nat
  fo : Nat
  bImm : Bool
  bRow : Bool
  a : Nat
  b : Nat
  dest : Nat
  imm : BitVec 32
  n : Nat
  rows : Nat
  deriving DecidableEq, Repr

/-- Read the fields of VECTOR. -/
def vecArgs (d : BitVec 512) : VecArgs :=
  { op := fld d 16 7 0, fi := fld d 17 3 0, fo := vecOut d, bImm := fld d 18 0 0 = 1, bRow := fld d 18 1 1 = 1, a := fld d 20 20 0
    b := fld d 24 20 0, dest := fld d 28 20 0, imm := BitVec.ofNat 32 (fld d 32 31 0), n := fld d 36 20 0, rows := fld d 40 15 0 }

/-- Read a row of `n` elements of a format as FP32: exact (R174). -/
def vecRow (t : TileRef) (base fmt n r : Nat) : M (List (BitVec 32)) := do
  let bytes ← wsRead t (base + r * vecPitch fmt n) (fmtBits fmt / 8 * n)
  pure ((unpackRun fmt n bytes).map fun c => toF32 (decodeNum fmt c))

/-- Operand b of row `r`: `n` values (R145). -/
def vecB (t : TileRef) (v : VecArgs) (r : Nat) : M (List (BitVec 32)) := do
  if !vopUsesB v.op || v.bImm then pure (List.replicate v.n v.imm)
  else
    let row := if v.bRow then 0 else r
    if v.op = 0x13 then
      let x ← vecRow t v.b v.fi 1 row
      pure (List.replicate v.n ((x.head?).getD 0))
    else vecRow t v.b v.fi v.n row

/-- Negative, infinite or NaN: what ROW_SAMPLE does not accept (R174). -/
def sampleBad (a : BitVec 32) : Bool := (f32 a).isNan || (f32 a).isInf || (f32 a).lt .zero

/-- Running sums of a row in ascending order (R147). -/
def prefixSums : BitVec 32 → List (BitVec 32) → List (BitVec 32)
  | _, [] => []
  | acc, a :: r => addF acc a :: prefixSums (addF acc a) r

/-- A sum in ascending order in one accumulator (R147). -/
def sumRow : List (BitVec 32) → BitVec 32
  | [] => 0
  | a :: r => r.foldl addF a

/-- Lowest index of the row maximum, a NaN being greater than every number (R174). -/
def argmaxRow (l : List (BitVec 32)) : Nat :=
  let better := fun (a b : BitVec 32) => !(f32 b).isNan && ((f32 a).isNan || (f32 b).lt (f32 a))
  ((List.range l.length).zip l).foldl (fun (k : Nat) e => if better e.2 ((l[k]?).getD 0) then e.1 else k) 0

/-- Result of an element-wise operation (R145, R147). -/
def vecElem (op : Nat) (a b d : BitVec 32) : BitVec 32 :=
  match op with
  | 0x01 => addF a b
  | 0x02 => mulF a b
  | 0x03 => fmaF a b d
  | 0x04 => maxF a b
  | 0x05 => minF a b
  | 0x08 => exp2F (mulF a b)
  | 0x09 => recipF a
  | 0x0A => rsqrtF a
  | 0x0B => log2F a
  | 0x0C => sigmoidF (mulF a b)
  | 0x13 => mulF a b
  | _ => a

/-- What a row operation gives: a value, or an index with its flags. -/
inductive RowOut where
  | value (v : BitVec 32)
  | index (i : Int) (f : FmtFlags)
  deriving DecidableEq, Repr

/-- ROW_SAMPLE (R145, R174); no index above the threshold leaves the result unstated: a free value, the same for the same
row (R147). -/
def sampleRow (imm : BitVec 32) (l : List (BitVec 32)) : RowOut :=
  let total := sumRow l
  if l.any sampleBad || (f32 total).isZero then .index (-1) { clamped := true }
  else
    let bound := f32 (mulF imm total)
    let sums := match l with
      | [] => []
      | a :: r => a :: prefixSums a r
    match ((List.range sums.length).zip sums).find? fun e => bound.lt (f32 e.2) with
    | some e => .index e.1 {}
    | none => .index (Config.sampleOpen imm l).toNat {}

/-- A row operation on one row (R145, R147): the same row gives the same result. The spec does not say whether a square is
rounded before it is added: one choice of the implementation. -/
def vecReduce (op : Nat) (imm : BitVec 32) (l : List (BitVec 32)) : RowOut :=
  match op with
  | 0x10 => .value (sumRow l)
  | 0x11 => .value (match l with
      | [] => 0
      | a :: r => r.foldl maxF a)
  | 0x12 => .value (match l with
      | [] => 0
      | a :: r => r.foldl (fun acc x => if Config.squareFused then fmaF x x acc else addF acc (mulF x x)) (mulF a a))
  | 0x14 => .index (argmaxRow l) {}
  | _ => sampleRow imm l

/-- Codes of a row's output with the flags of their conversion. -/
def vecOutCodes (fo : Nat) (sat : Bool) (l : List (BitVec 32)) : List Nat × FmtFlags :=
  let q := l.map fun v => convert fo sat (f32 v)
  (q.map Prod.fst, q.foldl (fun f e => f.or e.2) {})

/-- One row of VECTOR: its output bytes and flags. -/
def vecRowOut (t : TileRef) (v : VecArgs) (sat : Bool) (r : Nat) : M (List Byte × FmtFlags) := do
  let a ← vecRow t v.a v.fi v.n r
  if vopReduces v.op then
    match vecReduce v.op v.imm a with
    | .value x =>
      let c := vecOutCodes v.fo sat [x]
      pure (packRun v.fo c.1, c.2)
    | .index i f => pure (bytesLE 4 (i % 2 ^ 32).toNat, f)
  else
    let b ← vecB t v r
    let d ← if v.op = 0x03 then vecRow t v.dest v.fo v.n r else pure a
    let c := vecOutCodes v.fo sat (((a.zip b).zip d).map fun e => vecElem v.op e.1.1 e.1.2 e.2)
    pure (packRun v.fo c.1, c.2)

/-- A destination that meets a source without being identical to it (R147). Ranges of another first byte or another length are
not identical, so that `DEST` = `SRC_A` with an output of another size clashes: DESIGN CHOICE, log entry 18. -/
def vecClash (v : VecArgs) : Bool :=
  let n := if vopReduces v.op then 1 else v.n
  let out := (v.dest, vecBytes v.fo v.rows n)
  let clash := fun (src : Nat × Nat) => rangeMeets out src && out ≠ src
  clash (v.a, vecBytes v.fi v.rows v.n)
    || (vopUsesB v.op && !v.bImm && clash (v.b, vecBytes v.fi (if v.bRow then 1 else v.rows) (if v.op = 0x13 then 1 else v.n)))
where
  rangeMeets (a b : Nat × Nat) : Bool := a.1 < b.1 + b.2 && b.1 < a.1 + a.2

/-- Elements per cc (R145). -/
def vecRate (op : Nat) : Nat :=
  if op = 0x08 || op = 0x09 then 16 else if op = 0x0A || op = 0x0B || op = 0x0C then 8 else if op = 0x15 then 32 else 64

/-- VECTOR (R145 to R147): every row is read before any is written. -/
def vectorBody (slot : DescSlot) (env : Env) : M Done := do
  let v := vecArgs slot.desc
  let out ← (List.range v.rows).mapM (vecRowOut env.t v (dSaturate slot.desc))
  let pitch := vecPitch v.fo (if vopReduces v.op then 1 else v.n)
  ((List.range v.rows).zip out).forM fun e => do
    let bytes ← if vecClash v then freeBytes e.2.1.length else pure e.2.1
    wsWrite env.t (v.dest + e.1 * pitch) bytes
  M.upd fun s => s.modTile env.t fun x => (x.act 6 (v.rows * v.n)).act 7 (if vecRate v.op = 16 || vecRate v.op = 8 then v.rows * v.n else 0)
  pure { outc := (out.foldl (fun (f : FmtFlags) e => f.or e.2) {}).done
         cycles := v.rows * (ceilDiv v.n (vecRate v.op) + if 0x10 ≤ v.op then 12 else 0) }

/-- VECTOR (R145, R148). -/
def execVector (t : TileRef) (slot : Nat) (e : StoreErr) (s : State) : Host.Outcome State Fault Refusal :=
  .next ((s.meetStore t slot 0x18 e).runDesc t slot 0x18 noStop (guardStore e vectorBody))

end Sys2Proof.Machine
end

