-- ==== Sys2Proof/Machine/Sequencer.lean ====
section
/-! DEFINITION. Sys2Proof/Machine/Sequencer.lean: the sequencer of a tile: admission, dispatch, splitting and completion (R115 to
R127), signals and shares on the meshes (R119, R126), and the descriptors of its own queue: NOP,
RECEIVE_FENCE (R58, R59) and XLT_INVALIDATE (R104). -/

namespace Sys2Proof.Machine

/-! ### The schedule (R33) -/

/-- Invar time of tick `n` under a record (R33); before the base step the same line is followed backwards. -/
def Schedule.tickTime (r : Schedule) (n : Nat) : Int := r.baseTime + ((n : Int) - r.baseStep) * r.periodUs * 1000

/-! ### Targets and splits -/

/-- The unit a slot's descriptor is for: its share's unit, or `TARGET`, zero meaning the own tile (R123, R126). -/
def State.slotUnitId (s : State) (t : TileRef) (d : DescSlot) : BitVec 32 :=
  match d.share with
  | some sh => sh.unit
  | none => if dTarget d.desc = 0 then s.tileId t else dTarget d.desc

/-- The tile itself executes the descriptor. An ATTENTION is spread by its own rules (R233). -/
def State.ownWork (s : State) (t : TileRef) (d : DescSlot) : Bool := s.slotUnitId t d = s.tileId t || dOpcode d.desc = 0x31

/-- The target is a group of this package that does not exist (R80). -/
def State.noGroup (s : State) (u : BitVec 32) : Bool :=
  unitLevel u = 7 && unitPkg u = s.self && (kvFind s.units.groups (unitGroup u)).isNone

/-- The members a split reaches by one message each, with their places and ranges: tiles and stacks of this package, units
of other packages (R81, R126). A stack named by the request is split over its tiles at once. -/
def State.splitLeaves (s : State) : Nat → BitVec 32 → Bool → Path → Option (Nat × Nat) →
    List (BitVec 32 × Path × Option (Nat × Nat))
  | 0, _, _, _, _ => []
  | fuel + 1, u, top, path, range =>
    let own := unitPkg u = s.self
    let leaf := match unitLevel u with
      | 1 => true
      | 2 => !(top && own)
      | 3 => !own
      | 7 => !own
      | _ => false
    if leaf then [(u, path, range)]
    else
      let n := (s.members u).length
      let parts : List (Nat × BitVec 32 × Option (Nat × Nat)) := match range with
        | none => (s.liveMembers u).map fun m => (m.1, m.2, none)
        | some (a, k) => (s.split u k).map fun p => (p.1, p.2.1, some (a + p.2.2.1, p.2.2.2))
      parts.flatMap fun p => State.splitLeaves s fuel p.2.1 false (path ++ [(p.1, n, p.2.1)]) p.2.2

/-- The extent of a descriptor that divides, in its granules; none for one that replicates (R125, R194, R247). -/
def splitExtent (d : DescSlot) (env : Env) : M (Option Nat) := do
  match d.share with
  | some sh => pure (sh.range.map Prod.snd)
  | none =>
    let w := d.desc
    let tensor := fun (at_ : Nat) (fmts : Nat → Bool) => readTd env (w64 (fld w at_ 63 0)) fmts
    let last := fun (m : TDesc) (side : SideFmt) => ceilDiv m.lastSize (if m.rank = 1 then dim0Granule m.side side else 1)
    match dOpcode w with
    | 0x12 =>
      let m ← tensor (if fld w 52 0 0 = 1 then 24 else 16) mxFmt
      needField (m.rank = 2)
      pure (some (ceilDiv ((m.sizes[1]?).getD 0) (if fld w 52 0 0 = 1 then 32 else 1)))
    | 0x19 => pure (some (fld w 40 12 0))
    | 0x20 =>
      if fld w 33 3 3 = 1 then pure none
      else
        let m ← tensor 16 (fun f => f ≤ 9)
        pure (some (last m (loadSide w).side))
    | 0x21 =>
      let m ← tensor 16 (fun f => f ≤ 9)
      pure (some (last m (loadSide w).side))
    | 0x22 =>
      let a ← tensor 16 (fun f => f ≤ 9)
      let b ← tensor 24 (fun f => f ≤ 9)
      pure (some (last b a.side))
    | 0x23 =>
      let x ← tensor 24 (fun f => f = 9)
      pure (some x.sizes.prod)
    | 0x24 =>
      let x ← tensor 24 (fun f => f = 9)
      pure (some x.sizes.prod)
    | _ => pure none

/-- The range a divided descriptor starts with. -/
def splitRange (d : DescSlot) (w : Option Nat) : Option (Nat × Nat) :=
  w.map fun n => (((d.share.bind (·.range)).map Prod.fst).getD 0, n)

/-- The SHARE message that carries a share to another package (R126, R334): the descriptor with the unit as its `TARGET`;
`OPERAND` and `OPERAND2` the first granule and the number of granules, 0 for a replicated request; `ARR_STEP` and `GADDR` the
lead's logical step and start wall step; `ARR_ID` as R319 has it; `ARR_MSGS` the number of the split. The spec gives the message these contents and no places: log entry 31. -/
def shareMsg (sh : Share) (dst : Nat) : Msg :=
  { op := Op.share, dst := dst, job := sh.job, srcUnit := sh.origin.1, arrId := BitVec.ofNat 16 (sh.origin.2 % 256 + 256 * sh.shareNo)
    operand := w64 ((sh.range.map Prod.fst).getD 0), operand2 := w64 ((sh.range.map Prod.snd).getD 0)
    arrStep := sh.step, gaddr := sh.wall, arrMsgs := sh.splitNo % 2 ^ 32, length := 64
    data := descBytes (setField sh.desc 12 4 sh.unit.toNat) }

/-- The share a SHARE message carries, at its package (R334). -/
def shareOfMsg (m : Msg) (lead : TileRef) : Share :=
  let d := descOf m.data
  { desc := d, unit := dTarget d, range := if m.operand2 = 0 then none else some (m.operand.toNat, m.operand2.toNat)
    lead := lead, leadSlot := 0, leadMsg := some (m.src, m.txn), job := m.job, step := m.arrStep, wall := m.gaddr
    shareNo := m.arrId.toNat / 256, origin := (m.srcUnit, m.arrId.toNat % 256), splitNo := m.arrMsgs }

/-- Tile that receives the share of an own unit: the tile itself, or its stack's lowest tile in service (R126). -/
def State.shareTile (s : State) (u : BitVec 32) : TileRef :=
  if unitLevel u = 1 then unitTileRef u else ((s.tilesOf (unitStack u)).head?).getD (64 * unitStack u)

/-- Send one share: over the meshes, or as a SHARE message to another package; a path that is not open reports at once
(R126, R516). `k` is its place, one share every 2 cc. -/
def State.sendShare (s : State) (t : TileRef) (i : Nat) (sh : Share) (path : Path) (k : Nat) : State × Member :=
  let m : Member := { unit := sh.unit, pos := (path.head?.map Prod.fst).getD 0, sentAt := s.time.now, path := path }
  if unitPkg sh.unit = s.self then
    let dest := s.shareTile sh.unit
    (s.meshSend dest (meshDelay t dest + s.coreSpan t (2 * k)) (.share sh), m)
  else
    match s.pathStop (unitPkg sh.unit) with
    | some (st, rs) => (s, { m with remote := true, report := some (outc st rs) })
    | none => (s.requestOf t (shareMsg sh (unitPkg sh.unit)) (.share t i sh.unit), { m with remote := true })

/-- Split a descriptor from its lead and wait for its members (R126, R127); with no member that receives work it completes
NOT_READY (R84). -/
def State.splitSlot (s : State) (t : TileRef) (i : Nat) (d : DescSlot) (w : Option Nat) : State :=
  let u := s.slotUnitId t d
  let leaves := s.splitLeaves (s.depth + 4) u true [] (splitRange d w)
  let origin := (d.share.map (·.origin)).getD (s.tileId t, i)
  let base := (d.share.map (·.shareNo)).getD 0
  let splitNo := (d.share.map (·.splitNo)).getD (s.tile t).splits
  let s := if d.share.isNone then s.modTile t fun x => { x with splits := x.splits + 1 } else s
  let r := ((List.range leaves.length).zip leaves).foldl (fun (acc : State × List Member) e =>
    let sh : Share :=
      { desc := d.desc, range := e.2.2.2, unit := e.2.1, lead := t, leadSlot := i, job := d.job, step := d.step, wall := d.wall
        shareNo := base + e.1, origin := origin, splitNo := splitNo }
    let q := acc.1.sendShare t i sh e.2.2.1 e.1
    (q.1, acc.2 ++ [q.2])) (s, [])
  let s := r.1.modSlot t i fun d => { d with split := true, ph := .running, members := r.2, dispatchAt := s.time.now, dispatchCore := s.coreNow (s.tile t) }
  if r.2.all fun m => m.report.isSome then
    s.finishSlot t i (combineTree 8 (r.2.map fun m => (m.path, m.report.getD {})))
  else s

/-! ### Admission (R115, R124) -/

/-- Lowest free descriptor slot. -/
def Tile.freeSlot (x : Tile) : Option Nat := (List.range 256).find? fun i => (kvFind x.slots i).isNone

/-- Put a descriptor in a slot and check it: one that fails completes at once, as does one whose semaphore has failed
(R120, R124). -/
def State.admitSlot (s : State) (t : TileRef) (i : Nat) (d : DescSlot) : State :=
  let s := s.modTile t fun x => x.setSlot i d
  match admitCheck d.desc d.step with
  | some o => s.completeSlots t slotFuel [(i, o)]
  | none =>
    if d.share.isNone && dWaitEn d.desc && (kvGet (s.tile t).sems (dWaitSem d.desc) {}).failed then
      s.completeSlots t slotFuel [(i, outc St.aborted Rs.depFailed)]
    else s

/-- The slot contents of a share. -/
def shareSlot (sh : Share) : DescSlot := { desc := sh.desc, index := none, share := some sh, job := sh.job, step := sh.step, wall := sh.wall }

/-- Admit the next descriptor of the running plan (R115); the first follows the tick by 16 cc (R36). -/
def State.admitPlan (s : State) (t : TileRef) (i : Nat) : State :=
  let x := s.tile t
  match x.running with
  | none => s
  | some p =>
    match p.descs[x.admitted]? with
    | none => s
    | some d =>
      if dBarrier d && x.completed ≠ x.admitted then s
      else
        let s := s.advanceCore t (x.planCore + cc 16)
        let s := s.setTile t { x with admitted := x.admitted + 1 }
        s.admitSlot t i { desc := d, index := some x.admitted, job := p.job, step := p.step, wall := x.planWall }

/-- DESCRIPTOR_ADMIT (R115, R126): held shares take free slots ahead of the plan. -/
def execDescriptorAdmit (t : TileRef) (s : State) : Host.Outcome State Fault Refusal :=
  if !s.tileUp t then .next s
  else
    let x := s.tile t
    match x.freeSlot, x.shares with
    | none, _ => .next s
    | some i, sh :: r => .next ((s.setTile t { x with shares := r }).admitSlot t i (shareSlot sh))
    | some i, [] => .next (s.admitPlan t i)

/-! ### Dispatch (R116) -/

/-- The wait of a slot is met (R118); shares carry none (R127). -/
def Tile.waitMet (x : Tile) (d : DescSlot) : Bool :=
  d.share.isSome || !dWaitEn d.desc ||
    (let m := kvGet x.sems (dWaitSem d.desc) {}
     !m.failed && dWaitValue d.desc ≤ m.value.toNat)

/-- The DMA channel a descriptor is for, when it is halted (R204). -/
def Tile.channelDown (x : Tile) (q : EngineQ) : Bool :=
  match q with
  | .dma c => x.dmaHalted.getLsbD c
  | _ => false

/-- A lead that meets uncorrectable data in a tensor descriptor halts the channel of its descriptor (R204). -/
def State.haltOn (s : State) (t : TileRef) (i : Nat) (e : Stop) : State :=
  match ((s.tile t).slot i).bind DescSlot.channel with
  | some c => if e.status = St.poisoned && e.kind ≠ 3 then s.haltChannel t c i e.dva else s
  | none => s

/-- Split at the lead, reading what the extent needs (R126). -/
def State.dispatchSplit (s : State) (t : TileRef) (i : Nat) (d : DescSlot) : State :=
  if s.noGroup (s.slotUnitId t d) then s.finishSlot t i (outc St.rejected Rs.noGroup)
  else
    let env := d.env t i
    match (splitExtent d env).result s with
    | (.ok w, s') => s'.splitSlot t i d w
    | (.error e, s') =>
      match e.need with
      | some n => s.askFor env s' n
      | none => ((s'.recordFault t e i env.ctx env.step).haltOn t i e).finishSlot t i (outc e.status e.reason)

/-- Put a slot in its engine's queue; the Pewter queue numbers what it takes (R116, R264). -/
def State.queueSlot (s : State) (t : TileRef) (i : Nat) (d : DescSlot) (k : Nat) : State :=
  s.modTile t fun x =>
    let n := x.pewter.nextOrder
    let x := if k = 7 then { x with pewter := { x.pewter with nextOrder := n + 1 } } else x
    (x.setSlot i { d with ph := .queued, dispatchAt := s.time.now, dispatchCore := s.coreNow x, order := n }).enqueue k i

/-- Dispatch a slot: into its engine's queue when there is room, or split at its lead (R116, R118, R126). -/
def State.dispatch (s : State) (t : TileRef) (slot : Nat) : State :=
  let x := s.tile t
  match x.slot slot with
  | none => s
  | some d =>
    let q := queueOf d
    if !s.tileUp t || !x.waitMet d then s
    else if s.ownWork t d then
      if d.ph ≠ .waiting then s
      else if x.channelDown q then s.completeSlots t slotFuel [(slot, outc St.aborted Rs.channelHalted)]
      else if q.key = 8 then s.modSlot t slot fun d => { d with
        ph := .queued, dispatchAt := s.time.now, dispatchCore := s.coreNow x }
      else if !x.room q.key then s
      else s.queueSlot t slot d q.key
    else if d.ph = .waiting || (d.ph = .running && !d.split && !d.applied && d.waits.isEmpty) then s.dispatchSplit t slot d
    else s

/-- DESCRIPTOR_DISPATCH (R116, R118, R126). -/
def execDescriptorDispatch (t : TileRef) (slot : Nat) (s : State) : Host.Outcome State Fault Refusal := .next (s.dispatch t slot)

/-! ### Completion and messages -/

/-- DESCRIPTOR_COMPLETE (R117 to R120, R127, R128). -/
def execDescriptorComplete (t : TileRef) (slot : Nat) (s : State) : Host.Outcome State Fault Refusal :=
  match (s.tile t).slot slot with
  | none => .next s
  | some d =>
    if d.ph = .finished && !d.signalling && s.clocksRun then
      .next (((s.advanceTo d.readyAt).advanceCore t d.readyCore).completeSlots t slotFuel [(slot, d.result)])
    else .next s

/-- A remote signal has been applied: the descriptor that sent it counts as completed and frees its slot (R117, R119). One that held no
slot is named by 256 and its number in the plan. -/
def State.signalled (s : State) (t : TileRef) (i : Nat) : State :=
  match (s.tile t).slot i with
  | some d =>
    let s := s.modTile t fun x => { x with slots := kvErase x.slots i }
    match d.index with
    | some k => s.countDone t k d.result
    | none => s
  | none =>
    match kvFind (s.tile t).signalsOut (i - 256) with
    | some o => if i < 256 then s
      else (s.modTile t fun x => { x with signalsOut := kvErase x.signalsOut (i - 256) }).countDone t (i - 256) o
    | none => s

/-- REMOTE_SIGNAL (R119, R120). -/
def execRemoteSignal (t : TileRef) (s : State) : Host.Outcome State Fault Refusal :=
  match meshTake t (fun b => match b with
    | .signal sem amount fail src slot => some (sem, amount, fail, src, slot)
    | _ => none) s.mesh with
  | none => .next s
  | some ((sem, amount, fail, src, slot), m, rest) =>
    if !s.clocksRun then .next s
    else
      let s := ({ s with mesh := rest } : State).advanceTo m.due
      let r := s.signal t sem amount fail
      let s := r.1.signalled src slot
      .next (s.completeSlots t slotFuel (r.2.map fun n => (n, outc St.aborted Rs.depFailed)))

/-- What tells a split from others: the tile that first split the descriptor, and that tile's number of it. -/
def Share.mark (sh : Share) : Nat × Nat := (sh.origin.1.toNat, sh.splitNo)

/-- The tile has taken a share of the same request already: groups reach it twice (R82). -/
def Tile.holdsTwin (x : Tile) (sh : Share) : Bool := unitLevel sh.unit = 1 && x.splitsTaken.contains sh.mark

/-- A share joins the tile's queue. -/
def Tile.queueShare (x : Tile) (sh : Share) : Tile :=
  { x with shares := x.shares ++ [sh], splitsTaken := (sh.mark :: x.splitsTaken).take 1024 }

/-- A share reaches a tile: queued, held back for a full queue, or refused (R82, R126, R127). -/
def State.takeShare (s : State) (t : TileRef) (sh : Share) : State :=
  let x := s.tile t
  if !s.tileUp t then s.reportShare t sh (outc St.notReady 0)
  else if x.holdsTwin sh then s.reportShare t sh (outc St.rejected Rs.groupOverlap)
  else if 32 ≤ x.shares.length then
    let keeper := if sh.leadMsg.isSome then t else sh.lead
    s.modTile keeper fun k => { k with retry := k.retry ++ [(t, sh)] }
  else s.setTile t (x.queueShare sh)

/-- SHARE_ARRIVAL (R126). -/
def execShareArrival (t : TileRef) (s : State) : Host.Outcome State Fault Refusal :=
  match meshTake t (fun b => match b with
    | .share sh => some sh
    | _ => none) s.mesh with
  | none => .next s
  | some (sh, m, rest) => .next (if s.clocksRun then (({ s with mesh := rest } : State).advanceTo m.due).takeShare t sh else s)

/-- SHARE_RETRY (R126): 64 cc on, the lead sends again the shares it holds. -/
def execShareRetry (t : TileRef) (s : State) : Host.Outcome State Fault Refusal :=
  if !s.clocksRun then .next s
  else match (s.tile t).retry with
  | [] => .next s
  | held =>
    let s := s.advanceTo (s.time.now + s.coreSpan t 64)
    let s := s.modTile t fun x => { x with retry := [] }
    .next (held.foldl (fun (s : State) e => s.meshSend e.1 (meshDelay t e.1) (.share e.2)) s)

/-- SHARE_REPORT (R127): a member's report reaches its lead. -/
def execShareReport (t : TileRef) (s : State) : Host.Outcome State Fault Refusal :=
  match meshTake t (fun b => match b with
    | .report slot unit o => some (slot, unit, o)
    | _ => none) s.mesh with
  | none => .next s
  | some ((slot, unit, o), m, rest) =>
    .next (if s.clocksRun then (({ s with mesh := rest } : State).advanceTo m.due).memberReport t slot unit o else s)

/-! ### The sequencer's own descriptors -/

/-- NOP (R123, R125): it waits and signals only. -/
def execNop (t : TileRef) (slot : Nat) (s : State) : Host.Outcome State Fault Refusal :=
  .next (s.runDesc t slot 0x01 noStop fun _ _ => pure {})

/-- The arrivals that a fence awaits have come (R59). -/
def Tile.fenceMet (x : Tile) (d : DescSlot) : Bool :=
  match fenceStep d.desc d.step with
  | none => false
  | some st =>
    let a := kvGet x.arr (4 * fld d.desc 16 3 0 + st % 4) (0, 0)
    a.1.toNat = st && fld d.desc 20 31 0 ≤ a.2.toNat

/-- RECEIVE_FENCE (R59): it completes when its arrivals have come, and otherwise goes on waiting. -/
def execReceiveFence (t : TileRef) (slot : Nat) (s : State) : Host.Outcome State Fault Refusal :=
  match s.runnable t slot 0x02 with
  | none => .next s
  | some d => .next (if (s.tile t).fenceMet d then s.conclude t slot {} else s)

/-- tick_time of a wall step in the own schedule: of a tick that has occurred as it occurred, else by the record with its pending change
(R33, R52, R59). -/
def TickState.timeOf (k : TickState) (w : Nat) : Int :=
  match k.times.find? fun e => e.1 = w with
  | some e => e.2
  | none => match k.sched.change with
    | some (us_, m) => if m ≤ w then k.sched.tickTime m + ((w : Int) - m) * us_ * 1000 else k.sched.tickTime w
    | none => k.sched.tickTime w

/-- The package at a fence's deadline: the offset counts from the tick that started the plan, for a share from that wall
step's tick in the own schedule (R59). -/
def State.atDeadline (s : State) (t : TileRef) (d : DescSlot) : State :=
  let n := fld d.desc 32 31 0
  if d.share.isSome then s.advanceInvar (s.tick.timeOf d.wall + 1000 * n).toNat
  else s.advanceTo ((s.tile t).planAt + us n)

/-- RECEIVE_FENCE_DEADLINE (R59): NOT_READY at the deadline for a fence that has not completed; a deadline of 0 is none. -/
def execReceiveFenceDeadline (t : TileRef) (slot : Nat) (s : State) : Host.Outcome State Fault Refusal :=
  match s.runnable t slot 0x02 with
  | none => .next s
  | some d =>
    if fld d.desc 32 31 0 = 0 then .next s
    else if (s.tile t).fenceMet d then .next (s.conclude t slot {})
    else .next ((s.atDeadline t d).conclude t slot { outc := outc St.notReady 0 })

/-- Context an XLT_INVALIDATE descriptor names (R104). -/
def invalidateCtx (d : DescSlot) : Nat := if fld d.desc 32 12 12 = 1 then d.job.toNat % 4096 else fld d.desc 32 11 0

/-- A range of DVAs meets `n` bytes from a DVA; none is every DVA. -/
def rangeMeets (range : Option (Nat × Nat)) (a n : Nat) : Bool :=
  match range with
  | none => true
  | some r => r.1 < a + n && a < r.2

/-- A Pewter sequence that is not fenced uses translations of a context in a range: the translation pages of its weight pages until it has
completed, those of its results until its fence has written them (R257). -/
def PewSeq.uses (q : PewSeq) (ctx : Nat) (range : Option (Nat × Nat)) : Bool :=
  q.job.toNat % 4096 = ctx &&
    ((!q.done && q.maps.any fun e => rangeMeets range e.1 e.2) || q.outs.any fun e => rangeMeets range e.dva (2 ^ e.size))

/-- An access of the tile or of its append front end under a context awaits an answer, or a Pewter sequence goes on with its translations
(R103, R257). -/
def Tile.inFlight (x : Tile) (ctx : Nat) (range : Option (Nat × Nat)) : Bool :=
  (x.slots.any fun e => !e.2.waits.isEmpty && e.2.job.toNat % 4096 = ctx) || (x.items.any fun i => !i.waits.isEmpty && i.ctx = ctx)
    || !x.frontWaits.isEmpty || x.pewter.seqs.any fun q => q.uses ctx range

/-- XLT_INVALIDATE (R103, R104): the entries go, once no access that used one is in flight. -/
def execXltInvalidateDesc (t : TileRef) (slot : Nat) (s : State) : Host.Outcome State Fault Refusal :=
  match s.runnable t slot 0x03 with
  | none => .next s
  | some d =>
    let ctx := invalidateCtx d
    let lo := fld d.desc 16 63 0
    let range := if fld d.desc 32 13 13 = 1 then none else some (lo, lo + fld d.desc 24 63 0)
    if (s.tile t).inFlight ctx range then .next s
    else
      .next ((s.modTile t fun x => x.invalidate ctx range).conclude t slot {})

end Sys2Proof.Machine
end

