-- ==== Sys2Proof/Machine/KvCache.lean ====
section
/-! DEFINITION. Sys2Proof/Machine/KvCache.lean: key-value caches: page tables and block images (R207 to R213), the append buffer
(R214, R215), COMMIT, STAGE and ACCEPT (R217 to R230) with rotation and quantisation (R222, R223), mirrored commits and tails
(R229, R355, R359), and the sequence commands (R250). -/

namespace Sys2Proof.Machine

/-! ### Page tables (R207 to R212) -/

/-- The header of a page table (R207). -/
structure KvHeader where
  gen : BitVec 64
  seqId : Nat
  /-- Tokens per block, T. -/
  t : Nat
  /-- `HEAD_DIM` code and d. -/
  dim : Nat
  d : Nat
  int4 : Bool
  fp16 : Bool
  planes : Nat
  heads : Nat
  blocks : Nat
  entries : BitVec 64
  dir : BitVec 64
  rope : Bool
  halves : Bool
  dims : Nat
  ropeBase : BitVec 32
  posScale : BitVec 32
  deriving DecidableEq, Repr

/-- Dimension of a `HEAD_DIM` code. -/
def headDim (c : Nat) : Nat := ([64, 96, 128, 192, 256][c]?).getD 0

/-- The fields of a header. -/
def kvHeaderOf (w : BitVec 512) : KvHeader :=
  { gen := w64 (fld w 0 63 0), seqId := fld w 8 19 0, t := 16 * 2 ^ fld w 8 21 20, dim := fld w 8 24 22, d := headDim (fld w 8 24 22)
    int4 := fld w 8 25 25 = 1, fp16 := fld w 8 26 26 = 1, planes := fld w 12 7 0, heads := fld w 12 15 8, blocks := fld w 16 20 0
    entries := w64 (fld w 24 63 0), dir := w64 (fld w 32 63 0), rope := fld w 40 0 0 = 1, halves := fld w 40 1 1 = 1
    dims := fld w 40 10 2, ropeBase := BitVec.ofNat 32 (fld w 44 31 0), posScale := BitVec.ofNat 32 (fld w 48 31 0) }

/-- Element bytes per token and head, E (R212). -/
def KvHeader.e (h : KvHeader) : Nat := if h.int4 then h.d / 2 else h.d

/-- Scale bytes per token and head, Sc (R212). -/
def KvHeader.sc (h : KvHeader) : Nat := if h.fp16 then h.d / 16 else h.d / 32

/-- Bytes of one token's keys and values of all heads. -/
def KvHeader.tokenBytes (h : KvHeader) : Nat := 2 * h.heads * (h.e + h.sc)

/-- Size of a block image (R212). -/
def KvHeader.imageSize (h : KvHeader) : Nat := ceilDiv (h.t * h.tokenBytes) 2048 * 2048

/-- The header's own checks, all but placement (R208). -/
def kvHeaderOk (w : BitVec 512) : Bool :=
  let h := kvHeaderOf w
  fldZero w 8 31 27 && fldZero w 12 31 16 && fldZero w 16 31 21 && fldZero w 20 31 0 && fldZero w 40 15 11 && fldZero w 42 15 0
    && fldZero w 52 95 0 && h.dim ≤ 4 && h.planes ≠ 0 && 1 ≤ h.heads && h.heads ≤ 16 && 1 ≤ h.blocks && h.blocks ≤ 1048576
    && (!h.rope || (h.dims % 2 = 0 && h.dims ≠ 0 && h.dims ≤ h.d && tscaleOk h.ropeBase))
    && h.entries.toNat % 64 = 0 && h.dir.toNat % 64 = 0

/-- Refuse an entry. -/
def kvRefuse {α : Type} (status reason : Code) : M α := throw { status := status, reason := reason }

/-- A global address lies in a protected region of its package (R207). -/
def State.protectedGlobal (s : State) (g : Nat) : Bool :=
  if pkgOf g = s.self then s.protectedAt (localOf g) else Config.farProtected (g / 2 ^ 26)

/-- Package of a DVA of a table, whose place must be protected (R207, R208). -/
def kvPlace (env : Env) (dva : BitVec 64) : M Nat := do
  let e ← atDva dva (translate env.t env.ctx dva 3)
  let g := e.global dva
  if !(← get).protectedGlobal g then kvRefuse St.rejected Rs.kvHeader
  else pure (pkgOf g)

/-- The rest of a range of a table lies in protected regions of a package (R207). Pages that have no translation break nothing before they
are read: log entry 21. -/
def State.kvRange (s : State) (env : Env) (pkg : Nat) : Nat → BitVec 64 → Nat → Bool
  | 0, _, _ => true
  | fuel + 1, dva, n =>
    let e := ((translate env.t env.ctx dva 3).result s).1
    let size := match e with
      | .ok e => min 26 e.size
      | .error _ => 21
    let k := min n (2 ^ size - dva.toNat % 2 ^ size)
    n = 0 || ((match e with
      | .ok e => pkgOf (e.global dva) = pkg && s.protectedGlobal (e.global dva)
      | .error _ => true) && s.kvRange env pkg fuel (dva + w64 k) (n - k))

/-- A whole range of a table lies where it must. -/
def State.kvPlaced (s : State) (env : Env) (pkg : Nat) (dva : BitVec 64) (n : Nat) : Bool := s.kvRange env pkg (n / 2 ^ 21 + 2) dva n

/-- Read and check a header; the answer holds its package too (R208). -/
def readHeader (env : Env) (pt : BitVec 64) : M (KvHeader × Nat) := do
  let w := descOf (← readDva env pt 64 3)
  let h := kvHeaderOf w
  if !kvHeaderOk w then kvRefuse St.rejected Rs.kvHeader
  let p ← kvPlace env pt
  let q ← kvPlace env h.dir
  let r ← kvPlace env h.entries
  let s ← get
  if q ≠ p || r ≠ p || !s.kvPlaced env p pt 64 || !s.kvPlaced env p h.dir (32 * h.planes)
      || !s.kvPlaced env p h.entries (16 * h.planes * h.blocks) then kvRefuse St.rejected Rs.kvHeader
  if 196608 < h.imageSize then kvRefuse St.rejected Rs.blockTooBig
  pure (h, p)

/-- A plane directory entry (R209). -/
structure KvDir where
  len : Nat := 0
  baseLen : Nat := 0
  step : Nat := 0
  home : BitVec 32 := 0
  tailTile : BitVec 32 := 0
  tailState : Nat := 0
  unmirrored : Bool := false
  staged : Nat := 0
  deriving DecidableEq, Repr

/-- The fields of a directory entry. -/
def kvDirOf (l : List Byte) : KvDir :=
  let w := descOf l
  { len := fld w 0 24 0, baseLen := fld w 4 24 0, step := fld w 8 47 0, home := BitVec.ofNat 32 (fld w 16 31 0)
    tailTile := BitVec.ofNat 32 (fld w 20 31 0), tailState := fld w 24 1 0, unmirrored := fld w 24 2 2 = 1, staged := fld w 25 7 0 }

/-- Bytes 0–15 of a directory entry, as the home tile writes them (R210). -/
def KvDir.low (d : KvDir) : List Byte := bytesLE 4 d.len ++ bytesLE 4 d.baseLen ++ bytesLE 8 d.step

/-- Bytes 20–25. -/
def KvDir.high (d : KvDir) : List Byte :=
  bytesLE 4 d.tailTile.toNat ++ bytesLE 1 (d.tailState + if d.unmirrored then 4 else 0) ++ bytesLE 1 d.staged

/-- DVA of a plane's directory entry (R209). -/
def KvHeader.dirAt (h : KvHeader) (plane : Nat) : BitVec 64 := h.dir + w64 (32 * plane)

/-- DVA of an entry (R211). -/
def KvHeader.entryAt (h : KvHeader) (plane b : Nat) : BitVec 64 := h.entries + w64 ((plane * h.blocks + b) * 16)

/-- The Reserved fields of a directory entry are zero (R10, R209). -/
def kvDirClean (l : List Byte) : Bool :=
  let w := descOf l
  fldZero w 0 31 25 && fldZero w 4 31 25 && fldZero w 8 63 48 && fldZero w 24 7 3 && fldZero w 26 47 0

/-- Read a directory entry, as one access (R210); one with a Reserved field set is refused (R10). -/
def readDir (env : Env) (h : KvHeader) (plane : Nat) : M KvDir := do
  let b ← readDva env (h.dirAt plane) 32 3
  if !kvDirClean b then kvRefuse St.rejected Rs.badField
  pure (kvDirOf b)

/-- Read `BLOCK_DVA` of an entry; one with its Reserved field set is refused (R10, R211). -/
def readBlockDva (env : Env) (h : KvHeader) (plane b : Nat) : M (BitVec 64) := do
  if h.blocks ≤ b then M.stop St.range Rs.tableFull 3 (h.entryAt plane b)
  let l ← readDva env (h.entryAt plane b) 16 3
  if natLE (l.drop 12) ≠ 0 then kvRefuse St.rejected Rs.badField
  pure (w64 (natLE (l.take 8)))

/-- Write a directory entry's two device-owned spans (R210). -/
def writeDir (env : Env) (h : KvHeader) (plane : Nat) (d : KvDir) : M Unit := do
  writeDva env (h.dirAt plane) d.low 2
  writeDva env (h.dirAt plane + 20) d.high 2

/-! ### Images (R212) -/

/-- Places of token `i` in an image: offset and length, in the order of a token's bytes. -/
def KvHeader.places (h : KvHeader) (i : Nat) : List (Nat × Nat) :=
  let te := h.t * h.e
  let ts := h.t * h.sc
  let scl := 2 * h.heads * te
  ((List.range h.heads).flatMap fun k => [(2 * k * te + i * h.e, h.e), (2 * k * te + te + i * h.e, h.e)])
    ++ (List.range h.heads).flatMap fun k => [(scl + 2 * k * ts + i * h.sc, h.sc), (scl + 2 * k * ts + ts + i * h.sc, h.sc)]

/-- Cut a token's bytes for its places. -/
def cutToken : List (Nat × Nat) → List Byte → List (Nat × List Byte)
  | [], _ => []
  | (o, n) :: r, l => (o, l.take n) :: cutToken r (l.drop n)

/-- Replace bytes of an image. -/
def patch (image : List Byte) (p : Nat × List Byte) : List Byte := image.take p.1 ++ p.2 ++ image.drop (p.1 + p.2.length)

/-- Place a token in an image. -/
def KvHeader.place (h : KvHeader) (image : List Byte) (i : Nat) (tok : List Byte) : List Byte :=
  (cutToken (h.places i) tok).foldl patch image

/-- Bytes of token `i` of an image. -/
def KvHeader.token (h : KvHeader) (image : List Byte) (i : Nat) : List Byte :=
  (h.places i).flatMap fun p => (image.drop p.1).take p.2

/-! ### Rotation and quantisation (R222, R223) -/

/-- A finite FP32 value. -/
def finite32 (b : BitVec 32) : Bool := !(f32 b).isNan && !(f32 b).isInf

/-- Frequency of pair `j`, `ROPE_BASE`^(−2j / R) rounded once to FP32 (R222). -/
def ropeTheta (base : BitVec 32) (j dims : Nat) : BitVec 32 :=
  match f32 base with
  | .nan => 0x7FC00000
  | .inf _ => 0x7FC00000
  | .fin _ m e => if j = 0 then 0x3F800000 else if m = 0 then 0x7FC00000 else toF32 (expExact (-(fixLn m e * (2 * j : Nat)) / (dims : Int)))

/-- The exact angle of a position and a frequency, reduced modulo 2π (R222). -/
def ropeReduced (p theta : BitVec 32) : Int :=
  match (f32 p).mul (f32 theta) with
  | .nan => 0
  | .inf _ => 0
  | .fin neg m e => reduceAngle (fixOf neg m e)

/-- Cosine and sine for pair `j` at a position, each within 2^−22; none where the angle is not finite (R222). -/
def ropeAngle (h : KvHeader) (pos j : Nat) : Option (Fv × Fv) :=
  let theta := ropeTheta h.ropeBase j h.dims
  let p := mulF (toF32 (.ofInt pos)) h.posScale
  if finite32 theta && finite32 p && finite32 (mulF p theta) then
    let r := ropeReduced p theta
    some (f32 (heldNear (circular 0 r) (Config.cosBits p theta)), f32 (heldNear (circular 1 r) (Config.sinBits p theta)))
  else none

/-- The value with its sign turned. -/
def Fv.negate : Fv → Fv
  | .nan => .nan
  | .inf n => .inf (!n)
  | .fin n m e => .fin (!n) m e

/-- Rotate a head's elements at a position (R222). -/
def rotate (h : KvHeader) (pos : Nat) (row : List Fv) : List Fv :=
  if !h.rope then row
  else
    let half := h.dims / 2
    let at_ := fun (i : Nat) => (row[i]?).getD .zero
    (List.range row.length).map fun i =>
      if h.dims ≤ i then at_ i
      else
        let j := if h.halves then i % half else i / 2
        let first := if h.halves then i < half else i % 2 = 0
        let x := if h.halves then at_ j else at_ (2 * j)
        let y := if h.halves then at_ (j + half) else at_ (2 * j + 1)
        match ropeAngle h pos j with
        | none => .nan
        | some (c, s) => if first then round32 ((x.mul c).add (y.mul s).negate) else round32 ((x.mul s).add (y.mul c))

/-- A positive value rounded upward to FP16, at most 65,504 (R223). -/
def fp16Up (v : Fv) : Nat :=
  let c := (convert 2 true v).1
  if (decodeNum 2 c).lt v && c < 0x7BFF then c + 1 else c

/-- Element format of a cache. -/
def KvHeader.fmt (h : KvHeader) : Nat := if h.int4 then 8 else 3

/-- One block of 32 elements: codes and the scale's bytes (R223). -/
def kvBlock (h : KvHeader) (b : List Fv) : List Nat × List Byte :=
  if !h.fp16 then
    let k := chooseScale h.fmt 1 (.fin false 1 0) b
    (quantBlock h.fmt 1 (.fin false 1 0) k.1 k.2.1 b, [BitVec.ofNat 8 k.1])
  else match blockMax b with
    | none => (b.map fun _ => 0, bytesLE 2 0x7E00)
    | some a =>
      if a.isZero then (b.map fun v => (convert h.fmt true v).1, bytesLE 2 0)
      else
        let c := fp16Up (a.div (.fin false (if h.int4 then 7 else 448) 0))
        (b.map fun v => (convert h.fmt true (v.div (decodeNum 2 c))).1, bytesLE 2 c)

/-- A head's row as stored: elements and scales. -/
def kvRow (h : KvHeader) (row : List Fv) : List Byte × List Byte :=
  let q := (chunks 32 row.length row).map (kvBlock h)
  (packRun h.fmt (q.flatMap Prod.fst), q.flatMap Prod.snd)

/-- A token as stored: K and V of each head, then their scales (R212, R355). -/
def kvToken (h : KvHeader) (pos : Nat) (k v : List (List Fv)) : List Byte :=
  let q := (k.zip v).map fun e => (kvRow h (rotate h pos e.1), kvRow h e.2)
  q.flatMap (fun e => e.1.1 ++ e.2.1) ++ q.flatMap (fun e => e.1.2 ++ e.2.2)

/-- Heads of a token's BF16 row (R218). -/
def bf16Heads (h : KvHeader) (bytes : List Byte) : List (List Fv) :=
  chunks h.d h.heads ((unpackRun 1 (h.heads * h.d) bytes).map (decodeNum 1))

/-- Bytes of a token's row of keys, or of values, as BF16. -/
def KvHeader.rowBytes (h : KvHeader) : Nat := 2 * h.heads * h.d

/-! ### The append buffer (R214, R215) -/

/-- A slot is tagged with the table's DVA, the plane and `SEQ_ID` (R214). -/
def KvSlot.of (k : KvSlot) (pt : BitVec 64) (plane seq : Nat) (staging : Bool) : Bool :=
  k.pt = pt && k.plane = plane && k.seqId = seq && k.staging = staging

/-- A plane's tail slot. -/
def Tile.tailSlot (x : Tile) (pt : BitVec 64) (plane seq : Nat) : Option KvSlot := x.kv.find? fun k => k.of pt plane seq false

/-- A plane's staging slot. -/
def Tile.stagingSlot (x : Tile) (pt : BitVec 64) (plane seq : Nat) : Option KvSlot := x.kv.find? fun k => k.of pt plane seq true

/-- Free a plane's slot. -/
def Tile.freeKv (x : Tile) (pt : BitVec 64) (plane seq : Nat) (staging : Bool) : Tile :=
  { x with kv := x.kv.filter fun k => !k.of pt plane seq staging }

/-- Replace a plane's tail slot. -/
def Tile.setTail (x : Tile) (k : KvSlot) : Tile :=
  { x with kv := x.kv.map fun j => if j.of k.pt k.plane k.seqId k.staging then k else j }

/-- An uncorrectable error was met in a plane's tail slot: it stays there (R214). -/
def Tile.spoilKv (x : Tile) (pt : BitVec 64) (plane seq : Nat) : Tile :=
  { x with kv := x.kv.map fun k => if k.of pt plane seq false then { k with bad := true } else k }

/-- Bytes free for a tail slot: those not held, less the free part of the reserve (R215). -/
def Tile.tailRoom (x : Tile) : Nat :=
  let reserve := min 262144 (x.kvReserve.toNat / 2048 * 2048)
  let staged := ((x.kv.filter fun k => k.staging).map fun k => k.bytes).sum
  262144 - x.kvUsed - (reserve - staged)

/-- The front end of a tile as an agent: it accesses for no slot. -/
def State.frontEnv (s : State) (t : TileRef) (job : BitVec 16) (step : Nat) (sync : Bool) : Env :=
  { t := t, slot := 4096, ctx := job.toNat % 4096, job := job, step := step, fetched := (s.tile t).frontFetched
    readFails := (s.tile t).frontFails, front := some sync }

/-- Planes with spilled tails that a tile keeps records of: up to 64 (R366). -/
def Tile.spillRecords (x : Tile) : List KvSpill := (x.spills.filter fun k => k.mirrored).take 64

/-- An install or a forward of a plane's tail is not yet acknowledged (R366). -/
def State.installing (s : State) (t : TileRef) (pt : BitVec 64) (plane : Nat) : Bool :=
  s.cornis.txns.any fun x => x.user = .tail t pt plane

/-- A plane is in sync with the twin (R356, R366): once its install is acknowledged, or at the end of the page phase where it has none. -/
def State.planeSync (s : State) (t : TileRef) (pt : BitVec 64) (plane seq : Nat) : Bool :=
  s.twin.state = .paired ||
    match (s.tile t).tailSlot pt plane seq, (s.tile t).spillRecords.find? fun k => k.pt = pt && k.plane = plane with
    | some k, _ => k.inSync
    | none, some k => k.inSync
    | none, none => s.twin.phase = 2 && !s.installing t pt plane

/-- What a mirrored plane's commit meets (R356). -/
def State.planeWay (s : State) (sync : Bool) : MirrorWay :=
  match s.twin.state with
  | .paired => .both
  | .source => if sync then .both else .alone Rs.twinResync
  | .target => if sync then .both else .refuse
  | .stale => .refuse
  | .solo => .alone Rs.twinSolo
  | .detached => .alone Rs.twinSolo
  | .conflict => .alone Rs.twinSolo
  | .unpaired => .alone Rs.twinSolo

/-! ### Writing images -/

/-- The `APPEND_ONLY` check of an image write (R225), as one action on the leaf. -/
def imageMark (leaf : Option Nat) (dva : BitVec 64) (off size : Nat) : M Unit := do
  match leaf with
  | none => pure ()
  | some a =>
    let w := w64 (natLE (← readStack a 8 3))
    let mark := bitsOf w 20 10
    if mark * pageSize ≤ off then
      writeStack a 3 (bytesLE 8 (w.toNat - mark * 1024 + ceilDiv (off + size) pageSize % 2048 * 1024))
    else if mark * pageSize < off + size then M.stop St.range Rs.appendBehind 2 dva
    else pure ()

/-- Where a block's image lies: DVA, global address, leaf on an `APPEND_ONLY` page, whether its page is mirrored. -/
structure ImageAt where
  dva : BitVec 64
  addr : Nat
  leaf : Option Nat
  mirrored : Bool
  deriving DecidableEq, Repr

/-- Resolve block `b` of a plane with a write check (R211, R224, R228). -/
def resolveImage (env : Env) (h : KvHeader) (plane b : Nat) : M ImageAt := do
  let dva ← readBlockDva env h plane b
  if dva = 0 then M.stop St.range Rs.noBlock 3 (h.entryAt plane b)
  if dva.toNat % 2048 ≠ 0 then M.stop St.range Rs.blockAlign 3 dva
  let e ← atDva dva (translate env.t env.ctx dva 2)
  if 2 ^ e.size < dva.toNat % 2 ^ e.size + h.imageSize then M.stop St.range Rs.blockAlign 3 dva
  if !e.canWrite then M.stop St.range Rs.noWrite 2 dva
  pure { dva := dva, addr := e.global dva, leaf := if e.appendOnly then some e.leaf else none, mirrored := e.mirrored }

/-- Write pieces of an image in place: the narrow-write path (R225). -/
def writePieces (env : Env) (h : KvHeader) (i : ImageAt) (pieces : List (Nat × List Byte)) : M Unit := do
  imageMark i.leaf i.dva (i.dva.toNat % 2 ^ 21) h.imageSize
  pieces.forM fun p => writeGlobal env i.mirrored (i.addr + p.1) (i.dva + w64 p.1) 2 p.2

/-- Write a whole image. -/
def writeImage (env : Env) (h : KvHeader) (i : ImageAt) (image : List Byte) : M Unit := do
  imageMark i.leaf i.dva (i.dva.toNat % 2 ^ 21) h.imageSize
  writeGlobal env i.mirrored i.addr i.dva 2 (padTo h.imageSize image)

/-- Read a block's image where it was resolved, with a read check (R105, R211, R224). -/
def readImage (env : Env) (h : KvHeader) (i : ImageAt) : M (List Byte) := do
  let e ← atDva i.dva (translate env.t env.ctx i.dva 1)
  if !e.canRead then M.stop St.range Rs.noRead 1 i.dva
  if e.mirrored && pkgOf i.addr = (← get).self then mirrorReadable env.ctx i.dva h.imageSize 1
  readGlobal env i.addr h.imageSize i.dva 1

/-- Where a slot's image lies. -/
def KvSlot.image_ (k : KvSlot) : ImageAt := { dva := k.dva, addr := k.addr, leaf := k.leaf, mirrored := k.mirrored }

/-- Write the tokens that a tail slot holds to their image (R224, R250). -/
def flushTail (env : Env) (h : KvHeader) (k : KvSlot) : M Unit :=
  writePieces env h k.image_ ((List.range k.count).flatMap fun i => cutToken (h.places i) (h.token k.image i))

/-! ### COMMIT (R224, R225) -/

/-- A commit on its way: the directory, tokens applied, and the record's flags. -/
structure Commit where
  dir : KvDir
  applied : Nat := 0
  spilled : Bool := false
  flushed : Bool := false
  deriving DecidableEq, Repr

/-- A plane of a table, at its home tile. -/
structure Plane where
  h : KvHeader
  pt : BitVec 64
  plane : Nat
  job : BitVec 16
  deriving DecidableEq, Repr

/-- The spill record of a block. -/
def Tile.spillOf (x : Tile) (p : Plane) (b : Nat) : Option KvSpill := x.spills.find? fun k => k.pt = p.pt && k.plane = p.plane && k.block = b

/-- A block begins to spill (R216, R225). -/
def beginSpill (env : Env) (p : Plane) (b : Nat) (i : ImageAt) : M Unit :=
  M.upd fun s => s.modTile env.t fun x => { x with
    spills := { pt := p.pt, plane := p.plane, block := b, addr := i.addr, dva := i.dva, leaf := i.leaf, mirrored := i.mirrored
                job := p.job, inSync := decide (env.front = some true) } ::
      x.spills.filter fun k => !(k.pt = p.pt && k.plane = p.plane)
    spillBlocks := x.spillBlocks + 1
    spillSteps := kvMod x.spillSteps env.step 0 (· + 1) }

/-- Secure the tail of block `b` before token `LENGTH` (R224 step 2): a slot that holds it, or a spill. -/
def secureTail (env : Env) (p : Plane) (c : Commit) (b i : Nat) : M Commit := do
  let own := (← get).tileId env.t
  let c ← match ((← get).tile env.t).tailSlot p.pt p.plane p.h.seqId with
    | some k =>
      if k.block = b then pure c
      else do
        flushTail env p.h k
        M.upd fun s => s.modTile env.t fun x => x.freeKv p.pt p.plane p.h.seqId false
        let dir : KvDir := { c.dir with tailState := 0, tailTile := 0 }
        writeDva env (p.h.dirAt p.plane + 20) dir.high 2
        pure { c with dir := dir }
    | none => pure c
  let x := (← get).tile env.t
  if (x.tailSlot p.pt p.plane p.h.seqId).isSome then pure c
  else if c.dir.tailState = 2 && (x.spillOf p b).isSome then pure c
  else
    let im ← resolveImage env p.h p.plane b
    if p.h.imageSize ≤ ((← get).tile env.t).tailRoom && c.dir.tailState ≠ 2 then
      let old ← if i = 0 then pure (List.replicate p.h.imageSize (0 : Byte)) else readImage env p.h im
      let kept := (List.range i).foldl (fun image k => p.h.place image k (p.h.token old k)) (List.replicate p.h.imageSize (0 : Byte))
      let k : KvSlot := { seqId := p.h.seqId, plane := p.plane, pt := p.pt, job := p.job, staging := false, block := b
                          bytes := p.h.imageSize, image := kept, addr := im.addr, mirrored := im.mirrored, dva := im.dva
                          leaf := im.leaf, count := i, inSync := decide (env.front = some true) }
      M.upd fun s => s.modTile env.t fun x => { x with kv := x.kv ++ [k] }
      pure { c with dir := { c.dir with tailState := 1, tailTile := own } }
    else
      beginSpill env p b im
      let dir : KvDir := { c.dir with tailState := 2, tailTile := own }
      writeDva env (p.h.dirAt p.plane + 20) dir.high 2
      pure { c with spilled := true, dir := dir }

/-- Place a token: in the slot, or in memory where its block is spilled (R224 step 3, R225). -/
def placeToken (env : Env) (p : Plane) (b i : Nat) (tok : List Byte) : M Unit := do
  let x := (← get).tile env.t
  match x.tailSlot p.pt p.plane p.h.seqId with
  | some k =>
    M.upd fun s => s.modTile env.t fun x =>
      (x.act 20 tok.length).setTail { k with image := p.h.place k.image i tok, count := max k.count (i + 1) }
  | none =>
    match x.spillOf p b with
    | none => pure ()
    | some sp =>
      let pieces := cutToken (p.h.places i) tok
      writePieces env p.h { dva := sp.dva, addr := sp.addr, leaf := sp.leaf, mirrored := sp.mirrored } pieces
      M.upd fun s => s.modTile env.t fun x => { x with spillWrites := x.spillWrites + BitVec.ofNat 32 pieces.length }

/-- The token that fills a block sends its image to memory and frees the tail (R224 step 4). -/
def finishBlock (env : Env) (p : Plane) (b : Nat) (c : Commit) : M Commit := do
  let x := (← get).tile env.t
  let clear : KvDir := { c.dir with tailState := 0, tailTile := 0 }
  match x.tailSlot p.pt p.plane p.h.seqId with
  | some k =>
    writeImage env p.h k.image_ k.image
    M.upd fun s => s.modTile env.t fun x =>
      { x.freeKv p.pt p.plane p.h.seqId false with flushBlocks := x.flushBlocks + 1 }
    writeDir env p.h p.plane clear
    pure { c with dir := clear, flushed := true }
  | none =>
    M.upd fun s => s.modTile env.t fun x => { x with spills := x.spills.filter fun k => !(k.pt = p.pt && k.plane = p.plane && k.block = b) }
    writeDir env p.h p.plane clear
    pure { c with dir := clear }

/-- Commit one token; the directory shows it before the next (R224). -/
def commitOne (env : Env) (p : Plane) (c : Commit) (tok : Nat → List Byte) : M Commit := do
  let b := c.dir.len / p.h.t
  let i := c.dir.len % p.h.t
  let c ← secureTail env p c b i
  placeToken env p b i (tok c.dir.len)
  let c := { c with dir := { c.dir with len := c.dir.len + 1 }, applied := c.applied + 1 }
  writeDir env p.h p.plane c.dir
  if i + 1 = p.h.t then finishBlock env p b c else pure c

/-- Commit tokens until one fails; what was committed stays, with what the failed token had begun (R87, R224, R225). -/
def commitAll (env : Env) (p : Plane) : List (Nat → List Byte) → Commit → M (Commit × Option Stop)
  | [], c => pure (c, none)
  | tok :: r, c => do
    let x := (← get).tile env.t
    match ← EStateM.tryCatch (do pure (Except.ok (← commitOne env p c tok))) fun (e : Stop) => pure (Except.error e) with
    | .ok c' => commitAll env p r c'
    | .error e =>
      if e.need.isSome then throw e
      else
        let d ← readDir env p.h p.plane
        let y := (← get).tile env.t
        pure ({ c with
          dir := d, applied := d.len - c.dir.len + c.applied
          spilled := c.spilled || decide (y.spillBlocks ≠ x.spillBlocks)
          flushed := c.flushed || decide (y.flushBlocks ≠ x.flushBlocks) }, some e)

/-- The directory at the start of a commit of a logical step (R224 step 1). -/
def stepBase (step : Nat) (d : KvDir) : KvDir := if d.step = step then d else { d with baseLen := d.len, step := step }

/-! ### Applying an entry at the home tile (R220, R226 to R229) -/

/-- A record (R219). -/
def recordOf (o : Outc) (applied firstPos : Nat) (spilled flushed unmirrored : Bool) : BitVec 64 :=
  w64 (o.status.toNat + o.reason.toNat * 2 ^ 8 + applied % 2048 * 2 ^ 16 + firstPos % 2 ^ 25 * 2 ^ 32
    + (if spilled then 2 ^ 57 else 0) + (if flushed then 2 ^ 58 else 0) + (if unmirrored then 2 ^ 59 else 0))

/-- Record of what was applied. -/
def Applied.record (a : Applied) : BitVec 64 := recordOf a.outc a.applied a.firstPos a.spilled a.flushed a.unmirrored

/-- Depth of candidate `i` (R226); the fuel bounds it by the 32 candidates. -/
def depthOf (parents : List Int) : Nat → Nat → Nat
  | 0, _ => 0
  | f + 1, i =>
    match parents[i]? with
    | some p => if p < 0 then 0 else depthOf parents f p.toNat + 1
    | none => 0

/-- Candidate depth. -/
def candDepth (parents : List Int) (i : Nat) : Nat := depthOf parents 33 i

/-- A byte as a signed number. -/
def signedByte (b : Byte) : Int := signedOf 8 b.toNat

/-- Slots of a path: depths ascend from 0 and each parent is the slot before (R227). -/
def isPath (parents : List Int) : Int → List Nat → Bool
  | _, [] => true
  | prev, s :: r => (parents[s]? = some prev) && isPath parents s r

/-- Token `i` of an entry's rows, K rows then V rows, quantised at a position. -/
def rowToken (h : KvHeader) (tokens : Nat) (rows : List Byte) (i pos : Nat) : List Byte :=
  let at_ := fun (n : Nat) => (rows.drop (n * h.rowBytes)).take h.rowBytes
  kvToken h pos (bf16Heads h (at_ i)) (bf16Heads h (at_ (tokens + i)))

/-- Token `i` of bytes that are quantised already. -/
def storedToken (h : KvHeader) (rows : List Byte) (i : Nat) : List Byte := (rows.drop (i * h.tokenBytes)).take h.tokenBytes

/-- The pages of a block are mirrored: the slot that holds it, its spill or its entry says so; a block that cannot be resolved says no. -/
def blockMirrored (env : Env) (p : Plane) (b : Nat) : M Bool := do
  let x := (← get).tile env.t
  match (x.tailSlot p.pt p.plane p.h.seqId).filter fun k => k.block = b, x.spillOf p b with
  | some k, _ => pure k.mirrored
  | none, some sp => pure sp.mirrored
  | none, none => M.peek false do pure (← resolveImage env p.h p.plane b).mirrored

/-- Blocks that `n` tokens from a length on go to. -/
def KvHeader.blocksOf (h : KvHeader) (len n : Nat) : List Nat :=
  if n = 0 then [] else (List.range ((len + n - 1) / h.t - len / h.t + 1)).map (len / h.t + ·)

/-- A commit goes to a block whose pages are mirrored (R229). -/
def commitMirrored (env : Env) (p : Plane) (d : KvDir) (n : Nat) : M Bool := (p.h.blocksOf d.len n).anyM (blockMirrored env p)

/-- Apply a commit of tokens, with its mirroring (R224, R229, R356): what was applied before a failure goes to the twin too. -/
def applyCommit (env : Env) (p : Plane) (d : KvDir) (mirrorIt : Bool) (toks : List (Nat → List Byte)) : M Applied := do
  let sync := (← get).planeSync env.t p.pt p.plane p.h.seqId
  let env := { env with front := some sync }
  let mirrored ← if mirrorIt then commitMirrored env p d toks.length else pure false
  let s ← get
  let way : MirrorWay := if mirrored then s.planeWay sync else .both
  match way with
  | .refuse => kvRefuse St.notReady Rs.twinResync
  | way => do
    let d := stepBase env.step d
    if !toks.isEmpty then writeDva env (p.h.dirAt p.plane) d.low 2
    let (c, e) ← commitAll env p toks { dir := d }
    match e with
    | some e => M.upd fun s => s.recordFault env.t e env.slot env.ctx env.step
    | none => pure ()
    let a : Applied := { outc := (e.map fun e => outc e.status e.reason).getD {}, applied := c.applied, firstPos := d.len
                         spilled := c.spilled, flushed := c.flushed }
    if !mirrored || c.applied = 0 then pure a
    else match way with
      | .both =>
        let bytes := ((List.range c.applied).zip toks).flatMap fun q => q.2 (d.len + q.1)
        pure { a with send := some bytes }
      | .alone r =>
        if e.isSome then pure a
        else do
          writeDir env p.h p.plane { c.dir with unmirrored := true }
          pure { a with outc := outc St.partial r, unmirrored := true }
      | .refuse => pure a

/-- Fields of an append entry (R218). -/
structure AppendEntry where
  pt : BitVec 64
  plane : Nat
  tokens : Nat
  kWs : Nat
  vWs : Nat
  auxWs : Nat
  clean : Bool
  deriving DecidableEq, Repr

/-- Read the fields of an append entry. -/
def appendEntryOf (e : BitVec 256) : AppendEntry :=
  let f := fun (byte hi lo : Nat) => bitsOf e (8 * byte + hi) (8 * byte + lo)
  { pt := w64 (f 0 63 0), plane := f 8 7 0, tokens := f 10 10 0, kWs := f 12 20 0, vWs := f 16 20 0, auxWs := f 20 20 0
    clean := f 9 7 0 = 0 && f 10 15 11 = 0 && f 12 31 21 = 0 && f 16 31 21 = 0 && f 20 31 21 = 0 && f 24 63 0 = 0 }

/-- STAGE (R226). -/
def applyStage (env : Env) (p : Plane) (d : KvDir) (n : Nat) (r : AppendRows) : M Applied := do
  if d.staged ≠ 0 then kvRefuse St.rejected Rs.candExists
  if 16777216 < d.len + n then kvRefuse St.rejected Rs.tooLong
  let parents := (r.aux.take n).map signedByte
  if (List.range n).any fun i => match parents[i]? with
      | some q => q < -1 || (i : Int) ≤ q
      | none => true then kvRefuse St.rejected Rs.badParent
  let size := ceilDiv (n * p.h.tokenBytes) 2048 * 2048
  if 262144 < ((← get).tile env.t).kvUsed + size then kvRefuse St.notReady Rs.appendFull
  if r.poisoned then kvRefuse St.poisoned 0
  let image := (List.range n).flatMap fun i => rowToken p.h n r.rows i (d.len + candDepth parents i)
  M.upd fun s => s.modTile env.t fun x =>
    { x.act 20 image.length with kv := x.kv ++ [{ seqId := p.h.seqId, plane := p.plane, pt := p.pt, job := p.job, staging := true
                                                  block := 0, bytes := size, image := image, parents := parents }] }
  writeDva env (p.h.dirAt p.plane + 20) { d with staged := n }.high 2
  pure { applied := n, firstPos := d.len }

/-- ACCEPT (R227). -/
def applyAccept (env : Env) (p : Plane) (d : KvDir) (n : Nat) (r : AppendRows) : M Applied := do
  let free := fun (d : KvDir) => do
    M.upd fun s => s.modTile env.t fun x => x.freeKv p.pt p.plane p.h.seqId true
    writeDva env (p.h.dirAt p.plane + 20) { d with staged := 0 }.high 2
  if d.staged = 0 then kvRefuse St.rejected Rs.noCand
  match ((← get).tile env.t).stagingSlot p.pt p.plane p.h.seqId with
  | none =>
    if n ≠ 0 then kvRefuse St.rejected Rs.noCand
    free d
    pure { firstPos := d.len }
  | some k =>
    if 16777216 < d.len + n then kvRefuse St.rejected Rs.tooLong
    if r.poisoned then kvRefuse St.poisoned 0
    let slots := (r.aux.take n).map BitVec.toNat
    if !isPath k.parents (-1) slots then kvRefuse St.rejected Rs.badPath
    let a ← applyCommit env p d true (slots.map fun i => fun _ => storedToken p.h k.image i)
    if a.outc.status = St.ok || a.outc.status = St.partial then free (← readDir env p.h p.plane)
    pure a

/-- COMMIT, at its own home or as the twin's (R224, R355). -/
def applyEntryCommit (env : Env) (p : Plane) (d : KvDir) (n : Nat) (r : AppendRows) : M Applied := do
  let part := fun (m : Nat) => (List.range (r.upTo.getD m)).drop r.since
  match r.mirrored with
  | some pos =>
    if d.len ≠ pos + r.since then kvRefuse St.notReady Rs.twinDiverged
    applyCommit env p d false ((part (r.rows.length / max 1 p.h.tokenBytes)).map fun i => fun _ => storedToken p.h r.rows i)
  | none =>
    if d.staged ≠ 0 then kvRefuse St.rejected Rs.candExists
    if 16777216 + r.since < d.len + n then kvRefuse St.rejected Rs.tooLong
    if r.poisoned then kvRefuse St.poisoned 0
    applyCommit env p d true ((part n).map fun i => rowToken p.h n r.rows i)

/-- A tile holds a plane's tail, in its buffer or spilled, and has it in sync with the twin (R366). -/
def Tile.tailSync (x : Tile) (p : Plane) : Bool :=
  (x.tailSlot p.pt p.plane p.h.seqId).any (·.inSync) || (x.spills.any fun k => k.pt = p.pt && k.plane = p.plane && k.inSync)

/-- The tail of a block held here has the tokens of a forwarded image: in the plane's slot, or in memory where it is spilled (R359).
An image that cannot be read is no equal one. -/
def sameTail (env : Env) (p : Plane) (b n : Nat) (image : List Byte) : M Bool := do
  let x := (← get).tile env.t
  let own ← match x.tailSlot p.pt p.plane p.h.seqId, x.spillOf p b with
    | some k, _ => pure (if k.block = b && !k.bad then some k.image else none)
    | none, some k =>
      EStateM.tryCatch (do pure (some (← readGlobal env k.addr p.h.imageSize k.dva 1))) fun (e : Stop) => do
        if e.need.isSome then throw e
        pure none
    | none, none => pure none
  pure (own.any fun o => (List.range n).all fun i => p.h.token o i = p.h.token image i)

/-- A forwarded or installed tail at the twin's tile (R359, R366). -/
def applyTail (env : Env) (p : Plane) (d : KvDir) (r : AppendRows) : M Applied := do
  let f := kvDirOf (r.rows.take 32)
  let image := r.rows.drop 32
  let b := f.len / p.h.t
  let x := (← get).tile env.t
  let install := (← get).twin.state = .target && !x.tailSync p
  let same ← if install || d.len ≠ f.len then pure false else sameTail env p b (f.len % p.h.t) image
  if same then pure {}
  else if !install && (d.len < b * p.h.t || f.len < d.len) then kvRefuse St.notReady Rs.twinDiverged
  else
    let me := (← get).tileId env.t
    let state ← if image.isEmpty then pure 2
      else do
        let im ← resolveImage env p.h p.plane b
        M.upd fun s => s.modTile env.t fun x => x.freeKv p.pt p.plane p.h.seqId false
        if p.h.imageSize ≤ ((← get).tile env.t).tailRoom then
          M.upd fun s => s.modTile env.t fun x => { x with
            kv := x.kv ++ [{ seqId := p.h.seqId, plane := p.plane, pt := p.pt, job := p.job, staging := false, block := b
                             bytes := p.h.imageSize, image := padTo p.h.imageSize image, addr := im.addr, mirrored := im.mirrored
                             dva := im.dva, leaf := im.leaf, count := f.len % p.h.t, inSync := true }] }
          pure 1
        else do
          writeImage env p.h im image
          beginSpill env p b im
          pure 2
    writeDir env p.h p.plane { d with len := f.len, baseLen := f.baseLen, step := f.step, tailTile := me, tailState := state }
    M.upd fun s => ({ s with twin := { s.twin with tailRepairs := s.twin.tailRepairs + 1 } } : State).raise Ev.twinTailRepaired me
      [w64 me.toNat, w64 p.h.seqId, w64 p.plane]
    pure { applied := f.len - d.len, firstPos := d.len }

/-- Apply an entry's rows at its home tile: the checks of R228 that the home makes, then the entry's mode. `bad` tells an
uncorrectable error in the slot it reads (R214). -/
def applyRows (bad : Bool) (env : Env) (r : AppendRows) : M Applied := do
  let a := appendEntryOf r.entry
  let (h, pkg) ← readHeader env a.pt
  if pkg ≠ (← get).self then kvRefuse St.rejected Rs.kvHeader
  if h.planes ≤ a.plane then kvRefuse St.rejected Rs.planeRange
  let d ← readDir env h a.plane
  let p : Plane := { h := h, pt := a.pt, plane := a.plane, job := env.job }
  if r.tail then applyTail env p d r
  else
    if r.mirrored.isNone && d.tailTile ≠ 0 && d.tailTile ≠ (← get).tileId env.t then kvRefuse St.rejected Rs.homeMoved
    if bad || (((← get).tile env.t).tailSlot a.pt a.plane h.seqId).any (·.bad) then
      M.upd fun s => s.modTile env.t fun x => x.spoilKv a.pt a.plane h.seqId
      kvRefuse St.poisoned 0
    let front := { env with front := some ((← get).planeSync env.t a.pt a.plane h.seqId) }
    match r.mode with
    | 0 => applyEntryCommit env p d a.tokens r
    | 1 => applyStage front p d a.tokens r
    | _ => applyAccept front p d a.tokens r

/-! ### KV_APPEND at the issuing tile (R217 to R220) -/

/-- An entry that may go: its home and what travels. -/
structure AppendGo where
  home : BitVec 32
  rows : List Byte
  aux : List Byte
  deriving DecidableEq, Repr

/-- Token counts a mode allows (R218). -/
def tokensOk (mode n : Nat) : Bool :=
  match mode with
  | 0 => 1 ≤ n && n ≤ 1024
  | 1 => 1 ≤ n && n ≤ 32
  | _ => n ≤ 32

/-- The issuing tile's part of an entry: its checks, in the order of R228, and its source rows (R220). -/
def issueEntry (env : Env) (mode : Nat) (e : BitVec 256) : M AppendGo := do
  let a := appendEntryOf e
  let (h, pkg) ← readHeader env a.pt
  if h.planes ≤ a.plane then kvRefuse St.rejected Rs.planeRange
  let d ← readDir env h a.plane
  if unitValid d.home && unitLevel d.home = 1 && unitPkg d.home ≠ pkg then kvRefuse St.rejected Rs.kvHeader
  if !a.clean || !tokensOk mode a.tokens then kvRefuse St.rejected Rs.badField
  if !unitValid d.home || unitLevel d.home ≠ 1 then kvRefuse St.rejected Rs.badUnit
  let s ← get
  if (pkg = s.self && !s.tileUp (unitTileRef d.home)) then kvRefuse St.notReady 0
  let n := a.tokens * h.rowBytes
  if mode = 2 then
    if !wsFits a.auxWs a.tokens then kvRefuse St.range Rs.wsBounds
    pure { home := d.home, rows := [], aux := ← wsRead env.t a.auxWs a.tokens }
  else
    if !wsFits a.kWs n || !wsFits a.vWs n || (mode = 1 && !wsFits a.auxWs a.tokens) then kvRefuse St.range Rs.wsBounds
    let k ← wsRead env.t a.kWs n
    let v ← wsRead env.t a.vWs n
    let aux ← if mode = 1 then wsRead env.t a.auxWs a.tokens else pure []
    pure { home := d.home, rows := k ++ v, aux := aux }

/-- An entry that stops: its outcome; a range fault also fills the tile's record. -/
def entryTry (env : Env) (i : Nat) (m : M AppendGo) : M (Except Outc AppendGo) :=
  EStateM.tryCatch (do pure (.ok (← m))) fun (e : Stop) => do
    if e.need.isSome then throw e
    M.upd fun s => s.recordFault env.t e i env.ctx env.step
    pure (.error (outc e.status e.reason))

/-- Every entry of a KV_APPEND: what goes, or why not. -/
def issueAll (d : DescSlot) (env : Env) (mode : Nat) : M (List (BitVec 256 × Except Outc AppendGo)) := do
  let list := fld d.desc 16 63 0
  (List.range (fld d.desc 32 12 0)).mapM fun i => do
    let e := BitVec.ofNat 256 (natLE (← readDva env (w64 (list + 32 * i)) 32 1))
    pure (e, ← entryTry env env.slot (issueEntry env mode e))

/-- A fragment of a forwarded append (R333): the part of the entry's bytes from an offset. -/
def fragmentMsg (s : State) (t : TileRef) (dst : Nat) (job : BitVec 16) (step hi hi2 : Nat) (bytes : List Byte) (off : Nat) : Msg :=
  let part := (bytes.drop off).take 8192
  { op := Op.appendFwd, ordered := true, dst := dst, job := job, srcUnit := s.tileId t, arrStep := step
    operand := w64 (off + hi * 2 ^ 32), operand2 := w64 (bytes.length + hi2 * 2 ^ 32), length := part.length, data := part }

/-- Send an entry's bytes to another package in fragments under one transaction (R333). -/
def State.sendFragments (s : State) (t : TileRef) (dst : Nat) (job : BitVec 16) (step hi hi2 : Nat) (bytes : List Byte)
    (user : TxnUser) : State :=
  let n := s.freshTxn
  let m := fragmentMsg s t dst job step hi hi2 bytes 0
  let s := s.requestOf t m user
  (List.range (ceilDiv bytes.length 8192 - 1)).foldl (fun s k =>
    let m : Msg := { fragmentMsg s t dst job step hi hi2 bytes ((k + 1) * 8192) with txn := n }
    (s.countSent t m).sendMsg m) s

/-- The bytes of an entry. -/
def entryBytes (e : BitVec 256) : List Byte := bytesLE 32 e.toNat

/-- Every entry of a KV_APPEND has its outcome: the records go to `RESULT` and the descriptor ends under R84 (R219). -/
def State.finishAppend (s : State) (t : TileRef) (i : Nat) : State :=
  match (s.tile t).slot i with
  | none => s
  | some d =>
    let n := fld d.desc 32 12 0
    if d.applied || d.entries.length < n then s
    else
      let env := d.env t i
      let all := (List.range n).map fun k => kvGet d.entries k {}
      let bytes := all.flatMap fun o => bytesLE 8 o.map.toNat
      let o := combine n ((List.range n).zip (all.map fun o => { o with map := 0 }))
      let r := (writeDva env (w64 (fld d.desc 24 63 0)) bytes 2).result s
      let clear := fun (s : State) => s.modSlot t i fun d => { d with entries := [] }
      match r with
      | (.ok _, s') => (clear s').conclude t i { outc := o }
      | (.error e, s') => (clear (s'.recordFault t e i env.ctx env.step)).conclude t i { outc := outc e.status e.reason }

/-- An entry of a KV_APPEND has its outcome (R219). -/
def State.entryDone (s : State) (t : TileRef) (i entry : Nat) (o : Outc) (record : BitVec 64) : State :=
  (s.modSlot t i fun d => { d with entries := kvPut d.entries entry { o with map := record } }).finishAppend t i

/-- Send off one entry: over the meshes to its home, or forwarded to another package; a refused one is done. One whose source
rows cannot be read is so marked, and one of another package's is done here (R148, R228). -/
def State.sendEntry (s : State) (t : TileRef) (i mode : Nat) (d : DescSlot) (bad : Bool) (n : Nat)
    (e : BitVec 256 × Except Outc AppendGo) : State :=
  match e.2 with
  | .error o => s.entryDone t i n o (recordOf o 0 0 false false false)
  | .ok g =>
    if unitPkg g.home = s.self then
      let home := unitTileRef g.home
      let r : AppendRows := { entry := e.1, entryNo := n, mode := mode, issuer := t, slot := i, job := d.job, step := d.step
                              rows := g.rows, aux := g.aux, poisoned := bad }
      s.meshSendAfter home (meshDelay t home + s.pathTimeTo t (pageAddr home 0) (g.rows.length + g.aux.length)) (.rows r) fun b =>
        match b with
        | .rows q => q.remote.isNone && q.issuer = t
        | _ => false
    else if bad then s.entryDone t i n (outc St.poisoned 0) (recordOf (outc St.poisoned 0) 0 0 false false false)
    else
      match s.pathStop (unitPkg g.home) with
      | some (st, rs) => s.entryDone t i n (outc st rs) (recordOf (outc st rs) 0 0 false false false)
      | none =>
        s.sendFragments t (unitPkg g.home) d.job d.step 0 0 (entryBytes e.1 ++ g.rows ++ g.aux) (.append t i n)

/-- KV_APPEND in one of its modes (R217, R220). The place of an error in the work store is the number of the entry whose
source it is (R148). -/
def State.runAppend (s : State) (t : TileRef) (i mode : Nat) (k : StoreErr) : State :=
  match s.runnable t i 0x30 with
  | none => s
  | some d =>
    if fld d.desc 34 1 0 ≠ mode || !d.entries.isEmpty then s
    else
      let env := d.env t i
      let s := s.countStore t k
      match (issueAll d env mode).result s with
      | (.error e, s') =>
        match e.need with
        | some n => s.askFor env s' n
        | none => (s'.recordFault t e i env.ctx env.step).conclude t i { outc := outc e.status e.reason }
      | (.ok l, s') =>
        let s := s'.modTile t fun x => x.dequeue i
        let s := s.modSlot t i fun d => { d with ph := .running, split := true }
        ((List.range l.length).zip l).foldl (fun (s : State) e => s.sendEntry t i mode d (k.bad = some e.1) e.1 e.2) s

/-- COMMIT (R224). -/
def execCommit (t : TileRef) (slot : Nat) (e : StoreErr) (s : State) : Host.Outcome State Fault Refusal :=
  .next (s.runAppend t slot 0 e)

/-- STAGE (R226). -/
def execStage (t : TileRef) (slot : Nat) (e : StoreErr) (s : State) : Host.Outcome State Fault Refusal :=
  .next (s.runAppend t slot 1 e)

/-- ACCEPT (R227). -/
def execAccept (t : TileRef) (slot : Nat) (e : StoreErr) (s : State) : Host.Outcome State Fault Refusal :=
  .next (s.runAppend t slot 2 e)

/-! ### Arrival at the home tile (R220) -/

/-- Give an entry's outcome to its issuer: a slot of this package, or the package that forwarded it (R333). -/
def State.answerEntry (s : State) (r : AppendRows) (o : Outc) (record : BitVec 64) : State :=
  match r.remote with
  | none => s.entryDone r.issuer r.slot r.entryNo o record
  | some (pkg, txn, unit) =>
    s.respond { op := Op.appendFwd + 0x80, dst := pkg, txn := txn, srcUnit := unit, status := o.status, reason := o.reason
                operand := record, vc := 1 }

/-- Set `UNMIRRORED` of a plane (R229, R359). -/
def markUnmirrored (env : Env) (pt : BitVec 64) (plane : Nat) : M Unit := do
  let (h, _) ← readHeader env pt
  let d ← readDir env h plane
  writeDva env (h.dirAt plane + 20) { d with unmirrored := true }.high 2

/-- An entry with the number of tokens that were applied (R355). -/
def entryOf (e : BitVec 256) (tokens : Nat) : BitVec 256 := BitVec.ofNat 256 (e.toNat - bitsOf e 90 80 * 2 ^ 80 + tokens % 2 ^ 11 * 2 ^ 80)

/-- Outcome of an entry that the twin does not hold: a local failure stays (R229). -/
def Outc.unmirrored (o : Outc) (reason : Code) : Outc := if o.good then outc St.partial reason else o

/-- Send a commit to the twin's tile of the same number (R355). -/
def State.mirrorCommit (s : State) (t : TileRef) (r : AppendRows) (a : Applied) (bytes : List Byte) : State :=
  let twin := s.self ^^^ 1
  let keep : AppendRows := { r with rows := [], aux := [] }
  if (s.pathStop twin).isSome then
    if !a.outc.good then s.answerEntry keep a.outc a.record
    else
    let o := a.outc.unmirrored Rs.noResponse
    let e := appendEntryOf r.entry
    let s := ((markUnmirrored (s.frontEnv t r.job r.step true) e.pt e.plane).result s.countPartial).2
    s.answerEntry keep o (recordOf o a.applied a.firstPos a.spilled a.flushed true)
  else
    s.sendFragments t twin r.job r.step s.twin.gen.toNat (a.firstPos % 2 ^ 25 + 2 ^ 25) (entryBytes (entryOf r.entry a.applied) ++ bytes)
      (.commit t keep a.record)

/-- What the earlier tokens of an arriving entry came to (R333). -/
def State.partOf (s : State) (r : AppendRows) : Option Applied :=
  match r.remote with
  | some (pkg, txn, _) => (s.cornis.appendParts.find? fun e => e.1 = (pkg, txn)).map Prod.snd
  | none => none

/-- The tokens of two parts of an entry. -/
def Applied.join (a b : Applied) : Applied :=
  { outc := if b.outc.status = St.ok then a.outc else b.outc, applied := a.applied + b.applied, firstPos := a.firstPos
    spilled := a.spilled || b.spilled, flushed := a.flushed || b.flushed, unmirrored := a.unmirrored || b.unmirrored
    send := if a.send.isNone then b.send else some (a.send.getD [] ++ b.send.getD []) }

/-- A part of an entry has been applied: the entry is kept until its last part, then mirrored or answered (R229, R333). -/
def State.partDone (s : State) (t : TileRef) (r : AppendRows) (a : Applied) : State :=
  let key := (r.remote.map fun e => (e.1, e.2.1)).getD (0, 0)
  let rest := s.cornis.appendParts.filter fun e => e.1 ≠ key
  if !r.last then { s with cornis := { s.cornis with appendParts := rest ++ [(key, a)] } }
  else
    let s : State := if r.since = 0 then s else { s with cornis := { s.cornis with appendParts := rest } }
    match a.send with
    | some bytes => s.mirrorCommit t r a bytes
    | none => (if a.unmirrored then s.countPartial else s).answerEntry r a.outc a.record

/-- Apply what has arrived for a tile (R220): the tokens of a forwarded commit as they come, up to the first that fails (R87, R333). -/
def State.rowsArrive (s : State) (t : TileRef) (r : AppendRows) (again : State) (bad : Bool) : State :=
  let before := if r.since = 0 then none else s.partOf r
  let done := fun (s : State) (a : Applied) => s.partDone t r ((before.map (·.join a)).getD a)
  if before.any fun a => a.outc.failed then s.partDone t r (before.getD {})
  else if !s.tileUp t then done s { outc := outc St.notReady 0 }
  else
    let env := s.frontEnv t r.job r.step true
    match (applyRows bad env r).result s with
    | (.ok a, s') => done (s'.modTile t fun x => { x with frontFetched := [], frontFails := [] }) a
    | (.error e, s') =>
      match e.need with
      | some n =>
        let x := again.freshTxn
        (again.askNeed env n (.front t)).modTile t fun y => { y with frontWaits := y.frontWaits ++ [x] }
      | none =>
        let s := (s'.recordFault t e r.slot env.ctx env.step).modTile t fun x => { x with frontFetched := [], frontFails := [] }
        done s { outc := outc e.status e.reason }

/-- APPEND_ROWS_ARRIVE (R220): the entry that arrived first is applied; it waits while the front end awaits a read. An
uncorrectable error is one in the plane's slot of the append buffer (R214). -/
def execAppendRowsArrive (t : TileRef) (e : StoreErr) (s : State) : Host.Outcome State Fault Refusal :=
  match meshTake t (fun b => match b with
    | .rows r => some r
    | _ => none) s.mesh with
  | none => .next s
  | some (r, m, rest) =>
    if !s.clocksRun || !(s.tile t).frontWaits.isEmpty then .next s
    else .next ((({ s with mesh := rest } : State).advanceTo m.due).rowsArrive t r (s.advanceTo m.due) e.bad.isSome)

/-! ### Commands (R250) -/

/-- Run accesses of Brass for a command, in a tile's name: the outcome, or what another package must answer first, and the state. -/
def kvRun (m : M Outc) (s : State) : Except Need Outc × State :=
  match m.result s with
  | (.ok o, s') => (.ok o, s')
  | (.error e, s') =>
    match e.need with
    | some n => (.error n, s')
    | none => (.ok (outc e.status e.reason), s')

/-- The planes a command names: one, or all for 0xFF (R250). -/
def planesOf (h : KvHeader) (plane : Nat) : List Nat := if plane = 255 then List.range h.planes else [plane]

/-- Tile that a plane's command is applied at (R250). -/
def KvDir.at_ (d : KvDir) : BitVec 32 := if d.tailTile = 0 then d.home else d.tailTile

/-- The plane's tile must be an own tile (R207, R228). -/
def kvTile (d : KvDir) : M TileRef := do
  let u := d.at_
  if !unitValid u || unitLevel u ≠ 1 then kvRefuse St.rejected Rs.badUnit
  if unitPkg u ≠ (← get).self then kvRefuse St.rejected Rs.kvHeader
  pure (unitTileRef u)

/-- KV_FLUSH of one plane (R225, R250); a slot in which an uncorrectable error was met is not written (R214). -/
def flushPlane (h : KvHeader) (pt : BitVec 64) (plane : Nat) (env : Env) : M Outc := do
  if h.planes ≤ plane then kvRefuse St.rejected Rs.planeRange
  let d ← readDir env h plane
  if d.staged ≠ 0 then kvRefuse St.rejected Rs.candExists
  let t ← kvTile d
  if !(← get).tileUp t then kvRefuse St.notReady 0
  let env := { env with t := t, front := some ((← get).planeSync t pt plane h.seqId) }
  match ((← get).tile t).tailSlot pt plane h.seqId with
  | some k => if k.bad then kvRefuse St.poisoned 0 else flushTail env h k
  | none => pure ()
  M.upd fun s => s.modTile t fun x =>
    { x.freeKv pt plane h.seqId false with spills := x.spills.filter fun k => !(k.pt = pt && k.plane = plane) }
  writeDva env (h.dirAt plane + 20) { d with tailState := 0, tailTile := 0 }.high 2
  pure {}

/-- KV_RELEASE of one plane (R250). -/
def releasePlane (h : KvHeader) (pt : BitVec 64) (plane : Nat) (env : Env) : M Outc := do
  if h.planes ≤ plane then kvRefuse St.rejected Rs.planeRange
  let d ← readDir env h plane
  let t ← kvTile d
  if !(← get).tileUp t then kvRefuse St.notReady 0
  let env := { env with t := t, front := some ((← get).planeSync t pt plane h.seqId) }
  M.upd fun s => s.modTile t fun x =>
    { (x.freeKv pt plane h.seqId false).freeKv pt plane h.seqId true with
      spills := x.spills.filter fun k => !(k.pt = pt && k.plane = plane) }
  writeDva env (h.dirAt plane + 20) { d with tailState := 0, tailTile := 0, staged := 0 }.high 2
  pure {}

/-- The agent a sequence command reads its table as: a lowest tile in service, under context 0 (log entry 9), with what has come for the
command from other packages. -/
def State.kvAgent (s : State) (c : Cmd) : Env :=
  let z := s.cmdSlot c
  { s.frontEnv (s.tilesUp.head?.getD 0) 0 s.logicalStep true with
    fetched := (z.map (·.fetched)).getD [], readFails := (z.map (·.readFails)).getD [] }

/-- Ask another package for what a command needs, unless it is asked already. -/
def State.askCmdRead (s : State) (c : Cmd) (env : Env) (n : Need) : State :=
  if s.cornis.txns.any fun x => x.user = .cmdRead c.ring c.tag then s
  else s.askNeed env n (.cmdRead c.ring c.tag)

/-- Package of the table that a command names (R207). -/
def tablePkg (env : Env) (pt : BitVec 64) : M Nat := do pure (pkgOf ((← atDva pt (translate env.t env.ctx pt 3)).global pt))

/-- Run a sequence command where its table lies: here, or by CONTROL in the package that holds it (R68, R207, R250). -/
def State.atTable (s : State) (c : Cmd) (here : State → State) : State :=
  match (tablePkg (s.kvAgent c) c.p0).result s with
  | (.error e, s') => s'.finishWith c e.status e.reason
  | (.ok pkg, s') =>
    if pkg = s.self then here s'
    else if ((s.cmdSlot c).map fun z => !z.members.isEmpty).getD true then s
    else s'.passOn c pkg []

/-- The pass of a sequence command over planes: the state and the outcomes so far, or what must come from another package first. -/
def planePass (act : Nat → M Outc) : List Nat → State → List (Nat × Outc) → Except Need (List (Nat × Outc)) × State
  | [], s, acc => (.ok acc, s)
  | k :: r, s, acc =>
    match kvRun (act k) s with
    | (.ok o, s') => planePass act r s' (acc ++ [(k, o)])
    | (.error n, s') => (.error n, s')

/-- Replicate a sequence command over planes (R250): a pass that must wait for another package leaves no trace. -/
def State.overPlanes (s : State) (c : Cmd) (act : KvHeader → BitVec 64 → Nat → Env → M Outc) : State :=
  s.atTable c fun s =>
    let env := s.kvAgent c
    match (readHeader env c.p0).result s with
    | (.error e, s') => s'.finishWith c e.status e.reason
    | (.ok (h, _), s') =>
      match planePass (fun k => act h c.p0 k env) (planesOf h c.p1.toNat) s' [] with
      | (.error n, _) => s.askCmdRead c env n
      | (.ok l, s') =>
        let o := if c.p1.toNat = 255 then combine h.planes l else ((l.head?).map Prod.snd).getD {}
        s'.finish c { status := o.status, reason := o.reason, map := o.map }

/-- KV_FLUSH (R250). -/
def execKvFlush (c : Cmd) (s : State) : Host.Outcome State Fault Refusal :=
  .next (s.onCmd 0x0401 c fun s => s.overPlanes c flushPlane)

/-- KV_RELEASE (R250). -/
def execKvRelease (c : Cmd) (s : State) : Host.Outcome State Fault Refusal :=
  .next (s.onCmd 0x0402 c fun s => s.overPlanes c releasePlane)

/-- What KV_TAIL_READ returns (R250): the directory entry, the tail image, and each candidate's parent and bytes. -/
def tailData (pt : BitVec 64) (plane : Nat) (env : Env) : M (List Byte) := do
  let (h, _) ← readHeader env pt
  if h.planes ≤ plane then kvRefuse St.rejected Rs.planeRange
  let bytes ← readDva env (h.dirAt plane) 32 3
  if !kvDirClean bytes then kvRefuse St.rejected Rs.badField
  let t ← kvTile (kvDirOf bytes)
  let x := (← get).tile t
  if (x.tailSlot pt plane h.seqId).any (·.bad) then kvRefuse St.poisoned 0
  let tail := ((x.tailSlot pt plane h.seqId).map fun k => k.image).getD []
  let cands := match x.stagingSlot pt plane h.seqId with
    | none => []
    | some k => ((List.range k.parents.length).zip k.parents).flatMap fun e =>
      bytesLE 1 (e.2 % 256).toNat ++ storedToken h k.image e.1
  pure (bytes ++ tail ++ cands)

/-- KV_TAIL_READ (R250). -/
def execKvTailRead (c : Cmd) (s : State) : Host.Outcome State Fault Refusal :=
  .next (s.onCmd 0x0403 c fun s => s.atTable c fun s =>
    match (tailData c.p0 c.p1.toNat (s.kvAgent c)).result s with
    | (.ok l, s') => s'.finishData c l { result0 := w64 l.length }
    | (.error e, s') => s'.finishWith c e.status e.reason)

/-- A record of KV_BUFFER_READ: `SEQ_ID`, plane, block, kind and bytes (R250), 16 bytes. -/
def KvSlot.bufferRecord (k : KvSlot) : List Byte :=
  bytesLE 4 k.seqId ++ bytesLE 1 k.plane ++ bytesLE 1 (if k.staging then 1 else 0) ++ bytesLE 2 0 ++ bytesLE 4 k.block
    ++ bytesLE 4 k.bytes

/-- KV_BUFFER_READ (R250). -/
def execKvBufferRead (c : Cmd) (s : State) : Host.Outcome State Fault Refusal :=
  .next (s.onCmd 0x0404 c fun s => s.runReplicated c fun s u =>
    let r := State.replicate (fun s _ => (s, ({} : Outc))) (s.depth + 2) s u
    let tiles := (s.tilesReached (s.depth + 2) u).filter fun t => s.tileUp t
    (s, { o := if unitLevel u = 1 && !s.tileUp (unitTileRef u) then outc St.notReady 0 else r.2.1, parts := r.2.2
          data := tiles.flatMap fun t => (s.tile t).kv.flatMap KvSlot.bufferRecord }))

end Sys2Proof.Machine
end

