-- ==== Sys2Proof/Machine/Attention.lean ====
section
/-! DEFINITION. Sys2Proof/Machine/Attention.lean: attention over paged caches: the lead and its items (R231 to R235, R238 to
R245), their arithmetic (R236, R237), and MERGE (R247, R248). -/

namespace Sys2Proof.Machine

/-! ### The descriptor and its batch (R231, R232) -/

/-- Fields of an ATTENTION. -/
structure AttnArgs where
  batch : BitVec 64
  part : BitVec 64
  stride : Nat
  count : Nat
  partMax : Nat
  group : Nat
  fp8 : Bool
  scale : BitVec 32
  window : Nat
  deriving DecidableEq, Repr

/-- Read the fields of an ATTENTION (R231). -/
def attnArgs (d : BitVec 512) : AttnArgs :=
  { batch := w64 (fld d 16 63 0), part := w64 (fld d 24 63 0), stride := fld d 32 31 0, count := fld d 36 12 0
    partMax := fld d 38 8 0, group := fld d 40 6 0, fp8 := fld d 40 7 7 = 1, scale := BitVec.ofNat 32 (fld d 44 31 0)
    window := fld d 48 23 0 }

/-- Fields of a batch entry. -/
structure BatchEntry where
  pt : BitVec 64
  plane : Nat
  new : Nat
  keyStart : Nat
  q : BitVec 64
  clean : Bool
  deriving DecidableEq, Repr

/-- Read the fields of a batch entry (R232). -/
def batchEntryOf (e : BitVec 256) : BatchEntry :=
  let f := fun (byte hi lo : Nat) => bitsOf e (8 * byte + hi) (8 * byte + lo)
  { pt := w64 (f 0 63 0), plane := f 8 7 0, new := f 10 12 0, keyStart := f 12 24 0, q := w64 (f 16 63 0)
    clean := f 9 7 0 = 0 && f 10 15 13 = 0 && f 12 31 25 = 0 && f 24 63 0 = 0 }

/-- Bytes of a slot (R242). -/
def slotBytes (new qheads d : Nat) : Nat := ceilDiv (new * qheads * (4 * d + 16)) 2048 * 2048

/-- Bucket of a number of keys (R238). -/
def bucketOf (keys : Nat) : Nat :=
  if keys ≤ 4096 then 0 else if keys ≤ 16384 then 1 else if keys ≤ 65536 then 2 else if keys ≤ 262144 then 3
  else if keys ≤ 1048576 then 4 else if keys ≤ 4194304 then 5 else 6

/-! ### Visible keys (R233 to R235) -/

/-- Position of query row `i`: `Lb + i`, under staging `Lb + depth(i)` (R233). -/
def rowPos (lb : Nat) (parents : List Int) (i : Nat) : Nat := lb + if parents.isEmpty then i else candDepth parents i

/-- R234: a row at position `p` admits the key at position `j`. -/
def admits (keyStart window p j : Nat) : Bool := j ≤ p && keyStart ≤ j && (window = 0 || p - j < window)

/-- Candidate `c` is candidate `i` or one of its ancestors (R235); the fuel bounds the path by the 32 candidates. -/
def ancestor (parents : List Int) (c : Nat) : Nat → Nat → Bool
  | 0, _ => false
  | f + 1, i =>
    i = c || match parents[i]? with
      | some p => if p < 0 then false else ancestor parents c f p.toNat
      | none => false

/-- First key that any row may admit: the first row reaches furthest back. -/
def firstKey (keyStart window lb : Nat) : Nat := max keyStart (if window = 0 then 0 else lb + 1 - window)

/-- Keys of [lo, hi) at or after the first that may be admitted. -/
def keysIn (first lo hi : Nat) : Nat := hi - max lo first

/-! ### Sequences and items at the lead (R233, R238, R239) -/

/-- A sequence as the lead finds it, and why it is refused, if it is. -/
structure SeqPlan where
  refused : Option Outc := none
  seq : Nat
  entry : BitVec 256
  header : BitVec 512
  h : KvHeader
  home : BitVec 32
  tail : BitVec 32
  lb : Nat
  parents : List Int
  deriving DecidableEq, Repr

/-- A part of a sequence's memory range before it is dealt: its keys after the masks, and its owner (R238, R239). -/
structure Piece where
  kind : ItemKind
  lo : Nat
  hi : Nat
  blocks : List (Nat × BitVec 64) := []
  owner : Option (BitVec 32) := none
  keys : Nat
  deriving DecidableEq, Repr

/-- Parents that nothing here says: candidate by candidate a free one before it, or none (R226). -/
def freeParents (n : Nat) : M (List Int) :=
  (List.range n).mapM fun i => do
    let v := (← get).freeVal 8
    set v.2
    pure ((v.1.toNat % (i + 1) : Nat) - 1 : Int)

/-- Parents of a plane's staged candidates, as its home tile holds them; where the home lies in another package, or holds none, they are
free (R235; log entry 21). -/
def stagedParents (home : BitVec 32) (pt : BitVec 64) (plane seq n : Nat) : M (List Int) := do
  let s ← get
  let held := if unitPkg home = s.self then (s.tile (unitTileRef home)).stagingSlot pt plane seq else none
  match held with
  | some k => pure k.parents
  | none => freeParents n

/-- Why a sequence whose header and directory entry the lead has read is refused (R15, R208, R233, R242). -/
def seqRefusal (a : AttnArgs) (b : BatchEntry) (h : KvHeader) (pkg : Nat) (d : KvDir) (lb : Nat) : Option Outc :=
  let list := if 3 ≤ bucketOf (lb + b.new) then 16 * (lb / h.t) else 0
  if !unitValid d.home || unitLevel d.home ≠ 1 then some (outc St.rejected Rs.badUnit)
  else if d.tailTile ≠ 0 && (!unitValid d.tailTile || unitLevel d.tailTile ≠ 1) then some (outc St.rejected Rs.badUnit)
  else if unitPkg d.home ≠ pkg then some (outc St.rejected Rs.kvHeader)
  else if d.staged ≠ 0 && d.staged ≠ b.new then some (outc St.rejected Rs.newMismatch)
  else if d.staged = 0 && d.len < lb + b.new then some (outc St.notReady Rs.appendMissing)
  else if a.stride < 2048 + a.partMax * slotBytes b.new (h.heads * a.group) h.d + list then some (outc St.rejected Rs.partSmall)
  else none

/-- A sequence's stop while the lead works on it: its outcome, with a fault entered in the record (R111, R245). -/
def seqTry {α : Type} (env : Env) (m : M α) : M (Except Outc α) :=
  EStateM.tryCatch (do pure (Except.ok (← m))) fun (e : Stop) => do
    if e.need.isSome then throw e
    M.upd fun s => s.recordFault env.t e env.slot env.ctx env.step
    pure (Except.error (outc e.status e.reason))

/-- The lead reads a sequence: header, directory entry, base length (R208, R232, R233); the area must hold it (R242). One that is
refused after its header was read keeps the header's fields, with Lb as 0 where the directory entry was not read. -/
def planSequence (env : Env) (a : AttnArgs) (n : Nat) (e : BitVec 256) : M SeqPlan := do
  let b := batchEntryOf e
  let (h, pkg) ← readHeader env b.pt
  let hw := descOf (← readDva env b.pt 64 3)
  let plan : SeqPlan := { seq := n, entry := e, header := hw, h := h, home := 0, tail := 0, lb := 0, parents := [] }
  let read ← seqTry env do
    if !b.clean || b.new = 0 || 4096 < b.new then kvRefuse St.rejected Rs.badField
    if h.planes ≤ b.plane then kvRefuse St.rejected Rs.planeRange
    readDir env h b.plane
  match read with
  | .error o => pure { plan with refused := some o }
  | .ok d => do
  let lb := if d.staged = 0 && d.step = env.step then d.baseLen else d.len
  let refused := seqRefusal a b h pkg d lb
  let parents ← if d.staged = 0 || refused.isSome then pure [] else stagedParents d.home b.pt b.plane h.seqId b.new
  pure { plan with
    refused := refused, home := d.home, tail := if d.tailTile = 0 then d.home else d.tailTile, lb := lb, parents := parents }

/-- `NEW` of the sequence (R232). -/
def SeqPlan.new (p : SeqPlan) : Nat := (batchEntryOf p.entry).new
/-- Lb + `NEW`. -/
def SeqPlan.keys (p : SeqPlan) : Nat := p.lb + p.new
/-- τ (R237). -/
def SeqPlan.tau (p : SeqPlan) : Nat := p.lb / p.h.t * p.h.t
/-- Bucket (R238). -/
def SeqPlan.bucket (p : SeqPlan) : Nat := bucketOf p.keys
/-- First admitted key. -/
def SeqPlan.first (p : SeqPlan) (a : AttnArgs) : Nat := firstKey (batchEntryOf p.entry).keyStart a.window p.lb

/-- The highest position of a row. -/
def SeqPlan.lastPos (p : SeqPlan) : Nat := ((List.range p.new).map (rowPos p.lb p.parents)).foldl max 0

/-- The item at the home tile: every key for bucket 0, else the tail range; none when no key of it is admitted (R238). -/
def SeqPlan.homeKind (p : SeqPlan) : Option ItemKind :=
  if (batchEntryOf p.entry).keyStart ≤ p.lastPos then some (if p.bucket = 0 then .bucket0 else .tail) else none

/-- Admitted keys among blocks. -/
def blockKeys (t first : Nat) (l : List (Nat × BitVec 64)) : Nat := (l.map fun b => keysIn first (b.1 * t) ((b.1 + 1) * t)).sum

/-- Cut blocks without an owner into runs of consecutive blocks of at most `n` (R239). -/
def blockRuns (n : Nat) : List (Nat × BitVec 64) → List (List (Nat × BitVec 64))
  | [] => []
  | b :: r =>
    match blockRuns n r with
    | [] => [[b]]
    | g :: gs =>
      if (g.head?.map Prod.fst) = some (b.1 + 1) then (b :: g) :: gs else [b] :: g :: gs

/-- Cut long runs at `n` blocks from their start. -/
def cutRuns (n : Nat) (l : List (List (Nat × BitVec 64))) : List (List (Nat × BitVec 64)) := l.flatMap fun g => chunks (max 1 n) g.length g

/-- The placement pass: the pieces of a memory range by owner, in the order of their first blocks (R239). An entry with its Reserved field
set refuses the sequence (R10). -/
def placementPieces (env : Env) (a : AttnArgs) (p : SeqPlan) (targets : List (BitVec 32)) : M (List Piece) := do
  let n := p.tau / p.h.t
  let bytes ← readDva env (p.h.entryAt (batchEntryOf p.entry).plane 0) (16 * n) 3
  if (chunks 16 n bytes).any fun e => natLE (e.drop 12) ≠ 0 then kvRefuse St.rejected Rs.badField
  if (chunks 16 n bytes).any fun e => let o := natLE ((e.drop 8).take 4); o ≠ 0 && !unitValid (BitVec.ofNat 32 o) then
    kvRefuse St.rejected Rs.badUnit
  let all : List (Nat × BitVec 64 × BitVec 32) := ((List.range n).zip (chunks 16 n bytes)).map fun e =>
    (e.1, w64 (natLE (e.2.take 8)), BitVec.ofNat 32 (natLE ((e.2.drop 8).take 4)))
  let owned := all.filter fun e => targets.contains e.2.2
  let loose := (all.filter fun e => !targets.contains e.2.2).map fun e => (e.1, e.2.1)
  let piece := fun (o : Option (BitVec 32)) (l : List (Nat × BitVec 64)) =>
    ({ kind := .listed, lo := 0, hi := p.tau, blocks := l, owner := o, keys := blockKeys p.h.t (p.first a) l } : Piece)
  let mine := ((owned.map fun e => e.2.2).eraseDups).map fun o =>
    piece (some o) ((owned.filter fun e => e.2.2 = o).map fun e => (e.1, e.2.1))
  let runs := (cutRuns (16384 / p.h.t) (blockRuns 0 loose)).map (piece none)
  let head := fun (q : Piece) => ((q.blocks.head?).map Prod.fst).getD 0
  pure (sortBy (fun x y => head x ≤ head y) (mine ++ runs))

/-- The memory range in pieces (R238). -/
def memoryPieces (env : Env) (a : AttnArgs) (p : SeqPlan) (targets : List (BitVec 32)) : M (List Piece) := do
  let span := fun (lo hi : Nat) => ({ kind := .span, lo := lo, hi := hi, keys := keysIn (p.first a) lo hi } : Piece)
  let l ← match p.bucket with
    | 0 => pure []
    | 1 => pure [span 0 p.tau]
    | 2 => pure ((List.range (ceilDiv p.tau 4096)).map fun i => span (4096 * i) (min p.tau (4096 * (i + 1))))
    | _ => placementPieces env a p targets
  pure (l.filter fun q => q.keys ≠ 0)

/-- Load of a tile. -/
def loadOf (loads : List (BitVec 32 × Nat)) (u : BitVec 32) : Nat := ((loads.find? fun e => e.1 = u).map Prod.snd).getD 0

/-- Add keys to a tile's load. -/
def addLoad (loads : List (BitVec 32 × Nat)) (u : BitVec 32) (n : Nat) : List (BitVec 32 × Nat) :=
  (u, loadOf loads u + n) :: loads.filter fun e => e.1 ≠ u

/-- The least-loaded tile, the first in member-list order among equals (R238). -/
def leastLoaded (targets : List (BitVec 32)) (loads : List (BitVec 32 × Nat)) : BitVec 32 :=
  match targets with
  | [] => 0
  | u :: r => r.foldl (fun best v => if loadOf loads v < loadOf loads best then v else best) u

/-- Deal pieces in order, each to its owner or to the least-loaded tile (R238, R239). -/
def dealPieces (targets : List (BitVec 32)) : List (BitVec 32 × Nat) → List Piece → List (BitVec 32 × Piece)
  | _, [] => []
  | loads, q :: r =>
    let u := q.owner.getD (leastLoaded targets loads)
    (u, q) :: dealPieces targets (addLoad loads u q.keys) r

/-- Join consecutive pieces into one, on the tile of the first (R239), its blocks in ascending order (R237). -/
def joinPieces : List (BitVec 32 × Piece) → Option (BitVec 32 × Piece)
  | [] => none
  | q :: r =>
    let p := r.foldl (fun (p : Piece) e =>
      { p with hi := max p.hi e.2.hi, blocks := p.blocks ++ e.2.blocks, keys := p.keys + e.2.keys }) q.2
    some (q.1, { p with blocks := sortBy (fun x y => x.1 ≤ y.1) p.blocks })

/-- Combine pieces into at most `n` groups of consecutive ones by the split rule with weight 1 (R81, R239). -/
def groupPieces (n : Nat) (l : List (BitVec 32 × Piece)) : List (BitVec 32 × Piece) :=
  if l.length ≤ n then l
  else
    let lens := shareLens l.length (List.replicate n 1)
    ((shareStarts 0 lens).zip lens).filterMap fun g => joinPieces ((l.drop g.1).take g.2)

/-- The items of a sequence that are dealt, and the loads after them. -/
def dealSequence (partMax : Nat) (targets : List (BitVec 32)) (loads : List (BitVec 32 × Nat)) (l : List Piece) :
    List (BitVec 32 × Piece) × List (BitVec 32 × Nat) :=
  let g := groupPieces (partMax - 1) (dealPieces targets loads l)
  (g, g.foldl (fun a e => addLoad a e.1 e.2.keys) loads)

/-- Tiles in service of a unit, with their places in it, in member-list order (R66, R67). -/
def State.targetTiles (s : State) : Nat → BitVec 32 → Path → List (BitVec 32 × Path)
  | 0, _, _ => []
  | f + 1, u, path =>
    if unitLevel u = 1 then (if s.unitUp u then [(u, path)] else [])
    else (s.liveMembers u).flatMap fun m => State.targetTiles s f m.2 (path ++ [(m.1, (s.members u).length, m.2)])

/-- Tiles of the target of a slot's descriptor. -/
def State.attnTargets (s : State) (t : TileRef) (d : DescSlot) : List (BitVec 32 × Path) :=
  s.targetTiles (s.depth + 4) (s.slotUnitId t d) []

/-- Address of a sequence's area (R242). -/
def AttnArgs.area (a : AttnArgs) (n : Nat) : BitVec 64 := a.part + w64 (n * a.stride)

/-- The 128 bytes of a sequence's header (R242). -/
def SeqRun.headerBytes (q : SeqRun) (o : Outc) : List Byte :=
  bytesLE 1 o.status.toNat ++ bytesLE 1 o.reason.toNat ++ bytesLE 2 q.slots ++ bytesLE 2 q.nq ++ bytesLE 2 q.qheads
    ++ bytesLE 4 q.lb ++ bytesLE 4 (q.dim + 8 * q.bucket) ++ bytesLE 8 q.g0.toNat ++ bytesLE 4 q.slotBytes ++ bytesLE 4 0
    ++ bytesLE 8 q.poisonDva.toNat ++ padTo 24 [] ++ bytesLE 32 q.valid.toNat ++ padTo 32 []

/-- The lead's record of a sequence that goes ahead. -/
def SeqPlan.run (p : SeqPlan) (slot : Nat) (a : AttnArgs) : SeqRun :=
  { slot := slot, seq := p.seq, slots := 0, nq := p.new, qheads := p.h.heads * a.group, lb := p.lb, dim := p.h.dim
    bucket := p.bucket, g0 := p.h.gen, slotBytes := slotBytes p.new (p.h.heads * a.group) p.h.d, pt := (batchEntryOf p.entry).pt }

/-- The items of a sequence: the dealt ones, each with its place in the list area, then the home tile's as the last slot
(R238, R239, R242). -/
def SeqPlan.items (p : SeqPlan) (t : TileRef) (i : Nat) (d : DescSlot) (a : AttnArgs)
    (dealt : List (BitVec 32 × Piece)) : List (BitVec 32 × AttnItem) :=
  let base : AttnItem := { lead := t, leadSlot := i, seq := p.seq, slotNo := 0, kind := .span, lo := 0, hi := 0, desc := d.desc
                           batch := p.entry, header := p.header, g0 := p.h.gen, lb := p.lb, ctx := d.job.toNat % 4096
                           job := d.job, step := d.step, parents := p.parents, tailTile := unitTileRef p.tail }
  let lists := a.area p.seq + w64 (2048 + a.partMax * slotBytes p.new (p.h.heads * a.group) p.h.d)
  let starts := shareStarts 0 (dealt.map fun e => e.2.blocks.length)
  let memory := ((List.range dealt.length).zip (dealt.zip starts)).map fun e =>
    (e.2.1.1, { base with
      slotNo := e.1, kind := e.2.1.2.kind, lo := e.2.1.2.lo, hi := e.2.1.2.hi, listAt := lists + w64 (16 * e.2.2)
      listLen := e.2.1.2.blocks.length })
  memory ++ match p.homeKind with
    | none => []
    | some k => [(p.home, { base with
        slotNo := dealt.length, kind := k, lo := if k = .bucket0 then 0 else p.tau, hi := p.keys })]

/-- The record of a sequence whose table the lead could not read: of the header's fields it knows `NQ` alone (R242; log entry 21). -/
def refusedRun (slot n nq : Nat) (o : Outc) : SeqRun := { slot := slot, seq := n, slots := 0, refused := some o, nq := nq }

/-- Read every sequence; one that stops keeps its refusal, and a fault its record (R208, R233). -/
def planAll (env : Env) (a : AttnArgs) : M (List (Nat × BitVec 256 × Except Outc SeqPlan)) :=
  (List.range a.count).mapM fun n => do
    let e := BitVec.ofNat 256 (natLE (← readDva env (a.batch + w64 (32 * n)) 32 1))
    pure (n, e, ← seqTry env (planSequence env a n e))

/-- Deal one sequence: its items with their lists written, and the loads after it (R238, R239). -/
def dealOne (env : Env) (a : AttnArgs) (d : DescSlot) (targets : List (BitVec 32)) (p : SeqPlan) (loads : List (BitVec 32 × Nat)) :
    M (SeqRun × List (BitVec 32 × Nat)) := do
  let q ← memoryPieces env a p targets
  let (dealt, loads) := dealSequence a.partMax targets loads q
  let items := p.items env.t env.slot d a dealt
  dealt.zip items |>.forM fun e => do
    if e.1.2.kind = .listed then
      writeDva env e.2.2.listAt (e.1.2.blocks.flatMap fun b => bytesLE 8 b.1 ++ bytesLE 8 b.2.toNat) 2
  pure ({ p.run env.slot a with slots := items.length, tiles := items.map fun e => (e.2.slotNo, e.1), todo := items }, loads)

/-- Deal every sequence, from bucket 6 to bucket 0, in batch order within a bucket (R238, R239); one that stops is refused. -/
def dealAll (env : Env) (a : AttnArgs) (d : DescSlot) (targets : List (BitVec 32)) :
    List SeqPlan → List (BitVec 32 × Nat) → M (List SeqRun)
  | [], _ => pure []
  | p :: r, loads => do
    match ← seqTry env (dealOne env a d targets p loads) with
    | .ok (run, loads') => pure (run :: (← dealAll env a d targets r loads'))
    | .error o => pure ({ p.run env.slot a with refused := some o } :: (← dealAll env a d targets r loads))

/-- The lead's reading of an ATTENTION: every sequence's record, in dealing order. -/
def leadAttention (env : Env) (d : DescSlot) (targets : List (BitVec 32)) : M (List SeqRun) := do
  let a := attnArgs d.desc
  let all ← planAll env a
  let good := all.filterMap fun e => match e.2.2 with
    | .ok p => if p.refused.isNone then some p else none
    | .error _ => none
  let bad := all.filterMap fun e => match e.2.2 with
    | .ok p => if p.refused.isNone then none else some { p.run env.slot a with refused := p.refused }
    | .error o => some (refusedRun env.slot e.1 (batchEntryOf e.2.1).new o)
  let order := ([6, 5, 4, 3, 2, 1, 0] : List Nat).flatMap fun k => good.filter fun p => p.bucket = k
  let runs ← dealAll env a d targets order []
  pure (bad ++ runs)

/-- Environment of the lead's and the items' accesses: for no slot's messages (R117). -/
def Env.attn (e : Env) : Env := { e with front := some false }

/-! ### Reports at the lead (R245) -/

/-- Combined outcome of a sequence's items (R84, R245). -/
def SeqRun.status (q : SeqRun) : Outc :=
  match q.refused with
  | some o => o
  | none => if q.slots = 0 then {} else { combine q.slots q.reports with map := 0 }

/-- Every item of the sequence has reported. -/
def SeqRun.ended (q : SeqRun) : Bool := q.refused.isSome || q.reports.length = q.slots

/-- Write a sequence's header (R242); a fault is recorded and becomes the descriptor's. A header in another package goes as the lead's own
message, which the descriptor awaits (R328). -/
def State.writeSeqHeader (s : State) (t : TileRef) (i : Nat) (d : DescSlot) (q : SeqRun) : State :=
  let env := (d.env t i).attn
  let put := fun (env : Env) => (writeDva env ((attnArgs d.desc).area q.seq) (q.headerBytes q.status) 2).result s
  let away := match (put env).1 with
    | .error e => e.need.isSome
    | .ok _ => false
  match put (if away then d.env t i else env) with
  | (.ok _, s') => if away then s'.sendQueued t i ((((s'.tile t).slot i).map (·.toSend)).getD []) else s'
  | (.error e, s') =>
    (s'.recordFault t e i env.ctx env.step).modSlot t i fun d => { d with
      result := if d.result.good then outc e.status e.reason else d.result }

/-- Outcomes of the target's tiles, with their places, and of home tiles outside the target (R245). -/
def attnMembers (targets : List (BitVec 32 × Path)) (runs : List SeqRun) : List (Path × Outc) × List Outc :=
  let all := runs.flatMap fun q => q.tiles.map fun e => (e.2, kvGet q.reports e.1 {})
  let of_ := fun (u : BitVec 32) =>
    let l := (all.filter fun e => e.1 = u).map Prod.snd
    { combine l.length ((List.range l.length).zip l) with map := 0 }
  let used := (all.map Prod.fst).eraseDups
  let members := targets.filterMap fun t => if used.contains t.1 then some (t.2, of_ t.1) else none
  let extras := (used.filter fun u => !targets.any fun t => t.1 = u).map of_
  (members, extras)

/-- Outcome of an ATTENTION whose items have all reported (R245). -/
def attnOutcome (targets : List (BitVec 32 × Path)) (runs : List SeqRun) : Outc :=
  let refused := (sortBy (fun a b => a.seq ≤ b.seq) runs).filterMap (·.refused)
  let m := attnMembers targets runs
  if m.1.isEmpty && m.2.isEmpty then (refused.head?).getD {}
  else
    let inner := if m.1.isEmpty then [] else [combineTree splitLevels m.1]
    let l := inner ++ m.2
    let o := { combine l.length ((List.range l.length).zip l) with map := ((inner.head?).map (·.map)).getD 0 }
    if !refused.isEmpty && o.good then { o with status := St.partial, reason := 0 } else o

/-- The sequences of a slot at its lead. -/
def Tile.leadsOf (x : Tile) (i : Nat) : List SeqRun := x.leads.filter fun q => q.slot = i

/-- An ATTENTION all of whose sequences have ended, and whose messages are answered, finishes (R245, R328), its members those of the time
its items were dealt (R79, R83). -/
def State.settleAttention (s : State) (t : TileRef) (i : Nat) : State :=
  match (s.tile t).slot i with
  | none => s
  | some d =>
    let runs := (s.tile t).leadsOf i
    if runs.isEmpty || !d.waits.isEmpty || runs.any fun q => !q.ended || !q.todo.isEmpty then s
    else
      let o := if d.result.good then attnOutcome d.targets runs else d.result
      (s.modTile t fun x => { x with leads := x.leads.filter fun q => q.slot ≠ i }).finishSlot t i o

/-- A message of the lead is answered; one that was not applied is the descriptor's failure (R328). -/
def State.leadAnswer (s : State) (t : TileRef) (i : Nat) (txn : BitVec 16) (o : Outc) : State :=
  (s.modSlot t i fun d => { d with
    waits := d.waits.filter (· ≠ txn)
    result := if d.result.good && !o.good && o.status ≠ St.partial then outc o.status o.reason else d.result }).settleAttention t i

/-- An item's report reaches the lead; the last one of a sequence ends it (R242, R245). -/
def State.itemReported (s : State) (t : TileRef) (i seq slotNo : Nat) (o : Outc) (wrote : Bool) (poison : BitVec 64) : State :=
  let s := s.modTile t fun x => { x with leads := x.leads.map fun q =>
    if q.slot = i && q.seq = seq && (kvFind q.reports slotNo).isNone then { q with
      reports := kvPut q.reports slotNo o
      valid := if wrote then q.valid ||| BitVec.ofNat 256 (2 ^ slotNo) else q.valid
      poisonDva := if q.poisonDva = 0 then poison else q.poisonDva }
    else q }
  match (s.tile t).slot i, ((s.tile t).leadsOf i).find? fun q => q.seq = seq with
  | some d, some q => (if q.ended then s.writeSeqHeader t i d q else s).settleAttention t i
  | _, _ => s

/-! ### Sending the items (R240) -/

/-- Code of an item's kind in the message that carries it. -/
def ItemKind.code : ItemKind → Nat
  | .tail => 0 | .bucket0 => 1 | .span => 2 | .listed => 3

/-- Kind of a code. -/
def itemKindOf : Nat → ItemKind
  | 0 => .tail | 1 => .bucket0 | 2 => .span | _ => .listed

/-- The SHARE message that carries an item to another package. The spec gives it no layout: log entry 31. -/
def itemMsg (it : AttnItem) (u : BitVec 32) (src : BitVec 32) : Msg :=
  let data := descBytes (setField it.desc 12 4 u.toNat) ++ bytesLE 32 it.batch.toNat ++ bytesLE 64 it.header.toNat
    ++ bytesLE 8 it.listAt.toNat ++ bytesLE 4 it.listLen ++ bytesLE 4 it.tailTile ++ bytesLE 1 it.parents.length
    ++ it.parents.map fun p => BitVec.ofInt 8 p
  { op := Op.share, dst := unitPkg u, job := it.job, srcUnit := src, dva := it.g0, arrId := BitVec.ofNat 16 it.leadSlot
    operand := w64 (it.seq + it.slotNo * 2 ^ 16 + it.kind.code * 2 ^ 32), operand2 := w64 (it.lo + it.hi * 2 ^ 32)
    arrMsgs := it.lb, arrStep := it.step, length := data.length, data := data }

/-- The item a SHARE message carries, at its package. -/
def itemOfMsg (m : Msg) : AttnItem :=
  let at_ := fun (o n : Nat) => natLE ((m.data.drop o).take n)
  { lead := unitTileRef m.srcUnit, leadSlot := m.arrId.toNat % 256, leadPkg := some (m.src, m.txn), seq := m.operand.toNat % 2 ^ 16
    slotNo := m.operand.toNat / 2 ^ 16 % 2 ^ 16, kind := itemKindOf (m.operand.toNat / 2 ^ 32), lo := m.operand2.toNat % 2 ^ 32
    hi := m.operand2.toNat / 2 ^ 32, desc := descOf (m.data.take 64), batch := BitVec.ofNat 256 (at_ 64 32)
    header := BitVec.ofNat 512 (at_ 96 64), g0 := m.dva, lb := m.arrMsgs, ctx := m.job.toNat % 4096, job := m.job, step := m.arrStep
    listAt := w64 (at_ 160 8), listLen := at_ 168 4, tailTile := at_ 172 4
    parents := ((m.data.drop 177).take (at_ 176 1)).map signedByte }

/-- Send one item to its tile, the `k`-th, one every 2 cc (R126, R240). -/
def State.sendItem (s : State) (t : TileRef) (i k : Nat) (e : BitVec 32 × AttnItem) : State :=
  if unitPkg e.1 = s.self then
    s.meshSend (unitTileRef e.1) (meshDelay t (unitTileRef e.1) + s.coreSpan t (2 * k)) (.item e.2)
  else
    match s.pathStop (unitPkg e.1) with
    | some (st, rs) => s.itemReported t i e.2.seq e.2.slotNo (outc st rs) false 0
    | none => s.requestOf t (itemMsg e.2 e.1 (s.tileId t)) (.share t i e.1)

/-- Send the items of a slot's sequences: home tiles' items first, then the others in dealing order; headers of the
sequences that have ended (R240, R245). -/
def State.sendItems (s : State) (t : TileRef) (i : Nat) (d : DescSlot) : State :=
  let runs := (s.tile t).leadsOf i
  let items := runs.flatMap (·.todo)
  let home := items.filter fun e => e.2.kind = .tail || e.2.kind = .bucket0
  let rest := items.filter fun e => !(e.2.kind = .tail || e.2.kind = .bucket0)
  let s := s.modTile t fun x => { x with leads := x.leads.map fun q => if q.slot = i then { q with todo := [] } else q }
  let s := s.modTile t fun x => x.dequeue i
  let s := s.modSlot t i fun d => { d with ph := .running, split := true, fetched := [], readFails := [] }
  let l := home ++ rest
  let s := ((List.range l.length).zip l).foldl (fun (s : State) e => s.sendItem t i e.1 e.2) s
  let s := (runs.filter fun q => q.slots = 0).foldl (fun (s : State) q => s.writeSeqHeader t i d q) s
  s.settleAttention t i

/-- The lead reads `GEN` again after its placement passes: a sequence whose table has changed sends no item (R241). -/
def recheckGen (env : Env) (l : List SeqRun) : M (List SeqRun) :=
  l.mapM fun q => do
    if q.refused.isSome || q.bucket < 3 then pure q
    else
      let g := w64 (natLE (← readDva env q.pt 8 3))
      if g = q.g0 then pure q
      else pure { q with refused := some (outc St.tableChanged 0), slots := 0, tiles := [], todo := [] }

/-- The lead's second step, when its sequences are dealt. -/
def State.attnSecond (s : State) (t : TileRef) (i : Nat) (d : DescSlot) : State :=
  let env := (d.env t i).attn
  let s := s.modSlot t i fun d => { d with fetched := [], readFails := [] }
  match (recheckGen env ((s.tile t).leadsOf i)).result s with
  | (.ok l, s') =>
    (s'.modTile t fun x => { x with leads := (x.leads.filter fun q => q.slot ≠ i) ++ l }).sendItems t i d
  | (.error e, s') =>
    match e.need with
    | some n => s.askFor env s' n
    | none =>
      ((s'.recordFault t e i env.ctx env.step).modTile t fun x => { x with leads := x.leads.filter fun q => q.slot ≠ i }).finishSlot
        t i (outc e.status e.reason)

/-- ATTENTION (R231 to R241) at its lead. A descriptor with a placement pass stands ready when its items are dealt, and its
next step reads `GEN` again and sends them. -/
def State.runAttention (s : State) (t : TileRef) (i : Nat) : State :=
  match s.runnable t i 0x31 with
  | none => s
  | some d =>
    if !((s.tile t).leadsOf i).isEmpty then s.attnSecond t i d
    else if s.noGroup (s.slotUnitId t d) then s.finishSlot t i (outc St.rejected Rs.noGroup)
    else
      let members := s.attnTargets t d
      let targets := (members.map Prod.fst).eraseDups
      let keep := fun (s : State) => s.modSlot t i fun d => { d with targets := members }
      if targets.isEmpty then s.finishSlot t i (outc St.notReady 0)
      else
        let env := (d.env t i).attn
        match (leadAttention env d targets).result s with
        | (.ok l, s') =>
          let s := keep (s'.modTile t fun x => { x with leads := x.leads ++ l })
          if l.any fun q => q.refused.isNone && 3 ≤ q.bucket then
            s.modSlot t i fun d => { d with ph := .running, fetched := [], readFails := [] }
          else s.sendItems t i d
        | (.error e, s') =>
          match e.need with
          | some n => s.askFor env s' n
          | none => (s'.recordFault t e i env.ctx env.step).finishSlot t i (outc e.status e.reason)

/-- ATTENTION (R231). -/
def execAttention (t : TileRef) (slot : Nat) (s : State) : Host.Outcome State Fault Refusal := .next (s.runAttention t slot)

/-! ### Arithmetic of an item (R236, R237) -/

/-- Minus infinity. -/
abbrev minusInf : BitVec 32 := 0xFF800000

/-- A running value times a factor plus a term, in one rounding or two (R237, R248). -/
def mulAdd (a b c : BitVec 32) : BitVec 32 := if Config.attnFused then fmaF a b c else addF (mulF a b) c

/-- Lanes of a row in the product path: BF16, or FP8 E4M3 with E8M0 per 32 (R236). -/
def pathLanes (fp8 : Bool) (row : List Fv) : List (Nat × Nat) :=
  if fp8 then
    let q := quantRow 3 1 false (.fin false 1 0) row
    ((List.range row.length).zip q.1).map fun e => (e.2, (q.2.1[e.1 / 32]?).getD 0)
  else row.map fun v => ((convert 1 false v).1, 0)

/-- A product of two rows of lanes (R172, R236). -/
def pathDot (fp8 : Bool) (a b : List (Nat × Nat)) : BitVec 32 :=
  let l : List (Lane × Lane) := (a.map some).zip (b.map some)
  if fp8 then chunkSum 3 1 3 1 l else chunkSum 1 0 1 0 l

/-- Decoded value of a cached element (R161, R223). -/
def KvHeader.decode (h : KvHeader) (code scale : Nat) : Fv :=
  if h.fp16 then (decodeNum h.fmt code).mul (decodeNum 2 scale) else decodeScaled h.fmt 1 code scale (.fin false 1 0)

/-- A cached head of a token: codes with their scales. -/
def KvHeader.headCodes (h : KvHeader) (elems scales : List Byte) : List (Nat × Nat) :=
  let w := if h.fp16 then 2 else 1
  ((List.range h.d).zip (unpackRun h.fmt h.d elems)).map fun e => (e.2, natLE ((scales.drop (e.1 / 32 * w)).take w))

/-- A block as an item reads it: each token's position, the candidate it is, and its keys and values by head, as codes. -/
structure KvToken where
  pos : Nat
  cand : Option Nat := none
  k : List (List (Nat × Nat))
  v : List (List (Nat × Nat))
  deriving DecidableEq, Repr

/-- A stored token's keys and values. -/
def KvHeader.tokenOf (h : KvHeader) (pos : Nat) (cand : Option Nat) (bytes : List Byte) : KvToken :=
  let el := fun (n : Nat) => (bytes.drop (n * h.e)).take h.e
  let sc := fun (n : Nat) => (bytes.drop (2 * h.heads * h.e + n * h.sc)).take h.sc
  { pos := pos, cand := cand, k := (List.range h.heads).map fun i => h.headCodes (el (2 * i)) (sc (2 * i))
    v := (List.range h.heads).map fun i => h.headCodes (el (2 * i + 1)) (sc (2 * i + 1)) }

/-- What an item knows of its sequence. -/
structure ItemCtx where
  a : AttnArgs
  b : BatchEntry
  h : KvHeader
  lb : Nat
  parents : List Int
  deriving DecidableEq, Repr

/-- An item's context. -/
def AttnItem.ctx_ (it : AttnItem) : ItemCtx :=
  { a := attnArgs it.desc, b := batchEntryOf it.batch, h := kvHeaderOf it.header, lb := it.lb, parents := it.parents }

/-- Query heads, H × G. -/
def ItemCtx.qheads (c : ItemCtx) : Nat := c.h.heads * c.a.group

/-- A row admits a token (R234, R235). -/
def ItemCtx.admitted (c : ItemCtx) (r : Nat) (k : KvToken) : Bool :=
  admits c.b.keyStart c.a.window (rowPos c.lb c.parents r) k.pos &&
    match k.cand with
    | some n => ancestor c.parents n 33 r
    | none => true

/-- Query lanes of a row and head: rotated at the row's position (R222, R236). -/
def ItemCtx.query (c : ItemCtx) (q : List Byte) (r hq : Nat) : List (Nat × Nat) :=
  let bytes := (q.drop (2 * c.h.d * (r * c.qheads + hq))).take (2 * c.h.d)
  pathLanes c.a.fp8 (rotate c.h (rowPos c.lb c.parents r) ((unpackRun 1 c.h.d bytes).map (decodeNum 1)))

/-- Key lanes of a cached head: as stored where the path takes that form, else decoded (R236). -/
def ItemCtx.keyLanes (c : ItemCtx) (l : List (Nat × Nat)) : List (Nat × Nat) :=
  if c.a.fp8 && !c.h.int4 && !c.h.fp16 then l else pathLanes c.a.fp8 (l.map fun e => c.h.decode e.1 e.2)

/-- Value lanes of a block for one head and element, token by token (R236). -/
def ItemCtx.valueLanes (c : ItemCtx) (l : List KvToken) (head e : Nat) : List (Nat × Nat) :=
  pathLanes c.a.fp8 (l.map fun k =>
    let x := (((k.v[head]?).getD [])[e]?).getD (0, 0)
    c.h.decode x.1 x.2)

/-- The running state of a row and head after a block (R237). -/
def ItemCtx.absorb (c : ItemCtx) (l : List KvToken) (keys : List (List (Nat × Nat))) (values : List (List (Nat × Nat)))
    (query : List (Nat × Nat)) (r : Nat) (st : BitVec 32 × BitVec 32 × List (BitVec 32)) (seen : Bool) :
    (BitVec 32 × BitVec 32 × List (BitVec 32)) × Bool :=
  let ok := l.map (c.admitted r)
  let score := (ok.zip keys).map fun e => if e.1 then some (mulF c.a.scale (pathDot c.a.fp8 query e.2)) else none
  match score.filterMap id with
  | [] => (st, seen)
  | s0 :: rest =>
    let m := if seen then st.1 else minusInf
    let m' := rest.foldl maxF (maxF m s0)
    let f := if m = minusInf then 0 else expF (subF m m')
    let p := score.map fun x => match x with
      | some v => expF (subF v m')
      | none => 0
    let sum := ((ok.zip p).filterMap fun e => if e.1 then some e.2 else none).foldl addF 0
    let pl := pathLanes c.a.fp8 (p.map f32)
    let pl := (ok.zip pl).map fun e => if e.1 then e.2 else (0, e.2.2)
    let o := (st.2.2.zip values).map fun e =>
      mulAdd e.1 f (pathDot c.a.fp8 pl ((ok.zip e.2).map fun v => if v.1 then v.2 else (0, v.2.2)))
    ((m', mulAdd st.2.1 f sum, o), true)

/-- An item's state after a block (R237). -/
def AttnItem.absorb (it : AttnItem) (l : List KvToken) : AttnItem :=
  let c := it.ctx_
  let keys := (List.range c.h.heads).map fun k => l.map fun x => c.keyLanes ((x.k[k]?).getD [])
  let values := (List.range c.h.heads).map fun k => (List.range c.h.d).map (c.valueLanes l k)
  let n := c.b.new * c.qheads
  let fresh : BitVec 32 × BitVec 32 × List (BitVec 32) := (minusInf, 0, List.replicate c.h.d 0)
  let out := (List.range n).map fun k =>
    let r := k / max 1 c.qheads
    let hq := k % max 1 c.qheads
    let head := hq / max 1 c.a.group
    c.absorb l ((keys[head]?).getD []) ((values[head]?).getD []) (c.query it.q r hq) r ((it.acc[k]?).getD fresh)
      ((it.seen[k]?).getD false)
  { it with acc := out.map Prod.fst, seen := out.map Prod.snd }

/-- Exponentials a block takes, for the count of special-function results (R444). -/
def AttnItem.exps (it : AttnItem) (l : List KvToken) : Nat :=
  let c := it.ctx_
  c.qheads * ((List.range c.b.new).map fun r => (l.filter (c.admitted r)).length).sum

/-- The record of a row and head (R237, R243). -/
def rowRecord (seen stale : Bool) (d : Nat) (st : BitVec 32 × BitVec 32 × List (BitVec 32)) : List Byte :=
  let flags := (if seen then 0 else 1) + (if stale then 2 else 0)
  let o := if seen then st.2.2.map fun x => divF x st.2.1 else List.replicate d 0
  let lse := if seen then addF st.1 (lnF st.2.1) else minusInf
  (o.flatMap fun x => bytesLE 4 x.toNat) ++ bytesLE 4 lse.toNat ++ bytesLE 4 flags ++ padTo 8 []

/-- The slot an item writes (R243). -/
def AttnItem.slot (it : AttnItem) : List Byte :=
  let c := it.ctx_
  let n := c.b.new * c.qheads
  padTo (slotBytes c.b.new c.qheads c.h.d) ((List.range n).flatMap fun k =>
    rowRecord ((it.seen[k]?).getD false) it.stale c.h.d ((it.acc[k]?).getD (minusInf, 0, [])))

/-- The slot of an item that met poison: every row is flagged, and its other contents are free values (R244). -/
def poisonSlot (it : AttnItem) : M (List Byte) := do
  let c := it.ctx_
  let l ← (List.range (c.b.new * c.qheads)).mapM fun _ => do
    let o ← freeBytes (4 * c.h.d + 4)
    pure (o ++ bytesLE 4 (if it.stale then 6 else 4) ++ padTo 8 [])
  pure (padTo (slotBytes c.b.new c.qheads c.h.d) l.flatten)

/-- Where an item's slot lies (R242). -/
def AttnItem.slotAt (it : AttnItem) : BitVec 64 :=
  let c := it.ctx_
  c.a.area it.seq + w64 (2048 + it.slotNo * slotBytes c.b.new c.qheads c.h.d)

/-! ### Running an item at its tile (R240, R241, R244) -/

/-- Environment of an item's accesses. -/
def AttnItem.env (it : AttnItem) (t : TileRef) : Env :=
  { t := t, slot := it.leadSlot, ctx := it.ctx, job := it.job, step := it.step, fetched := it.fetched, readFails := it.readFails
    front := some false }

/-- An access that finds poison elsewhere than in a block names no block (R244). -/
def notBlock {α : Type} (m : M α) : M α :=
  EStateM.adaptExcept (fun e => if e.status = St.poisoned && e.need.isNone then { e with dva := 0 } else e) m

/-- Read `GEN` and compare it with G0 (R241). -/
def checkGen (env : Env) (it : AttnItem) : M AttnItem := do
  let g := w64 (natLE (← notBlock (readDva env (batchEntryOf it.batch).pt 8 3)))
  pure { it with stale := it.stale || g ≠ it.g0 }

/-- Number that stands for the staged candidates among the blocks still to arrive. -/
abbrev candBlock : Nat := 2 ^ 24

/-- A walking item's blocks: those in which some key may be admitted, then the staged candidates (R234, R235). -/
def AttnItem.walkBlocks (it : AttnItem) : List Nat :=
  let c := it.ctx_
  let end_ := if it.parents.isEmpty then it.hi else min it.hi it.lb
  let first := firstKey c.b.keyStart c.a.window it.lb
  ((List.range (ceilDiv end_ c.h.t)).filter fun b => it.lo ≤ b * c.h.t && keysIn first (b * c.h.t) (min end_ ((b + 1) * c.h.t)) ≠ 0)
    ++ if it.parents.isEmpty || it.kind = .span then [] else [candBlock]

/-- The candidates' parents as an item at the plane's home knows them: those of the staging slot it reads (R235). -/
def AttnItem.homeParents (it : AttnItem) (x : Tile) : List Int :=
  let c := it.ctx_
  if it.parents.isEmpty || !(it.kind = .tail || it.kind = .bucket0) then it.parents
  else match x.stagingSlot c.b.pt c.b.plane c.h.seqId with
    | some k => k.parents
    | none => it.parents

/-- Start an item: its queries, and its `GEN` or its list (R239, R241). -/
def startItem (env : Env) (it : AttnItem) : M AttnItem := do
  let it := { it with parents := it.homeParents ((← get).tile env.t) }
  let c := it.ctx_
  let it ← if it.kind = .listed then pure it else checkGen env it
  let q ← notBlock (readDva env c.b.q (2 * c.h.d * c.qheads * c.b.new) 1)
  let it := { it with q := q, started := true }
  if it.kind = .listed then
    let bytes ← notBlock (readDva env it.listAt (16 * it.listLen) 1)
    let blocks := (List.range it.listLen).map fun i =>
      (natLE ((bytes.drop (16 * i)).take 8), w64 (natLE ((bytes.drop (16 * i + 8)).take 8)))
    let first := firstKey c.b.keyStart c.a.window it.lb
    let read := blocks.filter fun b => keysIn first (b.1 * c.h.t) ((b.1 + 1) * c.h.t) ≠ 0
    pure { it with blocks := blocks, todo := read.map Prod.fst }
  else pure { it with todo := it.walkBlocks }

/-- Name the block that an access found poisoned (R244). -/
def ofBlock {α : Type} (dva : BitVec 64) (m : M α) : M α :=
  EStateM.adaptExcept (fun e => if e.status = St.poisoned && e.need.isNone then { e with dva := dva } else e) m

/-- `BLOCK_DVA` of a block of an item: from its list, or from the entry (R211, R239). -/
def blockDva (env : Env) (it : AttnItem) (b : Nat) : M (BitVec 64) := do
  let c := it.ctx_
  match it.blocks.find? fun e => e.1 = b with
  | some e => pure e.2
  | none => notBlock (readBlockDva env c.h c.b.plane b)

/-- The image of a block: the tail slot's where it holds the block, else from memory (R211, R230, R249). `bad` tells an
uncorrectable error in the slot (R214). -/
def blockImage (bad : Bool) (env : Env) (it : AttnItem) (b : Nat) : M (List Byte) := do
  let c := it.ctx_
  let s ← get
  let held := (s.tile it.tailTile).tailSlot c.b.pt c.b.plane c.h.seqId
  match if it.kind = .listed || it.kind = .span then none else held.filter fun k => k.block = b with
  | some k =>
    if bad || k.bad then
      M.upd fun s => s.modTile it.tailTile fun x => x.spoilKv c.b.pt c.b.plane c.h.seqId
      M.stop St.poisoned 0 1 k.dva
    else pure k.image
  | none =>
    let dva ← blockDva env it b
    if dva = 0 then M.stop St.range Rs.noBlock 3 (c.h.entryAt c.b.plane b)
    if dva.toNat % 2048 ≠ 0 then M.stop St.range Rs.blockAlign 3 dva
    let e ← atDva dva (translate env.t env.ctx dva 1)
    if 2 ^ e.size < dva.toNat % 2 ^ e.size + c.h.imageSize then M.stop St.range Rs.blockAlign 3 dva
    ofBlock dva (readDva env dva c.h.imageSize 1)

/-- The tokens of a block an item reads, up to the end of its range, beyond which tokens are missing; the staged candidates stand in the home tile's staging slot (R235). -/
def blockTokens (bad : Bool) (env : Env) (it : AttnItem) (b : Nat) : M (List KvToken) := do
  let c := it.ctx_
  if b = candBlock then
    let s ← get
    let held := ((s.tile env.t).stagingSlot c.b.pt c.b.plane c.h.seqId).map fun k => k.image
    let bytes ← match held with
      | some l => if bad then M.stop St.poisoned 0 1 else pure l
      | none => freeBytes (it.parents.length * c.h.tokenBytes)
    pure ((List.range it.parents.length).map fun i =>
      c.h.tokenOf (it.lb + candDepth it.parents i) (some i) (storedToken c.h bytes i))
  else
    let image ← blockImage bad env it b
    let end_ := if it.parents.isEmpty then it.hi else min it.hi it.lb
    pure (((List.range c.h.t).filter fun i => b * c.h.t + i < end_).map fun i =>
      c.h.tokenOf (b * c.h.t + i) none (c.h.token image i))

/-! ### Times of an item (R246) -/

/-- Tail slot from which an item reads a block, where one holds it (R230). -/
def State.tailHeld (s : State) (it : AttnItem) (b : Nat) : Bool :=
  let c := it.ctx_
  !(it.kind = .listed || it.kind = .span) &&
    (((s.tile it.tailTile).tailSlot c.b.pt c.b.plane c.h.seqId).any fun k => k.block = b)

/-- Own local address of a block's image. -/
def State.blockAt (s : State) (t : TileRef) (it : AttnItem) (b : Nat) : Option Nat :=
  match ((blockDva (it.env t) it b).result s).1 with
  | .ok dva => s.reaches t it.ctx dva
  | .error _ => none

/-- Tokens that an item takes from a block, without their bytes. -/
def AttnItem.places (it : AttnItem) (b : Nat) : List KvToken :=
  let c := it.ctx_
  if b = candBlock then (List.range it.parents.length).map fun i => { pos := it.lb + candDepth it.parents i, cand := some i, k := [], v := [] }
  else
    let end_ := if it.parents.isEmpty then it.hi else min it.hi it.lb
    ((List.range c.h.t).filter fun i => b * c.h.t + i < end_).map fun i => { pos := b * c.h.t + i, k := [], v := [] }

/-- Bytes of a block that an item reads. -/
def AttnItem.blockBytes (it : AttnItem) (b : Nat) : Nat :=
  if b = candBlock then it.parents.length * it.ctx_.h.tokenBytes else it.ctx_.h.imageSize

/-- Core cycles for which a block's products occupy the matrix engine (R236). -/
def AttnItem.productCycles (it : AttnItem) (b : Nat) : Nat :=
  let c := it.ctx_
  let tokens := if b = candBlock then it.parents.length else c.h.t
  ceilDiv (2 * c.b.new * c.qheads * c.h.d * tokens) (if c.a.fp8 then 4096 else 1024)

/-- Core cycles of a block's processing: products, exponentials and the dequantiser (R246). -/
def AttnItem.blockCycles (it : AttnItem) (b : Nat) : Nat :=
  max (it.productCycles b) (max (ceilDiv (it.exps (it.places b)) 16) (ceilDiv (it.blockBytes b) 512))

/-- Time of a block's bytes on their path: that of its place, or of the tile whose append buffer holds it (R197, R246). The own buffer is
read in no time. -/
def State.blockPath (s : State) (t : TileRef) (it : AttnItem) (b : Nat) : Nat :=
  if b = candBlock then 0
  else if s.tailHeld it b then (if it.tailTile = t then 0 else meshTime t it.tailTile (it.blockBytes b))
  else ((s.blockAt t it b).map fun a => s.pathTimeTo t a (it.blockBytes b)).getD 0

/-- Time until the first bytes of an item's first block come: `GEN`, then its entry; or its list's first line (R239, R241, R246). -/
def State.itemLatency (s : State) (t : TileRef) (it : AttnItem) : Nat :=
  let c := it.ctx_
  let head := if it.kind = .listed then s.dvaLatency t it.ctx false it.listAt else s.dvaLatency t it.ctx false c.b.pt
  match it.todo.head? with
  | none => head
  | some b =>
    if b = candBlock then head
    else if s.tailHeld it b then head + if it.tailTile = t then 0 else meshDelay t it.tailTile + ns 20
    else
      let entry := if it.kind = .listed then 0 else s.dvaLatency t it.ctx false (c.h.entryAt c.b.plane b)
      head + entry + ((s.blockAt t it b).map (s.latency t false)).getD 0

/-- Time at which a block has wholly come at the item's rate: the lowest of its path's and of the processing's (R246). -/
def State.blockDue (s : State) (t : TileRef) (it : AttnItem) (b : Nat) : Nat :=
  it.nextAt + max (s.blockPath t it b) (s.coreSpan t (it.blockCycles b))

/-- Replace the item at the head of a tile's queue. -/
def Tile.setHead (x : Tile) (it : AttnItem) : Tile :=
  { x with items := match x.items with
      | [] => []
      | _ :: r => it :: r }

/-- An item ends: it leaves the queue, is counted, and reports. -/
def State.endItem (s : State) (t : TileRef) (it : AttnItem) (o : Outc) (wrote : Bool) (poison : BitVec 64) : State :=
  (s.modTile t fun x => { x.note (some it.job) EngineQ.attention.key (min it.startedAt s.time.now) s.time.now with
    items := x.items.drop 1
    attnItems := x.attnItems + 1
    attnStale := if o.status = St.tableChanged then x.attnStale + 1 else x.attnStale }).reportItem t it
      (throttled s.tick.stepRatio o) wrote poison

/-- An item awaits bytes of another package. -/
def State.askItem (s : State) (t : TileRef) (it : AttnItem) (n : Need) : State :=
  let x := s.freshTxn
  (s.askNeed (it.env t) n (.item t)).modTile t fun y => y.setHead { it with waits := it.waits ++ [x] }

/-- An item stops: poison writes its flagged slot, any other fault none (R244). -/
def State.stopItem (s : State) (t : TileRef) (it : AttnItem) (e : Stop) : State :=
  let env := it.env t
  if e.status = St.poisoned then
    let r := (do
      let l ← poisonSlot it
      writeDva env it.slotAt l 2 : M Unit).result s
    match r with
    | (.ok _, s') => s'.endItem t it (outc St.poisoned e.reason) true e.dva
    | (.error k, s') =>
      match k.need with
      | some n => s.askItem t it n
      | none => (s'.recordFault t k it.leadSlot env.ctx env.step).endItem t it (outc k.status k.reason) false e.dva
  else (s.recordFault t e it.leadSlot env.ctx env.step).endItem t it (outc e.status e.reason) false 0

/-- Run one of an item's steps: what it answers replaces the head item. -/
def State.itemStep (s : State) (t : TileRef) (it : AttnItem) (m : Env → M AttnItem) : State :=
  match (m (it.env t)).result s with
  | (.ok it', s') => s'.modTile t fun x => x.setHead { it' with fetched := [], readFails := [] }
  | (.error e, s') =>
    match e.need with
    | some n => s.askItem t it n
    | none => s'.stopItem t it e

/-- The item at the head of a tile's queue that awaits nothing. -/
def State.headItem (s : State) (t : TileRef) : Option AttnItem :=
  match (s.tile t).items with
  | [] => none
  | it :: _ => if s.tileUp t && it.waits.isEmpty then some it else none

/-- Start the head item if it has not started. -/
def State.startHead (s : State) (t : TileRef) : State :=
  match s.headItem t with
  | none => s
  | some it =>
    if it.started then s
    else s.itemStep t it fun env => do
      let it ← startItem env it
      let s ← get
      pure { it with startedAt := s.time.now, nextAt := s.time.now + s.itemLatency t it }

/-- The end of an item's work: the processing of its last block, the pause of R61, and the read of `GEN` (R246). -/
def State.itemRest (s : State) (t : TileRef) (it : AttnItem) : State :=
  let done := it.nextAt + s.coreSpan t it.lastCycles
  let pause := s.pauseOf (s.inCore t (done - it.startedAt))
  (s.modTile t fun x => x.act 22 (pause / 10)).advanceTo
    (done + ceilDiv (pause * s.slow (s.tile t)) 16 + s.dvaLatency t it.ctx false it.ctx_.b.pt)

/-- Time of the write of an item's slot (R246, R281, R287). -/
def State.slotTime (s : State) (t : TileRef) (it : AttnItem) : Nat :=
  s.dvaLatency t it.ctx true it.slotAt + s.dvaPathTime t it.ctx it.slotAt it.slot.length

/-- An item whose blocks have all come reads `GEN` again and writes its slot (R241, R243). -/
def State.finishItem (s : State) (t : TileRef) : State :=
  match s.headItem t with
  | none => s
  | some it =>
    if !it.started || !it.todo.isEmpty then s
    else
      let env := it.env t
      let s := s.itemRest t it
      let m : M AttnItem := do
        let it ← checkGen env it
        writeDva env it.slotAt it.slot 2
        pure it
      match m.result s with
      | (.ok it, s') =>
        (s'.advanceTo (s'.time.now + s'.slotTime t it)).endItem t it (if it.stale then outc St.tableChanged 0 else {}) true 0
      | (.error e, s') =>
        match e.need with
        | some n => s.askItem t it n
        | none => s'.stopItem t it e

/-- An item's next block has arrived (R237). -/
def State.nextBlock (s : State) (t : TileRef) (bad : Bool) : State :=
  match s.headItem t with
  | none => s
  | some it =>
    if !it.started then s.startHead t
    else match it.todo with
      | [] => s
      | b :: r =>
        let due := s.blockDue t it b
        let s := s.advanceTo due
        s.itemStep t it fun env => do
          let l ← blockTokens bad env it b
          M.upd fun s => s.modTile t fun x =>
            ((x.act 8 (it.blockBytes b)).act 7 (it.exps l)).act (if it.ctx_.a.fp8 then 2 else 3) (8 * it.productCycles b)
          pure { it.absorb l with
            todo := r, lastCycles := it.blockCycles b, nextAt := if it.fetched.isEmpty then due else max due s.time.now }

/-- ATTENTION_ITEM (R240): the item that arrives first joins the tile's queue; a tile out of service answers NOT_READY. -/
def execAttentionItem (t : TileRef) (s : State) : Host.Outcome State Fault Refusal :=
  match meshTake t (fun b => match b with
    | .item i => some i
    | _ => none) s.mesh with
  | none => .next (s.startHead t)
  | some (it, m, rest) =>
    if !s.clocksRun then .next s
    else
      let s := ({ s with mesh := rest } : State).advanceTo m.due
      if !s.tileUp t then .next (s.reportItem t it (outc St.notReady 0) false 0)
      else .next ((s.modTile t fun x => { x with items := x.items ++ [it] }).startHead t)

/-- BLOCK_ARRIVAL (R237, R240): the head item takes its next block, and ends after its last. An uncorrectable error is one in
the slot of the append buffer that it reads (R214, R244). -/
def execBlockArrival (t : TileRef) (e : StoreErr) (s : State) : Host.Outcome State Fault Refusal :=
  .next ((s.nextBlock t e.bad.isSome).finishItem t)

/-- ITEM_REPORT (R245). -/
def execItemReport (t : TileRef) (s : State) : Host.Outcome State Fault Refusal :=
  match meshTake t (fun b => match b with
    | .itemReport slot seq slotNo o wrote poison => some (slot, seq, slotNo, o, wrote, poison)
    | _ => none) s.mesh with
  | none => .next s
  | some ((slot, seq, slotNo, o, wrote, poison), m, rest) =>
    .next (if s.clocksRun then (({ s with mesh := rest } : State).advanceTo m.due).itemReported t slot seq slotNo o wrote poison
      else s)

/-! ### MERGE (R247, R248) -/

/-- A slot's record of a row and head. -/
structure PartRec where
  o : List (BitVec 32)
  lse : BitVec 32
  flags : Nat
  deriving DecidableEq, Repr

/-- A record's fields (R243). -/
def partRec (d : Nat) (bytes : List Byte) : PartRec :=
  { o := (List.range d).map fun i => BitVec.ofNat 32 (natLE ((bytes.drop (4 * i)).take 4))
    lse := BitVec.ofNat 32 (natLE ((bytes.drop (4 * d)).take 4)), flags := natLE ((bytes.drop (4 * d + 4)).take 4) }

/-- Merge the records of one row and head (R248); `missing` when a slot or the sequence is absent. The logarithm is held
within the units of the last place that log entry 65 names. -/
def mergeRow (d : Nat) (missing : Bool) (l : List PartRec) : PartRec :=
  let use := l.filter fun r => !r.flags.testBit 0 && !r.flags.testBit 2
  let more := (if use.any fun r => r.flags.testBit 1 then 2 else 0) + (if l.any fun r => r.flags.testBit 2 then 4 else 0)
    + (if missing then 8 else 0)
  match use with
  | [] => { o := List.replicate d 0, lse := minusInf, flags := 1 + more }
  | r0 :: rest =>
    let m := rest.foldl (fun a r => maxF a r.lse) r0.lse
    let sum := match use.map fun r => expF (subF r.lse m) with
      | [] => 0
      | x :: xs => xs.foldl addF x
    let lse := addF m (lnF sum)
    let o := (List.range d).map fun i =>
      match use.map fun r => (expF (subF r.lse lse), (r.o[i]?).getD 0) with
      | [] => 0
      | x :: xs => xs.foldl (fun a y => mulAdd y.1 y.2 a) (mulF x.1 x.2)
    { o := o, lse := lse, flags := more }

/-- A Reserved field of a sequence's header in its partial area is not zero (R10, R242). -/
def seqHeaderReserved (head : List Byte) : Bool :=
  let at_ := fun (o k : Nat) => natLE ((head.drop o).take k)
  at_ 2 2 / 2 ^ 9 ≠ 0 || at_ 4 2 / 2 ^ 13 ≠ 0 || at_ 6 2 / 2 ^ 11 ≠ 0 || at_ 8 4 / 2 ^ 25 ≠ 0 || at_ 12 4 / 2 ^ 6 ≠ 0
    || at_ 28 4 ≠ 0 || at_ 40 24 ≠ 0 || at_ 96 32 ≠ 0

/-- What a MERGE adds to the counters of lane-operations and of special-function results for a sequence (R444). DESIGN CHOICE, log entry
23: a record merged takes one operation for each element of O and two exponentials, and a row one logarithm; a row converted takes one
operation for each element. -/
def mergeCount (env : Env) (rows dim records : Nat) : M Unit :=
  M.upd fun s => s.modTile env.t fun x =>
    if records = 0 then x.act 6 (rows * dim) else (x.act 6 (records * dim + rows * dim)).act 7 (2 * records + rows)

/-- Merge one sequence; the answer is its conversion flags, the flags its rows carry, and the bytes it reads and writes. -/
def mergeSequence (env : Env) (d : BitVec 512) (sat : Bool) (n : Nat) : M (Option Outc × FmtFlags × Nat × Nat × Nat) := do
  let part := w64 (fld d 16 63 0) + w64 (n * fld d 32 31 0)
  let out := w64 (fld d 24 63 0) + w64 (n * fld d 36 31 0)
  let fmt := fld d 42 3 0
  let head ← readDva env part 128 1
  let at_ := fun (o k : Nat) => natLE ((head.drop o).take k)
  let status := BitVec.ofNat 8 (at_ 0 1)
  let slots := at_ 2 2 % 512
  let nq := at_ 4 2 % 8192
  let qh := at_ 6 2 % 2048
  let dim := headDim (at_ 12 4 % 8)
  let size := at_ 24 4
  let valid := at_ 64 32
  let body := nq * qh * dim * fmtBits fmt / 8
  let recAt := ceilDiv body 64 * 64
  if seqHeaderReserved head then pure (some (outc St.rejected Rs.badField), {}, 0, 128, 0)
  else if fld d 36 31 0 < recAt + 8 * nq * qh then pure (some (outc St.rejected Rs.outSmall), {}, 0, 128, 0)
  else
    let live := (List.range slots).filter fun k => valid.testBit k
    let bytes ← live.mapM fun k => readDva env (part + w64 (2048 + k * size)) (nq * qh * (4 * dim + 16)) 1
    let okSeq := [St.ok, St.throttled, St.partial, St.tableChanged].contains status
    let missing := live.length ≠ slots || !okSeq
    let rows := (List.range (nq * qh)).map fun k =>
      let l := bytes.map fun b => partRec dim ((b.drop (k * (4 * dim + 16))).take (4 * dim + 16))
      match slots, l with
      | 1, [r] => r
      | _, _ => mergeRow dim missing l
    let conv := rows.map fun r => r.o.map fun x => convert fmt sat (f32 x)
    let flags := conv.foldl (fun (a : FmtFlags) l => l.foldl (fun a c => a.or c.2) a) {}
    let oBytes := conv.flatMap fun l => packRun fmt (l.map Prod.fst)
    let recs := rows.flatMap fun r => bytesLE 4 r.lse.toNat ++ bytesLE 4 r.flags
    writeDva env out oBytes 2
    writeDva env (out + w64 recAt) recs 2
    mergeCount env (nq * qh) dim (if slots = 1 && live.length = 1 then 0 else live.length * (nq * qh))
    pure (none, flags, rows.foldl (fun a r => a ||| r.flags) 0, (bytes.map List.length).sum, oBytes.length + recs.length)

/-- MERGE (R247, R248). -/
def mergeBody (slot : DescSlot) (env : Env) : M Done := do
  let d := slot.desc
  let range := ((slot.share.bind (·.range)).getD (0, fld d 40 12 0))
  let seqs := (List.range range.2).map (range.1 + ·)
  let l ← seqs.mapM (mergeSequence env d (dSaturate d))
  let outs := l.map fun r => r.1.getD {}
  let o := { combine seqs.length ((List.range seqs.length).zip outs) with map := 0 }
  let f := l.foldl (fun (a : FmtFlags) r => a.or r.2.1) {}
  let rows : Nat := l.foldl (fun a r => a ||| r.2.2.1) 0
  let reason := if rows / 2 % 8 ≠ 0 then Rs.inputFlagged else if rows.testBit 0 then Rs.emptyRow else f.reason
  let got := (l.map fun r => r.2.2.2.1).sum
  let put := (l.map fun r => r.2.2.2.2).sum
  let k := ceilDiv got 512
  let part := w64 (fld d 16 63 0) + w64 (range.1 * fld d 32 31 0)
  let out := w64 (fld d 24 63 0) + w64 (range.1 * fld d 36 31 0)
  let s ← get
  let p ← pathExcess env k part.toNat got
  pure { outc := if o.good then { o with reason := reason } else if o.status = St.partial then { o with reason := reason } else o
         cycles := k, head := s.walkTime env.t env.ctx part
         latency := s.dvaLatency env.t env.ctx false part + p + s.dvaPathTime env.t env.ctx out put + s.dvaLatency env.t env.ctx true out }

/-- MERGE (R247). -/
def execMerge (t : TileRef) (slot : Nat) (s : State) : Host.Outcome State Fault Refusal :=
  .next (s.runDesc t slot 0x19 noStop mergeBody)

end Sys2Proof.Machine
end

