-- ==== Sys2Proof/Machine/Digest.lean ====
section
/-! DEFINITION. Sys2Proof/Machine/Digest.lean: SHA-384 of FIPS 180-4, which R424, R425 and R434 name for every digest, and
HMAC-SHA-384 of FIPS 198-1, from which R432 derives keys. Both are as their standards give them. -/

namespace Sys2Proof.Machine

/-- The eighty round constants. -/
def shaK : List Nat :=
  [0x428A2F98D728AE22, 0x7137449123EF65CD, 0xB5C0FBCFEC4D3B2F, 0xE9B5DBA58189DBBC, 0x3956C25BF348B538, 0x59F111F1B605D019,
    0x923F82A4AF194F9B, 0xAB1C5ED5DA6D8118, 0xD807AA98A3030242, 0x12835B0145706FBE, 0x243185BE4EE4B28C,
    0x550C7DC3D5FFB4E2, 0x72BE5D74F27B896F, 0x80DEB1FE3B1696B1, 0x9BDC06A725C71235, 0xC19BF174CF692694] ++
  [0xE49B69C19EF14AD2, 0xEFBE4786384F25E3, 0x0FC19DC68B8CD5B5, 0x240CA1CC77AC9C65, 0x2DE92C6F592B0275, 0x4A7484AA6EA6E483,
    0x5CB0A9DCBD41FBD4, 0x76F988DA831153B5, 0x983E5152EE66DFAB, 0xA831C66D2DB43210, 0xB00327C898FB213F,
    0xBF597FC7BEEF0EE4, 0xC6E00BF33DA88FC2, 0xD5A79147930AA725, 0x06CA6351E003826F, 0x142929670A0E6E70] ++
  [0x27B70A8546D22FFC, 0x2E1B21385C26C926, 0x4D2C6DFC5AC42AED, 0x53380D139D95B3DF, 0x650A73548BAF63DE, 0x766A0ABB3C77B2A8,
    0x81C2C92E47EDAEE6, 0x92722C851482353B, 0xA2BFE8A14CF10364, 0xA81A664BBC423001, 0xC24B8B70D0F89791,
    0xC76C51A30654BE30, 0xD192E819D6EF5218, 0xD69906245565A910, 0xF40E35855771202A, 0x106AA07032BBD1B8] ++
  [0x19A4C116B8D2D0C8, 0x1E376C085141AB53, 0x2748774CDF8EEB99, 0x34B0BCB5E19B48A8, 0x391C0CB3C5C95A63, 0x4ED8AA4AE3418ACB,
    0x5B9CCA4F7763E373, 0x682E6FF3D6B2B8A3, 0x748F82EE5DEFB2FC, 0x78A5636F43172F60, 0x84C87814A1F0AB72,
    0x8CC702081A6439EC, 0x90BEFFFA23631E28, 0xA4506CEBDE82BDE9, 0xBEF9A3F7B2C67915, 0xC67178F2E372532B] ++
  [0xCA273ECEEA26619C, 0xD186B8C721C0C207, 0xEADA7DD6CDE0EB1E, 0xF57D4F7FEE6ED178, 0x06F067AA72176FBA, 0x0A637DC5A2C898A6,
    0x113F9804BEF90DAE, 0x1B710B35131C471B, 0x28DB77F523047D84, 0x32CAAB7B40C72493, 0x3C9EBE0A15C9BEBC,
    0x431D67C49C100D4C, 0x4CC5D4BECB3E42B6, 0x597F299CFC657E2A, 0x5FCB6FAB3AD6FAEC, 0x6C44198C4A475817]

/-- The eight initial words. -/
def shaStart : List Nat :=
  [0xCBBB9D5DC1059ED8, 0x629A292A367CD507, 0x9159015A3070DD17, 0x152FECD8F70E5939, 0x67332667FFC00B31, 0x8EB44A8768581511,
    0xDB0C2E0D64F98FA7, 0x47B5481DBEFA4FA4]

/-- A 64-bit word turned right. -/
def ror64 (x n : Nat) : Nat := x / 2 ^ n + x % 2 ^ n * 2 ^ (64 - n)

/-- Exclusive or of three words. -/
def xor3 (a b c : Nat) : Nat := (a ^^^ b) ^^^ c

/-- The working words of a round, and the message words to come, the next first. -/
structure ShaRound where
  a : Nat
  b : Nat
  c : Nat
  d : Nat
  e : Nat
  f : Nat
  g : Nat
  h : Nat
  w : List Nat
  deriving DecidableEq, Repr

/-- Sixteen message words moved on by one. -/
def shaNextWords (w : List Nat) : List Nat :=
  let at_ := fun i => (w[i]?).getD 0
  let x := at_ 1
  let y := at_ 14
  let s0 := xor3 (ror64 x 1) (ror64 x 8) (x / 2 ^ 7)
  let s1 := xor3 (ror64 y 19) (ror64 y 61) (y / 2 ^ 6)
  w.drop 1 ++ [(at_ 0 + s0 + at_ 9 + s1) % 2 ^ 64]

/-- One round with its constant. -/
def ShaRound.next (r : ShaRound) (k : Nat) : ShaRound :=
  let s1 := xor3 (ror64 r.e 14) (ror64 r.e 18) (ror64 r.e 41)
  let ch := (r.e &&& r.f) ^^^ ((2 ^ 64 - 1 - r.e) &&& r.g)
  let t1 := r.h + s1 + ch + k + (r.w.head?.getD 0)
  let s0 := xor3 (ror64 r.a 28) (ror64 r.a 34) (ror64 r.a 39)
  let maj := xor3 (r.a &&& r.b) (r.a &&& r.c) (r.b &&& r.c)
  { a := (t1 + s0 + maj) % 2 ^ 64, b := r.a, c := r.b, d := r.c, e := (r.d + t1) % 2 ^ 64, f := r.e, g := r.f, h := r.g
    w := shaNextWords r.w }

/-- The number that bytes spell, the highest first. -/
def beWord (b : List Byte) : Nat := b.foldl (fun n x => n * 256 + x.toNat) 0

/-- One block of 128 bytes taken into the eight words. -/
def shaBlock (h : List Nat) (b : List Byte) : List Nat :=
  let at_ := fun i => (h[i]?).getD 0
  let w := (List.range 16).map fun i => beWord ((b.drop (8 * i)).take 8)
  let r := shaK.foldl ShaRound.next
    { a := at_ 0, b := at_ 1, c := at_ 2, d := at_ 3, e := at_ 4, f := at_ 5, g := at_ 6, h := at_ 7, w := w }
  (h.zip [r.a, r.b, r.c, r.d, r.e, r.f, r.g, r.h]).map fun e => (e.1 + e.2) % 2 ^ 64

/-- `n` bytes of a number, the highest first. -/
def beBytes (n x : Nat) : List Byte := (List.range n).map fun i => BitVec.ofNat 8 (x / 2 ^ (8 * (n - 1 - i)))

/-- A message padded to whole blocks. -/
def shaPad (b : List Byte) : List Byte :=
  b ++ [0x80] ++ List.replicate ((239 - b.length % 128) % 128) 0 ++ beBytes 16 (8 * b.length)

/-- SHA-384 of a byte string: its 48 bytes. -/
def shaBytes (b : List Byte) : List Byte :=
  let p := shaPad b
  let h := (List.range (p.length / 128)).foldl (fun h i => shaBlock h ((p.drop (128 * i)).take 128)) shaStart
  ((h.take 6).flatMap (beBytes 8))

/-- A digest from its 48 bytes, the first byte lowest. -/
def digestOf (b : List Byte) : BitVec 384 := BitVec.ofNat 384 (natLE b)

/-- The 48 bytes of a digest. -/
def digestBytes (d : BitVec 384) : List Byte := bytesLE 48 d.toNat

/-- SHA-384 of a byte string. -/
def sha384 (b : List Byte) : BitVec 384 := digestOf (shaBytes b)

/-- HMAC-SHA-384 of a message under a key of at most 128 bytes: 48 bytes. -/
def hmac384 (key message : List Byte) : List Byte :=
  let pad := fun (n : Byte) => (padTo 128 key).map (· ^^^ n)
  shaBytes (pad 0x5C ++ shaBytes (pad 0x36 ++ message))

end Sys2Proof.Machine
end

