-- ==== Sys2Proof/Machine/Ecdsa.lean ====
section
/-! DEFINITION. Sys2Proof/Machine/Ecdsa.lean: ECDSA on P-384 as FIPS 186-5 and SP 800-186 give it, and what of X.509 and DER the checks
of a bundle read (R424, R425, R432). -/

namespace Sys2Proof.Machine

/-! ### The curve -/

/-- Prime, order, coefficient b and base point of P-384; its coefficient a is -3. -/
def p384 : Nat := 2 ^ 384 - 2 ^ 128 - 2 ^ 96 + 2 ^ 32 - 1
def n384 : Nat := 0xFFFFFFFFFFFFFFFFFFFFFFFFFFFFFFFFFFFFFFFFFFFFFFFFC7634D81F4372DDF581A0DB248B0A77AECEC196ACCC52973
def b384 : Nat := 0xB3312FA7E23EE7E4988E056BE3F82D19181D9C6EFE8141120314088F5013875AC656398D8A2ED19D2A85C8EDD3EC2AEF
def base384 : Nat × Nat :=
  (0xAA87CA22BE8B05378EB1C71EF320AD746E1D3B628BA79B9859F741E082542A385502F25DBF55296C3A545E3872760AB7
    , 0x3617DE4A96262C6F5D9E98BF9292DC29F8F41DBD289A147CE9DA3113B5F0B8C00A60B1CE1D7E819D7A431D7C90EA0E5F)

/-- A power modulo m, of an exponent of at most as many bits as the first argument says. -/
def modPow (m : Nat) : Nat → Nat → Nat → Nat
  | 0, _, _ => 1 % m
  | k + 1, b, e =>
    if e = 0 then 1 % m
    else
      let r := modPow m k (b * b % m) (e / 2)
      if e % 2 = 1 then r * b % m else r

/-- Inverse modulo a prime of 384 bits. -/
def modInv (m x : Nat) : Nat := modPow m 384 (x % m) (m - 2)

/-- The third point on a line of a slope through two points, mirrored. -/
def chord (slope : Nat) (a b : Nat × Nat) : Nat × Nat :=
  let x := (slope * slope + (2 * p384 - a.1 - b.1)) % p384
  (x, (slope * (a.1 + p384 - x) + (p384 - a.2)) % p384)

/-- The sum of two points; none is the point at infinity. -/
def addPoint : Option (Nat × Nat) → Option (Nat × Nat) → Option (Nat × Nat)
  | none, q => q
  | p, none => p
  | some a, some b =>
    if a.1 ≠ b.1 then some (chord ((b.2 + p384 - a.2) * modInv p384 (b.1 + p384 - a.1) % p384) a b)
    else if (a.2 + b.2) % p384 = 0 then none
    else some (chord ((3 * a.1 * a.1 + (p384 - 3)) * modInv p384 (2 * a.2) % p384) a b)

/-- A multiple of a point, of a factor of at most as many bits as the first argument says. -/
def mulPoint : Nat → Nat → Option (Nat × Nat) → Option (Nat × Nat)
  | 0, _, _ => none
  | k + 1, n, p =>
    if n = 0 then none
    else
      let r := mulPoint k (n / 2) (addPoint p p)
      if n % 2 = 1 then addPoint r p else r

/-- A point of the curve. -/
def onCurve (a : Nat × Nat) : Bool :=
  a.1 < p384 && a.2 < p384 && a.2 * a.2 % p384 = (a.1 * a.1 * a.1 + (p384 - 3) * a.1 + b384) % p384

/-- The 96 bytes of a point, x before y, and the point that 96 bytes spell. -/
def pointBytes (a : Nat × Nat) : List Byte := beBytes 48 a.1 ++ beBytes 48 a.2
def pointOf (b : List Byte) : Nat × Nat := (beWord (b.take 48), beWord ((b.drop 48).take 48))

/-! ### Signatures -/

/-- The number of a digest. -/
def digestNum (d : BitVec 384) : Nat := beWord (digestBytes d)

/-- The 96 bytes of a signature: r before s. -/
def sigBytes (r s : Nat) : List Byte := beBytes 48 r ++ beBytes 48 s

/-- ECDSA P-384 verification: the 96 bytes of a public key, a digest and the 96 bytes of a signature. -/
def ecdsaOk (key : List Byte) (d : BitVec 384) (sig : List Byte) : Bool :=
  let q := pointOf key
  let r := (pointOf sig).1
  let s := (pointOf sig).2
  let w := modInv n384 s
  key.length = 96 && sig.length = 96 && onCurve q && 1 ≤ r && r < n384 && 1 ≤ s && s < n384
    && match addPoint (mulPoint 384 (digestNum d * w % n384) (some base384)) (mulPoint 384 (r * w % n384) (some q)) with
      | some a => a.1 % n384 = r
      | none => false

/-- The private key that a secret of 48 bytes makes, and the public key of a private one. -/
def privateKey (secret : List Byte) : Nat := 1 + beWord secret % (n384 - 1)
def publicKey (d : Nat) : List Byte := pointBytes ((mulPoint 384 d (some base384)).getD (0, 0))

/-- The 96 bytes of a signature of a digest with a private key. The nonce is the signer's own: a free value. -/
def ecdsaSign (d : Nat) (digest : BitVec 384) : List Byte :=
  let k := 1 + Config.signNonce d digest % (n384 - 1)
  let r := ((mulPoint 384 k (some base384)).getD (0, 0)).1 % n384
  sigBytes r (modInv n384 k * (digestNum digest + r * d) % n384)

/-! ### DER -/

/-- An element of DER: its tag, all of its bytes, and its contents. -/
structure Der where
  tag : Byte
  whole : List Byte
  body : List Byte
  deriving DecidableEq, Repr

/-- Tag, bytes of tag and length, and length of the contents of the first element. -/
def derHead : List Byte → Option (Byte × Nat × Nat)
  | t :: l :: r =>
    if l.toNat < 128 then some (t, 2, l.toNat)
    else
      let n := l.toNat - 128
      if 1 ≤ n && n ≤ 4 && n ≤ r.length then some (t, 2 + n, beWord (r.take n)) else none
  | _ => none

/-- The first element of a byte string. -/
def derItem (b : List Byte) : Option Der :=
  match derHead b with
  | some (t, h, n) => if h + n ≤ b.length then some ⟨t, b.take (h + n), (b.drop h).take n⟩ else none
  | none => none

/-- The elements of a byte string, at most as many as the first argument says. -/
def derItems : Nat → List Byte → List Der
  | 0, _ => []
  | k + 1, b =>
    match derItem b with
    | some e => e :: derItems k (b.drop e.whole.length)
    | none => []

/-- The elements inside an element. -/
def Der.items (e : Der) : List Der := derItems 16 e.body

/-- An element of DER with a tag and contents of at most 65,535 bytes. -/
def derOf (tag : Byte) (body : List Byte) : List Byte :=
  let n := body.length
  [tag] ++ (if n < 128 then [BitVec.ofNat 8 n] else if n < 256 then [0x81, BitVec.ofNat 8 n] else [0x82] ++ beBytes 2 n) ++ body

/-- A number as a DER INTEGER of at most 49 bytes. -/
def derInt (n : Nat) : List Byte :=
  let b := (beBytes 48 n).dropWhile (· = 0)
  derOf 0x02 (if (b.head?.getD 0x80).toNat < 128 then b else 0 :: b)

/-- A signature in DER: a SEQUENCE of r and s. -/
def derSig (sig : List Byte) : List Byte := derOf 0x30 (derInt (pointOf sig).1 ++ derInt (pointOf sig).2)

/-- The 96 bytes of a signature given in DER. -/
def sigOfDer (b : List Byte) : Option (List Byte) :=
  match (derItem b).map Der.items with
  | some [r, s] => some (sigBytes (beWord r.body) (beWord s.body))
  | _ => none

/-- What the checks read of an X.509 certificate: its signed part, its public key and its signature. -/
structure Cert where
  signed : List Byte
  key : List Byte
  sig : List Byte
  deriving DecidableEq, Repr

/-- The public key of the signed part of a certificate: the subject's, an uncompressed point. -/
def certKey (signed : Der) : Option (List Byte) :=
  let l := if (signed.items.head?.map (·.tag)) = some 0xA0 then signed.items.drop 1 else signed.items
  match (l[5]?).map Der.items with
  | some [_, k] => if k.body.take 2 = [0, 4] && k.body.length = 98 then some (k.body.drop 2) else none
  | _ => none

/-- An X.509 certificate in DER. -/
def certOf (b : List Byte) : Option Cert :=
  match (derItem b).map Der.items with
  | some [signed, _, sig] =>
    match certKey signed, sigOfDer (sig.body.drop 1) with
    | some k, some g => some ⟨signed.whole, k, g⟩
    | _, _ => none
  | _ => none

/-- A certificate of a signed part, with the signature of its digest by a private key: ecdsa-with-SHA384. -/
def certBytes (d : Nat) (signed : List Byte) : List Byte :=
  derOf 0x30 (signed ++ derOf 0x30 (derOf 0x06 [0x2A, 0x86, 0x48, 0xCE, 0x3D, 0x04, 0x03, 0x03])
    ++ derOf 0x03 (0 :: derSig (ecdsaSign d (sha384 signed))))

end Sys2Proof.Machine
end

