-- ==== Sys2Proof/Machine/Pewter.lean ====
section
/-! DEFINITION. Sys2Proof/Machine/Pewter.lean: the Pewter units (chapter 08): PEWTER_MV and its start (R256 to R259), slices
(R260, R261, R267 to R271), the end of a sequence (R262) and FENCE (R263 to R266). -/

namespace Sys2Proof.Machine

/-! ### The fields of PEWTER_MV (R256) -/

/-- Elements per page (R254). -/
def pvKs (d : BitVec 512) : Nat := pewterKs (fld d 32 3 0) (fld d 32 5 4)
/-- `V`. -/
def pvV (d : BitVec 512) : Nat := fld d 33 6 4
/-- `ROWS`. -/
def pvRows (d : BitVec 512) : Nat := fld d 36 11 0
/-- First element of the span. -/
def pvK0 (d : BitVec 512) : Nat := fld d 40 15 0 * pvKs d
/-- Elements of the span. -/
def pvK1 (d : BitVec 512) : Nat := fld d 42 15 0 * pvKs d
/-- `VLOAD`. -/
def pvLoad (d : BitVec 512) : Bool := fld d 34 5 5 = 1
/-- `OUT_WS`. -/
def pvOutWs (d : BitVec 512) : Bool := fld d 34 6 6 = 1
/-- `ADD`. -/
def pvAdd (d : BitVec 512) : Bool := fld d 34 7 7 = 1
/-- Element and scale bytes read of a page (R254). -/
def pvPageBytes (d : BitVec 512) : Nat := runBytes (fld d 32 3 0) (pvKs d) + scaleCount (fld d 32 5 4) (pvKs d)
/-- Byte offset of the result of row `n` and vector `v` (R256). -/
def pvOut (d : BitVec 512) (n v : Nat) : Nat := v * fld d 52 31 0 + 4 * n

/-- Page indices of a sequence, ascending: rows, then segments (R255, R260). -/
def pvPages (d : BitVec 512) : List Nat :=
  (List.range (pvRows d)).flatMap fun n => (List.range (fld d 42 15 0)).map fun j => n * fld d 38 15 0 + (fld d 40 15 0 + j)

/-- DVA of a page (R255). -/
def pvDva (d : BitVec 512) (page : Nat) : BitVec 64 := w64 (fld d 16 63 0 + page * pageSize)

/-! ### Start (R257 to R259) -/

/-- The result halves held. -/
def Pewter.halves (p : Pewter) : List Nat := p.seqs.filterMap (·.half)

/-- A free result half. -/
def Pewter.freeHalf (p : Pewter) : Option Nat := (List.range 2).find? fun h => !p.halves.contains h

/-- The sequence at the head of the queue: the first PEWTER_MV, for fences pass those that wait (R259, R264). -/
def Tile.pewterHead (x : Tile) : Option (Nat × DescSlot) :=
  ((x.queue_ 7).filterMap fun i => (x.slot i).map fun d => (i, d)).find? fun e => dOpcode e.2.desc = 0x40

/-- The conditions of R259 hold. -/
def Pewter.mayStart (p : Pewter) (d : BitVec 512) : Bool :=
  (pvRows d = 0 || p.freeHalf.isSome) && !(pvLoad d && p.seqs.any fun q => !q.done && q.vslot = fld d 34 4 4)

/-- The vectors that a sequence without `VLOAD` needs are in its slot (R257, R258). -/
def VecSlot.serves (w : VecSlot) (d : BitVec 512) : Bool :=
  w.v = pvV d && w.fmt.toNat = fld d 33 3 0 && w.k0 ≤ pvK0 d && pvK0 d + pvK1 d ≤ w.k0 + w.k1

/-- An entry of those found that maps a DVA. -/
def findEntry (l : List XEntry) (ctx : Nat) (dva : BitVec 64) : Option XEntry := l.find? fun e => e.maps (ctx % 4096) dva

/-- The entry for a DVA, checked the first time its translation page is met (R257). -/
def startEntry (env : Env) (l : List XEntry) (dva : BitVec 64) (check : XEntry → M Unit) : M (List XEntry) := do
  match findEntry l env.ctx dva with
  | some _ => pure l
  | none =>
    let e ← atDva dva (translate env.t env.ctx dva 5)
    check e
    pure (l ++ [e])

/-- The address is of this package's stack memory, and of this tile's slice when `own` (R253, R257). -/
def localTo (env : Env) (own : Bool) (g : Nat) (dva : BitVec 64) : M Unit := do
  if pkgOf g ≠ (← get).self then M.stop St.range Rs.notLocal 5 dva
  if own && (!isStack (localOf g) || tileOfLocal (localOf g) ≠ env.t) then M.stop St.range Rs.notLocal 5 dva

/-- Check one weight page (R253); a region under reinitialisation counts as not computable (R280). The answer is the entries found and its place (index, slice page, bank). -/
def checkPage (env : Env) (d : BitVec 512) (acc : List XEntry × List (Nat × Nat × Nat)) (page : Nat) :
    M (List XEntry × List (Nat × Nat × Nat)) := do
  let dva := pvDva d page
  let l ← startEntry env acc.1 dva fun e => do
    localTo env true (e.global dva) dva
    if !e.canRead then M.stop St.range Rs.noRead 5 dva
    if !e.computable then M.stop St.rejected Rs.notComputable 5 dva
  let g := ((findEntry l env.ctx dva).map fun e => e.global dva).getD 0
  localTo env true g dva
  if (findEntry l env.ctx dva).any (·.mirrored) then mirrorReadable env.ctx dva pageSize 5
  let sp := localOf g % 2 ^ 31 / pageSize
  M.upd fun s => s.useRegion env.t sp
  let s ← get
  let g := (s.tile env.t).region (regionOf sp)
  match s.pageStop env.t sp with
  | some (st, rs) => if g.init && rs = Rs.regionInit then M.stop St.rejected Rs.notComputable 5 dva else M.stop st rs 5 dva
  | none =>
    let x := s.tile env.t
    if !g.computable then M.stop St.rejected Rs.notComputable 5 dva
    let loc := x.pageLoc sp
    pure (l, acc.2 ++ [(page, sp, 16 * loc.1 + loc.2.1)])

/-- Parts of a sequence's results in memory, cut at the smallest translation page. -/
def outParts (d : BitVec 512) : List (Nat × Nat) :=
  (List.range (pvV d)).flatMap fun v =>
    let n := 4 * pvRows d
    cutAt (2 ^ 21) (n / 2 ^ 21 + 2) (fld d 24 63 0 + pvOut d 0 v) n

/-- The checks made at the start, before anything is loaded or issued (R257). -/
def startChecks (d : BitVec 512) (env : Env) : M (List (Nat × Nat × Nat) × List XEntry × List XEntry) := do
  let p := ((← get).tile env.t).pewter
  if p.seqs.any fun q => q.half.isSome && q.tag = fld d 34 3 0 then M.stop St.rejected Rs.tagBusy
  if !pvLoad d then
    match kvFind p.vslots (fld d 34 4 4) with
    | none => M.stop St.rejected Rs.noVectors
    | some w => if !w.serves d then M.stop St.rejected Rs.noVectors
  let pages ← (pvPages d).foldlM (checkPage env d) (([], []) : List XEntry × List (Nat × Nat × Nat))
  if pvOutWs d || pvRows d = 0 then pure (pages.2, [], pages.1)
  else
    let outs ← (outParts d).foldlM (fun l a => startEntry env l (w64 a.1) fun e => do
      localTo env false (e.global (w64 a.1)) (w64 a.1)
      if !e.canWrite then M.stop St.range Rs.noWrite 5 (w64 a.1)
      if pvAdd d && !e.canRead then M.stop St.range Rs.noRead 5 (w64 a.1)) ([] : List XEntry)
    pure (pages.2, outs, pages.1)

/-- The vectors as they stand in the work store (R256, R258), and the column of an element that could not be read. -/
def loadVectors (x : Tile) (d : BitVec 512) (now : Nat) (e : StoreErr) : VecSlot :=
  { v := pvV d, fmt := BitVec.ofNat 4 (fld d 33 3 0), k0 := pvK0 d, k1 := pvK1 d, loadAt := now
    bad := (e.bad.map fun a => pvK0 d + (a - fld d 44 20 0) / 2 % pvK1 d).toList
    data := (List.range (pvV d)).map fun v =>
      (unpackRun 1 (pvK1 d) (cellRead x.ws (fld d 44 20 0 + v * 2 * pvK1 d) (2 * pvK1 d))).map fun n => BitVec.ofNat 16 n }

/-- Time of `n` bytes on a channel of 16 GB/s (R258, R265). -/
def channelTime (n : Nat) : Nat := ceilDiv (7 * n) 16

/-- Duration under the pause ratio, never less than the ratio asks (R273). -/
def State.paced (s : State) (n : Nat) : Nat := if s.tick.stepRatio < 1000 then ceilDiv (n * 1000) (1000 - s.tick.stepRatio) else n

/-- Start a sequence that has passed its checks (R258, R259). -/
def State.startSequence (s : State) (t : TileRef) (i : Nat) (d : DescSlot) (pages : List (Nat × Nat × Nat))
    (outs maps : List XEntry) (e : StoreErr) : State :=
  (s.modSlot t i fun d => { d with ph := .running }).modTile t fun x =>
    let x := x.dequeue i
    let p := x.pewter
    let half := if pvRows d.desc = 0 then none else p.freeHalf
    let q : PewSeq :=
      { slot := i, tag := fld d.desc 34 3 0, half := half, vslot := fld d.desc 34 4 4, desc := d.desc, job := d.job
        order := d.order, outs := outs, maps := maps.map fun e => (e.dva, 2 ^ e.size)
        twinMaps := (maps.filter (·.mirrored)).map fun e => (e.dva, 2 ^ e.size), todo := pages, startAt := s.time.now, lastEnd := s.time.now }
    { x with pewter := { p with
        vslots := if pvLoad d.desc then kvPut p.vslots (fld d.desc 34 4 4) (loadVectors x d.desc s.time.now e) else p.vslots
        seqs := p.seqs ++ [q] } }

/-- PEWTER_MV (R256): its descriptor joins the Pewter queue. -/
def execPewterMv (t : TileRef) (slot : Nat) (s : State) : Host.Outcome State Fault Refusal :=
  match (s.tile t).slot slot with
  | none => .next s
  | some d => .next (if dOpcode d.desc = 0x40 then s.dispatch t slot else s)

/-- PEWTER_SEQUENCE_START (R257 to R259): the sequence at the head starts, or completes at once on a failed check. An error in
the work store is one that its load meets (R148, R258). -/
def execPewterSequenceStart (t : TileRef) (e : StoreErr) (s : State) : Host.Outcome State Fault Refusal :=
  match (s.tile t).pewterHead with
  | none => .next s
  | some (i, d) =>
    if !s.tileUp t || !(s.tile t).pewter.mayStart d.desc then .next s
    else
      let env := d.env t i
      match (startChecks d.desc env).result s with
      | (.ok r, s') => .next ((if pvLoad d.desc then s'.countStore t e else s').startSequence t i d r.1 r.2.1 r.2.2 e)
      | (.error k, s') => .next ((s'.recordFault t k i env.ctx env.step).finishSlot t i (outc k.status k.reason))

/-! ### Slices (R260, R261, R267) -/

/-- Change the sequence of an order number. -/
def State.modSeq (s : State) (t : TileRef) (order : Nat) (f : PewSeq → PewSeq) : State :=
  s.modTile t fun x => { x with pewter := { x.pewter with
    seqs := x.pewter.seqs.map fun q => if q.order = order then f q else q } }

/-- Exact sum of a block's products times its scale, rounded once (R261 steps 1 to 3); a block of which no element enters is zero,
whatever its scale (R255). -/
def pewterBlock (wFmt smode vFmt : Nat) (scale : Nat) (l : List (Option (Nat × Nat))) : BitVec 32 :=
  let sum := sumFv (l.map fun e => match e with
    | some p => (decodeNum wFmt p.1).mul (decodeNum vFmt p.2)
    | none => .zero)
  if l.all (·.isNone) then 0 else toF32 (if smode = 0 then sum else sum.mul (scaleValue smode scale))

/-- A page's sum for one vector (R261 steps 1 to 4): `codes` and `scales` of the page, `vec` the vector's elements there,
`valid` the elements that enter. -/
def pewterPage (wFmt smode vFmt valid : Nat) (codes scales vec : List Nat) : BitVec 32 :=
  let size := if smode = 2 then 16 else 32
  let lanes := ((List.range codes.length).zip (codes.zip vec)).map fun e => if e.1 < valid then some e.2 else none
  let blocks := chunks size (codes.length / size + 1) lanes
  let sums := ((List.range blocks.length).zip blocks).map fun b =>
    pewterBlock wFmt smode vFmt ((scales[b.1]?).getD 0) b.2
  match sums with
  | [] => 0
  | a :: r => r.foldl addF a

/-- Key of a result-buffer entry. -/
def sumKey (bank row v : Nat) : Nat := (bank * 2048 + row) * 4 + v

/-- Reduce a page into the bank's entries (R261 step 5); entries start at +0.0. -/
def PewSeq.reduce (q : PewSeq) (w : VecSlot) (data : List Byte) (page bank : Nat) : PewSeq :=
  let d := q.desc
  let ks := pvKs d
  let wf := fld d 32 3 0
  let sm := fld d 32 5 4
  let row := page / fld d 38 15 0
  let seg := page % fld d 38 15 0
  let valid := if seg + 1 = fld d 38 15 0 && fld d 56 11 0 ≠ 0 then fld d 56 11 0 else ks
  let codes := unpackRun wf ks data
  let scales := ((data.drop (runBytes wf ks)).take (scaleCount sm ks)).map BitVec.toNat
  { q with
    sums := (List.range (pvV d)).foldl (fun l v =>
      let vec := ((((w.data[v]?).getD []).drop (seg * ks - w.k0)).take ks).map BitVec.toNat
      kvMod l (sumKey bank row v) 0 fun a => addF a (pewterPage wf sm w.fmt.toNat valid codes scales vec)) q.sums }

/-- The page's segment holds a column that cannot be read in the store of the bank's layer (R258, R262). -/
def PewSeq.badSegment (q : PewSeq) (w : VecSlot) (page bank : Nat) : Bool :=
  let seg := page % fld q.desc 38 15 0
  (w.bad ++ (w.badAt.filter fun e => e.1 = bank / 16).map Prod.snd).any fun k => seg * pvKs q.desc ≤ k && k < (seg + 1) * pvKs q.desc

/-- A vector slot whose segment for a page cannot be read in the store of one layer, from now on (R262). -/
def VecSlot.mark (w : VecSlot) (q : PewSeq) (page bank : Nat) (e : StoreErr) : VecSlot :=
  if e.bad = some 0 then { w with badAt := (bank / 16, page % fld q.desc 38 15 0 * pvKs q.desc) :: w.badAt } else w

/-- Errors that a slice meets: every result of the page's row becomes NaN for one in the vector's segment, and that result for
one in a result-buffer entry; the sequence is POISONED (R262). -/
def PewSeq.spoil (q : PewSeq) (w : VecSlot) (page bank : Nat) (e : StoreErr) : PewSeq :=
  let row := page / fld q.desc 38 15 0
  let q := if (q.badSegment w page bank || e.bad = some 0) then { q with nanRows := insertRising row q.nanRows, status := St.poisoned } else q
  match e.bad with
  | some (v + 1) => { q with sums := kvPut q.sums (sumKey bank row v) 0x7FC00000, status := St.poisoned }
  | _ => q

/-- When a bank may begin a page: its command has arrived, its segment is ready, and its rest under a pause ratio is over (R258, R260,
R273). -/
def State.sliceReady (s : State) (p : Pewter) (q : PewSeq) (w : VecSlot) (page bank : Nat) : Nat :=
  let ks := pvKs q.desc
  let upTo := (page % fld q.desc 38 15 0 + 1) * ks - w.k0
  max (max (q.startAt + ns 40) (w.loadAt + s.paced (channelTime (w.v * 2 * upTo)))) (kvGet p.rests bank 0)

/-- The first page that a bank is to read: sequences in the order of their starts (R260). -/
def Pewter.nextPage (p : Pewter) (bank : Nat) : Option (PewSeq × Nat × Nat) :=
  (p.seqs.filterMap fun q => (q.todo.find? fun e => e.2.2 = bank).map fun e => (q, e.1, e.2.1)).head?

/-- A bank's page marked poisoned is not read: its row becomes NaN (R262). -/
def State.skipPage (s : State) (t : TileRef) (q : PewSeq) (page : Nat) : State :=
  (s.modSeq t q.order fun q => { q with
    todo := q.todo.filter fun e => e.1 ≠ page
    nanRows := insertRising (page / fld q.desc 38 15 0) q.nanRows
    status := St.poisoned }).modTile t fun x => { x with pewter := { x.pewter with poison := pvDva q.desc page } }

/-- A page command that a disagreeing pair or a reinitialisation stops reads nothing (R279, R280): the sequence ends so, and the sums
that the row has in the bank are free values, for the spec does not state them: log entry 69. -/
def State.stopPage (s : State) (t : TileRef) (q : PewSeq) (page bank : Nat) (st rs : Code) : State :=
  let row := page / fld q.desc 38 15 0
  let k := s.free
  ({ s with free := k + pvV q.desc } : State).modSeq t q.order fun q => { q with
    todo := q.todo.filter fun e => e.1 ≠ page
    sums := (List.range (pvV q.desc)).foldl (fun l v =>
      kvPut l (sumKey bank row v) (BitVec.ofNat 32 (Config.freeBits 32 (k + v)))) q.sums
    status := if q.status = St.ok then st else q.status
    reason := if q.status = St.ok then rs else q.reason }

/-- What a page's row holds as a slice reads it, undecoded; what a MARCH left of it is free (R253, R301). -/
def State.sliceData (s : State) (t : TileRef) (sp : Nat) : List Byte × State :=
  if (s.tile t).mem.marched.contains sp then
    ((List.range pageSize).map fun i => BitVec.ofNat 8 (Config.freeBits 8 (s.free + i)), { s with free := s.free + pageSize })
  else (cellRead s.mem (pageAddr t sp) pageSize, s)

/-- Least time from a slice's start to the bank's next, so that the bank reads for at most (1,000 − P)/1,000 of it, and under the
limiter's stretch for at most 16/(16 + s) (R273, R443). -/
def State.sliceShare (s : State) (time : Nat) : Nat := max (s.paced time) (ceilDiv (time * (16 + s.power.stretch)) 16)

/-- A slice begins: the page is read and reduced, by the bank's unit or, for a unit out of service, by the fallback
reducer of its layer (R261, R267, R271). Under a pause ratio or a stretch the bank rests after it (R273, R443). -/
def State.beginSlice (s : State) (t : TileRef) (bank : Nat) (q : PewSeq) (w : VecSlot) (page sp : Nat) (e : StoreErr) : State :=
  let s := (s.mergeNarrow t sp).advanceTo (s.sliceReady (s.tile t).pewter q w page bank)
  let time := ceilDiv (7 * pvPageBytes q.desc) 2
  let fin := s.time.now + time
  let data := s.sliceData t sp
  let s := data.2.modSeq t q.order fun q => { (q.reduce w data.1 page bank).spoil w page bank e with
    todo := q.todo.filter fun e => e.1 ≠ page, lastEnd := max q.lastEnd fin }
  let s := s.modTile t fun x => { x with pewter := { x.pewter with
    vslots := kvPut x.pewter.vslots q.vslot (w.mark q page bank e)
    busy := kvPut x.pewter.busy bank (sp, fin, q.order)
    rests := if s.sliceShare time ≤ time then x.pewter.rests else kvPut x.pewter.rests bank (s.time.now + s.sliceShare time) } }
  let s := if (s.tile t).bankUp bank then
      s.modTile t fun x => { x.act 16 (pvPageBytes q.desc) with pewter := { x.pewter with pages := x.pewter.pages + 1 } }
    else
      (s.pageMoved t sp false).modTile t fun x => { x with pewter := { x.pewter with fallback := x.pewter.fallback + 1 } }
  s.modTile t fun x => x.note (some q.job) EngineQ.pewter.key s.time.now fin

/-- The fallback reducer of a layer serves a page of one of the layer's banks whose unit is out of service (R271). -/
def Tile.reducerBusy (x : Tile) (layer : Nat) : Bool := x.pewter.busy.any fun b => b.1 / 16 = layer && !x.bankUp b.1

/-- A page on a `TWIN_MIRRORED` leaf that the pair's state does not let be read (R356). -/
def PewSeq.twinStops (q : PewSeq) (w : TwinState) (page : Nat) : Bool :=
  let dva := pvDva q.desc page
  (q.twinMaps.any fun m => m.1 ≤ dva.toNat && dva.toNat < m.1 + m.2) && decide (w.way (q.job.toNat % 4096) dva = .refuse)

/-- PEWTER_SLICE (R260 to R262, R267, R271); the units of a held layer take no page commands (R301). The place of an uncorrectable error is 0 for the vector slot's segment and v + 1
for the result-buffer entry of vector v. -/
def execPewterSlice (t : TileRef) (bank : Nat) (e : StoreErr) (s : State) : Host.Outcome State Fault Refusal :=
  let x := s.tile t
  if !s.tileUp t || (kvFind x.pewter.busy bank).isSome || (!x.bankUp bank && x.reducerBusy (bank / 16)) then .next s
  else match x.pewter.nextPage bank with
  | none => .next s
  | some (q, page, sp) =>
    let s := s.useRegion t sp
    if x.poisoned sp || x.pageFailing sp then .next (s.skipPage t q page)
    else if !x.ilvAgrees (regionOf sp) then .next (s.stopPage t q page bank St.configMismatch 0)
    else if (x.region (regionOf sp)).init then .next (s.stopPage t q page bank St.rejected Rs.notComputable)
    else if q.twinStops s.twin page then .next (s.stopPage t q page bank St.notReady Rs.twinResync)
    else if x.mem.hold = some (bank / 16) then .next s
    else match kvFind x.pewter.vslots q.vslot with
    | none => .next s
    | some w => .next (s.beginSlice t bank q w page sp e)

/-- PEWTER_SLICE_END (R267, R268): the boundary; a refresh deferred by the slice is performed there. -/
def execPewterSliceEnd (t : TileRef) (bank : Nat) (s : State) : Host.Outcome State Fault Refusal :=
  match kvFind (s.tile t).pewter.busy bank with
  | none => .next s
  | some b =>
    if !s.clocksRun then .next s
    else .next ((s.advanceTo b.2.1).modTile t fun x => { x with pewter := { x.pewter with
      busy := kvErase x.pewter.busy bank
      deferred := x.pewter.deferred.filter (· ≠ bank) } })

/-! ### End of a sequence (R262) -/

/-- Nothing of a sequence is left to read, and no slice of it is in progress. -/
def Pewter.readThrough (p : Pewter) (q : PewSeq) : Bool := q.todo.isEmpty && !p.busy.any fun b => b.2.2.2 = q.order

/-- Time at which a sequence completes: 20 ns after its last slice, or at the end of its load (R259, R262). -/
def State.sequenceEnd (s : State) (q : PewSeq) : Nat :=
  if q.half.isSome then q.lastEnd + ns 20
  else q.startAt + s.paced (channelTime (pvV q.desc * pvK1 q.desc * 2))

/-- A sequence completes: a load-only one is gone, another waits for its fence, with the status it completed with (R259, R262,
R266). -/
def State.endSequence (s : State) (t : TileRef) (q : PewSeq) : State :=
  let s := s.advanceTo (s.sequenceEnd q)
  let s := s.modTile t fun x => { x with pewter := { x.pewter with
    seqs := (x.pewter.seqs.map fun k => if k.order = q.order then { k with
        done := true, status := (s.asCompleted (outc q.status q.reason)).status } else k).filter fun k =>
      k.order ≠ q.order || k.half.isSome } }
  s.finishSlot t q.slot (outc q.status q.reason)

/-- PEWTER_SEQUENCE_COMPLETE (R262). -/
def execPewterSequenceComplete (t : TileRef) (tag : Nat) (s : State) : Host.Outcome State Fault Refusal :=
  let p := (s.tile t).pewter
  match p.seqs.find? fun q => q.tag = tag && !q.done && p.readThrough q with
  | none => .next s
  | some q => .next (if s.tileUp t then s.endSequence t q else s)

/-! ### FENCE (R263 to R266) -/

/-- A result before the destination is added: the banks' entries in ascending bank order, times `SCALE`; NaN for a row of
R262 (R265). -/
def PewSeq.total (q : PewSeq) (row v : Nat) : BitVec 32 :=
  if q.nanRows.contains row then 0x7FC00000
  else
    let l := (List.range 256).filterMap fun b => kvFind q.sums (sumKey b row v)
    mulF (match l with
      | [] => 0
      | a :: r => r.foldl addF a) (BitVec.ofNat 32 (fld q.desc 48 31 0))

/-- Write one result, adding the destination when `ADD` is set (R265); results are not mirrored (R353). Each 4-byte result is a write of its own, for the check of an
append-only page too: DESIGN CHOICE, log entry 69. -/
def putResult (env : Env) (q : PewSeq) (row v : Nat) : M Unit := do
  let d := q.desc
  let r := q.total row v
  let sum := fun (old : List Byte) => if pvAdd d then addF r (BitVec.ofNat 32 (natLE old)) else r
  let a := fld d 24 63 0 + pvOut d row v
  if pvOutWs d then
    let old ← wsRead env.t a 4
    wsWrite env.t a (bytesLE 4 (sum old).toNat)
  else
    let dva := w64 a
    match findEntry q.outs env.ctx dva with
    | none => pure ()
    | some e =>
      if pvAdd d && e.mirrored then mirrorReadable env.ctx dva 4 5
      let old ← if pvAdd d then readGlobal env (e.global dva) 4 dva 5 else pure []
      let o := a % 2 ^ e.size
      if e.appendOnly then atDva dva (appendMark e dva o (o + 4) 5)
      writeGlobal env false (e.global dva) dva 5 (bytesLE 4 (sum old).toNat)

/-- Write a sequence's results: `ROWS` × `V` values (R256, R265). -/
def putResults (env : Env) (q : PewSeq) : M Unit :=
  (List.range (pvRows q.desc)).forM fun n => (List.range (pvV q.desc)).forM fun v => putResult env q n v

/-- Time of writing a sequence's results: at 358.4 GB/s to the work store, and at the rate of its path to memory (R265, R287). -/
def State.resultTime (s : State) (t : TileRef) (q : PewSeq) : Nat :=
  let d := q.desc
  if pvOutWs d then ceilDiv (5 * 4 * pvRows d * pvV d) 256
  else ((List.range (pvV d)).map fun v =>
    let dva := w64 (fld d 24 63 0 + pvOut d 0 v)
    ((findEntry q.outs (q.job.toNat % 4096) dva).map fun e => s.pathTimeTo t (localOf (e.global dva)) (4 * pvRows d)).getD 0).sum

/-- Duration of the fence of one sequence (R265). -/
def State.fenceTime (s : State) (t : TileRef) (q : PewSeq) : Nat :=
  let rec_ := if pvV q.desc ≤ 2 then 16 else 32
  let perLayer := (List.range 16).map fun l => (q.sums.filter fun e => e.1 % 4 = 0 && e.1 / 4 / 2048 / 16 = l).length
  ns 60 + channelTime (((perLayer.max?).getD 0) * rec_)
    + s.resultTime t q

/-- The sequences a fence covers that still wait in the queue (R264). -/
def Tile.coveredWaiting (x : Tile) (tags order : Nat) : Bool :=
  (x.queue_ 7).any fun i => match x.slot i with
    | some d => dOpcode d.desc = 0x40 && d.order < order && pvRows d.desc ≠ 0 && tags.testBit (fld d.desc 34 3 0)
    | none => false

/-- What the fence of a sequence meets of what the work store's code found: it reads the destination words that it adds to
(R148, R265). -/
def PewSeq.found (q : PewSeq) (e : StoreErr) : StoreErr :=
  if q.status ≠ St.aborted && pvOutWs q.desc && pvAdd q.desc then
    { e with bad := e.bad.filter fun a => (List.range (pvRows q.desc)).any fun n => (List.range (pvV q.desc)).any fun v =>
        a = fld q.desc 24 63 0 + pvOut q.desc n v }
  else {}

/-- Fence one completed sequence: its results are written, its half and tag are free (R264 to R266). A result added to a word
that cannot be read is a free value, and the outcome POISONED (R148). -/
def State.fenceOne (s : State) (t : TileRef) (i : Nat) (env : Env) (e : StoreErr) (q : PewSeq) : State :=
  let k := q.found e
  let put : M Unit := do
    putResults env q
    M.upd fun s => s.countStore t k
    if k.bad.isSome then wsWrite t (k.bad.getD 0) (← freeBytes 4)
  let r := if q.status = St.aborted then (Except.ok (), s) else put.result s
  let o := match r.1 with
    | .ok _ => if k.bad.isSome then outc St.poisoned 0 else outc q.status q.reason
    | .error e => outc e.status e.reason
  let s := match r.1 with
    | .ok _ => r.2
    | .error e => r.2.recordFault t e i env.ctx env.step
  let s := s.modTile t fun x => { x with pewter := { x.pewter with seqs := x.pewter.seqs.filter fun k => k.order ≠ q.order } }
  s.modSlot t i fun d => { d with
    ph := .running
    readyAt := max (max d.readyAt d.dispatchAt) (s.sequenceEnd q) + s.paced (s.fenceTime t q)
    members := d.members ++ [{ unit := 0, pos := d.members.length, report := some o }] }

/-- What is left of it for the sequences after: each finding is met once. -/
def PewSeq.leaves (q : PewSeq) (e : StoreErr) : StoreErr :=
  let k := q.found e
  { corrected := if k.corrected = e.corrected then 0 else e.corrected, bad := if k.bad.isSome then none else e.bad }

/-- Fence the covered sequences in dispatch order as far as they have completed (R264); `true` when none is left. -/
def State.fenceAll (s : State) (t : TileRef) (i tags order : Nat) (env : Env) (e : StoreErr) : Nat → State × Bool
  | 0 => (s, false)
  | n + 1 =>
    match (s.tile t).pewter.seqs.find? fun q => q.half.isSome && q.order < order && tags.testBit q.tag with
    | none => (s, !(s.tile t).coveredWaiting tags order)
    | some q => if q.done then State.fenceAll (s.fenceOne t i env e q) t i tags order env (q.leaves e) n else (s, false)

/-- A fence's outcome (R266). -/
def fenceOutcome (d : DescSlot) : Outc :=
  if d.members.isEmpty then outc St.ok Rs.fenceEmpty
  else combine d.members.length (d.members.map fun m => (m.pos, m.report.getD {}))

/-- FENCE (R263 to R266). -/
def execFence (t : TileRef) (slot : Nat) (e : StoreErr) (s : State) : Host.Outcome State Fault Refusal :=
  match (s.tile t).slot slot with
  | none => .next s
  | some d =>
    if !s.tileUp t || dOpcode d.desc ≠ 0x41 || d.applied || !(d.ph = .queued || d.ph = .running) then .next s
    else
      let r := s.fenceAll t slot (fld d.desc 16 15 0) d.order (d.env t slot) e 3
      if !r.2 then .next r.1
      else match (r.1.tile t).slot slot with
      | none => .next r.1
      | some f => .next (r.1.conclude t slot { outc := fenceOutcome f, endAt := some (max f.readyAt s.time.now) })

end Sys2Proof.Machine
end

