-- ==== Sys2Proof/Machine/Stop.lean ====
section
/-! DEFINITION. Sys2Proof/Machine/Stop.lean: stopping a tile (R514): what its engines leave of the descriptors they execute, the end of
its descriptors, shares and items, its Pewter units (R262, R272), and traps (R149, R150). -/

namespace Sys2Proof.Machine

/-! ### What an engine leaves of a descriptor that it is executing -/

/-- A sparse table between an old and a new one: where `keep` holds of a key the new entry, elsewhere the old. -/
def blendKV {α : Type} (keep : Nat → Bool) (old new : KV α) : KV α :=
  (new.filter fun e => keep e.1).foldl (fun l e => kvPut l e.1 e.2) (old.filter fun e => !keep e.1)

/-- A byte store between an old and a new one. -/
def blendCells (keep : Nat → Bool) (old new : List Host.Cell) : List Host.Cell :=
  (new.filter fun e => keep e.1).foldl (fun l e => cellPut l e.1 e.2) (old.filter fun e => !keep e.1)

/-- A list of pages between an old and a new one. -/
def blendPages (keep : Nat → Bool) (old new : List Nat) : List Nat :=
  (new.filter keep).foldl (fun l p => insertRising p l) (old.filter fun p => !keep p)

/-- The memory side of a slice between two: each page with its marks, its row and its waiting writes. -/
def TileMem.blend (keep : Nat → Bool) (old new : TileMem) : TileMem :=
  { old with
    poison := blendPages keep old.poison new.poison, marched := blendPages keep old.marched new.marched
    raw := blendKV keep old.raw new.raw, narrow := blendKV keep old.narrow new.narrow }

/-- The package with some of what a descriptor of a tile writes, `ran` being the package once it had written everything: any of the
bytes of the work store, of the accumulators, and of the pages of memory. Which ones an internal boundary lets through is free;
counters keep their values: log entry 68. -/
def State.blend (s ran : State) (t : TileRef) (k : Nat) : State :=
  let page := fun (o : TileRef) (p : Nat) => Config.stopKeeps k 2 (pageAddr o p / pageSize)
  let s := { s with
    mem := blendCells (fun a => Config.stopKeeps k 2 (a / pageSize)) s.mem ran.mem
    tiles := s.tiles.map fun (e : TileRef × Tile) => (e.1, { e.2 with mem := e.2.mem.blend (page e.1) (ran.tile e.1).mem }) }
  s.modTile t fun x => { x with
    ws := blendCells (Config.stopKeeps k 0) x.ws (ran.tile t).ws
    acc := blendKV (Config.stopKeeps k 1) x.acc (ran.tile t).acc }

/-- The messages that went out before the boundary. -/
def sentOf (k : Nat) (l : List (Msg × Bool)) : List (Msg × Bool) :=
  (((List.range l.length).zip l).filter fun e => Config.stopKeeps k 3 e.1).map Prod.snd

/-- What an engine does for a descriptor (R125). -/
def engineBody (op : Nat) : Option (DescSlot → Env → M Done) :=
  match op with
  | 0x10 => some matmulBody
  | 0x11 => some drainBody
  | 0x12 => some gemmBody
  | 0x18 => some vectorBody
  | 0x19 => some mergeBody
  | 0x20 => some loadBody
  | 0x21 => some storeBody
  | 0x22 => some copyBody
  | 0x23 => some gatherBody
  | 0x24 => some scatterBody
  | _ => none

/-- End a descriptor that an engine is executing at an internal boundary: some of its writes and messages are made, and the accumulator
rows that a MATMUL was updating hold unspecified values (R514). -/
def State.cutShort (s : State) (t : TileRef) (i : Nat) : State :=
  match (s.tile t).slot i with
  | none => s
  | some d =>
    match engineBody (dOpcode d.desc) with
    | none => s
    | some body =>
      let ran := ((body d (d.env t i)).result s).2
      let msgs := (((ran.tile t).slot i).map (·.toSend)).getD []
      let s := (({ s with free := ran.free + 1 } : State).blend ran t ran.free).sendQueued t i (sentOf ran.free msgs)
      if dOpcode d.desc = 0x10 then
        let a := matArgs d.desc
        ((freeRows t ((List.range (a.m * a.nb)).map (a.row + ·))).result s).2
      else s

/-- Descriptors of the matrix queue that the engine has taken up by a core time (R137 to R139). -/
def Tile.mxTaken (x : Tile) (now : Nat) : List Nat :=
  (x.mxWaiting.foldl (fun (acc : Tile × List Nat) e =>
    let d := e.2
    let taken := fun (start : Nat) => if start ≤ now then acc.2 ++ [e.1] else acc.2
    match dOpcode d.desc with
    | 0x10 =>
      let a := matArgs d.desc
      let start := acc.1.mxStart a d.dispatchCore
      (acc.1.takeGroups (a.run start), taken start)
    | 0x11 =>
      let a := drainArgs d.desc
      let start := acc.1.drainStart a d.dispatchCore
      (acc.1.takeDrain a start, taken start)
    | _ => (acc.1, taken (acc.1.gemmStart d.dispatchCore))) (x, [])).2

/-- Accumulator rows that MATMULs were still updating at a core time, of those whose sums are made (R137, R514). -/
def Tile.rowsUpdating (x : Tile) (now : Nat) : List Nat :=
  (x.slots.filter fun e => dOpcode e.2.desc = 0x10 && e.2.ph = .finished && e.2.result.status ≠ St.aborted && now < e.2.readyCore).flatMap
    fun e => let r := mxRows e.2.desc; (List.range r.2).map (r.1 + ·)

/-- The slots whose descriptors engines are executing: those that the matrix engine has taken up, and the first of every other queue
once its engine is free for it (R116). -/
def Tile.executing (x : Tile) (now : Nat) : List Nat :=
  let first := (List.range 5).filterMap fun k => (x.queue_ (k + 1)).head?
  (x.mxTaken now ++ first.filter fun i => match x.slot i with
    | some d => x.engineStart d ≤ now
    | none => false).filter fun i => match x.slot i with
    | some d => !d.applied && !d.split && (d.ph = .queued || d.ph = .running)
    | none => false

/-! ### Stopping a tile (R514) -/

/-- Complete the rest of a stopped tile's plan, never admitted. -/
def State.abortRest (s : State) (t : TileRef) (o : Outc) : State :=
  match (s.tile t).running with
  | none => s
  | some p =>
    let x := s.tile t
    let rest := ((List.range p.descs.length).zip p.descs).drop x.admitted
    let s := s.setTile t { x with admitted := p.descs.length }
    rest.foldl (fun s e =>
      let d : DescSlot := { desc := e.2, index := some e.1, job := p.job, step := p.step, wall := x.planWall }
      let c := s.completeOne t none d o
      State.completeSlots c.1 t slotFuel (c.2.map fun n => (n, outc St.aborted Rs.depFailed))) s

/-- A tile that holds nothing more for its engines: no share, item, lead or queue, no hold and no fill. A sequence that has not
completed loses its half (R262); one that waits for its fence keeps its own (R259). -/
def Tile.emptied (x : Tile) : Tile :=
  { x with
    shares := [], retry := [], items := [], leads := [], queues := [], holdEnd := none, fill := none
    pewter := { x.pewter with seqs := x.pewter.seqs.filter (·.done) } }

/-- Shares that a tile answers for when it stops: those it holds, and those of other packages that wait for a full queue of the stack it
leads (R126). -/
def Tile.sharesHeld (x : Tile) : List Share := x.shares ++ (x.retry.map Prod.snd).filter (·.leadMsg.isSome)

/-- Stop a tile: each engine ends what it executes at its next boundary, what it has finished keeps its result, and every other descriptor,
share and item completes ABORTED (R91, R514). -/
def State.stopTile (s : State) (t : TileRef) (reason : Code) : State :=
  let o := outc St.aborted reason
  let s := ((s.tile t).executing (s.coreNow (s.tile t))).foldl (fun s i => s.cutShort t i) s
  let s := ((freeRows t ((s.tile t).rowsUpdating (s.coreNow (s.tile t)))).result s).2
  let x := s.tile t
  let slots := x.slots.map fun e =>
    (e.1, if e.2.ph = .finished && e.2.readyAt ≤ s.time.now && e.2.readyCore ≤ s.coreNow x then e.2.result else o)
  let s := s.setTile t x.emptied
  let s := State.completeSlots s t slotFuel slots
  let s := x.sharesHeld.foldl (fun s sh => s.reportShare t sh o) s
  let s := x.items.foldl (fun s it => s.reportItem t it o false 0) s
  s.abortRest t o

/-- Discard a tile's queued plans; PLAN_STATUS keeps no detail of them (R89, R150). -/
def State.dropPlans (s : State) (t : TileRef) : State := s.modTile t fun x => { x with queue := [] }

/-- A tile leaves service: it stops, its plans go, and so do the halves and slots of its Pewter units (R89, R150, R272). -/
def State.retire (s : State) (t : TileRef) : State :=
  ((s.stopTile t 0).dropPlans t).modTile t fun x => { x with pewter := { x.pewter with vslots := [], seqs := [] } }

/-! ### Traps (R149, R150) -/

/-- A trap: the tile enters HALTED, its work is aborted, its plans discarded, and TILE_TRAP raised (R149, R150). -/
def State.trapTile (s : State) (t : TileRef) (code : Nat) (info : Word) : State :=
  let s := s.modTile t fun x => { x with trap := BitVec.ofNat 8 code, trapInfo := info }
  let s := (((s.retire t).tileState t .halted 3).settle (t / 64) 3).endDemand t
  s.raise Ev.tileTrap (s.tileId t) [w64 (s.tileId t).toNat, w64 code]

/-- Take a trap in a tile in service. -/
def State.takeTrap (s : State) (t : TileRef) (code : Nat) (info : Word) : State := if s.tileUp t then s.trapTile t code info else s

/-- SEQ_WATCHDOG (R149). -/
def execSeqWatchdog (t : TileRef) (info : Word) (s : State) : Host.Outcome State Fault Refusal := .next (s.takeTrap t 3 info)

/-- STORE_CONTROL (R149). -/
def execStoreControl (t : TileRef) (info : Word) (s : State) : Host.Outcome State Fault Refusal := .next (s.takeTrap t 2 info)

/-- FW_CHECK (R149). -/
def execFwCheck (t : TileRef) (info : Word) (s : State) : Host.Outcome State Fault Refusal := .next (s.takeTrap t 4 info)

end Sys2Proof.Machine
end

