-- ==== Sys2Proof/Machine/Commands.lean ====
section
/-! DEFINITION. Sys2Proof/Machine/Commands.lean: what every Normor command shares: parameters in memory (R390, R391), and access
to the BARs (R380, R412). -/

namespace Sys2Proof.Machine

/-- The function answers memory accesses: link up, configured, BARs assigned, and the window open (R412, R417). -/
def State.barOpen (s : State) : Bool :=
  s.brassRuns && s.bu.s0 && s.host.linkUp && s.host.configReady && s.host.barsOn

/-- Read any bytes of the own local address space, page by page. -/
def readOwn (a n kind : Nat) : M (List Byte) := do
  let parts ← (pageParts a n).mapM fun p => readLocal p.1 p.2 kind
  pure parts.flatten

/-- Write any bytes of the own local address space, page by page. -/
def writeOwn (a kind : Nat) (bytes : List Byte) : M Unit :=
  (pageParts a bytes.length).forM fun p => writeLocal p.1 kind ((bytes.drop (p.1 - a)).take p.2)

/-- A physical READ of another package by Brass (R335). -/
def physRead (s : State) (g n : Nat) : Msg :=
  { op := Op.read, phys := true, dst := pkgOf g, srcUnit := pkgUnit s.self, gaddr := g, length := n }

/-- A failed access to host memory ends a command (R391). -/
def State.hostFailed (s : State) (c : Cmd) (addr : Nat) (poisoned : Bool) : State :=
  let st := if poisoned then St.poisoned else St.range
  let rs := if poisoned then 0 else Rs.hostAbort
  (s.hostFault st rs 2 addr).finishWith c st rs

/-- Ask for a parameter in host memory (R391). -/
def State.askHost (s : State) (addr len : Nat) (use : HostUse) : State :=
  { s with host := { s.host with
      reads := s.host.reads ++ [{ id := s.host.nextRead, addr := w64 addr, len := len, use := use }]
      nextRead := s.host.nextRead + 1 } }

/-- The next part of a parameter in another package's memory, or the command's end when it cannot be reached (R516). -/
def State.askParam (s : State) (c : Cmd) (z : CmdSlot) (addr len : Nat) : State :=
  if s.cornis.txns.any fun x => x.user = .param c.ring c.tag then s
  else
    let got := z.paramPart.length
    match s.pathStop (pkgOf addr) with
    | some (st, rs) => s.finishWith c st rs
    | none => s.request (physRead s (addr + got) (min 8192 (len - got))) (.param c.ring c.tag)

/-- Run `k` with the `len` bytes at a command's address parameter: from its own package, from another or from host memory;
a command that waits for them is run again when they have come (R390, R391). -/
def State.withParam (s : State) (c : Cmd) (addr len : Nat) (k : State → List Byte → State) : State :=
  match s.cmdSlot c with
  | none => s
  | some z =>
    match z.param with
    | some (.good b) => if b.length < len then s.hostFailed c addr false else k s (b.take len)
    | some .poisoned => s.hostFailed c addr true
    | some .failed => s.hostFailed c addr false
    | none =>
      if len = 0 then k s []
      else if !c.devAddr then
        if !s.hostReach then s.hostFailed c addr false
        else if s.host.reads.any fun r => r.use = .parameter c.ring c.tag then s
        else s.askHost addr len (.parameter c.ring c.tag)
      else if 2 ^ 56 ≤ addr + len then s.finishWith c St.range Rs.localHole
      else if pkgOf addr = s.self then
        match (readOwn (localOf addr) len 9).result s with
        | (.ok b, s') => k (s'.modCmd c fun z => { z with param := some (.good b) }) b
        | (.error e, s') => s'.finishWith c e.status e.reason
      else if len ≤ z.paramPart.length then
        k (s.modCmd c fun y => { y with param := some (.good (z.paramPart.take len)) }) (z.paramPart.take len)
      else s.askParam c z addr len

end Sys2Proof.Machine
end

