-- ==== Sys2Proof/Machine/UnitCommands.lean ====
section
/-! DEFINITION. Sys2Proof/Machine/UnitCommands.lean: the commands of units, groups and translation (R112): records and their
exchange (R73, R75), STATE_DUMP (R406), MEMBER_STATUS (R86), groups (R76 to R79), removal and restoring (R89, R90), contexts
and translation caches (R98, R103, R517), and the fault records (R110). -/

namespace Sys2Proof.Machine

/-! ### Records -/

/-- UNIT_READ (R73): the record with the sections of the mask; a unit of another package is read by its owner, a pair or the
domain as this package sees it (R75). -/
def execUnitRead (c : Cmd) (s : State) : Host.Outcome State Fault Refusal :=
  .next (s.onCmd 0x0101 c fun s =>
    let here := fun (s : State) =>
      let bytes := s.recordBytes c.unit c.p0.toNat 65492
      s.finishData c bytes { result0 := w64 bytes.length, result1 := w64 (s.outAt s.depth c.unit).length }
    if unitLevel c.unit = 4 || unitLevel c.unit = 5 then here s else s.runAt c here)

/-- Record types of a dump (R406): the header and a body padded to 8 bytes. -/
def dumpRec (type : Nat) (unit : BitVec 32) (body : List Byte) : List Byte :=
  let n := ceilDiv body.length 8 + 1
  bytesLE 2 type ++ bytesLE 2 n ++ bytesLE 4 unit.toNat ++ padTo (8 * (n - 1)) body

/-- A register block: its offset and its words. -/
def State.dumpBlock (s : State) (unit : BitVec 32) (off words : Nat) : List Byte :=
  dumpRec 2 unit (bytesLE 8 off ++ s.regBytes off (8 * words))

/-- Queued plans of a tile. -/
def Tile.queueBytes (x : Tile) : List Byte :=
  x.queue.flatMap fun p => bytesLE 8 p.step ++ bytesLE 8 p.job.toNat ++ bytesLE 8 p.descs.length ++ bytesLE 8 p.energyUj

/-- PLAN_STATUS detail of one tile and step: step, job tag, status, reason, map and energy (R50). -/
def PlanHist.bytes (unit : BitVec 32) (h : PlanHist) : List Byte :=
  bytesLE 4 unit.toNat ++ bytesLE 2 h.job.toNat ++ bytesLE 1 h.outc.status.toNat ++ bytesLE 1 h.outc.reason.toNat
    ++ bytesLE 8 h.step ++ bytesLE 8 h.outc.map.toNat ++ bytesLE 8 h.energy

/-- A tile's part of a dump. -/
def State.dumpTile (s : State) (t : TileRef) : List Byte :=
  let u := s.tileId t
  let x := s.tile t
  dumpRec 1 u (s.recordBytes u 15 65492) ++ s.dumpBlock u (tileBlock t) 1024 ++ dumpRec 3 u x.queueBytes
    ++ dumpRec 4 u (x.history.flatMap (PlanHist.bytes u)) ++ dumpRec 7 u (x.kv.flatMap KvSlot.bufferRecord)

/-- A stack's part. -/
def State.dumpStack (s : State) (st : Nat) : List Byte :=
  dumpRec 1 (stackUnit s.self st) (s.recordBytes (stackUnit s.self st) 15 65492)
    ++ (List.range 64).flatMap fun i => s.dumpTile (64 * st + i)

/-- A ring's record. -/
def State.dumpRing (s : State) (r : Nat) : List Byte :=
  let x := s.ring r
  dumpRec 10 (pkgUnit s.self) (s.regBytes (0x100108 + 0x20 * r) 8 ++ bytesLE 8 x.sqTail.toNat ++ bytesLE 8 x.cqHead.toNat
    ++ ((s.host.slots.filter fun k => ringNo k.cmd = r && k.cmd.origin.isNone).flatMap fun k =>
      bytesLE 2 k.cmd.opcode.toNat ++ bytesLE 2 k.cmd.tag.toNat ++ bytesLE 4 k.cmd.unit.toNat ++ bytesLE 8 k.startAt.toNat))

/-- Register blocks of Brass, from the host-interface block to the security block (R379). -/
def brassBlocks : List Nat := [0x100000, 0x101000, 0x102000, 0x103000, 0x104000, 0x105000, 0x106000, 0x108000, 0x109000, 0x10A000]

/-- What follows the stacks in a package's dump. -/
def State.dumpBrass (s : State) : List Byte :=
  let u := pkgUnit s.self
  (brassBlocks.flatMap fun o => s.dumpBlock u o 512)
    ++ (s.units.groups.flatMap fun g => dumpRec 5 (groupUnit s.self g.1) (bytesLE 8 g.1 ++ g.2.flatMap fun m => bytesLE 4 m.toNat))
    ++ ((s.units.contexts.filter fun k => k.2.root ≠ 0).flatMap fun k => dumpRec 6 u (bytesLE 8 k.1 ++ contextBytes k.2))
    ++ dumpRec 8 u ((List.range 1024).flatMap fun p => bytesLE 2 (kvGet s.cornis.routes p 0).toNat)
    ++ dumpRec 9 u (s.tick.forecast.flatMap fun e => bytesLE 2 e)
    ++ ((List.range 16).flatMap s.dumpRing)
    ++ dumpRec 11 u (s.regBytes 0x100308 8 ++ s.regBytes 0x100310 8 ++ s.regBytes 0x100320 8
      ++ bytesLE 8 ((s.events.log.head?.map (·.seq)).getD s.events.next))

/-- The END record (R406). -/
def State.dumpEnd (s : State) (u : BitVec 32) (body : List Byte) : List Byte :=
  let now := s.time.invar.toNat
  let n := (s.changeCount 0).toNat
  body ++ dumpRec 0xFF u (bytesLE 8 now ++ bytesLE 8 now ++ bytesLE 8 n ++ bytesLE 8 n ++ bytesLE 8 (body.length + 48))

/-- A dump of an own unit; a group's is the dumps of the tiles and stacks it lists. -/
def State.dumpAt (s : State) : Nat → BitVec 32 → List Byte
  | 0, _ => []
  | d + 1, u =>
    match unitLevel u with
    | 1 => if unitPkg u = s.self then s.dumpTile (unitTileRef u) else []
    | 2 => if unitPkg u = s.self then s.dumpStack (unitStack u) else []
    | 3 =>
      if unitPkg u ≠ s.self then []
      else dumpRec 1 u (s.recordBytes u 15 65492) ++ dumpRec 1 (pairUnit (s.self / 2)) (s.recordBytes (pairUnit (s.self / 2)) 15 65492)
        ++ ((List.range 24).flatMap s.dumpStack) ++ s.dumpBrass
    | _ => (s.members u).flatMap (s.dumpAt d)

/-- STATE_DUMP (R406). -/
def execStateDump (c : Cmd) (s : State) : Host.Outcome State Fault Refusal :=
  .next (s.onCmd 0x0102 c fun s => s.runReplicated c fun s u => (s, { data := s.dumpEnd u (s.dumpAt s.depth u) }))

/-- Number under which a ring's commands are kept for the one who asks: a guest's own ring stands for the guest's own
commands (R506). -/
def ringKey (c : Cmd) (r : Nat) : Nat := if c.guest.isSome && c.ring % 16 = r then c.ring else r

/-- MEMBER_STATUS (R86). -/
def execMemberStatus (c : Cmd) (s : State) : Host.Outcome State Fault Refusal :=
  .next (s.onCmd 0x0103 c fun s =>
    match s.host.details.find? fun d => d.ring = ringKey c c.p0.toNat && d.tag.toNat = c.p1.toNat with
    | none => s.finishWith c St.range 0
    | some d => s.finishData c (d.members.flatMap fun m =>
        bytesLE 4 m.1.toNat ++ bytesLE 1 m.2.1.status.toNat ++ bytesLE 1 m.2.1.reason.toNat ++ bytesLE 2 m.2.2) {})

/-- This package's record for the others (R75). -/
def State.ownRemoteRec (s : State) : RemoteRec :=
  let u := pkgUnit s.self
  { package := s.self, state := BitVec.ofNat 8 s.units.package.code, suspect := false, changeCount := s.changeCount 0
    sampleNs := s.time.invar, cap := s.packageCap.map w64, ctr := (s.ctrAt s.depth u).map w64, outList := s.outAt s.depth u
    stackRecs := (List.range 24).map fun st => (BitVec.ofNat 8 (s.stackState st).code, (s.tilesOf st).length)
    tileRecs := s.tiles.map fun e => (e.1, BitVec.ofNat 8 e.2.unit.code, (s.tileCtr e.1).map w64)
    groups := s.units.groups }

/-- The units whose records this package sends: itself, its stacks, its tiles and its groups (R75). -/
def State.recordUnits (s : State) : List (BitVec 32) :=
  [pkgUnit s.self] ++ (List.range 24).map (stackUnit s.self) ++ s.tiles.map (fun e => s.tileId e.1)
    ++ s.units.groups.map fun g => groupUnit s.self g.1

/-- The RECORD messages that bring this package's unit records to another: the bytes of a slot copy, of at most 8,192 to a message
(R73, R75, R320). -/
def State.recordMsgs (s : State) (dst : Nat) : List Msg :=
  s.recordUnits.flatMap fun u =>
    let b := s.recordBytes u 15 1024
    (chunks 8192 b.length b).map fun c =>
      { op := 0x08, dst := dst, srcUnit := pkgUnit s.self, vc := 3, length := c.length, data := c }

/-- Send this package's records to another (R75). -/
def State.sendRecords (s : State) (dst : Nat) : State :=
  (s.recordMsgs dst).foldl State.sendMsg { s with out := { s.out with records := s.out.records ++ [(dst, s.ownRemoteRec)] } }

/-- RECORD_SEND (R75): the package sends its records to every package of the domain it can reach. -/
def execRecordSend (s : State) : Host.Outcome State Fault Refusal :=
  .next (if !s.clocksRun then s
    else (s.domainPkgs.filter fun p => p ≠ s.self && (s.pathStop p).isNone).foldl State.sendRecords s)

/-! ### Groups -/

/-- Lists of groups that a check knows, by group identifier. -/
abbrev GroupLists := List (BitVec 32 × List (BitVec 32))

/-- The list of a group, when known. -/
def listOf (l : GroupLists) (u : BitVec 32) : Option (List (BitVec 32)) := (l.find? fun e => e.1 = u).map Prod.snd

/-- A group reaches a group through the lists known; the fuel bounds the depth. -/
def reachesGroup (l : GroupLists) (target : BitVec 32) : Nat → BitVec 32 → Bool
  | 0, _ => false
  | f + 1, u => ((listOf l u).getD []).any fun m => unitLevel m = 7 && (m = target || reachesGroup l target f m)

/-- The tiles that a unit covers, as ranges of tiles numbered 2048 p + 64 s + t. -/
def tileRanges (l : GroupLists) : Nat → BitVec 32 → List (Nat × Nat)
  | 0, _ => []
  | f + 1, u =>
    let p := 2048 * unitPkg u
    match unitLevel u with
    | 1 => [(p + unitTileRef u, 1)]
    | 2 => [(p + 64 * unitStack u, 64)]
    | 3 => [(p, 2048)]
    | 4 => [(4096 * unitPair u, 4096)]
    | 5 => [(0, 2097152)]
    | 7 => ((listOf l u).getD []).flatMap (tileRanges l f)
    | _ => []

/-- Two ranges of a list meet. -/
def rangesMeet : List (Nat × Nat) → Bool
  | [] => false
  | a :: r => r.any (fun b => a.1 < b.1 + b.2 && b.1 < a.1 + a.2) || rangesMeet r

/-- Groups that a list names and whose own lists are not known. -/
def unknownGroups (l : GroupLists) : Nat → BitVec 32 → List (BitVec 32)
  | 0, _ => []
  | f + 1, u =>
    match listOf l u with
    | none => [u]
    | some m => (m.filter fun k => unitLevel k = 7).flatMap (unknownGroups l f)

/-- The conditions of R77 on a new list, in order. -/
def State.groupCheck (s : State) (l : GroupLists) (g : Nat) (count : Nat) (new : List (BitVec 32)) : Option Code :=
  let me := groupUnit s.self g
  let others := ((s.units.groups.filter fun k => k.1 ≠ g).map fun k => k.2.length).sum
  let fuel := l.length + 2
  if new.any fun m => !unitValid m then some Rs.badUnit
  else if count = 0 || 4096 < count || 65536 < others + count then some Rs.badCount
  else if reachesGroup l me fuel me then some Rs.groupCycle
  else if ((s.units.groups.map Prod.fst).filter fun k => k = g || reachesGroup l me fuel (groupUnit s.self k)) ++ [g] |>.any
      fun k => rangesMeet (tileRanges l (fuel + 1) (groupUnit s.self k)) then some Rs.groupOverlap
  else none

/-- Ask the owner of a group of another package for its list, with GROUP_READ (R77); the answer brings up to 4,096 identifiers. -/
def State.askGroup (s : State) (c : Cmd) (u : BitVec 32) : State :=
  let q : Cmd := { opcode := 0x0112, tag := c.tag, p0 := w64 (unitGroup u), ret := 64, retLen := 0xFFFF }
  let r : State × Member := match s.pathStop (unitPkg u) with
    | some (st, rs) => (s, { unit := u, pos := 0, report := some (outc st rs), remote := true })
    | none => (s.request (controlMsg q s.self (unitPkg u) 0 []) (.command c.ring c.tag u)
      , { unit := u, pos := 0, sentAt := s.time.now, remote := true })
  r.1.modCmd c fun k => { k with members := k.members ++ [r.2] }

/-- The identifiers that bytes hold. -/
def unitList (bytes : List Byte) : List (BitVec 32) := (chunks 4 bytes.length bytes).map fun b => BitVec.ofNat 32 (natLE b)

/-- Write a group once every list it depends on is known (R77). -/
def State.writeGroup (s : State) (c : Cmd) (g count : Nat) (new : List (BitVec 32)) : State :=
  match s.cmdSlot c with
  | none => s
  | some z =>
    let me := groupUnit s.self g
    let own : GroupLists := (me, new) :: ((s.units.groups.filter fun k => k.1 ≠ g).map fun k => (groupUnit s.self k.1, k.2))
    let come := z.members.filterMap fun m => m.report.map fun o => (m.unit, if o.status = St.ok then unitList (m.bytes 0x0112) else [])
    let l := own ++ come
    let above := (s.units.groups.map fun k => groupUnit s.self k.1).filter fun k => k ≠ me && reachesGroup l me (l.length + 2) k
    let need := ((me :: above).flatMap (unknownGroups l (l.length + 2))).filter fun u => unitPkg u ≠ s.self
    if z.members.any fun m => m.report.isNone then s
    else if z.members.any fun m => match m.report with
        | some o => o.status ≠ St.ok && !(o.status = St.rejected && o.reason = Rs.noGroup)
        | none => false then s.finishWith c St.notReady Rs.noResponse
    else if new.all unitValid && !need.isEmpty then need.eraseDups.foldl (fun (s : State) u => s.askGroup c u) s
    else match s.groupCheck l g count new with
      | some r => s.finishWith c St.rejected r
      | none =>
        let old := s
        let s := { s with units := { s.units with groups := kvPut s.units.groups g new } }
        (State.noteGroups (s.bump ((2048 + g) :: ((s.units.groups.map Prod.fst).filter fun k => reachesGroup l me (l.length + 2) (groupUnit s.self k)).map
          (2048 + ·))) old 0).finish c {}

/-- GROUP_WRITE (R77). -/
def execGroupWrite (c : Cmd) (s : State) : Host.Outcome State Fault Refusal :=
  .next (s.onCmd 0x0110 c fun s =>
    s.withParam c c.p2.toNat (4 * c.p1.toNat) fun s b => s.writeGroup c c.p0.toNat c.p1.toNat (unitList b))

/-- GROUP_DELETE (R78). -/
def execGroupDelete (c : Cmd) (s : State) : Host.Outcome State Fault Refusal :=
  .next (s.onCmd 0x0111 c fun s =>
    let g := c.p0.toNat
    if (kvFind s.units.groups g).isNone then s.finishWith c St.rejected Rs.noGroup
    else if s.units.groups.any fun k => k.2.contains (groupUnit s.self g) then s.finishWith c St.rejected Rs.groupInUse
    else ({ s with units := { s.units with groups := kvErase s.units.groups g } } : State).finish c {})

/-- GROUP_READ (R112). -/
def execGroupRead (c : Cmd) (s : State) : Host.Outcome State Fault Refusal :=
  .next (s.onCmd 0x0112 c fun s =>
    match kvFind s.units.groups c.p0.toNat with
    | none => s.finishWith c St.rejected Rs.noGroup
    | some l => s.finishData c (l.flatMap fun m => bytesLE 4 m.toNat) { result0 := w64 (4 * l.length) })

/-! ### Removal and restoring (R88 to R90) -/

/-- A tile leaves service, by command or after a fatal fault of its stack: its work is aborted and its plans discarded (R89, R514). -/
def State.removeTile (s : State) (t : TileRef) (cause : Nat := 4) : State :=
  if !(s.tile t).unit.inService then s
  else ((s.retire t).tileState t .removed cause).endDemand t

/-- A stack leaves service with all its tiles (R88, R89). -/
def State.removeStack (s : State) (st : Nat) (cause : Nat := 4) : State :=
  if !s.stackUp st then s
  else
    let s := (s.tilesOf st).foldl (fun (s : State) t => s.removeTile t cause) s
    (s.setStackState st .removed cause).settlePkg cause

/-- UNIT_REMOVE (R89). -/
def execUnitRemove (c : Cmd) (s : State) : Host.Outcome State Fault Refusal :=
  .next (s.onCmd 0x0120 c fun s => s.runAt c fun s =>
    if unitLevel c.unit = 2 then (s.removeStack (unitStack c.unit)).finish c {}
    else ((s.removeTile (unitTileRef c.unit)).settle (unitStack c.unit) 4).finish c {})

/-- A tile as it returns to service (R90): READY, or DEGRADED under R70 while a channel or bank of it is out, its
firmware reloaded. -/
def State.restoreTile (s : State) (t : TileRef) : State :=
  let s := s.modTile t fun x => { x with
    queue := [], running := none, sems := [], xlt := [], slots := [], shares := [], icache := [], started := [] }
  let s := s.writeCode t
  let full := ({ s.tile t with unit := .ready } : Tile).whole
  s.tileState t (if full then .ready else .degraded) 0

/-- Outcome of restoring a unit that is not REMOVED (R90). -/
def restoreRefusal : UnitSt → Option (Code × Code)
  | .absent => some (St.rejected, Rs.fusedOff)
  | .halted => some (St.rejected, Rs.unitHalted)
  | .ready => some (St.rejected, Rs.inService)
  | .degraded => some (St.rejected, Rs.inService)
  | .starting => some (St.notReady, Rs.notStarted)
  | .removed => none
  | .unreachable => none

/-- Restore a stack: the tiles under test are those neither ABSENT nor HALTED (R90). -/
def State.restoreStack (s : State) (c : Cmd) (st : Nat) (headFails : List Nat) (tileFails : List TileRef) : State :=
  match restoreRefusal (s.stackState st) with
  | some (a, b) => s.finishWith c a b
  | none =>
    let tested := ((List.range 64).map (64 * st + ·)).filter fun t => (s.tile t).unit = .removed
    let good := tested.filter fun t => !tileFails.contains t
    let bad := tested.filter fun t => tileFails.contains t
    if headFails.contains st || good.isEmpty then s.finishWith c St.notReady Rs.testFailed
    else
      let s := bad.foldl (fun (s : State) t => s.tileState t .removed 2) s
      let s := good.foldl (fun (s : State) t => s.restoreTile t) s
      let s := (s.setStackState st (s.stackLevel st) 0).settlePkg 0
      let s := s.setDetail c (tested.map fun t =>
        ([(t % 64, 64, s.tileId t)], if tileFails.contains t then outc St.notReady Rs.testFailed else {}))
      s.finish c { status := if bad.isEmpty then St.ok else St.partial, map := w64 (tileBits bad st), detail := true }

/-- UNIT_RESTORE (R90); the operands say which known-answer runs fail. -/
def execUnitRestore (c : Cmd) (headFails : List Nat) (tileFails : List TileRef) (s : State) :
    Host.Outcome State Fault Refusal :=
  .next (s.onCmd 0x0121 c fun s => s.runAt c fun s =>
    let st := unitStack c.unit
    let t := unitTileRef c.unit
    if unitLevel c.unit = 2 then s.restoreStack c st headFails tileFails
    else match restoreRefusal (s.tile t).unit with
      | some (a, b) => s.finishWith c a b
      | none =>
        if !s.stackUp st then s.finishWith c St.notReady Rs.stackOut
        else if tileFails.contains t then s.finishWith c St.notReady Rs.testFailed
        else ((s.restoreTile t).settle st 0).finish c {})

/-! ### Translation -/

/-- Set a context and remove its entries from every tile's cache (R98). -/
def State.setContext (s : State) (ctx : Nat) (f : Context → Context) : State :=
  let k := f (s.context ctx)
  let s := { s with units := { s.units with
    contexts := if k = ({} : Context) then kvErase s.units.contexts ctx else kvPut s.units.contexts ctx k } }
  (s.invalidateContext ctx).pairWritten ctx k.sealed

/-- XLT_SET_BASE (R98, R112). The parameter carries the field `ROOT`, address bits [55:12], in its low bits (R390);
zero disables the context (R97). -/
def execXltSetBase (c : Cmd) (s : State) : Host.Outcome State Fault Refusal :=
  .next (s.onCmd 0x0201 c fun s => s.runPackages c fun s =>
    let r := 4096 * c.p1.toNat
    if r ≠ 0 && (s.nodeLocal r).isNone then (s, outc St.rejected Rs.badEntry, [])
    else (s.setContext c.p0.toNat fun k => { k with root := r, baseSeal := BitVec.ofNat 8 c.p2.toNat }, {}, []))

/-- XLT_SET_LIMIT (R98, R112). -/
def execXltSetLimit (c : Cmd) (s : State) : Host.Outcome State Fault Refusal :=
  .next (s.onCmd 0x0202 c fun s => s.runPackages c fun s =>
    if 256 < c.p1.toNat || 256 < c.p2.toNat then (s, outc St.rejected Rs.badEntry, [])
    else (s.setContext c.p0.toNat fun k =>
      { k with pos := c.p1.toNat, neg := c.p2.toNat, limitSeal := BitVec.ofNat 8 c.p3.toNat }, {}, []))

/-- XLT_INVALIDATE (R103): it completes once no access that used an old entry is in flight. -/
def execXltInvalidate (c : Cmd) (s : State) : Host.Outcome State Fault Refusal :=
  .next (s.onCmd 0x0203 c fun s =>
    let ctx := c.p0.toNat
    let range := some (c.p1.toNat, c.p1.toNat + c.p2.toNat)
    if (s.tilesReached (s.depth + 2) c.unit).any fun t => (s.tile t).inFlight ctx range then s
    else s.runTiles c fun s t => (s.modTile t fun x => x.invalidate ctx range, {}))

/-- XLT_READ (R112). -/
def execXltRead (c : Cmd) (s : State) : Host.Outcome State Fault Refusal :=
  .next (s.onCmd 0x0204 c fun s => s.finishData c (contextBytes (s.context c.p0.toNat)) { result0 := 32 })

/-- Translation of a probe: a hit is read from the cache and left as it is (R517). -/
def probe (t : TileRef) (ctx : Nat) (dva : BitVec 64) : M (XEntry × Bool) := do
  contextCheck ctx dva 0
  match ((← get).tile t).xlt.find? (fun e => e.maps ctx dva) with
  | some e => pure (e, true)
  | none => pure (← translatePlain ctx dva 0, false)

/-- XLT_PROBE (R517). -/
def execXltProbe (c : Cmd) (s : State) : Host.Outcome State Fault Refusal :=
  .next (s.onCmd 0x0205 c fun s => s.runAt c fun s =>
    let t := unitTileRef c.unit
    if !s.tileUp t then s.finishWith c St.notReady 0
    else match (probe t (c.p0.toNat % 4096) c.p1).result s with
      | (.ok (e, hit), s') => s'.finishOk c (w64 (e.global c.p1)) (w64 (4 * e.prot.toNat + if hit then 256 else 0))
      | (.error e, s') => s'.finishWith c e.status e.reason)

/-! ### Fault records (R110) -/

/-- A tile's fault record as FAULT_READ gives it: the tile, then the registers of R110. -/
def State.faultBytes (s : State) (t : TileRef) : List Byte := bytesLE 8 (s.tileId t).toNat ++ s.regBytes (tileBlock t + 0x100) 40

/-- FAULT_READ (R112). -/
def execFaultRead (c : Cmd) (s : State) : Host.Outcome State Fault Refusal :=
  .next (s.onCmd 0x0210 c fun s => s.runReplicated c fun s u =>
    let r := State.replicate (fun s _ => (s, ({} : Outc))) (s.depth + 2) s u
    let tiles := (s.tilesReached (s.depth + 2) u).filter fun t => (s.tile t).fault.valid
    (s, { o := r.2.1, data := tiles.flatMap fun t => s.faultBytes t, parts := r.2.2 }))

/-- FAULT_STATUS_CLEAR (R110): the W1C bits of `FAULT_STATUS`. -/
def execFaultStatusClear (t : TileRef) (w : Word) (s : State) : Host.Outcome State Fault Refusal :=
  if !s.barOpen || !tileOk t then .next s
  else .next (s.modTile t fun x =>
    let more := x.fault.more && !bitAt w 1
    { x with fault := if bitAt w 0 then { more := more } else { x.fault with more := more } })

end Sys2Proof.Machine
end

