-- ==== Sys2Proof/Machine/StackMemory.lean ====
section
/-! DEFINITION. Sys2Proof/Machine/StackMemory.lean: stack memory as an agent of its own (chapter 09): verdicts (R284 to R288),
refresh and scrubbing (R268, R294, R295), reinitialisation (R280), spares (R299), the repair window (R301) and the memory
commands (R303). -/

namespace Sys2Proof.Machine

/-! ### Verdicts (R284, R286, R292) -/

/-- Narrow writes that wait on a page whose verdict is uncorrectable are lost, unless together they cover it (R288). -/
def State.dropNarrow (s : State) (t : TileRef) (page : Nat) : State :=
  match kvFind (s.tile t).mem.narrow page with
  | none => s
  | some ws => if (List.range pageSize).all fun o => ws.any fun w => w.1 = o then s.mergeNarrow t page else s.loseNarrow t page

/-- The verdict that stands: what the stored page decodes to where the repair window has changed it, else the verdict met.
A computable page has no corrected verdict, and more than t bits are not corrected (R290, R291). -/
def State.standing (s : State) (t : TileRef) (page : Nat) (v : Verdict) : Verdict :=
  let g := (s.tile t).region (regionOf page)
  match s.decodePage t page with
  | none => .uncorrectable
  | some (_, n) =>
    if n ≠ 0 then .corrected n
    else match v with
      | .clean => .clean
      | .uncorrectable => .uncorrectable
      | .corrected n => if g.computable || strength g.t < n then .uncorrectable else .corrected n

/-- Act on the verdict of a page read; `always` writes a corrected page back, as a scrub does (R286, R294). -/
def State.applyVerdict (s : State) (t : TileRef) (page kind : Nat) (v : Verdict) (always : Bool) : State :=
  match s.standing t page v with
  | .clean => s.mergeNarrow t page
  | .uncorrectable => (s.poisonPage t page kind).dropNarrow t page
  | .corrected n =>
    let s := match s.decodePage t page with
      | some (data, _) => s.correctPage t page data n always
      | none => s
    s.mergeNarrow t page true

/-- A slice page of the tile's code page (R423). -/
def Tile.codePage (x : Tile) (page : Nat) : Bool :=
  let first := (x.topRegion + 1) * 32768 - 4096
  first ≤ page && page < first + 2048

/-- A fill of the sequencer's instruction cache with a page of the code page: it holds 64 KiB, the oldest page leaving; uncorrectable
data traps, those of a failing channel too (R113, R149, R293, R299). -/
def State.fillCode (s : State) (t : TileRef) (page : Nat) : State :=
  if (s.tile t).poisoned page || (s.tile t).pageFailing page then s.takeTrap t 1 (w64 (s.self * 2 ^ 46 + pageAddr t page))
  else s.modTile t fun x => { x with icache := (page :: x.icache.filter (· ≠ page)).take 32 }

/-- PAGE_VERDICT (R284 to R288, R292, R293): the verdict of a read under way. A page whose poison bit is set is not read, and has the
uncorrectable outcome. A read of kind 9 of a tile's code page is a fill of its instruction cache: DEDUCED, log entry 66. -/
def execPageVerdict (t : TileRef) (page kind : Nat) (v : Verdict) (s : State) : Host.Outcome State Fault Refusal :=
  if !tileOk t || 2 ^ 20 ≤ page || !s.clocksRun || (s.pageStop t page).isSome then .next s
  else
    let fills := kind = 9 && (s.tile t).codePage page && s.tileUp t
    let reads := !((s.tile t).poisoned page || (s.tile t).pageFailing page)
    let s := if fills && reads then s.pageMoved t page false else s
    let s := if reads then s.applyVerdict t page kind v false else s
    .next (if fills then s.fillCode t page else s)

/-! ### Refresh (R268, R295) -/

/-- REFRESH: performed, or deferred to the boundary of the bank's slice (R268). -/
def execRefresh (t : TileRef) (layer bank : Nat) (s : State) : Host.Outcome State Fault Refusal :=
  let b := 16 * layer + bank
  if !s.clocksRun || !tileOk t || 16 ≤ layer || 16 ≤ bank || (kvFind (s.tile t).pewter.busy b).isNone then .next s
  else .next (s.modTile t fun x =>
    if x.pewter.deferred.contains b then x
    else { x with pewter := { x.pewter with deferred := insertRising b x.pewter.deferred, waitRef := x.pewter.waitRef + 1 } })

/-! ### Scrubbing (R294) -/

/-- A region whose pages the scrubber passes over. -/
def Tile.scrubSkips (x : Tile) (r : Nat) : Bool := (x.region r).init || !x.regionPresent r

/-- The next page from `p` on that a pass reads, below `last`; none when there is none. -/
def Tile.scrubNext (x : Tile) (last : Nat) : Nat → Nat → Option Nat
  | 0, _ => none
  | f + 1, p =>
    if last ≤ p then none
    else if x.scrubSkips (regionOf p) then x.scrubNext last f ((regionOf p + 1) * 32768)
    else if x.poisoned p then x.scrubNext last f (p + 1)
    else some p

/-- Steps that suffice to find the next page. -/
def Tile.scrubFuel (x : Tile) : Nat := 128 + x.mem.poison.length

/-- The scrubber reads a page (R294); an ordinary access that a disagreeing pair or a held layer stops reads nothing (R279, R301). -/
def State.scrubRead (s : State) (t : TileRef) (page : Nat) (v : Verdict) : State :=
  let s := (s.useRegion t page).awaitSlice t page
  if (s.pageStop t page).isSome || (s.tile t).pageFailing page then s else (s.pageMoved t page false).applyVerdict t page 7 v true

/-- One page of the first demand pass; its end is its command's end for the tile. -/
def State.scrubDemand (s : State) (t : TileRef) (c : Cmd) (heads : List Nat) (rest : List (Cmd × List Nat)) (v : Verdict) : State :=
  match heads with
  | [] =>
    (s.modTile t fun x => { x with mem := { x.mem with demand := rest } }).memberDone c (s.tileId t) {} []
  | h :: hs =>
    let x := s.tile t
    match x.scrubNext ((h / 32768 + 1) * 32768) x.scrubFuel h with
    | none => s.modTile t fun x => { x with mem := { x.mem with demand := (c, hs) :: rest } }
    | some p =>
      let next := if (p + 1) % 32768 = 0 then hs else (p + 1) :: hs
      let s := (s.scrubRead t p v).modTile t fun x => { x with mem := { x.mem with demand := (c, next) :: rest } }
      if next.isEmpty then
        (s.modTile t fun x => { x with mem := { x.mem with demand := rest } }).memberDone c (s.tileId t) {} []
      else s

/-- One page of the periodic pass; a pass that ends begins again at page 0. -/
def State.scrubPeriodic (s : State) (t : TileRef) (v : Verdict) : State :=
  let x := s.tile t
  let wrap := fun (s : State) => s.modTile t fun x => { x with mem := { x.mem with
    scrubPasses := x.mem.scrubPasses + 1, scrubPos := 0 } }
  match x.scrubNext (2 ^ 20) x.scrubFuel x.mem.scrubPos with
  | none => wrap s
  | some p =>
    let s := s.scrubRead t p v
    if p + 1 = 2 ^ 20 then wrap s else s.modTile t fun x => { x with mem := { x.mem with scrubPos := p + 1 } }

/-- SCRUB_PAGE (R294): the next page of a demand pass or of the periodic one; the two take turns, for they run alongside: DESIGN
CHOICE, log entry 66. -/
def execScrubPage (t : TileRef) (v : Verdict) (s : State) : Host.Outcome State Fault Refusal :=
  if !tileOk t || !s.clocksRun || !s.stackUp (t / 64) then .next s
  else
    let x := s.tile t
    let turn := fun (s : State) (b : Bool) => s.modTile t fun x => { x with mem := { x.mem with scrubTurn := b } }
    match x.mem.demand with
    | (c, heads) :: rest =>
      .next (if x.mem.scrubTurn && x.mem.scrubPeriod ≠ 0 then turn (s.scrubPeriodic t v) false
        else turn (s.scrubDemand t c heads rest v) true)
    | [] => .next (if x.mem.scrubPeriod = 0 then s else s.scrubPeriodic t v)

/-! ### Reinitialisation (R280) -/

/-- REINITIALISATION_END: every page of the region holds zeros, no poison bit is set, and the region is in use again. -/
def execReinitialisationEnd (t : TileRef) (region : Nat) (s : State) : Host.Outcome State Fault Refusal :=
  if !tileOk t || 32 ≤ region || !s.clocksRun || !((s.tile t).region region).init then .next s
  else
    let other := fun (page : Nat) => regionOf page ≠ region
    let s : State := { s with mem := cellZero s.mem (pageAddr t (32768 * region)) (2 ^ 26) }
    let s := s.modTile t fun x => { x.countRegion region with mem := { x.mem with
      regions := kvPut x.mem.regions region { x.region region with init := false }
      poison := x.mem.poison.filter other
      marched := x.mem.marched.filter other
      raw := x.mem.raw.filter fun e => other e.1
      narrow := x.mem.narrow.filter fun e => other e.1 } }
    .next (s.raise Ev.regionReady (s.tileId t) [w64 (s.tileId t).toNat, w64 region])

/-! ### Spares (R299) -/

/-- Change a channel's registers. -/
def State.modChannel (s : State) (t : TileRef) (l : Nat) (f : Channel → Channel) : State :=
  s.modTile t fun x => { x with mem := { x.mem with channels := kvMod x.mem.channels l {} f } }

/-- A channel in service of a tile leaves service: the tile, its stack and the package show it (R70, R299). -/
def State.failChannelAt (s : State) (t : TileRef) (l : Nat) : State :=
  let s := s.modChannel t l fun c => { c with state := 2, cause := 3 }
  let s := if (s.tile t).unit = .ready then s.tileState t .degraded 3 else s.bumpTile t
  (s.settle (t / 64) 3).raise Ev.channelFailed (s.tileId t) [w64 (s.tileId t).toNat, w64 l]

/-- CONNECTION_SPARE_SWITCH (R299): after 16 link CRC failures a free spare takes over, or the channel is failing. -/
def execConnectionSpareSwitch (t : TileRef) (layer conn : Nat) (s : State) : Host.Outcome State Fault Refusal :=
  if !tileOk t || 16 ≤ layer || 70 ≤ conn || !s.clocksRun || ((s.tile t).channel layer).state ≠ 0 then .next s
  else
    let s := s.modChannel t layer fun c => { c with linkErrs := c.linkErrs + 16 }
    let c := (s.tile t).channel layer
    let said := fun (s : State) => s.raise Ev.spareSwitched (s.tileId t) [w64 (s.tileId t).toNat, w64 layer, w64 conn]
    if c.spare68 = 0x7F then .next (said (s.modChannel t layer fun c => { c with spare68 := BitVec.ofNat 7 conn }))
    else if c.spare69 = 0x7F then .next (said (s.modChannel t layer fun c => { c with spare69 := BitVec.ofNat 7 conn }))
    else .next (s.failChannelAt t layer)

/-! ### The repair window (R300, R301) -/

/-- Layer, bank, row and column that `REPAIR_SEL` selects. -/
def Tile.selected (x : Tile) : Nat × Nat × Nat × Nat :=
  let w := x.mem.repairSel
  (bitsOf w 3 0, bitsOf w 7 4, bitsOf w 19 8, bitsOf w 29 20)

/-- The slice page that a row of a bank of a layer holds, under the interleave in force or, while the pair disagrees, the one under which
the pages still lie (R278, R279, R298). -/
def Tile.pageAt (x : Tile) (l b row : Nat) : Option Nat :=
  let cand :=
    if x.degraded then
      [row * 16 * x.remaining.length + (x.remaining.filter (· < l)).length * 16 + b]
    else
      let k := row / 256
      [32768 * k + (row % 128) * 256 + l * 16 + b, 32768 * (k + 16) + (row % 128) * 256 + l * 16 + b,
       32768 * k + (row % 256) * 128 + l % 8 * 16 + b, 32768 * (k + 16) + (row % 256) * 128 + l % 8 * 16 + b]
  cand.find? fun p => p < 2 ^ 20 && x.regionPresent (regionOf p) && x.pageLoc p = (l, b, row)

/-- The outcome of a repair operation. -/
def State.repairEnd (s : State) (t : TileRef) (op result : Nat) : State :=
  s.modTile t fun x => { x with mem := { x.mem with repairCmd := w64 op, repairResult := BitVec.ofNat 3 result } }

/-- Run a repair operation: not while one is in progress; without `HOLD` only RAW_READ does anything (R301). A channel mapped
out is no selection: DEDUCED, log entry 41. -/
def State.repairOp (s : State) (t : TileRef) (op : Nat) (f : State → Nat → Nat → Nat → Nat → State) : State :=
  if !s.barOpen || !tileOk t || !s.clocksRun || (s.tile t).mem.repairBusy then s
  else
    let x := s.tile t
    let (l, b, row, col) := x.selected
    if x.mem.hold.isNone && op ≠ 1 then s.repairEnd t op 2
    else if (x.channel l).state = 1 then s.repairEnd t op 3
    else f s l b row col

/-- REPAIR_CTL_WRITE (R301): `HOLD` may be set only while the tile is STARTING, REMOVED or HALTED. -/
def execRepairCtlWrite (t : TileRef) (w : Word) (s : State) : Host.Outcome State Fault Refusal :=
  if !s.barOpen || !tileOk t then .next s
  else
    let x := s.tile t
    let ok := x.unit = .starting || x.unit = .removed || x.unit = .halted
    if !bitAt w 0 then .next (s.setTile t { x with mem := { x.mem with hold := none } })
    else if ok then .next (s.setTile t { x with mem := { x.mem with hold := some x.selected.1 } })
    else .next s

/-- Free bytes that stand for contents the spec leaves undefined. -/
def State.freeBytes (s : State) (n : Nat) : List Byte × State :=
  ((List.range n).map fun i => BitVec.ofNat 8 (Config.freeBits 8 (s.free + i)), { s with free := s.free + n })

/-- A row and its check area as stored (R301); undefined contents are free. -/
def State.rawRow (s : State) (t : TileRef) (page : Option Nat) : List Byte × State :=
  match page with
  | none => s.freeBytes 2176
  | some p =>
    let x := s.tile t
    if x.mem.marched.contains p then s.freeBytes 2176
    else
      let data := cellRead s.mem (pageAddr t p) pageSize
      (data ++ padTo 128 (((kvFind x.mem.raw p).map Prod.fst).getD (checkArea (x.region (regionOf p)) data)), s)

/-- RAW_READ (R301): the row and its check area, undecoded. -/
def execRawRead (t : TileRef) (s : State) : Host.Outcome State Fault Refusal :=
  .next (s.repairOp t 1 fun s l b row _ =>
    let r := s.rawRow t ((s.tile t).pageAt l b row)
    (r.2.modTile t fun x => { x with mem := { x.mem with repairBuf := cellWrite [] 0 r.1 } }).repairEnd t 1 0)

/-- RAW_WRITE (R301): the buffer to the row, unencoded; the poison bit stays as it is. -/
def execRawWrite (t : TileRef) (s : State) : Host.Outcome State Fault Refusal :=
  .next (s.repairOp t 2 fun s l b row _ =>
    let buf := cellRead (s.tile t).mem.repairBuf 0 2176
    match (s.tile t).pageAt l b row with
    | none => s.repairEnd t 2 0
    | some p =>
      let was := match s.decodePage t p with
        | some d => d.1
        | none => cellRead s.mem (pageAddr t p) pageSize
      let s : State := { s with mem := cellWrite s.mem (pageAddr t p) (buf.take pageSize) }
      (s.modTile t fun x => { x with mem := { x.mem with
        raw := kvPut x.mem.raw p (buf.drop pageSize, was)
        marched := x.mem.marched.filter (· ≠ p) } }).repairEnd t 2 0)

/-- Apply a repair of a row or column when a spare, and for a fuse-backed one a fuse entry, is free (R300). A repair already
made keeps its spare; a soft one may become fuse-backed. -/
def State.repair (s : State) (t : TileRef) (op l b n : Nat) (col fuse : Bool) : State :=
  let x := s.tile t
  let same := x.mem.repairs.find? fun r => r.1 = l && r.2.1 = b && r.2.2.1 = n && r.2.2.2.1 = col
  let used := (x.mem.repairs.filter fun r => r.1 = l && r.2.1 = b && r.2.2.2.1 = col).length
  let fuses := (x.mem.repairs.filter fun r => r.1 = l && r.2.2.2.2).length
  let others := x.mem.repairs.filter fun r => !(r.1 = l && r.2.1 = b && r.2.2.1 = n && r.2.2.2.1 = col)
  let put := fun (f : Bool) => (s.modTile t fun x => { x with mem := { x.mem with
    repairs := others ++ [(l, b, n, col, f)] } }).repairEnd t op 0
  match same with
  | some r => if r.2.2.2.2 || !fuse then s.repairEnd t op 0 else if 128 ≤ fuses then s.repairEnd t op 1 else put true
  | none => if (if col then 4 else 32) ≤ used || (fuse && 128 ≤ fuses) then s.repairEnd t op 1 else put fuse

/-- SOFT_ROW (R300, R301). -/
def execSoftRow (t : TileRef) (s : State) : Host.Outcome State Fault Refusal :=
  .next (s.repairOp t 3 fun s l b row _ => s.repair t 3 l b row false false)

/-- SOFT_COL (R300, R301): columns 0 to 543. -/
def execSoftCol (t : TileRef) (s : State) : Host.Outcome State Fault Refusal :=
  .next (s.repairOp t 4 fun s l b _ col => if 543 < col then s.repairEnd t 4 3 else s.repair t 4 l b col true false)

/-- FUSE_ROW (R300, R301). -/
def execFuseRow (t : TileRef) (s : State) : Host.Outcome State Fault Refusal :=
  .next (s.repairOp t 5 fun s l b row _ => s.repair t 5 l b row false true)

/-- FUSE_COL (R300, R301). -/
def execFuseCol (t : TileRef) (s : State) : Host.Outcome State Fault Refusal :=
  .next (s.repairOp t 6 fun s l b _ col => if 543 < col then s.repairEnd t 6 3 else s.repair t 6 l b col true true)

/-- CLEAR_SOFT (R301): the bank's soft repairs go. -/
def execClearSoft (t : TileRef) (s : State) : Host.Outcome State Fault Refusal :=
  .next (s.repairOp t 7 fun s l b _ _ =>
    (s.modTile t fun x => { x with mem := { x.mem with
      repairs := x.mem.repairs.filter fun r => !(r.1 = l && r.2.1 = b && !r.2.2.2.2) } }).repairEnd t 7 0)

/-- MARCH (R301): the bank's contents are undefined from here on, and its pages read as uncorrectable until written whole. -/
def execMarch (t : TileRef) (s : State) : Host.Outcome State Fault Refusal :=
  .next (s.repairOp t 8 fun s l b _ _ =>
    let x := s.tile t
    let pages := (List.range 4096).filterMap fun row => x.pageAt l b row
    (s.modTile t fun x => { x with mem := { x.mem with
      repairBusy := true
      marched := (x.mem.marched.filter fun p => !pages.contains p) ++ pages
      raw := x.mem.raw.filter fun e => !pages.contains e.1 } }).repairEnd t 8 0)

/-- MARCH_COMPLETE (R301). -/
def execMarchComplete (t : TileRef) (errs : BitVec 32) (s : State) : Host.Outcome State Fault Refusal :=
  if !s.clocksRun || !tileOk t || !(s.tile t).mem.repairBusy then .next s
  else .next (s.modTile t fun x => { x with mem := { x.mem with repairBusy := false, repairResult := 0, marchErrs := errs } })

/-! ### Memory commands (R303) -/

/-- Regions of a mask. -/
def maskRegions (w : Word) : List Nat := (List.range 32).filter fun r => bitAt w r

/-- Change a region's settings. -/
def State.modRegion (s : State) (t : TileRef) (r : Nat) (f : Region → Region) : State :=
  s.modTile t fun x => { x with mem := { x.mem with regions := kvMod x.mem.regions r {} f } }

/-- A region takes a code and strength; a change of code reinitialises it (R280). -/
def Region.recode (g : Region) (computable : Bool) (t : BitVec 3) : Region :=
  let changed := g.computable ≠ computable || (!computable && g.t ≠ t)
  { g with computable := computable, t := t, init := g.init || changed }

/-- REGION_SET_CODE (R280, R303, R423). -/
def execRegionSetCode (c : Cmd) (s : State) : Host.Outcome State Fault Refusal :=
  .next (s.onCmd 0x0220 c fun s =>
    if 6 ≤ c.p2.toNat then s.finishWith c St.rejected Rs.badField
    else s.runTiles c fun s t =>
      let rs := maskRegions c.p0
      let x := s.tile t
      if rs.contains x.topRegion then (s, outc St.rejected Rs.fwRegion)
      else ((rs.filter x.regionPresent).foldl (fun (s : State) r =>
          s.modRegion t r fun g => g.recode (c.p1 = 1) (BitVec.ofNat 3 c.p2.toNat)) s,
        if rs.all x.regionPresent then {} else outc St.range Rs.channelOut))

/-- A tile's regions take an interleave; a pair that changed and now agrees is reinitialised (R279, R280). -/
def State.setInterleave (s : State) (t : TileRef) (rs : List Nat) (ilv : BitVec 2) : State :=
  let changed := rs.filter fun r => ((s.tile t).region r).ilv ≠ ilv
  let s := rs.foldl (fun (s : State) r => s.modRegion t r fun g => { g with ilv := ilv }) s
  let s := rs.foldl (fun (s : State) r => s.pairWritten (regionKey t r) ((s.tile t).ilvAgrees r)) s
  ((changed.map (· % 16)).dedup).foldl (fun (s : State) r =>
    if (s.tile t).ilvAgrees r then
      (s.modRegion t r fun g => { g with init := true, laid := g.ilv }).modRegion t (r + 16) fun g => { g with
        init := true, laid := g.ilv }
    else s) s

/-- REGION_SET_INTERLEAVE (R279, R298, R303, R423). -/
def execRegionSetInterleave (c : Cmd) (s : State) : Host.Outcome State Fault Refusal :=
  .next (s.onCmd 0x0221 c fun s =>
    if c.p1 = 3 then s.finishWith c St.rejected Rs.badField
    else s.runTiles c fun s t =>
      if (s.tile t).degraded then (s, outc St.rejected Rs.channelOut)
      else if (maskRegions c.p0).any fun r => r % 16 = 15 then (s, outc St.rejected Rs.fwRegion)
      else (s.setInterleave t (maskRegions c.p0) (BitVec.ofNat 2 c.p1.toNat), {}))

/-- Own tiles in service that a unit reaches, in member order. -/
def State.liveTiles (s : State) (u : BitVec 32) : List TileRef := (s.tilesReached (s.depth + 2) u).filter fun t => s.tileUp t

/-- What a command that reads every tile of a unit gives: one part per tile. -/
def State.readTiles (s : State) (c : Cmd) (part : State → TileRef → List Byte) : State :=
  s.runReplicated c fun s u =>
    let r := State.replicate (fun s _ => (s, ({} : Outc))) (s.depth + 2) s u
    (s, { o := r.2.1, parts := r.2.2, data := (s.liveTiles u).flatMap fun t => bytesLE 8 (s.tileId t).toNat ++ part s t })

/-- REGION_READ (R303): of each tile its identifier and `REGION_0` to `REGION_31`. -/
def execRegionRead (c : Cmd) (s : State) : Host.Outcome State Fault Refusal :=
  .next (s.onCmd 0x0222 c fun s => s.readTiles c fun s t => s.regBytes (tileBlock t + 0x300) 256)

/-- SCRUB_NOW (R294, R303): an extra pass over the named regions of each tile; a tile reports when its pass ends. -/
def execScrubNow (c : Cmd) (s : State) : Host.Outcome State Fault Refusal :=
  .next (s.onCmd 0x0223 c fun s =>
    if ((s.cmdSlot c).map fun k => k.members.isEmpty).getD true then s.runLater c fun s t =>
      let rs := (maskRegions c.p0).filter (s.tile t).regionPresent
      if rs.isEmpty then (s, some {})
      else (s.modTile t fun x => { x with mem := { x.mem with demand := x.mem.demand ++ [(c, rs.map (· * 32768))] } }, none)
    else s)

/-- MEM_POISON_READ (R303): a region's 32,768 poison bits. -/
def execMemPoisonRead (c : Cmd) (s : State) : Host.Outcome State Fault Refusal :=
  .next (s.onCmd 0x0224 c fun s => s.runAt c fun s =>
    let t := unitTileRef c.unit
    if !s.tileUp t then s.finishWith c St.notReady 0
    else
      let base := 32768 * (c.p0.toNat % 32)
      let l := ((s.tile t).mem.poison.filter fun p => regionOf p = c.p0.toNat % 32).map fun p => p - base
      s.finishData c ((List.range 4096).map fun i => BitVec.ofNat 8 (bitsOn ((l.filter fun p => p / 8 = i).map (· % 8)))) {})

/-- Training margins of a tile's connections, one byte each, layer by layer: the spec gives no value (free). -/
def marginBytes (t : TileRef) : List Byte :=
  (List.range 1120).map fun i => BitVec.ofNat 8 (Config.freeBits 8 (2 ^ 41 + 2048 * t + i))

/-- CHANNEL_READ (R303): of each tile its identifier, `CHANNEL_0` to `CHANNEL_15`, and the margins. -/
def execChannelRead (c : Cmd) (s : State) : Host.Outcome State Fault Refusal :=
  .next (s.onCmd 0x0225 c fun s => s.readTiles c fun s t => s.regBytes (tileBlock t + 0x400) 128 ++ marginBytes t)

end Sys2Proof.Machine
end

