-- ==== Sys2Proof/Machine/TwinOps.lean ====
section
/-! DEFINITION. Sys2Proof/Machine/TwinOps.lean: the pair state (R347), hellos as sent (R349), the answers to mirrored operations
(R356, R359, R366) and the loss of the twin (R360, R368). -/

namespace Sys2Proof.Machine

/-- Number of the twin (R345). -/
def State.twinPkg (s : State) : Nat := s.self ^^^ 1

/-- `ORDER_CODE` (R69). -/
def orderCode : BitVec 128 := BitVec.ofNat 128 (natLE [0x4F, 0x56, 0x4C, 0x2D, 0x45, 0x32, 0x34, 0x2D, 0x33, 0x54])

/-- Version of the running tile firmware (R424). -/
def State.tileFw (s : State) : BitVec 32 := ((s.sec.images.find? fun i => i.kind = 3).map (·.version)).getD 0

/-- This member's hello (R349). -/
def State.ownHello (s : State) (leaving : Bool) : Hello :=
  { package := s.self, state := s.twin.state.code, fresh := s.twin.fresh, leaving := leaving, gen := s.twin.gen
    orderCode := orderCode, fwVersion := s.tileFw, tiles := s.tilesUp }

/-- Hellos are exchanged from the start of S11 (R415). -/
def State.helloOn (s : State) : Bool := s.clocksRun && (s.bu.ready || 11 ≤ s.bu.done || (s.bu.busy && 11 ≤ s.bu.running))

/-- The 224 data bytes of a hello (R349). -/
def helloBytes (h : Hello) : List Byte :=
  bytesLE 2 (h.package % 2 ^ 10) ++ bytesLE 1 (h.state % 8 + 8 * h.fresh.toNat + 16 * h.leaving.toNat) ++ bytesLE 1 h.stepping.toNat
    ++ bytesLE 4 h.gen.toNat ++ bytesLE 16 h.orderCode.toNat ++ bytesLE 2 h.normor.toNat ++ bytesLE 2 0 ++ bytesLE 4 h.fwVersion.toNat
    ++ bytesLE 192 ((h.tiles.map fun t => 2 ^ t).sum)

/-- The CONTROL message that carries a hello (R334, R349). -/
def State.helloMsg (s : State) (leaving : Bool) : Msg :=
  { op := Op.control, srcUnit := pkgUnit s.self, dst := s.twinPkg, data := helloBytes (s.ownHello leaving), length := 224, vc := 3, ordered := true }

/-- Send a hello where a path to the twin is up (R349). -/
def State.sendHello (s : State) (leaving : Bool) : State :=
  if s.helloOn && (s.pathStop s.twinPkg).isNone then
    ({ s with out := { s.out with hello := s.out.hello ++ [s.ownHello leaving] } } : State).request (s.helloMsg leaving) .hello
  else s

/-- Take a pair state and generation: a change of state sends a hello (R349), ends a firmware exemption on leaving PAIRED (R371) and
shows in the pair's record. -/
def State.setPair (s : State) (st : PairSt) (gen : BitVec 32) (cause : Code) : State :=
  if s.twin.state = st && s.twin.gen = gen then s
  else
    let was := s.twin.state
    let exempt := s.twin.fwExempt && !(was = .paired && st ≠ .paired)
    let s : State := { s with twin := { s.twin with state := st, gen := gen, cause := cause, fwExempt := exempt } }
    if was = st then s.bump [1, 2] else (s.bump [1, 2]).sendHello false

/-- A resync is over or never was: nothing is being copied. -/
def TwinState.idle (w : TwinState) : TwinState :=
  { w with context := 0, phase := 0, mark := 0, contexts := [], doneContexts := [], tailsOut := 0 }

/-- The twin is lost (R368): a TARGET stays valid below its watermark only, a STALE member nowhere. -/
def TwinState.lost (w : TwinState) : TwinState :=
  if w.state = .target then
    { w.idle with
      incomplete := true, restored := [], validContexts := w.doneContexts, validContext := w.context
      validMark := if w.phase = 1 then w.mark else 0 }
  else if w.state = .stale then { w.idle with incomplete := true, restored := [], validContexts := [], validMark := 0 }
  else w.idle

/-- Discard the tails of mirrored planes with the records of spilled ones (R363, R371). -/
def Tile.dropMirrored (x : Tile) : Tile :=
  { x with kv := x.kv.filter fun k => k.staging || !k.mirrored, spills := x.spills.filter fun k => !k.mirrored }

/-- Enter STALE at a generation: what was mirrored here is invalid, and mirrored tails are discarded (R351, R363, R371). -/
def State.enterStale (s : State) (gen : BitVec 32) (cause : Code) : State :=
  let s : State := { s with
    twin := { s.twin.idle with incomplete := false, restored := [] }
    tiles := s.tiles.map fun e => (e.1, e.2.dropMirrored) }
  (s.setPair .stale gen cause).raiseP Ev.twinStale [w64 gen.toNat]

/-- TWIN_ATTACH acts here: it may grant a firmware exemption, and a twin that was suspect, and has been cleared since, may pair again
(R371, R373). -/
def State.exempt (s : State) (any : Bool) : State :=
  { s with twin := { s.twin with fwExempt := s.twin.fwExempt || any, barred := s.twin.barred && s.twin.suspect } }

/-- Enter PAIRED (R351, R367): pages that were invalid at the source of the resync stay so (R368). -/
def State.enterPaired (s : State) (gen : BitVec 32) : State :=
  let s : State := { s with twin :=
    if s.twin.state = .source then s.twin.idle else { s.twin.idle with incomplete := false, restored := [] } }
  (s.setPair .paired gen 0).raiseP Ev.twinPaired [w64 gen.toNat]

/-- Resync has ended: both members are PAIRED (R367). -/
def State.resyncDone (s : State) : State :=
  let bytes := s.twin.bytes
  let s := s.enterPaired s.twin.gen
  s.raiseP Ev.twinResyncDone [w64 bytes, w64 s.twin.faults.toNat]

/-! ### Answers to mirrored operations -/

/-- The twin's cache of a plane differs: UNMIRRORED is set and TWIN_DIVERGED raised (R355, R359). -/
def State.diverged (s : State) (t : TileRef) (job : BitVec 16) (pt : BitVec 64) (plane : Nat) (event : Bool) : State :=
  let s := ((markUnmirrored (s.frontEnv t job 0 true) pt plane).result s).2
  if event then
    let seq := match (readHeader (s.frontEnv t job 0 true) pt).result s with
      | (.ok (h, _), _) => h.seqId
      | (.error _, _) => 0
    s.raise Ev.twinDiverged (s.tileId t) [w64 (s.tileId t).toNat, w64 seq, w64 plane]
  else s

/-- A result record with the twin's failure in it (R219, R229). -/
def unmirroredRecord (record : BitVec 64) (o : Outc) : BitVec 64 :=
  w64 (record.toNat / 2 ^ 16 * 2 ^ 16 + o.status.toNat + o.reason.toNat * 2 ^ 8) ||| w64 (2 ^ 59)

/-- The twin has answered a mirrored commit, or will not (R229, R356). -/
def State.commitAnswer (s : State) (t : TileRef) (r : AppendRows) (record : BitVec 64) (o : Outc) : State :=
  let own := outc (BitVec.ofNat 8 record.toNat) (BitVec.ofNat 8 (record.toNat / 2 ^ 8))
  if o.good || !own.good then s.answerEntry r own record
  else
    let a := appendEntryOf r.entry
    let p := own.unmirrored o.reason
    let s := s.countPartial.diverged t r.job a.pt a.plane (o.reason = Rs.twinDiverged)
    s.answerEntry r p (unmirroredRecord record p)

/-- A member that leaves for TWIN_DETACH is DETACHED, and the command's part here is done (R370). -/
def State.detach (s : State) : State :=
  let was := s.twin.state
  let s : State := { s with twin := { s.twin.idle with leaveDetach := false, incomplete := false, restored := [] } }
  let s := s.setPair .detached s.twin.gen 0
  let s := if was = .detached then s else s.raiseP Ev.twinDetached []
  match s.twin.detachCmd with
  | some c => ({ s with twin := { s.twin with detachCmd := none } } : State).memberDone c (pkgUnit s.self) {} []
  | none => s

/-- The leave of R361 ends: a LEAVING hello, then DETACHED when it was for TWIN_DETACH (R370); a halt may follow (R471). -/
def State.endLeave (s : State) : State :=
  if s.twin.leaving.isNone then s
  else
    let s := s.sendHello true
    let s : State := { s with
      twin := { s.twin with leaving := none, tailsOut := 0 }
      therm := { s.therm with haltDue := s.therm.leaving } }
    if s.twin.leaveDetach then s.detach else s

/-- A tail forward or install has its answer (R359, R361, R366, R367). -/
def State.tailAnswer (s : State) (t : TileRef) (pt : BitVec 64) (plane : Nat) (job : BitVec 16) (o : Outc) : State :=
  let s := if o.good then
      s.modTile t fun x => { x with
        kv := x.kv.map fun k => if k.pt = pt && k.plane = plane && k.job = job && !k.staging then { k with inSync := true } else k
        spills := x.spills.map fun k => if k.pt = pt && k.plane = plane && k.job = job then { k with inSync := true } else k }
    else if o.reason = Rs.twinDiverged then s.diverged t job pt plane true
    else s
  let s : State := { s with twin := { s.twin with tailsOut := s.twin.tailsOut - 1 } }
  if s.twin.tailsOut ≠ 0 then s
  else if s.twin.leaving.isSome then s.endLeave
  else if s.twin.state = .source && s.twin.phase = 2 then s.resyncDone
  else s

/-- The answer to a third package's write after its mirroring (R356). -/
def State.thirdAnswer (s : State) (src : Nat) (txn : BitVec 16) (unit : BitVec 32) (o : Outc) : State :=
  let p := if o.good then outc St.ok 0 else outc St.partial o.reason
  (if o.good then s else s.countPartial).respond
    { op := Op.write + 0x80, dst := src, txn := txn, srcUnit := unit, status := p.status, reason := p.reason, vc := 1 }

/-- A mirrored operation of a user has its answer; other users are left alone. -/
def State.mirrorAnswer (s : State) (x : Txn) (o : Outc) : State :=
  match x.user with
  | .mirror t i => s.slotAnswer t i x.txn o 0 0 true
  | .commit t r record => s.commitAnswer t r record o
  | .third src txn unit => s.thirdAnswer src txn unit o
  | .tail t pt plane => s.tailAnswer t pt plane x.msg.job o
  | _ => s

/-- A user that waits for the twin's part of a mirrored operation. -/
def TxnUser.isMirror : TxnUser → Bool
  | .mirror _ _ => true
  | .commit _ _ _ => true
  | .third _ _ _ => true
  | .tail _ _ _ => true
  | .resync _ _ => true
  | _ => false

/-! ### Loss (R360, R368) -/

/-- The twin is lost: SOLO at the next generation, and what awaited the twin completes PARTIAL. A STALE or TARGET member's
mirrored data stays invalid but for what has been copied. -/
def State.loseTwin (s : State) (cause : Code) : State :=
  let old := s.twin.state
  if !(old = .paired || old = .source || old = .target || old = .stale) then s
  else
    let waiting := s.cornis.txns.filter fun x => x.user.isMirror
    let s : State := { s with
      cornis := { s.cornis with txns := s.cornis.txns.filter fun x => !x.user.isMirror }
      twin := s.twin.lost }
    let s := s.setPair .solo (s.twin.gen + 1) cause
    let s := s.raiseP Ev.twinLost [w64 cause.toNat, if s.twin.incomplete then 1 else 0]
    waiting.foldl (fun (s : State) x => s.mirrorAnswer x (outc St.partial Rs.twinLost)) s

/-- Something has come from the twin (R360). -/
def State.hearTwin (s : State) (pkg : Nat) : State :=
  if pkg = s.twinPkg then { s with twin := { s.twin with heardAt := s.time.now } } else s

/-- The twin is marked suspect (R373). -/
def State.suspectTwin (s : State) : State :=
  ({ s with twin := { s.twin with suspect := true, barred := true } } : State).loseTwin Rs.suspect

end Sys2Proof.Machine
end

