-- ==== Sys2Proof/Machine/Answers.lean ====
section
/-! DEFINITION. Sys2Proof/Machine/Answers.lean: the end of an outstanding Cornis request: the response of R328 to R334, or the
outcome that stands for it (R316, R330), given to whoever waits; and host violations (R410, R411), which an aperture access's
answer can show. -/

namespace Sys2Proof.Machine

/-! ### Host violations (R410, R411) -/

/-- Violations reach the count: the host is marked suspect and rings 1–15 stop (R411). -/
def State.suspectHost (s : State) : State :=
  if s.host.suspect || !s.host.violWin.reached s.host.suspectCount.toNat then s
  else
    let s : State := { s with host := { s.host with
      suspect := true
      rings := ((List.range 16).zip s.host.rings).map fun e =>
        if e.1 = 0 then e.2 else { e.2 with run := false, halted := true } } }
    s.raiseP Ev.hostSuspect [w64 s.host.violWin.times.length]

/-- One host violation: counted, its event at most once per second (R410, R404). -/
def State.hostViolation (s : State) (reason : Code) (bar off : Nat) : State :=
  let w := s.host.violWin.add s.time.now s.host.suspectMs.toNat
  let s : State := { s with host := { s.host with viol := s.host.viol + 1, violWin := w } }
  let s := if dueAfter w.lastEvent s.time.now (ms 1000) then
      let s := s.raiseP Ev.hostViolation [w64 reason.toNat, w64 bar, w64 off, w64 w.since]
      { s with host := { s.host with violWin := { w with since := 0, lastEvent := some s.time.now } } }
    else s
  s.suspectHost

/-- What an aperture access at offset `off` comes to (R382): bytes for a read, or its failure. -/
def State.apertureEnd (s : State) (write : Bool) (off g n : Nat) (o : Outc) (data : List Byte) : State :=
  let answer := fun (s : State) (a : Option (List Byte) × Bool) =>
    if write then s else ({ s with out := { s.out with apert := s.out.apert ++ [a] } } : State)
  if o.good || o.status = St.partial then answer s (some (padTo n data), false)
  else if o.status = St.poisoned then
    if write then s.hostFault o.status 0 1 g else answer s (some (List.replicate n 0xFF), true)
  else if o.status = St.range then (answer s (none, false)).hostViolation Rs.badAccess 4 off
  else if write then s.hostFault o.status o.reason 1 g
  else (answer s (none, true)).hostFault o.status o.reason 1 g

/-! ### Users of an answer -/

/-- The started command with a ring and tag. -/
def State.cmdBy (s : State) (ring : Nat) (tag : BitVec 16) : Option Cmd :=
  (s.host.slots.find? fun k => k.cmd.ring = ring && k.cmd.tag = tag && k.ph = .started).map (·.cmd)

/-- An access that a descriptor's run needs is answered (R328, R329). -/
def State.readAnswer (s : State) (t : TileRef) (i : Nat) (x : Txn) (o : Outc) (data : List Byte) : State :=
  s.modSlot t i fun d =>
    let d := { d with waits := d.waits.filter (· ≠ x.txn) }
    match o.came x.msg data with
    | .ok e => { d with fetched := d.fetched ++ [e] }
    | .error e => { d with readFails := d.readFails ++ [e] }

/-- An attention item that waits for a READ is answered. -/
def AttnItem.answered (it : AttnItem) (x : Txn) (o : Outc) (data : List Byte) : AttnItem :=
  if it.waits.contains x.txn then
    let k := { it with waits := it.waits.filter (· ≠ x.txn) }
    match o.came x.msg data with
    | .ok e => { k with fetched := it.fetched ++ [e] }
    | .error e => { k with readFails := it.readFails ++ [e] }
  else it

/-- An attention item's access is answered. -/
def State.itemAnswer (s : State) (t : TileRef) (x : Txn) (o : Outc) (data : List Byte) : State :=
  s.modTile t fun k => { k with items := k.items.map fun it => it.answered x o data }

/-- The attention front end's access is answered; an answer it does not await, that of a mirrored write, is let go. -/
def State.frontAnswer (s : State) (t : TileRef) (x : Txn) (o : Outc) (data : List Byte) : State :=
  s.modTile t fun k =>
    if !k.frontWaits.contains x.txn then k
    else
      let k := { k with frontWaits := k.frontWaits.filter (· ≠ x.txn) }
      match o.came x.msg data with
      | .ok e => { k with frontFetched := k.frontFetched ++ [e] }
      | .error e => { k with frontFails := k.frontFails ++ [e] }

/-- A share, or an attention item, at another package has reported (R127, R245, R334). -/
def State.shareAnswer (s : State) (t : TileRef) (i : Nat) (unit : BitVec 32) (x : Txn) (o : Outc) (r : Msg) : State :=
  match (s.tile t).slot i with
  | none => s
  | some d =>
    if dOpcode d.desc = 0x31 then
      let z := x.msg.operand.toNat
      s.itemReported t i (z % 2 ^ 16) (z / 2 ^ 16 % 2 ^ 16) { o with map := 0 } (bitAt r.operand2 0) r.operand
    else s.memberReport t i unit o

/-- A member of a command has replied: 16 bytes of results, then its return data (R68, R391). TWIN_ATTACH takes the other
member into STALE at the generation that the source gives (R371). -/
def State.commandAnswer (s : State) (ring : Nat) (tag : BitVec 16) (unit : BitVec 32) (o : Outc) (data : List Byte) : State :=
  match s.cmdBy ring tag with
  | none => s
  | some c =>
    let r0 := w64 (natLE (data.take 8))
    let r1 := w64 (natLE ((data.drop 8).take 8))
    let s := if c.opcode = 0x0604 && unitPair c.unit = s.self / 2 && o.good && s.self % 2 ≠ c.p0.toNat % 2 then
        (s.enterStale (BitVec.ofNat 32 r0.toNat) 0).exempt (bitAt c.p1 0)
      else s
    s.memberBack c unit o (r0, r1) (data.drop 16)

/-- A part of a parameter in another package's memory has come (R390, R516). -/
def State.paramAnswer (s : State) (ring : Nat) (tag : BitVec 16) (o : Outc) (data : List Byte) : State :=
  match s.cmdBy ring tag with
  | none => s
  | some c =>
    if o.status = St.ok then s.modCmd c fun k => { k with paramPart := k.paramPart ++ data }
    else s.finishWith c o.status o.reason

/-- Return data written to another package is answered; a part that fails is the command's outcome (R391, R394). -/
def CmdSlot.retBack (k : CmdSlot) (o : Outc) : CmdSlot :=
  if k.retSent.isNone then k
  else { k with
    retSent := k.retSent.map (· - 1)
    compl := if o.good then k.compl else { status := o.status, reason := o.reason } }

/-- An answer to return data. -/
def State.retAnswer (s : State) (ring : Nat) (tag : BitVec 16) (o : Outc) : State :=
  { s with host := { s.host with slots := s.host.slots.map fun k =>
      if k.cmd.ring = ring && k.cmd.tag = tag && k.ph = .finished then k.retBack o else k } }

/-- An access that a command makes by DVA in another package is answered. -/
def State.cmdReadAnswer (s : State) (ring : Nat) (tag : BitVec 16) (x : Txn) (o : Outc) (data : List Byte) : State :=
  match s.cmdBy ring tag with
  | none => s
  | some c => s.modCmd c fun k =>
    match o.came x.msg data with
    | .ok e => { k with fetched := k.fetched ++ [e] }
    | .error e => { k with readFails := k.readFails ++ [e] }

/-- A page fetched from the twin lands whole, then the local writes that waited for it (R369); a page the twin cannot give
leaves the local one as it is, with those writes applied to it. -/
def State.landPage (s : State) (a : Nat) (o : Outc) (data : List Byte) : State × Outc :=
  let held := ((s.twin.fetching.filter fun e => e.1 = a).flatMap Prod.snd)
  let s : State := { s with twin := { s.twin with fetching := s.twin.fetching.filter fun e => e.1 ≠ a } }
  let lay := fun (b : List Byte) => held.foldl (fun (b : List Byte) w => b.set (w.1 - a) w.2) b
  if o.status = St.ok then
    match (writeStack a 9 (lay (padTo pageSize data))).result s with
    | (.ok _, s') => (s', o)
    | (.error e, s') => (s', outc e.status e.reason)
  else if held.isEmpty then (s, o)
  else
    let whole := (List.range pageSize).all fun i => held.any fun w => w.1 = a + i
    let w := do
      let b ← if whole then pure (List.replicate pageSize 0) else readStack a pageSize 9
      writeStack a 9 (lay b)
    ((w.result s).2, o)

/-- Give an outstanding request's outcome to its user; `r` is the response, or stands for one that will not come. -/
def State.txnDone (s : State) (x : Txn) (r : Msg) : State :=
  let o : Outc := { status := r.status, reason := r.reason }
  match x.user with
  | .slot t i =>
    let lead := ((s.tile t).slot i).filter fun d => dOpcode d.desc = 0x31
    if (lead.map (·.split)).getD false then s.leadAnswer t i x.txn o
    else if x.msg.op = Op.read || lead.isSome then s.readAnswer t i x o (padTo x.msg.length r.data) else s.slotAnswer t i x.txn o x.msg.gaddr x.msg.dva false
  | .item t => s.itemAnswer t x o (padTo x.msg.length r.data)
  | .share t i unit => s.shareAnswer t i unit x { o with map := r.operand } r
  | .append t i entry =>
    s.entryDone t i entry o (if r.operand = 0 && !o.good then recordOf o 0 0 false false false else r.operand)
  | .front t => s.frontAnswer t x o (padTo x.msg.length r.data)
  | .command ring tag unit => s.commandAnswer ring tag unit { o with map := r.operand } r.data
  | .param ring tag => s.paramAnswer ring tag o (padTo x.msg.length r.data)
  | .atomic ring tag =>
    match s.cmdBy ring tag with
    | none => s
    | some c => if o.good then s.finishOk c r.operand 0 else s.finishWith c o.status o.reason
  | .ret ring tag => s.retAnswer ring tag o
  | .cmdRead ring tag => s.cmdReadAnswer ring tag x o (padTo x.msg.length r.data)
  | .aperture write off => s.apertureEnd write off x.msg.gaddr x.msg.length o r.data
  | .guest site txn =>
    if 2 ≤ site then s
    else
    let m : Msg := { r with op := x.msg.op + 0x80, txn := txn, dst := s.self, src := s.self }
    { s with out := { s.out with guest := s.out.guest ++ [(site, m)] } }
  | .fetch ring tag a =>
    let q := s.landPage a o r.data
    match q.1.cmdBy ring tag with
    | none => q.1
    | some c => q.1.memberDone c (BitVec.ofNat 32 ((x.msg.dva.toNat - c.p1.toNat) / pageSize)) q.2 []
  | .resync _ _ => if o.reason = Rs.notMirrored then { s with twin := { s.twin with faults := s.twin.faults + 1 } } else s
  | .mirror _ _ => s.mirrorAnswer x o
  | .commit _ _ _ => s.mirrorAnswer x o
  | .third _ _ _ => s.mirrorAnswer x o
  | .tail _ _ _ => s.mirrorAnswer x o
  | .hello => s

/-- An outstanding request ends without its response (R316, R330). -/
def State.txnFails (s : State) (x : Txn) (status reason : Code) : State :=
  let reason := if x.user.isMirror && status = St.notReady then Rs.noResponse else reason
  s.txnDone x { op := x.msg.op + 0x80, src := x.dst, txn := x.txn, status := status, reason := reason }

/-- The ports by which a message may go on: a forwarded message never takes the twin port (R322). -/
def State.portsFor (s : State) (m : Msg) : List Nat :=
  if m.src = s.self then s.upPortsTo m.dst
  else (entryPorts (kvGet s.cornis.routes m.dst 0)).filter fun p => (s.port p).up && s.widthAgrees p

/-- Send what waits and can now go; a queued message whose port is not open to it takes another (R310, R323). -/
def State.retryHeld (s : State) : State :=
  let s := s.cornis.held.foldl (fun (s : State) e =>
    let ports := s.portsFor e.1
    if ports.contains e.1.port && (!e.1.ordered || ports.head? = some e.1.port) then s
    else match s.choosePort e.1 ports with
      | some p => { s with cornis := { s.cornis with held := s.cornis.held.map fun k => if k = e then ({ k.1 with port := p }, k.2) else k } }
      | none => s) s
  (List.range 9).foldl State.pump s

end Sys2Proof.Machine
end

