-- ==== Sys2Proof/Machine/Fabric.lean ====
section
/-! DEFINITION. Sys2Proof/Machine/Fabric.lean: the Cornis ports and links: violations and marks (R340 to R342), ports going down
and training (R308 to R311), the link layer (R314 to R317), forwarding and its stalls (R322 to R324), and what every arriving
message meets first (R340, R415). -/

namespace Sys2Proof.Machine

/-! ### Messages that cannot go on -/

/-- Requests that are answered (R320). -/
def isRequest (m : Msg) : Bool := 1 ≤ m.op.toNat && m.op.toNat ≤ 6

/-- Answer a request negatively from here; other messages are dropped, and no failed response is answered (R320). -/
def State.negative (s : State) (m : Msg) (status reason : Code) : State :=
  if isRequest m then s.respond (reply m status reason) else s

/-- A message is lost at this package: its issuer here, or its source by a negative response, has the outcome (R316). -/
def State.msgLost (s : State) (m : Msg) (status reason : Code) : State :=
  if m.src ≠ s.self then s.negative m status reason
  else if !isRequest m then s
  else match s.takeTxn m.txn with
    | none => s
    | some (x, s) => s.txnFails x status reason

/-- Why no port of its entry takes a forwarded message (R310, R323). -/
def State.noPath (s : State) (dst : Nat) : Code × Code :=
  let e := kvGet s.cornis.routes dst 0
  if e = 0 && !s.inDomain dst then (St.range, Rs.noPackage)
  else if (s.portsTo dst).any fun p => !s.widthAgrees p then (St.configMismatch, 0)
  else (St.notReady, Rs.portDown)

/-- The held messages that no port takes any more end with an outcome (R310, R323). -/
def State.endStranded (s : State) (mismatch : Bool) : State :=
  let gone := s.cornis.held.filter fun e => (s.portsFor e.1).isEmpty
  let s : State := { s with cornis := { s.cornis with held := s.cornis.held.filter fun e => !(s.portsFor e.1).isEmpty } }
  gone.foldl (fun (s : State) e =>
    let o := if mismatch then (St.configMismatch, 0) else s.noPath e.1.dst
    s.msgLost e.1 o.1 o.2) s

/-! ### Ports going down (R310, R311, R316) -/

/-- Change the lane groups that serve a port. -/
def State.modGroups (s : State) (p : Nat) (f : Nat → LaneGroup → LaneGroup) : State :=
  let gs := s.portGroups p
  let l := ((List.range 16).zip s.cornis.groups).map fun e => if gs.contains e.1 then f e.1 e.2 else e.2
  { s with cornis := { s.cornis with groups := l } }

/-- A lane group that serves no port is idle, unless it is out (R312). -/
def LaneGroup.idled (x : LaneGroup) : LaneGroup := if x.state = .out then x else { x with state := .idle }

/-- Lane groups of a port that are not out leave service with it. -/
def State.idleGroups (s : State) (p : Nat) : State := s.modGroups p fun _ x => x.idled

/-- The link layer of a port that is down (R316, R317). -/
def Port.quiet (x : Port) : Port :=
  { x with
    state := .down, buffer := [], rxSeq := 0xFFFF, nak := false, txSeq := 0, ackSeq := 0xFFFF, naks := 0, lastNak := 0
    replay := none, credit := [1024, 1024, 4096, 64], rxHeld := [0, 0, 0, 0], rxOpen := [false, false, false, false]
    txOpen := [none, none, none, none], slotWaits := [0, 0, 0, 0], crDue := [0, 0, 0, 0], nakDue := false, ackSent := 0xFFFF, early := []
    trainAt := none, trainCmd := none }

/-- Messages with a flit in a port's replay buffer, and those whose flits were going out (R316). -/
def Port.inFlight (x : Port) : List Msg := (x.buffer.map (·.2.1) ++ x.txOpen.filterMap fun e => e.map Prod.fst).eraseDups

/-- A port is down: messages of its replay buffer complete PORT_DOWN, held ones take another port or end (R310, R316); a
command that waits for its training ends. -/
def State.dropPort (s : State) (p : Nat) (mismatch : Bool) (why : Code) : State :=
  let x := s.port p
  let s := (s.idleGroups p).modPort p Port.quiet
  let s := x.inFlight.foldl (fun (s : State) m => s.msgLost m St.notReady Rs.portDown) s
  let s := (s.endStranded mismatch).retryHeld
  match x.trainCmd with
  | some c => s.finishWith c St.notReady why
  | none => s

/-- A port goes down, with PORT_DOWN: cause 1 training, 2 assignment, 3 suspect peer, 4 halt (the spec numbers no cause). -/
def State.portDown (s : State) (p cause : Nat) : State :=
  if (s.port p).state = .down then s
  else (s.raiseP Ev.portDown [w64 p, w64 cause]).dropPort p (cause = 2) Rs.portDown

/-! ### Violations (R340 to R342) -/

/-- Mark a party whose violations have reached the count (R341): a package by its number, an adjacent peer as 1024 + port. -/
def State.markParty (s : State) (key : Nat) : State :=
  let w := kvGet s.cornis.wins key {}
  if !w.reached s.cornis.suspectCount.toNat then s
  else if key < 1024 then
    if s.cornis.suspects.contains key then s
    else
      let s : State := { s with cornis := { s.cornis with suspects := s.cornis.suspects ++ [key] } }
      let s := s.raiseP Ev.peerSuspect [w64 (pkgUnit key).toNat]
      if key = s.twinPkg then s.suspectTwin else s
  else if (s.port (key - 1024)).suspect then s
  else
    let p := key - 1024
    let s := (s.modPort p fun x => { x with suspect := true }).raiseP Ev.peerSuspect [w64 p]
    s.portDown p 3

/-- Log a violation against a party and count it in the party's window; CNS_VIOLATION at most once per party per second
(R341, R342). -/
def State.logViolation (s : State) (key port peer kind : Nat) (reason : Code) : State :=
  let w := (kvGet s.cornis.wins key {}).add s.time.now s.cornis.suspectMs.toNat
  let due := dueAfter w.lastEvent s.time.now (ms 1000)
  let r : ViolRec := { invar := s.time.invar, port := port, peer := peer, kind := kind, reason := reason }
  let log := s.cornis.log ++ [r]
  let w := if due then { w with since := 0, lastEvent := some s.time.now } else w
  let s : State := { s with cornis := { s.cornis with log := log.drop (log.length - 256), wins := kvPut s.cornis.wins key w } }
  let party := if key < 1024 then (pkgUnit key).toNat else key - 1024
  (if due then s.raiseP Ev.cnsViolation [w64 party, w64 kind, w64 reason.toNat] else s).markParty key

/-- A message violation, against its package (R340, R372). -/
def State.msgViolation (s : State) (pkg port kind : Nat) (reason : Code) : State :=
  ({ s with cornis := { s.cornis with violMsg := s.cornis.violMsg + 1 } } : State).logViolation pkg port pkg kind reason

/-- A link violation, against the adjacent peer (R340). -/
def State.linkViolation (s : State) (p kind : Nat) : State :=
  ({ s with cornis := { s.cornis with violLink := s.cornis.violLink + 1 } } : State).logViolation (1024 + p) p (s.port p).peer kind 0

/-- Kinds of violation in the log: the rows of R340 in order, then a foreign message on the twin port and a hello of another
package (R372). The spec numbers none. -/
abbrev Viol.link : Nat := 1
abbrev Viol.crc : Nat := 2
abbrev Viol.message : Nat := 3
abbrev Viol.response : Nat := 4
abbrev Viol.time : Nat := 5
abbrev Viol.twinPort : Nat := 6
abbrev Viol.badTwin : Nat := 7

/-! ### Training (R311) -/

/-- Begin the training of a port: its groups train, those out only when `again` trains them too (R311). -/
def State.startTraining (s : State) (p : Nat) (again : Bool) (cmd : Option Cmd) : State :=
  let back := again && (s.portGroups p).any fun g => (s.cornis.groups[g]?).map (·.state) = some .out
  let s := s.modGroups p fun _ x => if again || x.state ≠ .out then { x with state := .training } else x
  let s := if back then ((s.portGroups p).foldl (fun (s : State) g => s.bumpStack (groupStack g)) s).settlePkg 0 else s
  s.modPort p fun x => { x with
    state := .training, retrains := x.retrains + 1, trainAt := some (s.time.now + ms 100), naks := 0, trainCmd := cmd, early := [] }

/-- A port that its assignment uses, that agrees, and whose peer is not suspect, may train; none does after a halt (R308, R311,
R341, R473). -/
def State.trainable (s : State) (p : Nat) : Bool := !(s.portGroups p).isEmpty && s.widthAgrees p && !(s.port p).suspect && !s.therm.halted

/-- What training makes of a port's groups (R311): a failed one goes out, with cause 2 at S10 and 3 at runtime. -/
def State.trainGroups (s : State) (p : Nat) (failed : List Nat) : State :=
  let gs := s.portGroups p
  let cause := if s.bu.busy && s.bu.running = 10 then 2 else 3
  let before := s.cornis.groups.map (·.state)
  let s := s.modGroups p fun g x =>
    if x.state ≠ .training then x
    else if failed.contains g then { x with state := .out, cause := cause } else { x with state := .inService, cause := 0 }
  if before.map (decide <| · = GroupSt.out) = s.cornis.groups.map (fun g => decide (g.state = .out)) then s
  else
    let s := gs.foldl (fun (s : State) g => s.bumpStack (groupStack g)) s
    s.settlePkg cause

/-- The peer's claim in PORT_MISMATCH: package in [9:0], port in [13:10], width in [14], link version from [16]. The spec gives
the item no layout. -/
def claimOf (r : TrainResult) : Nat := r.peer % 1024 + r.peerPort % 16 * 2 ^ 10 + r.peerWidth % 2 * 2 ^ 14 + r.peerVersion * 2 ^ 16

/-- A training that brought the port up ends: the port's event, a hello on the twin port (R349), and the messages that wait. -/
def State.portUp (s : State) (p : Nat) (r : TrainResult) (narrow : Option Nat) : State :=
  let cmd := (s.port p).trainCmd
  let s := s.modPort p fun x => { x with
    state := if narrow.isSome then .narrow else .up, peer := r.peer, peerPort := r.peerPort, trainAt := none, trainCmd := none }
  let s := match narrow with
    | some g => s.raiseP Ev.portNarrow [w64 p, w64 g]
    | none => s.raiseP Ev.portUp [w64 p, w64 (s.port p).width.toNat, w64 r.peer]
  let s := if p = 8 then s.sendHello false else s
  let s := match cmd with
    | some c => s.finish c {}
    | none => s
  (s.replayFlits p).retryHeld

/-- The end of a port's training (R311). -/
def State.trainEnd (s : State) (p : Nat) (r : TrainResult) : State :=
  let s := if r.identity then s else s.advanceTo ((s.port p).trainAt.getD 0)
  let s := s.trainGroups p r.failedGroups
  let gs := s.portGroups p
  let good := gs.filter fun g => (s.cornis.groups[g]?).map (·.state) = some .inService
  if good.isEmpty || !r.identity then (s.raiseP Ev.portDown [w64 p, 1]).dropPort p false Rs.portDown
  else if r.peerWidth ≠ (s.port p).width.toNat || r.peerVersion ≠ 1 || r.peer = s.self then
    (s.raiseP Ev.portMismatch [w64 p, w64 (claimOf r)]).dropPort p false Rs.portMismatch
  else s.portUp p r (if good.length < gs.length then gs.find? fun g => !good.contains g else none)

/-- PORT_TRAIN_END (R311). -/
def execPortTrainEnd (p : Nat) (r : TrainResult) (s : State) : Host.Outcome State Fault Refusal :=
  .next (if s.clocksRun && (s.port p).state = .training then s.trainEnd p r else s)

/-- After a change of the assignment: ports that lost a group, changed width or no longer agree go down, and down ports that
agree train (R308, R310). Before S10 only the registers change. -/
def State.reassign (s : State) (old : State) : State :=
  if !s.cornis.trained then s
  else
    let left := (List.range 16).filter fun g =>
      (List.range 9).any fun p => (old.portGroups p).contains g && !(s.portGroups p).contains g
    let idle := fun (e : Nat × LaneGroup) => if left.contains e.1 then e.2.idled else e.2
    let s : State := { s with cornis := { s.cornis with groups := ((List.range 16).zip s.cornis.groups).map idle } }
    (List.range 9).foldl (fun (s : State) p =>
    let s := s.usePort p
    let lost := (old.portGroups p).any fun g => !(s.portGroups p).contains g
    let s := if lost || (old.port p).width ≠ (s.port p).width || !s.widthAgrees p then s.portDown p 2 else s
    let changed := old.portGroups p ≠ s.portGroups p || (old.port p).width ≠ (s.port p).width
    if changed && (s.port p).state = .down && s.trainable p then s.startTraining p false none else s) s

/-- Write a register of the assignment, by its offset in the Cornis block (R312). -/
def State.setAssignment (s : State) (off : Nat) (w : Word) : State :=
  match idx off 0x040 8 16 with
  | some g => { s with cornis := { s.cornis with groups := s.cornis.groups.modify g fun x =>
      { x with role := BitVec.ofNat 2 (bitsOf w 1 0), port := BitVec.ofNat 3 (bitsOf w 4 2) } } }
  | none => match idx off 0x100 8 9 with
    | some p => s.modPort p fun x => { x with width := BitVec.ofNat 1 (bitsOf w 0 0) }
    | none => s

/-- CNS_ASSIGNMENT_WRITE (R310): the offset is that within the block of R312. -/
def execCnsAssignmentWrite (off : Nat) (w : Word) (s : State) : Host.Outcome State Fault Refusal :=
  .next (if s.barOpen then (s.setAssignment off w).reassign s else s)

/-! ### The link layer (R314 to R317) -/

/-- Flits that a receiver grants per channel (R317). -/
def creditLimit (vc : Nat) : Nat := ([1024, 1024, 4096, 64][vc]?).getD 0

/-- An acknowledgement and returned credits (R316, R317). An `ACK` that names no flit in flight changes nothing. -/
def Port.acknowledge (x : Port) (ack : BitVec 16) (vc count : Nat) : Port :=
  let step := (ack - x.ackSeq).toNat
  let x := { x with credit := x.credit.modify vc fun n => min (creditLimit vc) (n + count) }
  if step ≤ x.unacked then
    { x with ackSeq := ack, buffer := x.buffer.filter fun e => step < (e.1 - x.ackSeq).toNat }
  else x

/-- A NAK: replay from the flit after `ACK`; how many in a row have named it (R316). -/
def Port.nakked (x : Port) (ack : BitVec 16) : Port :=
  { x with naks := if x.naks ≠ 0 && x.lastNak = ack then x.naks + 1 else 1, lastNak := ack, replay := some (ack + 1) }

/-- A loss is met: flits are discarded until the replay, and a NAK is due (R316). -/
def Port.lose (x : Port) : Port := { x with nak := true, nakDue := true, early := [] }

/-- A flit that comes ahead of its turn may have overtaken one on the port's other group, which carries every second flit (R315). -/
def State.overtaken (s : State) (p ahead : Nat) : Bool :=
  ahead % 2 = 0 && !(s.port p).nak
    && ((s.portGroups p).filter fun g => (s.cornis.groups[g]?).map (·.state) = some .inService).length = 2

/-- Take a sequenced flit: accepted in order, held where it may have overtaken another, discarded after a loss or as a repeat, or a
violation (R315, R316, R317, R340). -/
def State.takeFlit (s : State) (p : Nat) (hdr : Word) : State :=
  let vc := bitsOf hdr 1 0
  let first := bitAt hdr 2
  let last := bitAt hdr 3
  let seq := BitVec.ofNat 16 (bitsOf hdr 23 8)
  let x := s.port p
  let ahead := (seq - x.rxSeq).toNat
  let bad := fun (s : State) => (s.modPort p Port.lose).linkViolation p Viol.link
  if ahead = 1 then
    let opened := (x.rxOpen[vc]?).getD false
    if creditLimit vc ≤ (x.rxHeld[vc]?).getD 0 || first = opened then bad s
    else s.modPort p fun x => { x with
      rxSeq := seq, nak := false, rxHeld := x.rxHeld.modify vc (· + 1), rxOpen := x.rxOpen.set vc (!last) }
  else if ahead = 0 || 65536 - 16384 ≤ ahead then s
  else if ahead ≤ 16384 then
    if s.overtaken p ahead then s.modPort p fun x => { x with early := x.early ++ [hdr] }
    else if x.nak then s else s.modPort p Port.lose
  else bad s

/-- Pass on the flits that waited for an overtaken one, in the order of their numbers (R315). -/
def State.takeEarly (s : State) (p : Nat) : Nat → State
  | 0 => s
  | fuel + 1 =>
    match (s.port p).early.find? fun h => BitVec.ofNat 16 (bitsOf h 23 8) = (s.port p).rxSeq + 1 with
    | some h =>
      let s := s.modPort p fun x => { x with early := x.early.filter (· ≠ h) }
      (s.takeFlit p h).takeEarly p fuel
    | none => s

/-- Change the lowest group in service of a port. -/
def State.modFirstGroup (s : State) (p : Nat) (f : LaneGroup → LaneGroup) : State :=
  match (s.portGroups p).find? fun g => (s.cornis.groups[g]?).map (·.state) = some .inService with
  | some g => { s with cornis := { s.cornis with groups := s.cornis.groups.modify g f } }
  | none => s

/-- A flit on an up port; what it calls for goes out with the next flits (R314 to R317). -/
def State.receiveFlit (s : State) (p : Nat) (hdr : Word) (intact : Bool) : State :=
  if !intact then
    ((s.modFirstGroup p fun x => { x with uncorr := x.uncorr + 1 }).modPort p Port.lose).idleFlits p
  else if bitsOf hdr 7 6 ≠ 0 || bitsOf hdr 63 52 ≠ 0 then
    ((s.modPort p Port.lose).linkViolation p Viol.link).idleFlits p
  else
    let ack := BitVec.ofNat 16 (bitsOf hdr 39 24)
    let s := s.modPort p fun x => x.acknowledge ack (bitsOf hdr 41 40) (bitsOf hdr 51 42)
    let s := if bitAt hdr 5 then s.modPort p fun x => x.nakked ack else s
    let s := if bitAt hdr 4 then s else (s.takeFlit p hdr).takeEarly p (s.port p).early.length
    let s := if 8 ≤ (s.port p).naks && (s.port p).up then s.startTraining p false none else s.replayFlits p
    let s := s.retryHeld
    if (s.port p).up then s.idleFlits p else s

/-- FLIT_RECEIVE (R312 to R317): one flit's header, or one that an uncorrectable codeword spoiled, and the codewords that the
decoder corrected on its way. -/
def execFlitReceive (p : Nat) (hdr : Word) (intact : Bool) (corrected : Nat) (s : State) : Host.Outcome State Fault Refusal :=
  .next (if s.clocksRun && (s.port p).up then
      (if corrected = 0 then s else s.modFirstGroup p fun x => { x with corrected := x.corrected + corrected }).receiveFlit p hdr intact
    else s)

/-! ### Forwarding (R324) -/

/-- A message for another package: relayed with one forwarding fewer, or answered (R322, R323, R324). -/
def State.forwardMsg (s : State) (m : Msg) : State :=
  if m.hops = 0 then s.negative m St.notReady Rs.ttlExpired
  else
    let m : Msg := { m with hops := m.hops - 1 }
    match s.choosePort m (s.portsFor m) with
    | none => let o := s.noPath m.dst; s.negative m o.1 o.2
    | some p => s.transmit p m

/-- The held messages that this package forwards. -/
def State.stalled (s : State) : List (Msg × Nat) := s.cornis.held.filter fun e => e.1.src ≠ s.self

/-- A forwarded message has waited more than 1 ms for credit: discarded, counted, answered (R324). -/
def State.discardStalled (s : State) (e : Msg × Nat) : State :=
  let s := s.advanceTo (e.2 + ms 1)
  let n := s.cornis.stallSince + 1
  let s : State := { s with cornis := { s.cornis with
    held := s.cornis.held.erase e, stalled := s.cornis.stalled + 1, stallSince := n } }
  let s := if dueAfter s.cornis.stallAt s.time.now (ms 1000) then
      let s := s.raiseP Ev.routeStall [w64 n]
      { s with cornis := { s.cornis with stallSince := 0, stallAt := some s.time.now } }
    else s
  s.negative e.1 St.notReady Rs.stalled

/-- CREDIT_STALL_DISCARD (R324): the i-th message that waits here to be forwarded. -/
def execCreditStallDiscard (i : Nat) (s : State) : Host.Outcome State Fault Refusal :=
  .next (if !s.clocksRun then s
    else match s.stalled[i]? with
      | some e => s.discardStalled e
      | none => s)

/-! ### What every message meets (R318 to R324, R340, R415) -/

/-- Flits leave a channel of a port's buffer: their credit goes back (R317). -/
def State.freeCredit (s : State) (p vc n : Nat) : State :=
  (s.modPort p fun x => { x with rxHeld := x.rxHeld.modify vc (· - n), crDue := x.crDue.modify vc (· + n) }).idleFlits p

/-- A message leaves the port's buffer (R317). -/
def State.freeFlits (s : State) (m : Msg) : State := s.freeCredit m.port m.vc (flitsOf m)

/-- A message of the port's peer whose `SRC` is this package's own number is discarded, with a NAK (R340). -/
def State.ownSource (s : State) (p : Nat) : State := ((s.modPort p Port.lose).linkViolation p Viol.link).idleFlits p

/-- An opcode of R320. -/
def knownOp (op : BitVec 8) : Bool := (1 ≤ op.toNat && op.toNat ≤ 8) || (0x81 ≤ op.toNat && op.toNat ≤ 0x86)

/-- A mirror or resync message, or a mirrored append, which only the twin may send (R354, R355, R372). -/
def onlyTwin (m : Msg) : Bool :=
  (m.op = Op.write && m.operand.toNat % 4 ≠ 0) || (m.op = Op.appendFwd && bitsOf m.operand2 58 57 ≠ 0)

/-- What R340 and R372 call a malformed request: every check but those of the data an append carries. -/
def State.badRequest (s : State) (m : Msg) : Bool :=
  let kind := m.operand.toNat % 4
  let bulk := m.op = Op.read || m.op = Op.write
  !knownOp m.op || !m.reservedZero || !m.lengthOk
    || 8192 < m.length
    || (m.op = Op.read && (m.length = 0 || !m.data.isEmpty))
    || (m.op = Op.write && (m.length ≠ m.data.length || (m.length = 0 && !(kind = 2 && bitAt m.operand 2))))
    || (m.op = Op.atomic && (m.length ≠ 0 || m.aop = 3 || m.atype = 3))
    || (m.op = Op.control && m.vc ≠ 3) || (m.op ≠ Op.control && !(m.vc = 0 || (bulk && m.vc = 2)))
    || ((m.op = Op.appendFwd || m.op = Op.control) && !m.ordered)
    || (m.arrEn && m.op ≠ Op.write) || (m.arrFinal && !m.arrEn)
    || (m.phys && (3 < m.op.toNat || unitLevel m.srcUnit ≠ 3))
    || (m.op = Op.write && (kind = 3 || bitsOf m.operand 31 3 ≠ 0 || (kind = 0 && m.operand ≠ 0)
          || (kind ≠ 2 && bitAt m.operand 2) || (kind = 2 && bitsOf m.operand2 63 12 ≠ 0) || (kind ≠ 2 && m.operand2 ≠ 0)))
    || (m.op = Op.appendFwd && (bitsOf m.operand2 63 59 ≠ 0 || (bitsOf m.operand2 58 57 = 2)
          || (bitsOf m.operand2 58 57 = 0 && (bitsOf m.operand 63 32 ≠ 0 || bitsOf m.operand2 63 32 ≠ 0))))
    || (onlyTwin m && m.src ≠ s.twinPkg)

/-- A refused message: logged against its package and answered (R340). -/
def State.refuseMsg (s : State) (m : Msg) (kind : Nat) (reason : Code) : State :=
  let s := s.msgViolation m.src m.port kind reason
  if m.op.toNat < 0x80 then s.respond (reply m St.peerViolation reason) else s

/-- What a message meets before its own effect. `k` goes on with a message for this package that passes; only requests are
checked as such. -/
def State.admitMsg (s : State) (m : Msg) (k : State → State) : State :=
  if !s.clocksRun || !(s.port m.port).up then s
  else
    let s := s.freeFlits m
    if m.port = 8 && (m.src ≠ s.twinPkg || m.dst ≠ s.self) then s.msgViolation s.twinPkg 8 Viol.twinPort 0
    else if m.src = s.self then s.ownSource m.port
    else
      let s := s.hearTwin m.src
      if m.dst ≠ s.self then s.forwardMsg m else k s

/-- A request for this package (R320, R340, R341, R415); an issuer that is no unit is refused (R15). -/
def State.admitRequest (s : State) (op : BitVec 8) (m : Msg) (k : State → State) : State :=
  if m.op ≠ op && knownOp m.op then s
  else s.admitMsg m fun s =>
    if !m.crcOk then s.refuseMsg m Viol.crc Rs.badCrc
    else if !s.ready then s.respond (reply m St.notReady Rs.notStarted)
    else if s.cornis.suspects.contains m.src then s.respond (reply m St.peerViolation Rs.suspect)
    else if s.badRequest m then s.refuseMsg m Viol.message Rs.badMessage
    else if !unitValid m.srcUnit then s.respond (reply m St.rejected Rs.badUnit)
    else k s

end Sys2Proof.Machine
end

