-- ==== Sys2Proof/Machine/Halt.lean ====
section
/-! DEFINITION. Sys2Proof/Machine/Halt.lean: the halt of a package after a thermal shutdown (R473). -/

namespace Sys2Proof.Machine

/-- A tile enters HALTED; one that is ABSENT stays so (R70, R473). -/
def State.haltTile (s : State) (t : TileRef) : State :=
  if (s.tile t).unit = .absent then s else (s.tileState t .halted 3).endDemand t

/-- A stack enters HALTED with its tiles. -/
def State.haltStack (s : State) (st : Nat) : State :=
  let s := (List.range 64).foldl (fun (s : State) i => s.haltTile (64 * st + i)) s
  if s.stackState st = .absent then s else s.setStackState st .halted 3

/-- A guest site leaves the state it is in (R507): from UP, its reads in flight are to be discarded, its waiting traffic is gone,
its commands run on without a reply, and `CAUSE` says why. -/
def State.guestExit (s : State) (g : Nat) (new : GuestSt) (cause : Code) : State :=
  let x := s.guest g
  let up := x.state = .up
  let s := s.setGuest g { x with
    state := new, width := 0, cause := if up then cause else x.cause, waiting := [], cmdQueue := [], trainAt := none
    throttleAt := none }
  if !up then s
  else
    let dead := fun (k : Txn) => match k.user with
      | .guest site txn => if site = g then { k with user := .guest 2 txn } else k
      | _ => k
    { s with
      cornis := { s.cornis with txns := s.cornis.txns.map dead }
      host := { s.host with slots := s.host.slots.map fun k => if k.cmd.guest = some g then { k with gtxn := none } else k } }

/-- The guest sites are in reset, where there is a module (R495, R507). -/
def State.stopGuests (s : State) : State :=
  [0, 1].foldl (fun (s : State) g => if (s.guest g).state = .absent then s else s.guestExit g .reset Rs.guestReset) s

/-- Kind of a shutdown in THERMAL_SHUTDOWN: the facility ALARM codes of R482, 4 orderly and 5 immediate. -/
def ThermState.kind (x : ThermState) : Nat := if x.immediate then 5 else 4

/-- The halt (R473): the regulators are off, every unit HALTED, the ports down, `THERMTRIP_N` asserted. -/
def State.halt (s : State) : State :=
  let s := ((List.range 24).foldl (fun (s : State) st => s.haltStack st) s).setPackageState .halted 3
  let s := ((List.range 9).foldl (fun (s : State) p => s.portDown p 4) s).stopGuests
  let s : State := { s with
    therm := { s.therm with halted := true, trip := true, haltDue := false, leaving := false }
    power := { s.power with rails := s.power.rails.map fun r => { r with mv := 0 } } }
  s.raiseP Ev.thermalShutdown [w64 s.therm.kind, w64 s.therm.cause, w64 s.therm.die, w64 s.therm.estMs]

/-- An orderly shutdown that has left its twin halts (R471). -/
def State.afterLeave (s : State) : State := if s.therm.haltDue then s.halt else s

end Sys2Proof.Machine
end

