-- ==== Sys2Proof/Machine/Remote.lean ====
section
/-! DEFINITION. Sys2Proof/Machine/Remote.lean: the Cornis requests at their destination (R320): READ (R329), WRITE, ordinary, mirror
and resync copy (R326, R337, R353 to R356, R364, R365), ATOMIC (R331), APPEND_FWD (R333, R355), SHARE and CONTROL (R334). -/

namespace Sys2Proof.Machine

/-- Context that a remote operation is translated in: the low 12 bits of its job tag (R108). -/
def msgCtx (m : Msg) : Nat := m.job.toNat % 4096

/-- Tile whose slice a message's address lies in. -/
def msgTile (m : Msg) : TileRef := tileOfLocal (localOf m.gaddr)

/-- A malformed message found while it is applied (R340). -/
def M.malformed {α : Type} : M α := M.stop St.peerViolation Rs.badMessage

/-- Own local address of a physical message (R335). -/
def physAt (m : Msg) : M Nat := do
  if pkgOf m.gaddr = (← get).self then pure (localOf m.gaddr) else M.stop St.range Rs.localHole

/-- Translate a message's DVA here; the leaf must allow remote access (R105), the answer must be the issuer's (R326), and the
message lies within one page (R327). `checked` asks for the issuer's address. -/
def remoteXlt (m : Msg) (checked : Bool) : M XEntry := do
  let e ← atDva m.dva (translatePlain (msgCtx m) m.dva 6)
  if !e.remote then M.stop St.range Rs.notRemote 6 m.dva
  if 2 ^ e.size < m.dva.toNat % 2 ^ e.size + m.length then M.malformed
  if (checked && e.global m.dva ≠ m.gaddr) || pkgOf (e.global m.dva) ≠ (← get).self then M.stop St.range Rs.xltDisagree 6 m.dva
  pure e

/-- The tile whose record a stopped arrival enters: the one that holds its address; for a mirror WRITE, which carries no global address,
the one that its DVA leads to here, or the issuer's own number where it leads nowhere (R110, R354; log entry 38). -/
def State.faultTile (s : State) (m : Msg) : TileRef :=
  if m.operand.toNat % 4 = 1 && m.op = Op.write then
    match (translatePlain (msgCtx m) m.dva 6).result s with
    | (.ok e, _) => tileOfLocal (localOf (e.global m.dva))
    | (.error _, _) => unitTileRef m.srcUnit
  else msgTile m

/-- Answer a request that stopped: malformed ones are violations; range faults enter the record of the tile addressed, with the
step of the message's tag, 0 without one (R110; log entry 38). -/
def State.stopMsg (s : State) (m : Msg) (e : Stop) : State :=
  if e.status = St.peerViolation then s.refuseMsg m Viol.message e.reason
  else
    let t := s.faultTile m
    let s := if !m.phys && tileOk t then s.recordFault t e 0 (msgCtx m) m.arrStep else s
    s.respond (reply m e.status e.reason)

/-! ### READ -/

/-- Read page by page; every byte of a poisoned page reads as 0xFF (R329). -/
def readMarked (a n kind : Nat) : M (List Byte × Bool) :=
  (pageParts a n).foldlM (fun acc p => do
    let r ← EStateM.tryCatch (do pure (some (← readLocal p.1 p.2 kind))) fun (e : Stop) =>
      if e.status = St.poisoned then pure none else throw e
    match r with
    | some b => pure (acc.1 ++ b, acc.2)
    | none => pure (acc.1 ++ List.replicate p.2 0xFF, true)) ([], false)

/-- The bytes a READ asks for (R326, R335, R356); the twin fetches a page without knowing its address here (R369). -/
def readAsked (m : Msg) : M (List Byte × Bool) := do
  if m.phys then readMarked (← physAt m) m.length 8
  else
    let e ← remoteXlt m (!(m.src = (← get).twinPkg && m.gaddr = 0))
    if !e.canRead then M.stop St.range Rs.noRead 6 m.dva
    if e.mirrored then mirrorReadable (msgCtx m) m.dva m.length 6
    atDva m.dva (readMarked (localOf (e.global m.dva)) m.length 6)

/-- READ (R329). -/
def execRead (m : Msg) (s : State) : Host.Outcome State Fault Refusal :=
  .next (s.admitRequest Op.read m fun s =>
    match (readAsked m).result s with
    | (.ok (b, bad), s') => s'.respond (reply m (if bad then St.poisoned else St.ok) 0 0 b)
    | (.error e, s') => s'.stopMsg m e)

/-! ### WRITE -/

/-- What an applied write leaves: bytes for the twin, and why it does not hold the rest (R356). -/
structure Wrote where
  sent : List Byte := []
  alone : Option Code := none
  deriving DecidableEq, Repr

/-- One page part of a write to a mirrored page, at its local address (R356, R368). -/
def writeMirrored (m : Msg) (base : Nat) (acc : Wrote) (p : Nat × Nat) : M Wrote := do
  let s ← get
  let dva := w64 p.1
  let bytes := (m.data.drop (p.1 - m.dva.toNat)).take p.2
  let put := do
    atDva dva (writeLocal (base + (p.1 - m.dva.toNat)) 6 bytes)
    M.upd fun s => { s with twin := s.twin.written (msgCtx m) dva p.2 }
  match s.twin.writeWay (msgCtx m) dva p.2 with
  | .both =>
    put
    pure { acc with sent := acc.sent ++ bytes }
  | .alone r =>
    put
    pure { acc with alone := some (acc.alone.getD r) }
  | .refuse => M.stop St.notReady Rs.twinResync 6 dva

/-- Apply an ordinary WRITE (R326, R335, R353): a third package's write to a mirrored page goes to the twin too. -/
def writeOrdinary (m : Msg) : M Wrote := do
  if m.phys then
    writeOwn (← physAt m) 8 m.data
    pure {}
  else
    let e ← remoteXlt m true
    if !e.canWrite then M.stop St.range Rs.noWrite 6 m.dva
    let o := m.dva.toNat % 2 ^ e.size
    if e.appendOnly then atDva m.dva (appendMark e m.dva o (o + m.length) 6)
    if e.mirrored && m.src ≠ (← get).twinPkg then
      (pageParts m.dva.toNat m.length).foldlM (writeMirrored m (localOf m.gaddr)) {}
    else
      atDva m.dva (writeOwn (localOf m.gaddr) 6 m.data)
      pure {}

/-- The mirror WRITE of a third package's bytes. -/
def State.thirdMsg (s : State) (m : Msg) (bytes : List Byte) : Msg :=
  { op := Op.write, dst := s.twinPkg, job := m.job, srcUnit := s.tileId (msgTile m), dva := m.dva, length := bytes.length,
    data := bytes, operand := mirrorWord 1 false s.twin.gen }

/-- Acknowledge an ordinary WRITE, after the twin's answer where the twin holds it all (R328, R356). -/
def State.ackWrite (s : State) (m : Msg) (w : Wrote) : State :=
  let part := fun (s : State) (r : Code) => s.countPartial.respond (reply m St.partial r)
  match w.alone with
  | some r =>
    let s := if w.sent.isEmpty || (s.pathStop s.twinPkg).isSome then s else s.request (s.thirdMsg m w.sent) (.front (msgTile m))
    part s r
  | none =>
    if w.sent.isEmpty then s.respond (reply m St.ok 0)
    else if (s.pathStop s.twinPkg).isSome then part s Rs.noResponse
    else s.request (s.thirdMsg m w.sent) (.third m.src m.txn m.srcUnit)

/-- A tracker is the message's (R337). -/
def Tracker.of (k : Tracker) (m : Msg) : Bool := k.srcUnit = m.srcUnit && k.arrId = m.arrId && k.arrStep = m.arrStep

/-- The tile has a tracker for a tagged message, or a free one (R337). -/
def Tile.canTrack (x : Tile) (m : Msg) : Bool := x.trackers.length < 256 || x.trackers.any fun k => k.of m

/-- A tagged message has been applied: its tracker counts it, and closes with an arrival count when all are in (R337). -/
def State.track (s : State) (m : Msg) : State :=
  let t := msgTile m
  let x := s.tile t
  let k : Tracker := (x.trackers.find? fun k => k.of m).getD
    { srcUnit := m.srcUnit, arrId := m.arrId, arrStep := m.arrStep, ctr := m.arrCtr, count := 0, total := none, lastAt := 0 }
  let k : Tracker := { k with count := k.count + 1, lastAt := s.time.now, total := if m.arrFinal then some m.arrMsgs else k.total }
  let rest := x.trackers.filter fun j => !j.of m
  if k.total = some k.count then (s.setTile t { x with trackers := rest }).arrive t k.ctr k.arrStep
  else s.setTile t { x with trackers := rest ++ [k] }

/-- An ordinary WRITE. -/
def State.takeWrite (s : State) (m : Msg) : State :=
  if m.arrEn && !(s.tile (msgTile m)).canTrack m then s.respond (reply m St.notReady Rs.arrBusy)
  else match (writeOrdinary m).result s with
    | (.ok w, s') => (if m.arrEn then s'.track m else s').ackWrite m w
    | (.error e, s') => s'.stopMsg m e

/-- Apply a mirror WRITE: this package's own checks, and none of the issuer's address (R108, R353). -/
def writeMirror (m : Msg) : M Unit := do
  let e ← remoteXlt m false
  if !e.canWrite then M.stop St.range Rs.noWrite 6 m.dva
  let o := m.dva.toNat % 2 ^ e.size
  if e.appendOnly then atDva m.dva (appendMark e m.dva o (o + m.length) 6)
  atDva m.dva (writeOwn (localOf (e.global m.dva)) 6 m.data)

/-- The generation of a mirror word. -/
def mirrorGen (m : Msg) : BitVec 32 := BitVec.ofNat 32 (bitsOf m.operand 63 32)

/-- A mirror WRITE (R354, R356, R363). -/
def State.takeMirror (s : State) (m : Msg) : State :=
  if mirrorGen m ≠ s.twin.gen then s.respond (reply m St.notReady Rs.twinStaleGen)
  else if s.twin.state = .stale then s.respond (reply m St.notReady Rs.twinResync)
  else match (writeMirror m).result s with
    | (.ok _, s') => s'.respond (reply m St.ok 0)
    | (.error e, s') => s'.stopMsg m e

/-- Apply a resync copy of one page: whole, whatever `WRITE` and `APPEND_ONLY` say; a poisoned one sets the poison bit; `END`
goes into the leaf (R364, R365). -/
def writeCopy (m : Msg) : M Unit := do
  let refuse := fun (_ : Stop) => M.stop St.range Rs.notMirrored
  let e ← EStateM.tryCatch (translatePlain (msgCtx m) m.dva 0) refuse
  if !e.mirrored || pkgOf (e.global m.dva) ≠ (← get).self then M.stop St.range Rs.notMirrored
  let a := localOf (e.global m.dva)
  if bitAt m.operand 2 then
    if isStack a then M.upd fun s => s.poisonPage (tileOfLocal a) (a % 2 ^ 31 / pageSize) 9
  else writeOwn a 9 m.data
  if bitAt m.operand2 11 then
    let w := natLE (← readStack e.leaf 8 3)
    writeStack e.leaf 3 (bytesLE 8 (w - bitsOf (w64 w) 20 10 * 1024 + bitsOf m.operand2 10 0 * 1024))

/-- The target's watermark passes a copied page (R364). -/
def TwinState.passed (w : TwinState) (ctx dva : Nat) : TwinState :=
  { w with
    doneContexts := if w.phase = 1 && w.context ≠ ctx then w.doneContexts ++ [w.context] else w.doneContexts
    phase := 1, context := ctx, mark := dva % 2 ^ 57 / pageSize * pageSize + pageSize, bytes := w.bytes + pageSize }

/-- A copy that cannot be applied is counted and reported at most once per second (R365). -/
def State.copyFault (s : State) (m : Msg) : State :=
  let s : State := { s with twin := { s.twin with faults := s.twin.faults + 1 } }
  if dueAfter s.twin.faultAt s.time.now (ms 1000) then
    ({ s with twin := { s.twin with faultAt := some s.time.now } } : State).raiseP Ev.twinResyncFault [w64 (msgCtx m), m.dva]
  else s

/-- A resync copy (R364, R365, R372). -/
def State.takeCopy (s : State) (m : Msg) : State :=
  if s.twin.state ≠ .target then s.refuseMsg m Viol.message Rs.badMessage
  else if mirrorGen m ≠ s.twin.gen then s.respond (reply m St.notReady Rs.twinStaleGen)
  else
    let r := (writeCopy m).result s
    let s := { r.2 with twin := r.2.twin.passed (msgCtx m) m.dva.toNat }
    match r.1 with
    | .ok _ => s.respond (reply m St.ok 0)
    | .error e => (if e.reason = Rs.notMirrored then s.copyFault m else s).respond (reply m e.status e.reason)

/-- WRITE (R328). -/
def execWrite (m : Msg) (s : State) : Host.Outcome State Fault Refusal :=
  .next (s.admitRequest Op.write m fun s =>
    match m.operand.toNat % 4 with
    | 0 => s.takeWrite m
    | 1 => s.takeMirror m
    | _ => s.takeCopy m)

/-! ### ATOMIC (R331) -/

/-- The element after an atomic: 4 or 8 bytes as numbers. -/
def atomicNew (aop atype old x y : Nat) : Nat :=
  let w := if atype = 1 then 64 else 32
  match aop with
  | 0 => if atype = 2 then (addF (BitVec.ofNat 32 old) (BitVec.ofNat 32 x)).toNat else (old + x) % 2 ^ w
  | 1 =>
    if atype = 2 then (maxF (BitVec.ofNat 32 old) (BitVec.ofNat 32 x)).toNat
    else if signedOf w old < signedOf w x then x % 2 ^ w else old
  | _ => if old = x % 2 ^ w then y % 2 ^ w else old

/-- Apply an atomic and answer the old value; a misaligned element is refused (DESIGN CHOICE, log entry 38: R331
names no outcome). -/
def applyAtomic (m : Msg) : M Nat := do
  let n := if m.atype = 1 then 8 else 4
  let (a, page) ← if m.phys then pure (← physAt m, none)
    else do
      let e ← remoteXlt { m with length := n } true
      if !e.canRead then M.stop St.range Rs.noRead 6 m.dva
      if !e.canWrite then M.stop St.range Rs.noWrite 6 m.dva
      pure (localOf (e.global m.dva), some e)
  if a % n ≠ 0 then M.stop St.rejected Rs.badField
  let old := natLE (← readLocal a n 8)
  match page with
  | some e =>
    let o := m.dva.toNat % 2 ^ e.size
    if e.appendOnly then atDva m.dva (appendMark e m.dva o (o + n) 6)
  | none => pure ()
  writeLocal a 8 (bytesLE n (atomicNew m.aop m.atype old m.operand.toNat m.operand2.toNat))
  pure old

/-- ATOMIC (R331). -/
def execAtomic (m : Msg) (s : State) : Host.Outcome State Fault Refusal :=
  .next (s.admitRequest Op.atomic m fun s =>
    match (applyAtomic m).result s with
    | (.ok old, s') => s'.respond (reply m St.ok 0 (w64 old))
    | (.error e, s') => s'.stopMsg m e)

/-! ### APPEND_FWD (R333, R355, R358) -/

/-- Give the rows of a forwarded entry to its home tile. -/
def State.giveRows (s : State) (t : TileRef) (r : AppendRows) : State :=
  { s with mesh := s.mesh ++ [{ dest := t, due := s.time.now, body := .rows r }] }

/-- What an APPEND_FWD is answered with. -/
def State.refuseAppend (s : State) (m : Msg) (status reason : Code) : State :=
  s.respond (reply m status reason (recordOf (outc status reason) 0 0 false false false))

/-- The mode of an ordinary forwarded entry, which its total bytes tell: `TOKENS` rows of keys and of values for COMMIT, the same and a
byte for each token for STAGE, those bytes alone for ACCEPT (R218, R220, R333; DEDUCED, log entry 40). -/
def entryMode (tokens total : Nat) : Nat :=
  if tokens = 0 || total - 32 < 2 * tokens then 2 else if (total - 32) % (2 * tokens) = 0 then 0 else 1

/-- An ordinary forwarded entry is complete: its home is found in the page table here (R220, R333). After the entry stand its rows
and `AUX`, as `sendEntry` lays them out. -/
def State.ordinaryAppend (s : State) (m : Msg) (b : List Byte) (since : Nat) (upTo : Option Nat) : State :=
  let entry := BitVec.ofNat 256 (natLE (b.take 32))
  let a := appendEntryOf entry
  let mode := entryMode a.tokens (bitsOf m.operand2 31 0)
  let rest := b.drop 32
  let rows := if upTo.isSome then rest.length else if mode = 1 then rest.length - a.tokens else if mode = 2 then 0 else rest.length
  let env := s.frontEnv (s.tilesUp.head?.getD 0) m.job m.arrStep true
  let find : M (BitVec 32) := do
    let (h, _) ← readHeader env a.pt
    if h.planes ≤ a.plane then kvRefuse St.rejected Rs.planeRange
    pure (← readDir env h a.plane).home
  match find.result s with
  | (.error e, s') => s'.refuseAppend m e.status e.reason
  | (.ok home, s') =>
    if !unitValid home || unitLevel home ≠ 1 || unitPkg home ≠ s.self then s'.refuseAppend m St.rejected Rs.homeMoved
    else s'.giveRows (unitTileRef home)
      { entry := entry, entryNo := 0, mode := mode, issuer := 0, slot := 0, remote := some (m.src, m.txn, m.srcUnit)
        job := m.job, step := m.arrStep, rows := rest.take rows, aux := rest.drop rows, since := since, upTo := upTo, last := upTo.isNone }

/-- Data bytes that a mirrored entry must have, where its page table can be read: tokens, or a directory entry and an image
(R355, R358, R366). -/
def State.mirrorBytesOk (s : State) (t : TileRef) (m : Msg) (tail : Bool) (entry : BitVec 256) (n : Nat) : Bool :=
  let a := appendEntryOf entry
  match (readHeader (s.frontEnv t m.job m.arrStep true) a.pt).result s with
  | (.ok (h, _), _) => if tail then n = 32 || n = 32 + h.imageSize else n = a.tokens * h.tokenBytes
  | (.error _, _) => true

/-- A mirrored entry or tail is complete: the tile of the sender's number applies it (R346, R355, R359). A tail at a target
shows that its page phase is over (R366). -/
def State.mirrorAppend (s : State) (m : Msg) (b : List Byte) (since : Nat) (upTo : Option Nat) : State :=
  let entry := BitVec.ofNat 256 (natLE (b.take 32))
  let tail := bitAt m.operand2 58
  let t := unitTileRef m.srcUnit
  let rows := b.drop 32
  if !unitValid m.srcUnit || unitLevel m.srcUnit ≠ 1 || !s.mirrorBytesOk t m tail entry (bitsOf m.operand2 31 0 - 32) then s.refuseMsg m Viol.message Rs.badMessage
  else
    let s : State := if tail && s.twin.state = .target && s.twin.phase ≠ 2 then
        { s with twin := { s.twin with doneContexts := s.twin.doneContexts ++ [s.twin.context], phase := 2 } }
      else s
    s.giveRows t
      { entry := entry, entryNo := 0, mode := 0, issuer := 0, slot := 0, remote := some (m.src, m.txn, m.srcUnit)
        job := m.job, step := m.arrStep, rows := rows, mirrored := some (bitsOf m.operand2 56 32), tail := tail
        since := since, upTo := upTo, last := upTo.isNone }

/-- Bytes received so far of the entry that a fragment belongs to (R333). -/
def State.fragmentsOf (s : State) (m : Msg) : Option (List Byte) :=
  (s.cornis.fragments.find? fun f => f.1 = (m.src, m.txn)).map Prod.snd

/-- Tokens of a commit whose bytes are among the first ones of its entry (R333): a mirrored commit's tokens follow each other, an
ordinary one's K rows all come before its V rows. Stages, acceptances and tails are applied whole. -/
def tokensIn (mirrored tail : Bool) (total : Nat) (b : List Byte) : Nat :=
  let n := (appendEntryOf (BitVec.ofNat 256 (natLE (b.take 32)))).tokens
  if tail || b.length < 33 || n = 0 then 0
  else if mirrored then min n ((b.length - 32) / max 1 ((total - 32) / n))
  else if entryMode n total ≠ 0 then 0
  else
    let row := max 1 ((total - 32) / (2 * n))
    min n ((b.length - 32 - n * row) / row)

/-- A fragment arrives in its order: the tokens it completes are applied (R333). A fragment of an entry refused already is
dropped. -/
def State.takeFragment (s : State) (m : Msg) : State :=
  let off := bitsOf m.operand 31 0
  let total := bitsOf m.operand2 31 0
  let mirrored := bitAt m.operand2 57
  let tail := bitAt m.operand2 58
  let have_ := (s.fragmentsOf m).getD []
  let s : State := { s with cornis := { s.cornis with fragments := s.cornis.fragments.filter fun f => f.1 ≠ (m.src, m.txn) } }
  if off ≠ have_.length then s
  else if total < off + m.data.length || (off = 0 && m.data.length < 32) then s.refuseMsg m Viol.message Rs.badMessage
  else if mirrored && tail && total = 64 && s.twin.state ≠ .target then s.refuseMsg m Viol.message Rs.badMessage
  else if mirrored && BitVec.ofNat 32 (bitsOf m.operand 63 32) ≠ s.twin.gen then s.refuseAppend m St.notReady Rs.twinStaleGen
  else if mirrored && s.twin.state = .stale then s.refuseAppend m St.notReady Rs.twinResync
  else
    let b := have_ ++ m.data
    let before := tokensIn mirrored tail total have_
    let now := tokensIn mirrored tail total b
    let give := fun (s : State) (upTo : Option Nat) => if mirrored then s.mirrorAppend m b before upTo else s.ordinaryAppend m b before upTo
    if b.length < total then
      let s' := if before < now then give s (some now) else s
      if s'.mesh = s.mesh && before < now then s'
      else { s' with cornis := { s'.cornis with fragments := s'.cornis.fragments ++ [((m.src, m.txn), b)] } }
    else give s none

/-- APPEND_FWD (R333). -/
def execAppendFwd (m : Msg) (s : State) : Host.Outcome State Fault Refusal :=
  .next (s.admitRequest Op.appendFwd m fun s => s.takeFragment m)

/-! ### SHARE and CONTROL (R334) -/

/-- A share goes to the package's lowest-numbered tile in service, an attention item to its tile; with no tile in service the
answer is NOT_READY. A share is 64 bytes, an item as long as `itemMsg` lays it out (log entry 39); another `LENGTH` is a violation
(R320, R340). -/
def State.takeShareMsg (s : State) (m : Msg) : State :=
  if m.data.length ≠ 64 && m.data.length ≠ 177 + natLE ((m.data.drop 176).take 1) then s.refuseMsg m Viol.message Rs.badMessage
  else if 64 < m.data.length then
    let it := itemOfMsg m
    let u := dTarget it.desc
    if !unitValid u || unitLevel u ≠ 1 || unitPkg u ≠ s.self then s.respond (reply m St.rejected Rs.badUnit)
    else s.meshSend (unitTileRef (dTarget it.desc)) 0 (.item it)
  else match s.tilesUp with
    | [] => s.respond (reply m St.notReady 0)
    | t :: _ => s.meshSend t 0 (.share (shareOfMsg m t))

/-- SHARE (R334). -/
def execShare (m : Msg) (s : State) : Host.Outcome State Fault Refusal :=
  .next (s.admitRequest Op.share m fun s => s.takeShareMsg m)

/-- Why a fetched command does not start: malformed (R398), it would start work after a shutdown decision (R471), or it names an own
group index that holds no group (R78). -/
def State.cmdRefusal (s : State) (c : Cmd) : Option (Code × Code) :=
  match cmdMalformed c with
  | some r => some (St.rejected, r)
  | none =>
    if s.therm.decided && ((cmdForm c.opcode.toNat).map (·.work)).getD false then some (St.aborted, Rs.shutdown)
    else if unitLevel c.unit = 7 && unitPkg c.unit = s.self && (kvFind s.units.groups (unitGroup c.unit)).isNone then
      some (St.rejected, Rs.noGroup)
    else none

/-- The command that a CONTROL message carries, in its first 64 bytes; its ring and tag tell forwarded commands apart. -/
def controlCmd (m : Msg) : Cmd :=
  { decodeCmd (256 + m.src) (descOf (m.data.take 64)) with tag := m.txn, origin := some (m.src, m.txn) }

/-- A command from another package starts here, with its parameter bytes; its reply goes with its completion (R68, R334). -/
def State.takeControl (s : State) (m : Msg) : State :=
  if m.data.length < 64 then s.refuseMsg m Viol.message Rs.badMessage
  else
    let c := controlCmd m
    match s.cmdRefusal c with
    | some (st, rs) => s.respond (reply m st rs 0 (List.replicate 16 0))
    | none =>
      let rest := m.data.drop 64
      let z : CmdSlot := { cmd := c, ph := .started, startAt := s.time.invar
                           param := if rest.isEmpty then none else some (.good rest) }
      { s with host := { s.host with slots := s.host.slots ++ [z] } }

/-- A CONTROL or reply of several messages: the bytes are kept until the last has come (R334). One message that holds them all is whole
by itself. -/
def State.joinPart (s : State) (m : Msg) : State × Option Msg :=
  let total := bitsOf m.operand2 31 0
  if total ≤ m.data.length then (s, some m)
  else
    let key := (m.src, m.txn, m.op)
    let b := ((s.cornis.parts.find? fun e => e.1 = key).map Prod.snd).getD [] ++ m.data
    let rest := s.cornis.parts.filter fun e => e.1 ≠ key
    if total ≤ b.length then ({ s with cornis := { s.cornis with parts := rest } }, some { m with data := b, length := b.length })
    else ({ s with cornis := { s.cornis with parts := rest ++ [(key, b)] } }, none)

/-- CONTROL (R334). -/
def execControl (m : Msg) (s : State) : Host.Outcome State Fault Refusal :=
  .next (s.admitRequest Op.control m fun s =>
    match s.joinPart m with
    | (s, some m) => s.takeControl m
    | (s, none) => s)

/-! ### Responses (R328 to R334) -/

/-- A response reaches the issuer: its request ends, unless it is asked to send again (R337) or the response comes too late
(R330). -/
def State.takeResponse (s : State) (m : Msg) : State :=
  match s.takeTxn m.txn with
  | none =>
    if s.cornis.expired.any fun e => e.1 = m.txn then
      { s with cornis := { s.cornis with
          late := s.cornis.late + 1
          expired := s.cornis.expired.filter fun e => e.1 ≠ m.txn } }
    else s.msgViolation m.src m.port Viol.response 0
  | some (x, s') =>
    if m.op ≠ x.msg.op + 0x80 then s.msgViolation m.src m.port Viol.response 0
    else if x.sentAt + ms 10 ≤ s.time.now then
      ({ s' with cornis := { s'.cornis with late := s'.cornis.late + 1 } } : State).txnFails x St.notReady Rs.noResponse
    else if !unitValid m.srcUnit then (s'.txnFails x St.rejected Rs.badUnit).retryHeld.afterLeave
    else if m.status = St.notReady && m.reason = Rs.arrBusy && x.msg.arrEn && x.resends < 16 then
      { s' with cornis := { s'.cornis with txns := s'.cornis.txns ++ [{ x with again := true, sentAt := s'.time.now }] } }
    else (s'.txnDone x m).retryHeld.afterLeave

/-- What a response meets first: an unsound one is discarded, and one that breaks R320 counts against its package. -/
def State.admitResponse (s : State) (op : BitVec 8) (m : Msg) : State :=
  if m.op ≠ op then s
  else s.admitMsg m fun s =>
    if !m.crcOk then s.msgViolation m.src m.port Viol.crc Rs.badCrc
    else if m.vc ≠ 1 || !m.reservedZero || !m.lengthOk || 8192 < m.length then s.msgViolation m.src m.port Viol.message Rs.badMessage
    else if op ≠ Op.control + 0x80 then s.takeResponse m
    else match s.joinPart m with
      | (s, some m) => s.takeResponse m
      | (s, none) => s

/-- READ_DATA (R328). -/
def execReadData (m : Msg) (s : State) : Host.Outcome State Fault Refusal := .next (s.admitResponse 0x81 m)
/-- WRITE_ACK (R328). -/
def execWriteAck (m : Msg) (s : State) : Host.Outcome State Fault Refusal := .next (s.admitResponse 0x82 m)
/-- ATOMIC_ACK (R331). -/
def execAtomicAck (m : Msg) (s : State) : Host.Outcome State Fault Refusal := .next (s.admitResponse 0x83 m)
/-- APPEND_ACK (R333). -/
def execAppendAck (m : Msg) (s : State) : Host.Outcome State Fault Refusal := .next (s.admitResponse 0x84 m)
/-- SHARE_DONE (R334). -/
def execShareDone (m : Msg) (s : State) : Host.Outcome State Fault Refusal := .next (s.admitResponse 0x85 m)
/-- CONTROL_REPLY (R68). -/
def execControlReply (m : Msg) (s : State) : Host.Outcome State Fault Refusal := .next (s.admitResponse 0x86 m)

/-- A request has had no answer for 10 ms: it ends NO_RESPONSE; a package that left a command unanswered reads UNREACHABLE
(R70, R330). -/
def State.timeOut (s : State) (txn : BitVec 16) : State :=
  match s.takeTxn txn with
  | none => s
  | some (x, s') =>
    if x.again then s
    else
      let s' := s'.advanceTo (x.sentAt + ms 10)
      let mute := match x.user with
        | .command _ _ _ => !s'.units.silent.contains x.dst
        | _ => false
      let s' : State := { s' with
        cornis := { s'.cornis with expired := s'.cornis.expired ++ [(txn, x.dst)] }
        units := if mute then { s'.units with silent := s'.units.silent ++ [x.dst] } else s'.units }
      let s' := if mute then (s'.bumpRemote x.dst).notePackage s x.dst else s'
      (s'.txnFails x St.notReady Rs.noResponse).afterLeave

/-- REQUEST_TIMEOUT (R330). -/
def execRequestTimeout (txn : BitVec 16) (s : State) : Host.Outcome State Fault Refusal :=
  .next (if s.clocksRun then s.timeOut txn else s)

/-- ARR_RESEND (R337): 10 µs after ARR_BUSY the issuer sends the message again. -/
def execArrResend (txn : BitVec 16) (s : State) : Host.Outcome State Fault Refusal :=
  .next (if !s.clocksRun then s
    else match s.cornis.txns.find? fun x => x.txn = txn && x.again with
      | none => s
      | some x =>
        let s := s.advanceTo (x.sentAt + us 10)
        let l := s.cornis.txns.map fun k =>
          if k.txn = txn then { k with again := false, resends := k.resends + 1, sentAt := s.time.now } else k
        match s.pathStop x.msg.dst with
        | some (st, rs) => match s.takeTxn txn with
          | some (x, s') => (s'.txnFails x st rs).afterLeave
          | none => s
        | none => ({ s with cornis := { s.cornis with txns := l } } : State).sendMsg x.msg)

/-- TRACKER_TIMEOUT (R337): 10 ms without a message discards the tracker. -/
def execTrackerTimeout (t : TileRef) (srcUnit : BitVec 32) (arrId : BitVec 16) (step : Nat) (s : State) :
    Host.Outcome State Fault Refusal :=
  .next (if !s.clocksRun then s
    else
      let is := fun (k : Tracker) => k.srcUnit = srcUnit && k.arrId = arrId && k.arrStep = step
      match (s.tile t).trackers.find? is with
      | none => s
      | some k =>
        let s := s.advanceTo (k.lastAt + ms 10)
        (s.modTile t fun x => { x with trackers := x.trackers.filter fun j => !is j }).raise Ev.arrivalAbandoned (s.tileId t)
          [w64 (s.tileId t).toNat, w64 srcUnit.toNat, w64 step])

end Sys2Proof.Machine
end

