-- ==== Sys2Proof/Machine/CornisCommands.lean ====
section
/-! DEFINITION. Sys2Proof/Machine/CornisCommands.lean: the Cornis commands of R343, and the records that come from other packages (R75). -/

namespace Sys2Proof.Machine

/-- Registers of a block as a command returns them for one package: its identifier in 8 bytes, then the registers. -/
def State.blockBytes (s : State) (off n : Nat) : List Byte := bytesLE 8 (pkgUnit s.self).toNat ++ s.regBytes off n

/-- CNS_STATUS (R343). -/
def execCnsStatus (c : Cmd) (s : State) : Host.Outcome State Fault Refusal :=
  .next (s.onCmd 0x0501 c fun s => s.runPackages c fun s => (s, {}, s.blockBytes 0x102000 0x198))

/-- Entries of a routing table in bytes. -/
def routeEntries (b : List Byte) : List (BitVec 16) :=
  (List.range (b.length / 2)).map fun i => BitVec.ofNat 16 (natLE ((b.drop (2 * i)).take 2))

/-- An entry that CNS_ROUTE_WRITE takes: at most four ports, no Reserved bit (R321, R343). -/
def routeOk (e : BitVec 16) : Bool := bitsOf e 15 8 = 0 && popCount 8 e.toNat ≤ 4

/-- Write routing entries from one on; an empty entry leaves the table (R321, R325). -/
def State.setRoutes (s : State) (first : Nat) (l : List (BitVec 16)) : State :=
  let routes := ((List.range l.length).zip l).foldl (fun (r : KV (BitVec 16)) e =>
    if e.2 = 0 then kvErase r (first + e.1) else kvPut r (first + e.1) e.2) s.cornis.routes
  { s with cornis := { s.cornis with routes := routes } }

/-- CNS_ROUTE_WRITE (R325, R343). A range beyond the table's 1,024 entries is refused like a bad entry. -/
def execCnsRouteWrite (c : Cmd) (s : State) : Host.Outcome State Fault Refusal :=
  .next (s.onCmd 0x0502 c fun s => s.withParam c c.p2.toNat (2 * c.p1.toNat) fun s b =>
    s.runPackages c fun s =>
      let l := routeEntries b
      if 1024 < c.p0.toNat + l.length || !l.all routeOk then (s, outc St.rejected Rs.badField, [])
      else (((s.setRoutes c.p0.toNat l).noteAbove s 0).retryHeld, {}, []))

/-- CNS_ROUTE_READ (R343). -/
def execCnsRouteRead (c : Cmd) (s : State) : Host.Outcome State Fault Refusal :=
  .next (s.onCmd 0x0503 c fun s => s.runAt c fun s =>
    s.finishData c ((List.range 1024).flatMap fun p => bytesLE 2 (kvGet s.cornis.routes p 0).toNat) { result0 := 2048 })

/-- CNS_PORT_RETRAIN (R311, R343): the training's end completes it. A port in training for another command is waited for. -/
def execCnsPortRetrain (c : Cmd) (s : State) : Host.Outcome State Fault Refusal :=
  .next (s.onCmd 0x0504 c fun s => s.runAt c fun s =>
    let p := c.p0.toNat
    if 8 < p then s.finishWith c St.rejected Rs.badField
    else if (s.port p).trainCmd.isSome then s
    else if !s.cornis.trained || !(s.usePort p).trainable p then (s.usePort p).finishWith c St.notReady Rs.portDown
    else (s.usePort p).startTraining p true (some c))

/-- Remove a party's mark with its count (R341); when CNS_VIOLATION was last raised for it stays (R342). -/
def State.clearParty (s : State) (key : Nat) : State :=
  let s : State := { s with cornis := { s.cornis with
    suspects := s.cornis.suspects.filter (· ≠ key)
    wins := match kvFind s.cornis.wins key with
      | some w => kvPut s.cornis.wins key { w with times := [] }
      | none => s.cornis.wins } }
  if 1024 ≤ key then s.modPort (key - 1024) fun x => { x with suspect := false }
  else if key = s.twinPkg then { s with twin := { s.twin with suspect := false } }
  else s

/-- CNS_PEER_CLEAR (R341, R343). The party is a package's unit identifier, or a port number 0–8. -/
def execCnsPeerClear (c : Cmd) (s : State) : Host.Outcome State Fault Refusal :=
  .next (s.onCmd 0x0505 c fun s => s.runPackages c fun s =>
    let n := c.p0.toNat
    let u := BitVec.ofNat 32 n
    if n < 9 then (s.clearParty (1024 + n), {}, [])
    else if n < 2 ^ 32 && unitValid u && unitLevel u = 3 then (s.clearParty (unitPkg u), {}, [])
    else (s, outc St.rejected Rs.badField, []))

/-- The physical message of an atomic (R331, R335). -/
def State.atomicMsg (s : State) (g aop atype : Nat) (x y : Word) : Msg :=
  { op := Op.atomic, phys := true, dst := pkgOf g, srcUnit := pkgUnit s.self, gaddr := g, aop := aop, atype := atype
    operand := x, operand2 := y }

/-- CNS_ATOMIC (R331): applied here, or by its package. -/
def execCnsAtomic (c : Cmd) (s : State) : Host.Outcome State Fault Refusal :=
  .next (s.onCmd 0x0506 c fun s =>
    let m := s.atomicMsg c.p0.toNat c.p1.toNat c.p2.toNat c.p3 c.p4
    if c.p1 = 3 || c.p2 = 3 then s.finishWith c St.rejected Rs.badField
    else if m.dst = s.self then
      match (applyAtomic m).result s with
      | (.ok old, s') => s'.finishOk c (w64 old) 0
      | (.error e, s') => s'.finishWith c e.status e.reason
    else if s.cornis.txns.any fun x => x.user = .atomic c.ring c.tag then s
    else match s.pathStop m.dst with
      | some (st, rs) => s.finishWith c st rs
      | none => s.request m (.atomic c.ring c.tag))

/-- A logged violation as CNS_VIOL_READ gives it: time, port, kind, reason, 0, peer, 0. -/
def ViolRec.bytes (r : ViolRec) : List Byte :=
  bytesLE 8 r.invar.toNat ++ bytesLE 1 r.port ++ bytesLE 1 r.kind ++ bytesLE 1 r.reason.toNat ++ bytesLE 1 0 ++ bytesLE 4 r.peer

/-- CNS_VIOL_READ (R342). -/
def execCnsViolRead (c : Cmd) (s : State) : Host.Outcome State Fault Refusal :=
  .next (s.onCmd 0x0507 c fun s => s.runAt c fun s =>
    s.finishData c (s.cornis.log.flatMap ViolRec.bytes) { result0 := w64 (16 * s.cornis.log.length) })

/-! ### Records of other packages (R75) -/

/-- What records that another package sends show of state, capacity and out lists (R69). -/
def recordView (r : RemoteRec) : RemoteRec :=
  { r with
    changeCount := 0, sampleNs := 0, ctr := [], dst := 0, hops := 0, port := 0, flits := 0, data := [], tileRecs := r.tileRecs.map fun e => (e.1, e.2.1, []) }

/-- Another package's records replace the last ones and end its silence (R70, R75). -/
def State.takeRecord (s : State) (r : RemoteRec) : State :=
  let t : State := { s with
    units := { s.units with remote := kvPut s.units.remote r.package r, silent := s.units.silent.filter (· ≠ r.package) } }
  (if recordView (s.remoteRec r.package) = recordView r then t else t.bumpRemote r.package).notePackage s r.package

/-- The message that a forwarding package passes on for a RECORD (R324). -/
def recordMsg (r : RemoteRec) : Msg :=
  { op := 0x08, src := r.package, dst := r.dst, hops := r.hops, srcUnit := pkgUnit r.package, vc := 3, port := r.port
    length := r.data.length, data := r.data }

/-- RECORD (R75, R340, R341): records of another package, or a message for another one, which is forwarded (R324). -/
def execRecord (r : RemoteRec) (s : State) : Host.Outcome State Fault Refusal :=
  .next (if !s.clocksRun then s
    else
      let s := if r.flits = 0 then s else s.freeCredit r.port 3 r.flits
      if r.port = 8 && (r.package ≠ s.twinPkg || r.dst ≠ s.self) then s.msgViolation s.twinPkg 8 Viol.twinPort 0
      else if r.package = s.self then s.ownSource r.port
      else
      let s := s.hearTwin r.package
      if r.dst ≠ s.self then s.forwardMsg (recordMsg r)
      else if !r.crcOk then s.msgViolation r.package r.port Viol.crc Rs.badCrc
      else if !r.reservedZero then s.msgViolation r.package r.port Viol.message Rs.badMessage
      else if !s.inDomain r.package || s.cornis.suspects.contains r.package then s
      else s.takeRecord r)

end Sys2Proof.Machine
end

