-- ==== Sys2Proof/Machine/Twin.lean ====
section
/-! DEFINITION. Sys2Proof/Machine/Twin.lean: hellos (R349 to R351), tails (R358, R361, R366), resync as the source runs it (R364 to
R367), the loss of the twin by silence (R360), and the twin commands (R374). -/

namespace Sys2Proof.Machine

/-! ### Tails (R358, R366) -/

/-- The 32-byte entry that stands before a forwarded tail: the plane and the tokens in the tail (R218, R358). -/
def tailEntry (pt : BitVec 64) (plane tokens : Nat) : List Byte :=
  padTo 32 (bytesLE 8 pt.toNat ++ bytesLE 1 plane ++ bytesLE 1 0 ++ bytesLE 2 tokens)

/-- The directory entry of a plane as it stands, and its header. -/
def tailDir (pt : BitVec 64) (plane : Nat) (env : Env) : M (KvHeader × List Byte) := do
  let (h, pkg) ← readHeader env pt
  if pkg ≠ (← get).self then kvRefuse St.rejected Rs.kvHeader
  pure (h, ← readDva env (h.dirAt plane) 32 3)

/-- Send a plane's tail to the twin's tile of the same number (R355, R358): the directory entry and the image held, if any. A
plane whose directory cannot be read here, or names another tile as the home, is left out. `FIRST_POS` is the first position of the tail's block. -/
def State.sendTail (s : State) (t : TileRef) (pt : BitVec 64) (plane : Nat) (job : BitVec 16) (tokens : Nat) (image : List Byte) : State :=
  match (tailDir pt plane (s.frontEnv t job 0 true)).result s with
  | (.error _, _) => s
  | (.ok (h, dir), s') =>
    if (kvDirOf dir).home ≠ s.tileId t then s else
    let len := (kvDirOf dir).len
    let s' : State := { s' with twin := { s'.twin with tailsOut := s'.twin.tailsOut + 1 } }
    s'.sendFragments t s.twinPkg job s.logicalStep s.twin.gen.toNat (len / h.t * h.t % 2 ^ 25 + 2 ^ 25 + 2 ^ 26)
      (tailEntry pt plane tokens ++ dir ++ image) (.tail t pt plane)

/-- The tails a tile holds for mirrored planes: of planes in sync, or of every plane for an install. -/
def State.tailsHeld (s : State) (t : TileRef) (all : Bool) : List KvSlot :=
  (s.tile t).kv.filter fun k => !k.staging && k.mirrored && (all || s.twin.state = .paired || k.inSync)

/-- Tails are forwarded in these states (R358). -/
def PairSt.forwards : PairSt → Bool
  | .paired => true | .source => true | .target => true
  | .unpaired => false | .solo => false | .stale => false | .detached => false | .conflict => false

/-- A tile forwards its tails where the twin can be reached (R358). -/
def State.forwardTails (s : State) (t : TileRef) : State :=
  if !s.tileUp t || !s.twin.state.forwards || (s.pathStop s.twinPkg).isSome then s
  else (s.tailsHeld t false).foldl (fun (s : State) k => s.sendTail t k.pt k.plane k.job k.count k.image) s

/-- TAIL_FORWARD (R358): once after each tick. -/
def execTailForward (t : TileRef) (s : State) : Host.Outcome State Fault Refusal :=
  .next (if !s.clocksRun || !tileOk t || !(s.tile t).tailDue then s
    else (s.modTile t fun x => { x with tailDue := false }).forwardTails t)

/-- Tiles that hold tails or records of spilled ones. -/
def State.tailTiles (s : State) : List TileRef :=
  (s.tiles.filter fun e => !e.2.kv.isEmpty || !e.2.spills.isEmpty).map Prod.fst

/-- Begin to leave the twin (R361): every tail is sent; without an answer to await, the leave ends at once. -/
def State.startLeave (s : State) (detach : Bool) : State :=
  let s : State := { s with twin := { s.twin with leaving := some s.time.now, leaveDetach := detach } }
  let s := s.tailTiles.foldl (fun (s : State) t => s.forwardTails t) s
  if s.twin.tailsOut = 0 then s.endLeave else s

/-- LEAVE_WAIT_TIMEOUT (R361): 50 ms after the leave began. -/
def execLeaveWaitTimeout (s : State) : Host.Outcome State Fault Refusal :=
  .next (if !s.clocksRun then s
    else match s.twin.leaving with
      | some a => ((s.advanceTo (a + ms 50)).endLeave).afterLeave
      | none => s.afterLeave)

/-! ### Hellos (R349 to R351, R372) -/

/-- Why a hello is refused (R350). -/
def State.helloRefusal (s : State) (h : Hello) : Option Code :=
  if h.package ≠ s.twinPkg then some Rs.badTwin
  else if h.orderCode ≠ orderCode || h.stepping ≠ 0xB0 then some Rs.twinModel
  else if h.normor ≠ 0x0204 || (h.fwVersion ≠ s.tileFw && !s.twin.fwExempt) then some Rs.twinFirmware
  else none

/-- Refuse a hello: TWIN_REFUSED, and SOLO; a member that pairs with nobody until TWIN_ATTACH stays so (R350, R351). -/
def State.refuseHello (s : State) (r : Code) : State :=
  let s := if r = Rs.badTwin then s.msgViolation s.twinPkg (if (s.port 8).up then 8 else 0) Viol.badTwin r else s
  let st := s.twin.state
  let s := if st = .detached || st = .conflict || st = .solo then s
    else
      let s : State := { s with twin := s.twin.lost }
      s.setPair .solo s.twin.gen r
  s.raiseP Ev.twinRefused [w64 r.toNat]

/-- How far a member counts as the survivor when both rows of R351 that name one fail: one that holds the cache alone, then a
paired one, then one that holds nothing, then a returning one. -/
def survivorRank : PairSt → Nat
  | .solo => 3 | .source => 3 | .paired => 2 | .unpaired => 1 | .stale => 0 | .target => 0 | .detached => 0 | .conflict => 0

/-- Enter or stay in SOLO at a generation, copying nothing. -/
def State.soloAt (s : State) (gen : BitVec 32) (cause : Code) : State :=
  ({ s with twin := s.twin.lost } : State).setPair .solo gen cause

/-- A fresh twin is back: the member that goes on alone takes the next generation, once for each return (R351). The twin takes that
generation too when it hears the hello that this member sent before. -/
def State.raiseFor (s : State) (h : Hello) : State :=
  if s.twin.risen && pairOf h.state = .unpaired then s
  else ({ s with twin := { s.twin with risen := true } } : State).soloAt (s.twin.gen + 1) 0

/-- Any other combination of states (R351): the survivor goes on in SOLO, the other becomes STALE. -/
def State.resolveOther (s : State) (h : Hello) : State :=
  let own := survivorRank s.twin.state
  let peer := survivorRank (pairOf h.state)
  if own = 0 && peer = 0 then s
  else
    let wins := peer < own || (own = peer && (h.gen < s.twin.gen || (h.gen = s.twin.gen && s.self % 2 = 0)))
    if wins then s.soloAt (s.twin.gen + 1) 0 else s.enterStale (h.gen + 1) 0

/-- A resync begins: no plane is in sync (R366). -/
def State.outOfSync (s : State) : State :=
  { s with tiles := s.tiles.map fun e =>
    (e.1, { e.2 with kv := e.2.kv.map fun k => { k with inSync := false }, spills := e.2.spills.map fun k => { k with inSync := false } }) }

/-- The twin became SOURCE: this STALE member is the target of its copies (R364). -/
def State.becomeTarget (s : State) : State :=
  let s := s.outOfSync
  let s : State := { s with twin := { s.twin.idle with bytes := 0 } }
  s.setPair .target s.twin.gen 0

/-- A hello that only shows the twin alive, or that ends a phase of the resync at this member (R351, R364, R367). -/
def State.beat (s : State) (h : Hello) : Option State :=
  if h.gen ≠ s.twin.gen then none
  else match s.twin.state, pairOf h.state with
    | .paired, .paired => some s
    | .solo, .stale => some s
    | .stale, .solo => some s
    | .source, .target => some s
    | .target, .source => some s
    | .stale, .source => some s.becomeTarget
    | .source, .stale => some s
    | .target, .paired => some s.resyncDone
    | .paired, .target => some s
    | _, _ => none

/-- Resolve an accepted hello that is no beat (R351). -/
def State.resolveStates (s : State) (h : Hello) : State :=
  let peer := pairOf h.state
  if s.twin.fresh && h.fresh then
    if peer = .paired && s.twin.gen < h.gen then s.enterPaired h.gen
    else s.enterPaired ((if s.twin.gen < h.gen then h.gen else s.twin.gen) + 1)
  else if s.twin.fresh && (peer = .solo || peer = .paired) then s.enterStale (h.gen + 1) 0
  else if h.fresh && (s.twin.state = .solo || s.twin.state = .paired) then s.raiseFor h
  else if s.twin.state = .solo && peer = .solo then
    let own := s.twin.gen
    (s.setPair .conflict own 0).raiseP Ev.twinConflict [w64 own.toNat, w64 h.gen.toNat]
  else s.resolveOther h

/-- The twin's pair state, as an accepted hello gives it; the pair's record shows it (R347, R69). -/
def State.hearState (s : State) (h : Hello) : State :=
  let was := (pairOf s.twin.peerState).isSolo
  let s : State := { s with twin := { s.twin with
    peerState := h.state, peerGen := h.gen, waiting := false, risen := s.twin.risen && pairOf h.state = .unpaired } }
  if was = (pairOf h.state).isSolo then s else s.bump [1]

/-- An accepted hello (R351, R352, R360); one of a twin that was lost as a suspect changes nothing before TWIN_ATTACH (R373). -/
def State.takeHello (s : State) (h : Hello) : State :=
  let s := s.hearState h
  let peer := pairOf h.state
  if s.twin.barred then s
  else if h.leaving then s.loseTwin Rs.twinLost
  else if s.twin.state = .detached || s.twin.state = .conflict || peer = .detached || peer = .conflict then s
  else match s.beat h with
    | some s => s
    | none => (if h.fresh && s.twin.state = .paired then s.loseTwin Rs.twinLost else s).resolveStates h

/-- What a hello says of its sender's reset: a twin that has become fresh, or a fresh one that stands before its pairing again, was
reset, which ends a firmware exemption (R371). -/
def State.hearFresh (s : State) (h : Hello) : State :=
  if h.package ≠ s.twinPkg then s
  else
    let again := pairOf h.state = .unpaired && pairOf s.twin.peerState ≠ .unpaired
    { s with twin := { s.twin with
      fwExempt := s.twin.fwExempt && !(h.fresh && (!s.twin.peerFresh || again)), peerFresh := h.fresh } }

/-- The answer to the CONTROL message that carried a hello (R334, R372). -/
def State.answerHello (s : State) (h : Hello) (status reason : Code) : State :=
  s.respond { op := Op.control + 0x80, dst := s.twinPkg, txn := h.txn, srcUnit := pkgUnit s.self, status := status, reason := reason
              data := List.replicate 16 0, length := 16, vc := 1 }

/-- A hello is heard (R350, R351): one with a Reserved bit set is a violation (R372). -/
def State.hearHello (s : State) (h : Hello) : State :=
  let s := (s.hearTwin h.package).hearFresh h
  if !h.reservedZero then
    (s.msgViolation s.twinPkg (if (s.port 8).up then 8 else 0) Viol.message Rs.badMessage).answerHello h St.peerViolation Rs.badMessage
  else match s.helloRefusal h with
    | some r => s.refuseHello r
    | none => (s.takeHello h).afterLeave.answerHello h St.ok 0

/-- HELLO (R351): one that comes before step S11 waits for it (R352). -/
def execHello (h : Hello) (s : State) : Host.Outcome State Fault Refusal :=
  .next (if !s.clocksRun || s.therm.halted || s.twin.suspect then s
    else if !s.helloOn then { s with twin := { s.twin with early := some h } }
    else s.hearHello h)

/-- HELLO_RETRY (R349): only while the twin port is down. -/
def execHelloRetry (s : State) : Host.Outcome State Fault Refusal :=
  .next (if (s.port 8).up then s else s.sendHello false)

/-- TWIN_LOSS_TIMEOUT (R360): `TWIN_LOSS.MS` after the twin was last heard; below 2 acts as 2, above 1,000 as 1,000. -/
def execTwinLossTimeout (s : State) : Host.Outcome State Fault Refusal :=
  .next (if !s.clocksRun || !(s.twin.state.forwards || s.twin.state = .stale) then s
    else
      let n := max 2 (min 1000 s.twin.lossMs.toNat)
      ((s.advanceTo (s.twin.heardAt + ms n)).loseTwin Rs.noResponse).afterLeave)

/-! ### Resync at the source (R364 to R367) -/

/-- The first mirrored leaf of a node that maps a byte of DVA bits [56:0] from `lo` on, in ascending order: where its copying
goes on, and the leaf. `base` is the first DVA under the node. -/
def State.nextLeaf (s : State) (ctx lo : Nat) (reach : Nat → Bool) : Nat → Nat → Nat → Option (Nat × XEntry)
  | 0, _, _ => none
  | level + 1, node, base =>
    match s.nodeLocal node with
    | none => none
    | some a =>
      let span := 2 ^ (21 + 9 * level)
      (List.range 512).findSome? fun i =>
        let first := base + i * span
        if first + span ≤ lo || !reach first then none
        else match (readStack (a + 8 * i) 8 3).result s with
          | (.error _, _) => none
          | (.ok b, _) =>
            match tableEntry level (w64 (natLE b)) with
            | .node n => s.nextLeaf ctx lo reach level n first
            | .leaf g z p =>
              let e : XEntry := { ctx := ctx, dva := first, size := z, base := g, prot := p, leaf := a + 8 * i }
              if e.mirrored && pkgOf g = s.self && isStack (localOf g) then some (max first lo, e) else none
            | .notMapped => none
            | .bad => none

/-- The next mirrored page of a context from the watermark on, under the context's limits (R99, R364). -/
def State.nextMirrored (s : State) (ctx lo : Nat) : Option (Nat × XEntry) :=
  let c := s.context ctx
  if c.root = 0 || !c.sealed then none
  else s.nextLeaf ctx lo (fun d => c.reaches (w64 d)) 4 c.root 0

/-- DVA with bits [63:57] as bit 56 (R96). -/
def canonDva (d : Nat) : BitVec 64 := if d / 2 ^ 56 % 2 = 1 then w64 (d % 2 ^ 57 + (2 ^ 64 - 2 ^ 57)) else w64 (d % 2 ^ 57)

/-- The resync copy of a page (R354, R364): its bytes, or its poison, and the append mark of its leaf. -/
def State.copyMsg (s : State) (ctx dva : Nat) (e : XEntry) (data : Option (List Byte)) : Msg :=
  let a := localOf (e.global (w64 dva))
  let mark := match (readStack e.leaf 8 3).result s with
    | (.ok b, _) => bitsOf (w64 (natLE b)) 20 10
    | (.error _, _) => 0
  { op := Op.write, dst := s.twinPkg, job := BitVec.ofNat 16 ctx, srcUnit := s.tileId (tileOfLocal a), dva := canonDva dva
    length := (data.getD []).length, data := data.getD [], operand := mirrorWord 2 data.isNone s.twin.gen
    operand2 := if e.appendOnly then w64 (mark + 2 ^ 11) else 0 }

/-- Read and send the page at the watermark; a page that cannot be read for another reason than poison is passed over. -/
def State.copyPage (s : State) (ctx dva : Nat) (e : XEntry) : State :=
  let a := localOf (e.global (w64 dva))
  let r := if s.twin.invalid ctx (w64 dva) then (Except.error ({ status := St.notReady } : Stop), s) else (readStack a pageSize 9).result s
  let s : State := { r.2 with twin := { r.2.twin with mark := dva + pageSize } }
  let send := fun (s : State) (d : Option (List Byte)) =>
    let s : State := { s with twin := { s.twin with bytes := s.twin.bytes + (d.getD []).length } }
    s.requestOf (tileOfLocal a) (s.copyMsg ctx dva e d) (.resync ctx (dva / pageSize))
  match r.1 with
  | .ok b => send s (some b)
  | .error x => if x.status = St.poisoned then send s none else s

/-- Installs of one tile at the end of the page phase: its tails, and the directory entries of up to 64 spilled planes (R366). -/
def State.installTails (s : State) (t : TileRef) : State :=
  let s := (s.tailsHeld t true).foldl (fun (s : State) k => s.sendTail t k.pt k.plane k.job k.count k.image) s
  (s.tile t).spillRecords.foldl (fun (s : State) k => s.sendTail t k.pt k.plane k.job 0 []) s

/-- The page phase ends: the installs go out; with none, resync is done (R366, R367). -/
def State.endPages (s : State) : State :=
  let s : State := { s with twin := { s.twin with phase := 2, tailsOut := 0 } }
  let s := s.tailTiles.foldl (fun (s : State) t => s.installTails t) s
  if s.twin.tailsOut = 0 then s.resyncDone else s

/-- The next context of the list, or the end of the page phase (R364). -/
def State.nextContext (s : State) : State :=
  let done := s.twin.doneContexts ++ [s.twin.context]
  match s.twin.contexts with
  | c :: rest => { s with twin := { s.twin with context := c, contexts := rest, mark := 0, doneContexts := done } }
  | [] => ({ s with twin := { s.twin with doneContexts := done } } : State).endPages

/-- Data rate of the path to the twin in 8,192-byte messages, in 0.1 GB/s: 398.2 GB/s for each lane group in service of the ports that
reach it (R307). -/
def State.twinRate (s : State) : Nat :=
  3982 * ((s.upPortsTo s.twinPkg).map fun p =>
    ((s.portGroups p).filter fun g => (s.cornis.groups[g]?).map (·.state) = some .inService).length).sum

/-- `SHARE` in percent: below 10 acts as 10, above 100 as 100 (R348). -/
def TwinState.sharePct (w : TwinState) : Nat := max 10 (min 100 w.share.toNat)

/-- Time that a page copy takes at `SHARE` of the path's data rate (R364). -/
def State.copyTime (s : State) : Nat := ceilDiv (ns (pageSize * 1000)) (max 1 (s.twinRate * s.twin.sharePct))

/-- RESYNC_PAGE_COPY (R364): the next page of the context being copied, at the pace of `SHARE`, or the step to the next context. -/
def execResyncPageCopy (s : State) : Host.Outcome State Fault Refusal :=
  .next (if !s.clocksRun || s.twin.state ≠ .source || s.twin.phase ≠ 1 || (s.pathStop s.twinPkg).isSome then s
    else match s.nextMirrored s.twin.context s.twin.mark with
      | some (dva, e) =>
        let s := s.advanceTo s.twin.copyAt
        ({ s with twin := { s.twin with copyAt := s.time.now + s.copyTime } } : State).copyPage s.twin.context dva e
      | none => s.nextContext)

/-! ### Commands (R374) -/

/-- A command for a pair: here when it is this package's, else at the pair's even member. -/
def State.runPair (s : State) (c : Cmd) (here : State → State) : State :=
  if unitPair c.unit = s.self / 2 then here s else s.passOn c (2 * unitPair c.unit) (s.paramOf c)

/-- TWIN_STATUS_READ (R374). -/
def execTwinStatusRead (c : Cmd) (s : State) : Host.Outcome State Fault Refusal :=
  .next (s.onCmd 0x0601 c fun s => s.runPackages c fun s => (s, {}, s.blockBytes 0x103000 0x40))

/-- Start copying over a list of contexts: SOURCE, in the page phase of the first (R364). -/
def State.startResync (s : State) (c : Cmd) (l : List Nat) : State :=
  match l with
  | [] => s.finishWith c St.rejected Rs.badField
  | k :: rest =>
    let s := s.outOfSync
    let s : State := { s with twin := { s.twin.idle with context := k, phase := 1, bytes := 0, contexts := rest, copyAt := s.time.now } }
    (s.setPair .source s.twin.gen 0).finish c {}

/-- TWIN_RESYNC (R364, R374): the survivor runs it; a STALE member gives it to the survivor. Each context takes two bytes. -/
def execTwinResync (c : Cmd) (s : State) : Host.Outcome State Fault Refusal :=
  .next (s.onCmd 0x0602 c fun s =>
    let n := c.p1.toNat
    if n = 0 || 4096 < n then s.finishWith c St.rejected Rs.badField
    else s.withParam c c.p0.toNat (2 * n) fun s b => s.runPair c fun s =>
      let l := (chunks 2 b.length b).map fun e => natLE e % 4096
      if s.twin.state = .stale && c.origin.isNone then s.passOn c s.twinPkg b
      else if s.twin.suspect || s.twin.barred || s.twin.state ≠ .solo || pairOf s.twin.peerState ≠ .stale
          || s.twin.peerGen ≠ s.twin.gen then
        s.finishWith c St.rejected Rs.notStale
      else match s.pathStop s.twinPkg with
        | some (st, rs) => s.finishWith c st rs
        | none => s.startResync c l)

/-- TWIN_DETACH (R370, R374): this member leaves in order, and so does its twin when it can be reached. One leave is made at a
time. -/
def execTwinDetach (c : Cmd) (s : State) : Host.Outcome State Fault Refusal :=
  .next (s.onCmd 0x0603 c fun s => s.runPair c fun s =>
    let started := match s.cmdSlot c with
      | some k => !k.members.isEmpty
      | none => true
    if started || s.twin.leaving.isSome then s
    else
      let own : Member := { unit := pkgUnit s.self, pos := s.self % 2 }
      let r : State × List Member := if c.origin.isSome then (s, [own])
        else
          let q := s.forwardAs c s.twinPkg (s.twinPkg % 2) (pkgUnit s.twinPkg) []
          (q.1, [own, q.2])
      let s := r.1.modCmd c fun k => { k with members := r.2 }
      ({ s with twin := { s.twin with detachCmd := some c } } : State).startLeave true)

/-- The source of TWIN_ATTACH goes on alone at the next generation (R371). -/
def State.attachSource (s : State) (c : Cmd) : State :=
  let s : State := { s with twin := s.twin.lost }
  (s.setPair .solo (s.twin.gen + 1) 0).exempt (bitAt c.p1 0)

/-- TWIN_ATTACH (R371, R374): `P0` is the source's place in the pair. The other member's generation travels with the command, or
with its reply. -/
def execTwinAttach (c : Cmd) (s : State) : Host.Outcome State Fault Refusal :=
  .next (s.onCmd 0x0604 c fun s => s.runPair c fun s =>
    let waits := match s.cmdSlot c with
      | some k => !k.members.isEmpty
      | none => true
    let source := s.self % 2 = c.p0.toNat % 2
    if waits then s
    else if c.origin.isSome then
      if source then
        let s := s.attachSource c
        s.finishOk c (w64 s.twin.gen.toNat) 0
      else ((s.enterStale (BitVec.ofNat 32 (natLE ((s.paramOf c).take 4))) 0).exempt (bitAt c.p1 0)).finish c {}
    else match s.pathStop s.twinPkg with
      | some (_, rs) => s.finishWith c St.notReady rs
      | none =>
        if source then
          let s := s.attachSource c
          s.passOn c s.twinPkg (bytesLE 4 s.twin.gen.toNat)
        else s.passOn c s.twinPkg [])

/-- Ask the twin for one page, to land at a local address; or why that cannot be (R369). -/
def State.fetchPage (s : State) (c : Cmd) (ctx i : Nat) : State × Member :=
  let dva := c.p1 + w64 (i * pageSize)
  let stop := fun (s : State) (o : Outc) => (s, ({ unit := BitVec.ofNat 32 i, pos := 0, report := some o } : Member))
  match (translatePlain ctx dva 0).result s with
  | (.error e, s') => stop s' (outc e.status e.reason)
  | (.ok e, s') =>
    let g := e.global dva
    if pkgOf g ≠ s.self || !isStack (localOf g) then stop s' (outc St.range Rs.localHole)
    else
      let a := localOf g
      let s' : State := { s' with twin := { s'.twin with fetching := s'.twin.fetching ++ [(a, [])] } }
      let m : Msg := { op := Op.read, dst := s.twinPkg, job := BitVec.ofNat 16 ctx, srcUnit := s.tileId (tileOfLocal a)
                       dva := dva, length := pageSize }
      (s'.request m (.fetch c.ring c.tag a), { unit := BitVec.ofNat 32 i, pos := 0, sentAt := s.time.now, remote := true })

/-- Fetch pages, or end when none can be asked for. -/
def State.fetchPages (s : State) (c : Cmd) : State :=
  let r := (List.range c.p2.toNat).foldl (fun (acc : State × List Member) i =>
    let q := acc.1.fetchPage c c.p0.toNat i
    (q.1, acc.2 ++ [q.2])) (s, [])
  let s := r.1.modCmd c fun k => { k with members := r.2 }
  if r.2.all fun m => m.report.isSome then
    let o := combine 1 (r.2.filterMap fun m => m.report.map fun o => (0, o))
    s.finishWith c o.status o.reason
  else s

/-- TWIN_PAGE_FETCH (R369, R374). -/
def execTwinPageFetch (c : Cmd) (s : State) : Host.Outcome State Fault Refusal :=
  .next (s.onCmd 0x0605 c fun s => s.runAt c fun s =>
    let waits := match s.cmdSlot c with
      | some k => !k.members.isEmpty
      | none => true
    if waits then s
    else if s.twin.state ≠ .paired then s.finishWith c St.notReady Rs.notPaired
    else if c.p2 = 0 then s.finishWith c St.rejected Rs.badField
    else if c.p1.toNat % pageSize ≠ 0 then s.finishWith c St.rejected Rs.badField
    else match s.pathStop s.twinPkg with
      | some (st, rs) => s.finishWith c st rs
      | none => s.fetchPages c)

end Sys2Proof.Machine
end

