-- ==== Sys2Proof/Machine/PowerOps.lean ====
section
/-! DEFINITION. Sys2Proof/Machine/PowerOps.lean: the effective cap and its ceiling (R437, R439, R441, R478), the
thresholds of dies (R458, R461, R474), and the loss of power (R437, R460). -/

namespace Sys2Proof.Machine

/-- Ceiling that the input voltage leaves, in 10 W units (R437). -/
def PowerState.voltageLimit (p : PowerState) : Nat := if p.band = 1 then p.vinSum * 80 / 120000 else 360

/-- A power stage runs and is not in throttle or shutdown (R439, R459). -/
def State.stageCounts (s : State) (p : Nat) : Bool :=
  ((s.power.stages[p]?).map (·.state)) = some 0 &&
    (match (kvGet s.therm.diodes (409 + p) {}).state with
      | .normal => true | .warning => true | .throttle => false | .shutdown => false)

/-- Stages that count towards the ceiling. -/
def State.stagesCounted (s : State) : Nat := ((List.range 12).filter s.stageCounts).length

/-- Ceiling that `n` running stages leave, in 10 W units (R439). -/
def stageLimit (n : Nat) : Nat := min 360 (n * 330000 / 9390)

/-- `PWR_CAP.CEILING` as the limits stand (R441). -/
def State.ceilingNow (s : State) : Nat := min (min s.power.voltageLimit (stageLimit s.stagesCounted)) s.fac.limit

/-- The cap as it acts, in W (R453). -/
def PowerState.capW (p : PowerState) : Nat := 10 * min 360 (max 120 p.cap.toNat)

/-- The effective cap, W (R441). -/
def State.effCap (s : State) : Nat := min s.power.capW (10 * s.power.ceiling)

/-- Report a change of the effective cap from what it was (R456): cause 1 command or register, 2 ceiling, 3 coolant. -/
def State.capChanged (s : State) (old cause : Nat) : State :=
  if s.effCap = old then s else s.raiseP Ev.capChanged [w64 old, w64 s.effCap, w64 cause]

/-- Take the ceiling anew (R441). -/
def State.setCeiling (s : State) (cause : Nat) : State :=
  let old := s.effCap
  ({ s with power := { s.power with ceiling := s.ceilingNow } } : State).capChanged old cause

/-- Write the cap (R453, R455). -/
def State.writeCap (s : State) (w10 : BitVec 9) : State :=
  let old := s.effCap
  ({ s with power := { s.power with cap := w10 } } : State).capChanged old 1

/-! ### Thresholds (R457, R458, R461) -/

/-- Die type of a diode (R457, R486): 0 head die, 1 layer, 2 Brass, 3 power stage. -/
def dieType (i : Nat) : Nat := if i < 24 then 0 else if i < 408 then 1 else if i = 408 then 2 else 3

/-- The thresholds a die type is compared against (R461): the defaults while the six disagree, and no `SD` above its default. -/
def State.threshFor (s : State) (k : Nat) : Thresh :=
  let d := (defaultThresh[k]?).getD ⟨0, 0, 0, 0, 0, 0⟩
  let y := ((s.therm.thresh[k]?).getD d).acting k
  if y.ordered then y else d

/-- The six fields of `THRESH_k` agree (R409, R461). -/
def State.threshAgrees (s : State) (k : Nat) : Bool := ((s.therm.thresh[k]?).map fun x => (x.acting k).ordered).getD true

/-- Thresholds were written (R408). -/
def State.threshWritten (s : State) : State :=
  (List.range 4).foldl (fun (s : State) k => s.pairWritten (8448 + k) (s.threshAgrees k)) s

/-- Every die that reached shutdown is at or below its re-arm temperature, and no active controller reports its pump stopped
(R474). -/
def State.rearmed (s : State) : Bool :=
  (s.therm.diodes.all fun e => !e.2.tripped || e.2.temp ≤ 16 * ((s.threshFor (dieType e.1)).rearm.toNat : Int))
    && !(s.fac.active && !s.fac.suspect && s.fac.pump = 2)

/-! ### Loss of power -/

/-- What fuses keep of a tile: its fuse-backed repairs (R300). -/
def Tile.fusedOnly (x : Tile) : Tile := { mem := { repairs := x.mem.repairs.filter fun r => r.2.2.2.2 } }

/-- The tiles of which fuses keep something. -/
def State.fusedTiles (s : State) : KV Tile :=
  (s.tiles.filter fun e => e.2.mem.repairs.any fun r => r.2.2.2.2).map fun e => (e.1, e.2.fusedOnly)

/-- Every power stage stops: the package is as after power-off (R437). The clock goes on counting elapsed time, the pins are
as the system drives them, and fuses and the latch of `THERMTRIP_N`, which the stages do not power, keep what they hold (R300, R435,
R498). -/
def State.powerOff (s : State) : State :=
  { pending := s.pending, free := s.free, out := s.out
    time := { now := s.time.now }
    tiles := s.fusedTiles
    host := { perst := s.host.perst }
    bu := { refOk := s.bu.refOk, refAt := s.bu.refAt }
    sec := { svnBlown := s.sec.svnBlown }
    therm := { trip := s.therm.trip, tripHw := s.therm.tripHw } }

end Sys2Proof.Machine
end

