-- ==== Sys2Proof/Machine/HostRegs.lean ====
section
/-! DEFINITION. Sys2Proof/Machine/HostRegs.lean: what the host writes and reads through the BARs: registers (R8, R379, R380), ring slots
and the MSI-X table (R383), the memory aperture (R381, R382), doorbells and rings (R385, R386), and the mark of the host (R411). -/

namespace Sys2Proof.Machine

/-! ### Fields of a register write -/

/-- Bits [hi:lo] of a word as a bit vector. -/
def bits (n : Nat) (w : Word) (lo : Nat) : BitVec n := BitVec.ofNat n (w.toNat >>> lo)

/-- A register word with the bytes written laid into it (R380). -/
def layBytes (old : Word) (off : Nat) (bytes : List Byte) : Word :=
  let b := bytesLE 8 old.toNat
  w64 (natLE ((b.take off ++ bytes ++ b.drop (off + bytes.length)).take 8))

/-- Registers that hold a WT field, which takes 8-byte writes only (R380): `BU_GO`, `BU_RESET`, `RING_r_CTL`, `EQ_CTL`,
`REPAIR_CMD`. -/
def wtRegister (o : Nat) : Bool :=
  o = 0x008 || o = 0x018 || o = 0x100300 || (idx o 0x100100 0x20 16).isSome
    || (0x1000000 ≤ o && o < 0x1000000 + 0x2000 * 1536 && (o - 0x1000000) % 0x2000 = 0x510)

/-- Bring-up window (R417). `BU_GO` with a step that is none is refused (R418). -/
def BringUp.write (b : BringUp) (o : Nat) (w : Word) : BringUp :=
  if o = 0x008 then (if bitsOf w 3 0 = 0 || 13 < bitsOf w 3 0 then { b with refusal := Rs.outOfOrder } else b)
  else if o = 0x020 then (if b.pkgLocked then b else { b with pkg := bits 10 w 0, pkgValid := bitAt w 10 })
  else if o = 0x028 then { b with fwAddr := w }
  else if o = 0x030 then { b with fwLen := bits 28 w 0 }
  else if o = 0x038 then { b with seed := w }
  else b

/-- Settings of a ring (R384). -/
def Ring.writeCtl (x : Ring) (w : Word) : Ring :=
  { x with resetBit := bitAt w 2, vector := bits 6 w 8, irqEn := bitAt w 14, coalN := bits 8 w 16, coalUs := bits 8 w 24 }

/-- Host-interface block (R384). -/
def HostState.write (h : HostState) (o : Nat) (w : Word) : HostState :=
  if o = 0x010 then { h with suspectCount := bits 8 w 0, suspectMs := bits 16 w 8 }
  else if o = 0x300 then { h with eq := { h.eq with
      run := bitAt w 0, resetBit := bitAt w 2, vector := bits 6 w 8, irqEn := bitAt w 14, coalN := bits 8 w 16, coalUs := bits 8 w 24 } }
  else if o = 0x318 then { h with eq := { h.eq with enable := bitAt w 0, addr := bits 52 w 12 } }
  else match idx o 0x040 8 8 with
  | some k => { h with wins := h.wins.set k (bitAt w 0, bits 35 w 21) }
  | none => match idx o 0x100 0x20 16 with
  | some r => { h with rings := h.rings.modify r fun x => x.writeCtl w }
  | none => match idx o 0x110 0x20 16 with
  | some r => { h with rings := h.rings.modify r fun x => { x with cqEnable := bitAt w 0, cqAddr := bits 52 w 12 } }
  | none => h

/-- Thermal block (R486). -/
def ThermState.write (t : ThermState) (o : Nat) (w : Word) : ThermState :=
  if o = 0x008 then { t with graceMs := bits 16 w 0, gain := bits 8 w 16, budgetMs := bits 16 w 32, horizonMs := bits 16 w 48 }
  else match idx o 0x020 8 4 with
  | some k => { t with thresh := t.thresh.set k ⟨bits 8 w 0, bits 8 w 8, bits 8 w 16, bits 8 w 24, bits 8 w 32, bits 8 w 40⟩ }
  | none => t

/-- Facility block (R487). -/
def FacState.write (f : FacState) (o : Nat) (w : Word) : FacState :=
  if o = 0x000 then { f with pg25 := bitAt w 0 }
  else if o = 0x028 then { f with suspectCount := bits 8 w 0, suspectMs := bits 16 w 8 }
  else f

/-- Bits of `GST_WIN_w_BASE` and `GST_WIN_w_LIMIT` that are not Reserved (R511). -/
def winBaseBits : Word := BitVec.ofNat 64 (2 ^ 56 - 2 ^ 21 + 2 ^ 10 - 1)
def winLimitBits : Word := BitVec.ofNat 64 (2 ^ 56 - 2 ^ 21 + 2 ^ 8 - 1)

/-- Credits of a guest as time has refilled them: bytes at the rates, at most 64 KiB, and commands at theirs, at most a
millisecond's (R505). -/
def Guest.refill (x : Guest) (now : Nat) : Guest :=
  let n := (now - x.creditAt) / 7
  { x with
    rdCredit := min 65536 (x.rdCredit + n * min 64 x.rdGbps.toNat)
    wrCredit := min 65536 (x.wrCredit + n * min 64 x.wrGbps.toNat)
    cmdCredit := min (1000000 * x.cmds.toNat) (x.cmdCredit + n * x.cmds.toNat)
    creditAt := x.creditAt + 7 * n }

/-- Numbers of a window: first byte, byte after the last, rights for reads and writes, whether its pair agrees. -/
structure GuestWin where
  lo : Nat
  hi : Nat
  read : Bool
  write : Bool
  agree : Bool
  deriving DecidableEq, Repr

/-- A window from its two registers (R504, R511). -/
def guestWin (e : BitVec 64 × BitVec 64) : GuestWin :=
  let lo := bitsOf e.1 55 21
  let hi := bitsOf e.2 55 21
  { lo := lo * 2 ^ 21, hi := (hi + 1) * 2 ^ 21, read := bitAt e.1 0, write := bitAt e.1 1
    agree := bitsOf e.1 9 2 = bitsOf e.2 7 0 && lo ≤ hi }

/-- Key of a window of a site among the coupled pairs of R409. -/
def windowKey (g w : Nat) : Nat := 8512 + 8 * g + w

/-- Set a window's registers; where they agree, so they last agreed (R408, R504). -/
def Guest.setWindow (x : Guest) (k : Nat) (e : BitVec 64 × BitVec 64) : Guest :=
  { x with
    wins := x.wins.set k e
    winsWere := if (guestWin e).agree then x.winsWere.set k e else x.winsWere }

/-- Firewall block of a site (R511). -/
def Guest.write (x : Guest) (o : Nat) (w : Word) : Guest :=
  if o = 0x010 then { x with allow := bits 6 w 0 }
  else if o = 0x018 then { x with rdGbps := bits 8 w 0, wrGbps := bits 8 w 8, cmds := bits 8 w 16 }
  else if o = 0x028 then { x with capW := bits 8 w 0, sdC := bits 8 w 16 }
  else if o = 0x030 then { x with suspectCount := bits 8 w 0, suspectMs := bits 16 w 8 }
  else match idx o 0x100 0x10 8 with
  | some k => x.setWindow k (w &&& winBaseBits, ((x.wins[k]?).getD (0, 0)).2)
  | none => match idx o 0x108 0x10 8 with
  | some k => x.setWindow k (((x.wins[k]?).getD (0, 0)).1, w &&& winLimitBits)
  | none => x

/-- Power block (R453). -/
def State.writePower (s : State) (o : Nat) (w : Word) : State :=
  if o = 0x008 then s.writeCap (bits 9 w 0)
  else if o = 0x010 then { s with power := { s.power with pct := bits 5 w 0 } }
  else if o = 0x018 then { s with power := { s.power with fillEnable := bitAt w 0, fillSlew := bits 12 w 4 } }
  else s

/-- A write of `REPAIR_CMD` whose `OP` names no operation (0 or 9 to 15; the eight operations are rows of their own): it reads back
(R8), does nothing, and sets `RESULT` to 2 while nothing is held (R301). DESIGN CHOICE, log entry 28: while a region is held it leaves
`RESULT` as it was. -/
def Tile.repairCmdWrite (x : Tile) (op : Nat) : Tile :=
  if x.mem.repairBusy || (1 ≤ op && op ≤ 8) then x
  else { x with mem := { x.mem with repairCmd := w64 op, repairResult := if x.mem.hold.isNone then 2 else x.mem.repairResult } }

/-- Tile block (R114): `KV_RESERVE`, `SCRUB_PERIOD`, `REPAIR_SEL`, which a held layer follows (R301), and `REPAIR_BUF`. -/
def Tile.write (x : Tile) (o : Nat) (w : Word) : Tile :=
  if o = 0x088 then { x with kvReserve := bits 19 w 0 }
  else if o = 0x488 then { x with mem := { x.mem with scrubPeriod := bits 14 w 0 } }
  else if o = 0x500 then
    let sel := w64 (bitsOf w 29 0)
    { x with mem := { x.mem with repairSel := sel, hold := if x.mem.hold.isSome then some (bitsOf sel 3 0) else none } }
  else if o = 0x510 then x.repairCmdWrite (bits 4 w 0).toNat
  else if 0x800 ≤ o ∧ o < 0x1080 then
    { x with mem := { x.mem with repairBuf := cellWrite x.mem.repairBuf (o - 0x800) (bytesLE 8 w.toNat) } }
  else x

/-- A ring whose interrupt is enabled sends it when as many completions as `COAL_N` asks for are posted (R395). -/
def State.signalRing (s : State) (r : Nat) : State :=
  let x := s.ring r
  if x.irqEn && max 1 x.coalN.toNat ≤ x.unsignalled then
    (s.modRing r fun x => { x with unsignalled := 0, unsignalledAt := none }).interrupt x.vector
  else s

/-- The same of the event ring (R395). -/
def State.signalEvents (s : State) : State :=
  let q := s.host.eq
  if q.irqEn && max 1 q.coalN.toNat ≤ q.unsignalled then
    ({ s with host := { s.host with eq := { q with unsignalled := 0, unsignalledAt := none } } } : State).interrupt q.vector
  else s

/-- A write of the host-interface block (R384); new settings of an interrupt may find it due (R395). -/
def State.writeHost (s : State) (k : Nat) (w : Word) : State :=
  let s : State := { s with host := s.host.write k w }
  if k = 0x300 then s.signalEvents
  else match idx k 0x100 0x20 16 with
    | some r => s.signalRing r
    | none => s

/-- Windows of a site were written (R408). -/
def State.windowsWritten (s : State) (g : Nat) : State :=
  (List.range 8).foldl (fun (s : State) w =>
    s.pairWritten (windowKey g w) (guestWin (((s.guest g).wins[w]?).getD (0, 0))).agree) s

/-- A register write at a BAR0 offset, as to the fields that no row of its own writes: RW fields take their values, and
everything else is discarded (R8, R379). -/
def State.writeReg (s : State) (o : Nat) (w : Word) : State :=
  let k := o % 4096
  if 0x1000000 ≤ o ∧ o < 0x1000000 + 0x2000 * 1536 then
    if s.clocksRun && !s.therm.halted then s.modTile ((o - 0x1000000) / 0x2000) fun x => x.write ((o - 0x1000000) % 0x2000) w else s
  else match o / 4096 with
  | 0x100 => s.writeHost k w
  | 0x101 => if k = 0x058 then { s with tick := { s.tick with planLimit := bits 4 w 0 } } else s
  | 0x102 =>
    if k = 0x000 then { s with cornis := { s.cornis with valid := bitAt w 0 } }
    else if k = 0x180 then { s with cornis := { s.cornis with suspectCount := bits 8 w 0, suspectMs := bits 16 w 8 } }
    else s
  | 0x103 =>
    if k = 0x008 then { s with twin := { s.twin with lossMs := bits 10 w 0 } }
    else if k = 0x010 then { s with twin := { s.twin with share := bits 7 w 0 } }
    else s
  | 0x104 => s.writePower k w
  | 0x105 => ({ s with therm := s.therm.write k w } : State).threshWritten
  | 0x106 => { s with fac := s.fac.write k w }
  | 0x108 => ({ s with guest0 := (s.guest0.refill s.time.now).write k w } : State).windowsWritten 0
  | 0x109 => ({ s with guest1 := (s.guest1.refill s.time.now).write k w } : State).windowsWritten 1
  | _ => if o < 0x100000 then { s with bu := s.bu.write o w } else s

/-! ### BAR2 (R383) -/

/-- A command slot that Cobalt holds (R386). -/
def Ring.held (x : Ring) (slot : Nat) : Bool := (BitVec.ofNat 12 slot - x.sqHead).toNat < (x.sqTail - x.sqHead).toNat

/-- Bytes into a command slot; one that Cobalt holds is a violation and takes them all the same (R383, R410). -/
def State.writeSlot (s : State) (off : Nat) (bytes : List Byte) : State :=
  let r := off / 0x40000
  let k := off % 0x40000 / 64
  let o := off % 64
  let old := bytesLE 64 (kvGet (s.ring r).sq k 0).toNat
  let new := BitVec.ofNat 512 (natLE (old.take o ++ bytes ++ old.drop (o + bytes.length)))
  let held := (s.ring r).held k
  let s := s.modRing r fun x => { x with sq := kvPut x.sq k new }
  if held then s.hostViolation Rs.slotWrite 2 off else s

/-- Bytes into the MSI-X table; a vector unmasked while pending is sent (R383, R395). -/
def State.writeMsix (s : State) (off : Nat) (bytes : List Byte) : State :=
  let v := off / 16
  let old := bytesLE 16 (s.msixEntry v).toNat
  let o := off % 16
  let s : State := { s with host := { s.host with
    msix := kvPut s.host.msix v (BitVec.ofNat 128 (natLE (old.take o ++ bytes ++ old.drop (o + bytes.length)))) } }
  if s.host.pba.getLsbD v && !bitAt (s.msixEntry v) 96 then
    ({ s with host := { s.host with pba := s.host.pba &&& ~~~w64 (2 ^ v) } } : State).interrupt (BitVec.ofNat 6 v)
  else s

/-- Natural alignment of a 4- or 8-byte access (R380). -/
def aligned48 (off n : Nat) : Bool := (n = 4 || n = 8) && off % n = 0

/-- A write of a slot that R380 allows: a multiple of 4 bytes within one slot. -/
def slotAccess (off n : Nat) : Bool := n ≠ 0 && n % 4 = 0 && off % 4 = 0 && off % 64 + n ≤ 64

/-- The 128 bytes of a record of the event ring (R383, R401); none posted there reads as zero. -/
def EventRing.record (q : EventRing) (k : Nat) : List Byte :=
  match kvFind q.ring k with
  | some e => eventBytes e.1 e.2
  | none => List.replicate 128 0

/-- What a doorbell reads as (R385). -/
def State.doorbell (s : State) (o : Nat) : Nat :=
  match idx o 0x700000 8 16 with
  | some r => (s.ring r).sqTail.toNat
  | none => match idx o 0x700080 8 16 with
  | some r => (s.ring r).cqHead.toNat
  | none => if o = 0x700100 then s.host.eq.head.toNat else 0

/-- The 8 bytes of BAR2 at an offset that is a multiple of 8 (R383, R385). DESIGN CHOICE, log entry 43: what the map does not list reads
as zero, as it does in BAR0. -/
def State.bar2Word (s : State) (o : Nat) : Nat :=
  if o < 0x400000 then (kvGet (s.ring (o / 0x40000)).sq (o % 0x40000 / 64) 0).toNat / 2 ^ (8 * (o % 64)) % 2 ^ 64
  else if o < 0x600000 then (kvGet (s.ring ((o - 0x400000) / 0x20000)).cq (o % 0x20000 / 32) 0).toNat / 2 ^ (8 * (o % 32)) % 2 ^ 64
  else if o < 0x680000 then natLE (((s.host.eq.record ((o - 0x600000) / 128)).drop (o % 128)).take 8)
  else if 0x700000 ≤ o ∧ o < 0x701000 then s.doorbell o
  else if 0x800000 ≤ o ∧ o < 0x800400 then (s.msixEntry ((o - 0x800000) / 16)).toNat / 2 ^ (8 * (o % 16)) % 2 ^ 64
  else if o = 0x801000 then s.host.pba.toNat
  else 0

/-- A read of `n` bytes of BAR0 or BAR2 (R379, R380, R383, R405, R410): its bytes and no side effect; one of another size or alignment is
an Unsupported Request and a host violation. No row of the opcode table is a register read: this is what one answers. -/
def State.barRead (s : State) (bar off n : Nat) : Option (List Byte) × State :=
  if !aligned48 off n then (none, s.hostViolation Rs.badAccess bar off)
  else
    let w := if bar = 0 then (if off < 2 ^ 26 then (s.regRead (off / 8 * 8)).toNat else 0) else s.bar2Word (off / 8 * 8)
    (some (((bytesLE 8 w).drop (off % 8)).take n), s)

/-- The function's identity in configuration space (R377), by byte offset: Device and Vendor ID, class code and Revision ID. -/
def configIdentity (o : Nat) : Option (BitVec 32) :=
  if o = 0x00 then some 0xE2431F7C else if o = 0x08 then some 0x120000B0 else none

/-- A write of BAR0 (R379, R380, R410). -/
def State.writeBar0 (s : State) (off : Nat) (bytes : List Byte) : State :=
  let o := off / 8 * 8
  if 2 ^ 26 ≤ off then s
  else if !aligned48 off bytes.length || (bytes.length = 4 && wtRegister o) then s.hostViolation Rs.badAccess 0 off
  else s.writeReg o (layBytes (s.regRead o) (off % 8) bytes)

/-- A write of BAR2 (R380, R383, R410). -/
def State.writeBar2 (s : State) (off : Nat) (bytes : List Byte) : State :=
  let bad := fun (s : State) => s.hostViolation Rs.badAccess 2 off
  if off < 0x400000 then (if slotAccess off bytes.length then s.writeSlot off bytes else bad s)
  else if !aligned48 off bytes.length || off < 0x680000 then bad s
  else if 0x700000 ≤ off ∧ off < 0x700108 then (if bytes.length = 4 then bad s else s)
  else if 0x800000 ≤ off ∧ off < 0x800400 then s.writeMsix (off - 0x800000) bytes
  else s

/-- REGISTER_WRITE (R8, R379, R380, R383): BAR0 or BAR2. Fields and doorbells that have rows of their own are written by
those. -/
def execRegisterWrite (bar off : Nat) (bytes : List Byte) (s : State) : Host.Outcome State Fault Refusal :=
  .next (if !s.barOpen then s
    else if bar = 0 then s.writeBar0 off bytes
    else if bar = 2 then s.writeBar2 off bytes
    else s)

/-! ### The memory aperture (R381, R382) -/

/-- Global address behind a BAR4 offset, where its window and the domain admit the access. -/
def State.apertureAt (s : State) (off n : Nat) : Option Nat :=
  match s.host.wins[off / 2 ^ 33]? with
  | some (true, base) =>
    let g := base.toNat * 2 ^ 21 + off % 2 ^ 33
    if g + n ≤ 2 ^ 56 && s.inDomain (pkgOf g) then some g else none
  | some (false, _) => none
  | none => none

/-- An access that no window or package admits (R382). -/
def State.apertureBad (s : State) (write : Bool) (off : Nat) : State :=
  let s := if write then s else ({ s with out := { s.out with apert := s.out.apert ++ [(none, false)] } } : State)
  s.hostViolation Rs.badAccess 4 off

/-- APERTURE_READ (R381, R382, R335). -/
def execApertureRead (off len : Nat) (s : State) : Host.Outcome State Fault Refusal :=
  .next (if !s.barOpen then s
    else match s.apertureAt off len with
      | none => s.apertureBad false off
      | some g =>
        if pkgOf g = s.self then
          match (readOwn (localOf g) len 8).result s with
          | (.ok b, s') => s'.apertureEnd false off g len {} b
          | (.error e, s') => s'.apertureEnd false off g len (outc e.status e.reason) []
        else match s.pathStop (pkgOf g) with
          | some (st, rs) => s.apertureEnd false off g len (outc st rs) []
          | none => s.request (physRead s g len) (.aperture false off))

/-- A physical WRITE to another package by Brass (R335). -/
def physWrite (s : State) (g : Nat) (bytes : List Byte) : Msg :=
  { op := Op.write, phys := true, dst := pkgOf g, srcUnit := pkgUnit s.self, gaddr := g, length := bytes.length, data := bytes }

/-- One part of a posted write to own memory, within a page: a narrow write to stack memory that nothing stops waits for its page's
verdict, so that writes to one page join (R288). -/
def aperturePart (a : Nat) (bytes : List Byte) : M Unit := do
  let t := tileOfLocal a
  let page := a % 2 ^ 31 / pageSize
  if !isStack a || bytes.length = pageSize then writeLocal a 8 bytes
  else
    M.upd fun s => (s.useRegion t page).awaitSlice t page
    let s ← get
    if (s.pageStop t page).isSome || (s.tile t).pageFailing page || (s.tile t).poisoned page
        || (s.twin.fetching.any fun e => e.1 = pageAddr t page) then writeLocal a 8 bytes
    else M.upd fun s => s.waitNarrow t page (a % pageSize) bytes

/-- A write through the aperture (R381, R382). -/
def State.apertureWrite (s : State) (off g : Nat) (bytes : List Byte) : State :=
  if pkgOf g = s.self then
    match ((pageParts (localOf g) bytes.length).forM fun p =>
        aperturePart p.1 ((bytes.drop (p.1 - localOf g)).take p.2)).result s with
    | (.ok _, s') => s'.apertureEnd true off g bytes.length {} []
    | (.error e, s') => s'.apertureEnd true off g bytes.length (outc e.status e.reason) []
  else match s.pathStop (pkgOf g) with
    | some (st, rs) => s.apertureEnd true off g bytes.length (outc st rs) []
    | none => s.request (physWrite s g bytes) (.aperture true off)

/-- APERTURE_WRITE (R381, R382): a suspect host's writes are discarded (R411). -/
def execApertureWrite (off : Nat) (bytes : List Byte) (ep : Bool) (s : State) : Host.Outcome State Fault Refusal :=
  .next (if !s.barOpen || s.host.suspect then s
    else match s.apertureAt off bytes.length with
      | none => s.apertureBad true off
      | some g => if ep then s.hostFault St.poisoned 0 1 g else s.apertureWrite off g bytes)

/-! ### Doorbells and rings (R385, R386) -/

/-- A ring is granted to a guest (R506). -/
def Guest.has (x : Guest) (r : Nat) : Bool := x.grant && x.ring.toNat = r && r ≠ 0

/-- The guest that a ring is granted to. -/
def State.ringGuest (s : State) (r : Nat) : Option Nat :=
  if s.guest0.has r then some 0 else if s.guest1.has r then some 1 else none

/-- A write of `SQ_TAIL_r`: it hands over slots, or with `RUN` = 0 gives back those not fetched (R385, R386, R410, R506). -/
def State.writeSqTail (s : State) (r : Nat) (w : Word) : State :=
  let x := s.ring r
  let n := bits 12 w 0
  let take := fun (s : State) => s.modRing r fun x => { x with sqTail := n }
  let bad := fun (s : State) => s.hostViolation Rs.badDoorbell 2 (0x700000 + 8 * r)
  if w.toNat ≥ 4096 || (s.ringGuest r).isSome then bad s
  else if !x.run && n = x.sqHead then take s
  else if (n - x.sqTail).toNat ≤ 4095 - (x.sqTail - x.sqHead).toNat then take s
  else bad s

/-- SQ_TAIL_WRITE (R385, R386). -/
def execSqTailWrite (r : Nat) (w : Word) (s : State) : Host.Outcome State Fault Refusal :=
  .next (if s.barOpen && r < 16 then s.writeSqTail r w else s)

/-- CQ_HEAD_WRITE (R385, R410): not beyond the entries written. -/
def execCqHeadWrite (r : Nat) (w : Word) (s : State) : Host.Outcome State Fault Refusal :=
  .next (if !s.barOpen || 16 ≤ r then s
    else
      let x := s.ring r
      let n := bits 12 w 0
      if (n - x.cqHead).toNat ≤ (x.cqTail - x.cqHead).toNat then s.modRing r fun x => { x with cqHead := n }
      else s.hostViolation Rs.badDoorbell 2 (0x700080 + 8 * r))

/-- EQ_HEAD_WRITE (R385, R402, R410): once there is space, the overflow is posted. -/
def execEqHeadWrite (w : Word) (s : State) : Host.Outcome State Fault Refusal :=
  .next (if !s.barOpen then s
    else
      let q := s.host.eq
      let n := bits 12 w 0
      if (n - q.head).toNat ≤ (q.tail - q.head).toNat then
        ({ s with host := { s.host with eq := { s.host.eq with head := n } } } : State).postOverflow
      else s.hostViolation Rs.badDoorbell 2 0x700100)

/-- RING_RESET (R386): 1 is written to `RESET`, which acts only while `RUN` is 0 and nothing is outstanding. -/
def execRingReset (r : Nat) (s : State) : Host.Outcome State Fault Refusal :=
  .next (if !s.barOpen || 16 ≤ r then s
    else if (s.ring r).run || s.outstanding (some r) ≠ 0 then s.modRing r fun x => { x with resetBit := true }
    else s.modRing r fun x => { x with
      resetBit := true, sqHead := 0, cqTail := 0, sqTail := 0, cqHead := 0, cqPhase := true, cq := [], unsignalled := 0, unsignalledAt := none })

/-- EQ_RESET (R386): 1 is written to `RESET`, which acts only while `EQ_CTL.RUN` is 0. -/
def execEqReset (s : State) : Host.Outcome State Fault Refusal :=
  .next (if !s.barOpen then s
    else if s.host.eq.run then { s with host := { s.host with eq := { s.host.eq with resetBit := true } } }
    else { s with host := { s.host with eq := { s.host.eq with
      resetBit := true, tail := 0, phase := true, head := 0, ring := [], unsignalled := 0, unsignalledAt := none } } })

/-- RING_RUN (R386, R411): 1 is ignored before the rings open, and for rings 1–15 of a suspect host; setting `RUN` clears
`HALTED`. -/
def execRingRun (r : Nat) (run : Bool) (s : State) : Host.Outcome State Fault Refusal :=
  .next (if !s.barOpen || 16 ≤ r then s
    else if !run then s.modRing r fun x => { x with run := false }
    else if !s.host.ringsOpen || (s.host.suspect && r ≠ 0) then s
    else s.modRing r fun x => { x with run := true, halted := false })

/-- HOST_VIOL_SUSPECT_CLEAR (R411): writing 1 to `SUSPECT` clears the mark and the count. -/
def execHostViolSuspectClear (w : Word) (s : State) : Host.Outcome State Fault Refusal :=
  .next (if !s.barOpen || !bitAt w 32 then s
    else { s with host := { s.host with suspect := false, viol := 0, violWin := { s.host.violWin with times := [] } } })

end Sys2Proof.Machine
end

