-- ==== Sys2Proof/Machine/Rings.lean ====
section
/-! DEFINITION. Sys2Proof/Machine/Rings.lean: the service of the rings: fetching (R387, R393, R506), starting (R388, R398), posting
with its interrupts (R391, R392, R394, R395, R68), and the resets of the endpoint (R412, R496, R497). -/

namespace Sys2Proof.Machine

/-! ### Starting (R388) -/

/-- A slot's command may start: no ORDER command before it on its ring, and itself, with ORDER, nothing before it (R388). A
command counts as completed once its completion is posted. -/
def mayStart (before : List CmdSlot) (z : CmdSlot) : Bool :=
  !(before.any fun k => k.cmd.order) && (!z.cmd.order || before.isEmpty)

/-- Why a command ends as it starts: a guest's group that is denied (R506), or what refuses any command (R78, R398, R471). -/
def State.startRefusal (s : State) (c : Cmd) : Option (Code × Code) :=
  let g := c.opcode.toNat / 256
  if c.guest.isSome && (g = 0x08 || g = 0x0A) then some (St.rejected, Rs.guestDenied)
  else s.cmdRefusal c

/-- A command slot as it starts. -/
def State.startSlot (s : State) (z : CmdSlot) : CmdSlot :=
  match s.startRefusal z.cmd with
  | some (st, rs) => { z with ph := .finished, startAt := s.time.invar, compl := { status := st, reason := rs } }
  | none => { z with ph := .started, startAt := s.time.invar }

/-- Commands of one ring. -/
def sameRing (a b : CmdSlot) : Bool := a.cmd.origin.isNone && b.cmd.origin.isNone && ringNo a.cmd = ringNo b.cmd

/-- Start what may start, in fetch order. -/
def State.startSlots (s : State) : List CmdSlot → List CmdSlot → List CmdSlot
  | before, [] => before
  | before, z :: r =>
    let go := z.ph = .held && mayStart (before.filter fun k => sameRing k z) z
    State.startSlots s (before ++ [if go then s.startSlot z else z]) r

/-- Start the commands that wait and may go on (R388). -/
def State.startHeld (s : State) : State := { s with host := { s.host with slots := s.startSlots [] s.host.slots } }

/-! ### Fetching (R387) -/

/-- A command slot is open to a ring (R387). -/
def State.slotFree (s : State) (r : Nat) : Bool :=
  let own := s.host.slots.filter fun k => k.cmd.origin.isNone
  own.length < 4096 && (r = 0 || (own.filter fun k => ringNo k.cmd ≠ 0).length < 4032)

/-- The tag is outstanding on the command's ring (R393). -/
def State.tagTaken (s : State) (c : Cmd) : Bool :=
  s.host.slots.any fun k => k.cmd.tag = c.tag && k.cmd.guest = c.guest && k.cmd.origin.isNone && (c.guest.isSome || k.cmd.ring = c.ring)

/-- A fetched command takes its slot (R387, R393). -/
def State.takeCommand (s : State) (c : Cmd) (gtxn : Option (BitVec 16)) : State :=
  let z : CmdSlot := if s.tagTaken c then
      { cmd := c, ph := .finished, startAt := s.time.invar, gtxn := gtxn
        compl := { status := St.rejected, reason := Rs.tagInUse, dupTag := true } }
    else { cmd := c, ph := .held, gtxn := gtxn }
  let details := if s.tagTaken c then s.host.details
    else s.host.details.filter fun d => !(d.ring = c.ring && d.tag = c.tag)
  ({ s with host := { s.host with slots := s.host.slots ++ [z], details := details } } : State).startHeld

/-- Fetch for a ring granted to a guest: its oldest CONTROL message, at the guest's rate (R505, R506). -/
def State.fetchGuest (s : State) (g : Nat) : State :=
  let x := (s.guest g).refill s.time.now
  match x.cmdQueue with
  | [] => s
  | (c, txn) :: r =>
    if x.cmdCredit < 1000000 then s
    else (s.setGuest g { x with cmdQueue := r, cmdCredit := x.cmdCredit - 1000000 }).takeCommand c (some txn)

/-- Fetch the next slot of a ring. -/
def State.fetchSlot (s : State) (r : Nat) : State :=
  let x := s.ring r
  if x.sqHead = x.sqTail then s
  else
    let c := decodeCmd r (kvGet x.sq x.sqHead.toNat 0)
    (s.modRing r fun x => { x with sqHead := x.sqHead + 1 }).takeCommand c none

/-- A running ring holds a command that a slot is open to, and that its guest's rate admits (R387, R505, R506). -/
def State.fetchable (s : State) (r : Nat) : Bool :=
  (s.ring r).run && s.slotFree r && (match s.ringGuest r with
    | some g => !(s.guest g).cmdQueue.isEmpty && 1000000 ≤ ((s.guest g).refill s.time.now).cmdCredit
    | none => (s.ring r).sqHead ≠ (s.ring r).sqTail)

/-- The ring from which the next command comes: the next one of the round that has one, else the first of a new round, which begins with
ring 0 (R387). -/
def State.fetchTurn (s : State) : Option Nat :=
  let l := (List.range 16).filter s.fetchable
  (l.find? fun r => s.host.round ≤ r).or l.head?

/-- A fetch of a ring: the round goes on behind it, and the next fetch comes no sooner than 8 commands per µs allow (R387). -/
def State.fetchFrom (s : State) (r : Nat) : State :=
  let s : State := { s with host := { s.host with round := (r + 1) % 16, fetchAt := s.time.now + ns 125 } }
  match s.ringGuest r with
  | some g => s.fetchGuest g
  | none => s.fetchSlot r

/-- COMMAND_FETCH (R387): one command of one ring, when its turn in the round has come. -/
def execCommandFetch (r : Nat) (s : State) : Host.Outcome State Fault Refusal :=
  .next (if !s.brassRuns || !s.host.ringsOpen then s
    else if s.fetchTurn ≠ some r then s
    else (s.advanceTo s.host.fetchAt).fetchFrom r)

/-! ### Posting (R394) -/

/-- The 32 bytes of a completion (R392). -/
def complBytes (x : Ring) (r : Nat) (c : Cmd) (k : Compl) : List Byte :=
  bytesLE 2 c.tag.toNat ++ bytesLE 1 k.status.toNat ++ bytesLE 1 k.reason.toNat ++ bytesLE 2 (x.sqHead.toNat + r * 2 ^ 12)
    ++ bytesLE 2 (bitIf x.cqPhase 0 + bitIf k.dupTag 1 + bitIf k.detail 2) ++ bytesLE 8 k.map.toNat
    ++ bytesLE 8 k.result0.toNat ++ bytesLE 8 k.result1.toNat

/-- The completion ring is full (R394). -/
def Ring.full (x : Ring) : Bool := x.cqTail + 1 = x.cqHead

/-- Count a posted completion towards the ring's interrupt (R395). -/
def Ring.signal (x : Ring) (now : Nat) (notify : Bool) : Ring × Bool :=
  let un := x.unsignalled + 1
  let fire := x.irqEn && (notify || max 1 x.coalN.toNat ≤ un)
  ({ x with
      unsignalled := if fire then 0 else un
      unsignalledAt := if fire then none else some (x.unsignalledAt.getD now) }, fire)

/-- Write a completion to the ring, its host image and its interrupt (R394, R395). -/
def State.postEntry (s : State) (r : Nat) (c : Cmd) (k : Compl) : State :=
  let x := s.ring r
  let bytes := complBytes x r c k
  let t := x.cqTail + 1
  let y := { x with
    cq := kvPut x.cq x.cqTail.toNat (BitVec.ofNat 256 (natLE bytes)), cqTail := t
    cqPhase := if t = 0 then !x.cqPhase else x.cqPhase }
  let a := x.cqAddr.toNat * 4096 + 32 * x.cqTail.toNat
  let lost := x.cqEnable && !s.hostReach
  let q := y.signal s.time.now c.notify
  let s := s.modRing r fun _ => { q.1 with cqEnable := x.cqEnable && !lost }
  let s : State := if x.cqEnable && !lost then { s with out := { s.out with host := s.out.host ++ [(w64 a, bytes)] } } else s
  let s := if lost then s.hostFault St.range Rs.hostAbort 2 a else s
  if q.2 then s.interrupt x.vector else s

/-- Change one finished slot. -/
def State.modDone (s : State) (z : CmdSlot) (f : CmdSlot → CmdSlot) : State :=
  { s with host := { s.host with slots := s.host.slots.map fun k => if k = z then f k else k } }

/-- A completion's outcome replaced by what its return data met (R391). -/
def CmdSlot.spoiled (k : CmdSlot) (st rs : Code) : CmdSlot := { k with ret := [], compl := { status := st, reason := rs } }

/-- Write return data to `RET`: the state, and the slot as it stands then (R391, R394). -/
def State.writeRet (s : State) (z : CmdSlot) : State × CmdSlot :=
  let c := z.cmd
  let a := c.ret.toNat
  let done := { z with ret := [] }
  if z.ret.isEmpty then (s, z)
  else if !c.devAddr then
    if s.hostReach then ({ s with out := { s.out with host := s.out.host ++ [(c.ret, z.ret)] } }, done)
    else (s.hostFault St.range Rs.hostAbort 2 a, z.spoiled St.range Rs.hostAbort)
  else if 2 ^ 56 < a + z.ret.length then (s, z.spoiled St.range Rs.localHole)
  else if pkgOf a = s.self then
    match (writeOwn (localOf a) 9 z.ret).result s with
    | (.ok _, s') => (s', done)
    | (.error e, s') => (s', z.spoiled e.status e.reason)
  else match s.pathStop (pkgOf a) with
    | some (st, rs) => (s, z.spoiled st rs)
    | none =>
      let parts := cutMessages (z.ret.length / 2048 + 2) a z.ret.length
      (parts.foldl (fun (s : State) p =>
          s.request (physWrite s p.1 ((z.ret.drop (p.1 - a)).take p.2)) (.ret c.ring c.tag)) s
        , { done with retSent := some parts.length })

/-- The reply to a forwarded or a guest's command: its results, and for another package the data it returns (R68, R506). -/
def replyOf (c : Cmd) (k : CmdSlot) : Msg :=
  { op := Op.control + 0x80, status := k.compl.status, reason := k.compl.reason, operand := k.compl.map
    data := bytesLE 8 k.compl.result0.toNat ++ bytesLE 8 k.compl.result1.toNat ++ (if c.origin.isSome then k.ret else [])
    length := 16 + (if c.origin.isSome then k.ret.length else 0), vc := 1 }

/-- Free a slot whose completion has been posted; commands that waited for it start. -/
def State.freeSlot (s : State) (z : CmdSlot) : State :=
  ({ s with host := { s.host with slots := s.host.slots.erase z } } : State).startHeld

/-- A guest's completion goes back as a message while the site is UP and the reply is wanted (R506, R507). -/
def State.replyGuest (s : State) (g : Nat) (z : CmdSlot) : State :=
  match z.gtxn with
  | none => s
  | some txn =>
    if (s.guest g).state ≠ .up then s
    else
      let m : Msg := { replyOf z.cmd z with src := s.self, dst := s.self, txn := txn, hops := 0 }
      { s with out := { s.out with guest := s.out.guest ++ [(g, m)] } }

/-- Post what stands in a slot whose return data is written. -/
def State.postSlot (s : State) (z : CmdSlot) : State :=
  match z.cmd.guest with
  | some g => (s.replyGuest g z).freeSlot z
  | none => (s.postEntry z.cmd.ring z.cmd z.compl).freeSlot z

/-- Post the completion of a finished slot, its return data first; while the ring is full, or the data is under way to another
package, it waits (R394). -/
def State.postDone (s : State) (z : CmdSlot) : State :=
  match z.cmd.origin with
  | some (pkg, txn) => (s.respond { replyOf z.cmd z with dst := pkg, txn := txn }).freeSlot z
  | none =>
    if z.cmd.guest.isNone && (s.ring z.cmd.ring).full then s
    else
      let r := s.writeRet z
      let s := r.1.modDone z fun _ => r.2
      if (r.2.retSent.getD 0) ≠ 0 then s else s.postSlot r.2

/-- COMPLETION_POST (R394): the completion of the first finished command with a ring and a tag. -/
def execCompletionPost (r : Nat) (tag : BitVec 16) (s : State) : Host.Outcome State Fault Refusal :=
  .next (if !s.brassRuns then s
    else match s.host.slots.find? fun k => k.cmd.ring = r && k.cmd.tag = tag && k.ph = .finished with
      | none => s
      | some z => s.postDone z)

/-! ### Interrupts (R395) -/

/-- The delay of a ring's interrupt has passed. -/
def State.ringTimer (s : State) (r : Nat) : State :=
  let x := s.ring r
  match x.unsignalledAt with
  | none => s
  | some a =>
    if !x.irqEn || x.coalUs = 0 then s
    else ((s.advanceTo (a + us x.coalUs.toNat)).modRing r fun x => { x with unsignalled := 0, unsignalledAt := none }).interrupt x.vector

/-- The delay of the event ring's interrupt has passed. -/
def State.eqTimer (s : State) : State :=
  let q := s.host.eq
  match q.unsignalledAt with
  | none => s
  | some a =>
    if !q.irqEn || q.coalUs = 0 then s
    else
      let s := s.advanceTo (a + us q.coalUs.toNat)
      ({ s with host := { s.host with eq := { s.host.eq with unsignalled := 0, unsignalledAt := none } } } : State).interrupt q.vector

/-- INTERRUPT_COALESCE_TIMER (R395); ring 16 is the event ring. -/
def execInterruptCoalesceTimer (r : Nat) (s : State) : Host.Outcome State Fault Refusal :=
  .next (if !s.brassRuns then s else if r = 16 then s.eqTimer else if r < 16 then s.ringTimer r else s)

/-! ### Resets of the endpoint (R412) -/

/-- KiB of the bundle that S7 has fetched (R421). -/
def BringUp.kib (b : BringUp) : Nat := ceilDiv (b.fetched.map List.length).sum 1024

/-- The security state with every image discarded, the security engine and Cobalt idle (R426). -/
def SecState.discard (x : SecState) (reason : Code) : SecState :=
  { lastReason := reason, svnFused := x.svnFused, svnBlown := x.svnBlown, requests := x.requests, errors := x.errors }

/-- S7 refuses a bundle: REJECTED with the reason, and `kind` of the failing image or 0; `COUNT` is the KiB fetched (R421, R426, R428,
R436). -/
def State.refuseBundle (s : State) (reason : Code) (kind : Nat) : State :=
  ({ s with
      bu := { s.bu with out := some { step := 7, outc := { status := St.rejected, reason := reason }, count := s.bu.kib } }
      sec := s.sec.discard reason } : State).raiseP Ev.fwRejected [w64 reason.toNat, w64 kind]

/-- A read of host memory that will not be answered: its user sees it fail (R391, R426). -/
def State.lostRead (s : State) (x : HostRead) : State :=
  match x.use with
  | .parameter r t => { s with host := { s.host with slots := s.host.slots.map fun k =>
      if k.cmd.ring = r && k.cmd.tag = t && k.ph = .started then { k with param := some .failed } else k } }
  | .planSource r t k' => { s with host := { s.host with slots := s.host.slots.map fun k =>
      if k.cmd.ring = r && k.cmd.tag = t && k.ph = .started then { k with hostGot := kvPut k.hostGot k' .failed } else k } }
  | .bundle => s.refuseBundle Rs.bundleAbort 0

/-- Every outstanding read of host memory fails. -/
def State.loseReads (s : State) : State :=
  s.host.reads.foldl (fun (s : State) x => s.lostRead x) { s with host := { s.host with reads := [] } }

/-- The endpoint and the host-interface block after a reset of the endpoint (R412). -/
def HostState.endpointReset (h : HostState) (now : Nat) (linkLost : Bool) : HostState :=
  { h with
    linkUp := h.linkUp && !linkLost
    linkGen := if linkLost then 0 else h.linkGen
    linkWidth := if linkLost then 0 else h.linkWidth
    configReady := false, barsOn := false, busMaster := false, msixOn := false
    resetAt := some now
    wins := h.wins.map fun w => (false, w.2)
    rings := h.rings.map fun x => { x with run := false, cqEnable := false }
    eq := { h.eq with run := false, enable := false }
    msix := [], pba := 0 }

/-- An endpoint reset of a kind: 1 FLR, 2 hot reset, 3 link down, 4 `PERST_N` (R404, R412). -/
def State.endpointReset (s : State) (kind : Nat) : State :=
  let s : State := { s with host := s.host.endpointReset s.time.now (kind = 3 || kind = 4) }
  s.loseReads.raiseP Ev.hostReset [w64 kind]

/-- FUNCTION_LEVEL_RESET (R412): written through a function that answers. -/
def execFunctionLevelReset (s : State) : Host.Outcome State Fault Refusal :=
  .next (if s.brassRuns && s.bu.s0 && s.host.linkUp && s.host.configReady then s.endpointReset 1 else s)

/-- HOT_RESET (R412). -/
def execHotReset (s : State) : Host.Outcome State Fault Refusal :=
  .next (if s.brassRuns && s.bu.s0 && s.host.linkUp then s.endpointReset 2 else s)

/-- LINK_DOWN (R412). -/
def execLinkDown (s : State) : Host.Outcome State Fault Refusal :=
  .next (if s.brassRuns && s.bu.s0 && s.host.linkUp then s.endpointReset 3 else s)

/-- PERST_ASSERT (R497): low for 100 µs. Before power the pin only takes its level (R496). -/
def execPerstAssert (s : State) : Host.Outcome State Fault Refusal :=
  if s.host.perst then .next s
  else
    let s : State := { s with host := { s.host with perst := true } }
    .next (if s.brassRuns && s.bu.s0 then s.endpointReset 4 else s)

/-- PERST_DEASSERT (R496): the reset ends, and 100 ms later the endpoint answers. -/
def execPerstDeassert (s : State) : Host.Outcome State Fault Refusal :=
  .next (if !s.host.perst then s
    else { s with host := { s.host with perst := false, resetAt := some s.time.now } })

/-- HOST_LINK_UP (R376, R412, R495, R496): the link trains to one of the endpoint's generations and widths while `PERST_N` is high. An endpoint that
runs from `REFCLK` needs it valid for 1 ms. -/
def execHostLinkUp (gen width : Nat) (s : State) : Host.Outcome State Fault Refusal :=
  .next (if !s.brassRuns || !s.bu.s0 || s.host.perst || s.host.linkUp then s
    else if !([5, 6, 7].contains gen && [1, 2, 4].contains width) then s
    else if !Config.separateRef && !s.bu.refOk then s
    else
      let s := if Config.separateRef then s else s.advanceTo (s.bu.refAt + ms 1)
      { s with host := { s.host with linkUp := true, linkGen := BitVec.ofNat 3 gen, linkWidth := BitVec.ofNat 3 width } })

/-- ENDPOINT_READY (R412): the function answers configuration requests 100 ms after the reset ends, and the host assigns the BARs
and enables bus mastering and MSI-X. -/
def execEndpointReady (s : State) : Host.Outcome State Fault Refusal :=
  .next (if !s.brassRuns || !s.bu.s0 || s.host.perst || !s.host.linkUp || s.host.configReady then s
    else
      let s := s.advanceTo (s.host.resetAt.getD s.time.now + ms 100)
      { s with host := { s.host with
          configReady := true, barsOn := true, busMaster := true, msixOn := true, resetAt := none } })

end Sys2Proof.Machine
end

