-- ==== Sys2Proof/Machine/HostCommands.lean ====
section
/-! DEFINITION. Sys2Proof/Machine/HostCommands.lean: the commands of R399: the event log and its actions, CMD_ABORT, the known-answer
runs (R400, with the exactness of R176) and CNS_LOOPBACK. -/

namespace Sys2Proof.Machine

/-! ### Events and commands -/

/-- EVENT_LOG_READ (R399): records in the log from a sequence number on. -/
def State.readLog (s : State) (c : Cmd) (first count : Nat) : State :=
  let oldest := (s.events.log.head?.map (·.seq)).getD s.events.next
  if count = 0 || 65536 < count then s.finishWith c St.rejected Rs.badCount
  else if first < oldest then s.finish c { status := St.range, result0 := w64 oldest }
  else
    let l := (s.events.log.filter fun e => first ≤ e.seq).take count
    let k : Compl := { result0 := w64 l.length, result1 := w64 (first + l.length) }
    if l.isEmpty then s.finish c k else s.finishData c (l.flatMap fun e => eventBytes e false) k

/-- EVENT_LOG_READ. -/
def execEventLogRead (c : Cmd) (s : State) : Host.Outcome State Fault Refusal :=
  .next (s.onCmd 0x0901 c fun s => s.readLog c c.p0.toNat c.p1.toNat)

/-- EVENT_SET_ACTION (R399, R402). -/
def execEventSetAction (c : Cmd) (s : State) : Host.Outcome State Fault Refusal :=
  .next (s.onCmd 0x0902 c fun s =>
    let code := BitVec.ofNat 16 c.p0.toNat
    if !eventTable.any fun e => e.1 = code.toNat then s.finishWith c St.rejected Rs.badField
    else
      let rest := s.events.logOnly.filter (· ≠ code)
      ({ s with events := { s.events with logOnly := if c.p1 = 0 then rest else code :: rest } } : State).finish c {})

/-- EVENT_READ_ACTIONS (R399): one byte per code, in code order. -/
def execEventReadActions (c : Cmd) (s : State) : Host.Outcome State Fault Refusal :=
  .next (s.onCmd 0x0903 c fun s =>
    s.finishData c (eventTable.map fun e => if s.events.logOnly.contains (BitVec.ofNat 16 e.1) then 1 else 0) {})

/-- The slot that CMD_ABORT names, not started. -/
def CmdSlot.abortable (k : CmdSlot) (ring tag : Nat) : Bool := k.cmd.ring = ring && k.cmd.tag.toNat = tag && k.ph = .held

/-- A slot after CMD_ABORT. -/
def CmdSlot.abort (k : CmdSlot) (ring tag : Nat) : CmdSlot :=
  if k.abortable ring tag then { k with ph := .finished, compl := { status := St.aborted } } else k

/-- CMD_ABORT (R399): a command that has not started completes ABORTED. -/
def execCmdAbort (c : Cmd) (s : State) : Host.Outcome State Fault Refusal :=
  .next (s.onCmd 0x0910 c fun s =>
    let r := ringKey c c.p0.toNat
    let t := c.p1.toNat
    let found := s.host.slots.any fun k => k.abortable r t
    ({ s with host := { s.host with slots := s.host.slots.map fun k => k.abort r t } } : State).finishOk c (if found then 1 else 0) 0)

/-! ### Known-answer runs (R400) -/

/-- Every tile, and every unit of another package, that a unit names, in service or not, with its place at each level. -/
def State.namedLeaves (s : State) : Nat → BitVec 32 → Path → List (BitVec 32 × Path)
  | 0, _, _ => []
  | f + 1, u, path =>
    if unitLevel u = 1 || ((unitLevel u ≤ 3 || unitLevel u = 7) && unitPkg u ≠ s.self) then [(u, path)]
    else
      let n := (s.members u).length
      ((List.range n).zip (s.members u)).flatMap fun m => State.namedLeaves s f m.2 (path ++ [(m.1, n, m.2)])

/-- A tile that a run accepts: every tile of its stack that the command names is REMOVED (R400). -/
def State.kaAccepts (s : State) (listed : List TileRef) (t : TileRef) : Bool :=
  (listed.filter fun k => k / 64 = t / 64).all fun k => (s.tile k).unit = .removed

/-- Own tiles among leaves. -/
def State.ownLeaves (s : State) (l : List (BitVec 32 × Path)) : List TileRef :=
  (l.filter fun e => unitPkg e.1 = s.self).map fun e => unitTileRef e.1

/-- KA_RUN (R399, R400): the operands say which sets of which tiles fail. -/
def execKaRun (c : Cmd) (fails : List (TileRef × Byte)) (s : State) : Host.Outcome State Fault Refusal :=
  .next (s.onCmd 0x0A01 c fun s =>
    let l := s.namedLeaves (s.depth + 4) c.unit []
    let listed := s.ownLeaves l
    s.runOver c l fun s t =>
      if !s.kaAccepts listed t then (s, some (outc St.rejected Rs.inService))
      else
        let mask : Byte := BitVec.ofNat 8 c.p0.toNat
        let bad := (((fails.find? fun f => f.1 = t).map Prod.snd).getD 0) &&& mask
        (s.modTile t fun x => { x with kaRun := mask, kaFailed := bad }
          , some (if bad = 0 then {} else outc St.notReady Rs.testFailed)))

/-- KA_RESULTS (R399): per tile its identifier, the sets last run and those that failed. -/
def execKaResults (c : Cmd) (s : State) : Host.Outcome State Fault Refusal :=
  .next (s.onCmd 0x0A03 c fun s => s.runReplicated c fun s u =>
    let r := State.replicate (fun s _ => (s, ({} : Outc))) (s.depth + 2) s u
    (s, { parts := r.2.2, data := (s.tilesReached (s.depth + 2) u).flatMap fun t =>
      bytesLE 4 (s.tileId t).toNat ++ [(s.tile t).kaRun, (s.tile t).kaFailed, 0, 0] }))

/-! ### Exactness (R176) -/

/-- Exponent of the lowest set bit of a value that is not zero. -/
def lowBit (m : Nat) (e : Int) : Int := e + (((List.range (Nat.log2 m + 1)).find? fun i => m.testBit i).getD 0)

/-- The terms of one reduction are finite, multiples of a common 2^q, and the sum of their magnitudes is below 2^(q + 24)
(R176). -/
def exactTerms (l : List Fv) : Bool :=
  let fins := l.filterMap fun v => match v with
    | .fin _ m e => if m = 0 then none else some (m, e)
    | .nan => none
    | .inf _ => none
  let q := ((fins.map fun v => lowBit v.1 v.2).min?).getD 0
  (l.all fun v => !v.isNan && !v.isInf)
    && ((fins.map fun v => if q ≤ v.2 then v.1 * 2 ^ (v.2 - q).toNat else v.1 / 2 ^ (q - v.2).toNat).sum : Nat) < 2 ^ 24

/-- Terms of a dot product of two runs of lanes, with their block scales. -/
def dotTerms (fa sa fb sb : Nat) (a b : List Lane) : List Fv :=
  (a.zip b).map fun p =>
    let v := laneProduct fa fb p.1 p.2
    let v := if sa = 0 then v else v.mul (scaleValue sa (p.1.getD (0, 0)).2)
    if sb = 0 then v else v.mul (scaleValue sb (p.2.getD (0, 0)).2)

/-- The reductions of a MATMUL are exact. -/
def matExact (t : TileRef) (a : MatArgs) : M Bool := do
  let rows ← (List.range a.m).mapM fun m => (List.range a.kc).mapM fun kc =>
    slotLanes t a.fa a.sa a.l (a.valid kc) (a.aBase + a.aSlot kc m * 128) (a.aScl + a.aSlot kc m * 16)
  let oks ← (List.range a.nb).mapM fun nb => (List.range (if nb + 1 = a.nb then a.nLast else 32)).mapM fun u => do
    let b ← (List.range a.kc).mapM fun kc =>
      slotLanes t a.fb a.sb a.l (a.valid kc) (a.bBase + a.bSlot nb kc u * 128) (a.bScl + a.bSlot nb kc u * 16)
    let x := (← get).tile t
    pure (((List.range a.m).zip rows).all fun r =>
      exactTerms ((if a.add then [f32 (x.accAt (a.row + nb * a.m + r.1) u)] else [])
        ++ dotTerms a.fa a.sa a.fb a.sb r.2.flatten b.flatten))
  pure (oks.flatten.all id)

/-- The reductions of a GEMM are exact. -/
def gemmExact (env : Env) (d : BitVec 512) : M Bool := do
  let a ← readTd env (w64 (fld d 16 63 0)) mxFmt
  let b ← readTd env (w64 (fld d 24 63 0)) mxFmt
  let row := fun (x : TDesc) (i : Nat) => readElems env 1 x ((List.range ((x.sizes.head?).getD 1)).map fun j => [j, i])
  let as ← (List.range ((a.sizes[1]?).getD 0)).mapM (row a)
  let bs ← (List.range ((b.sizes[1]?).getD 0)).mapM (row b)
  pure (as.all fun x => bs.all fun y => exactTerms (dotTerms a.fmt a.smode b.fmt b.smode (x.map some) (y.map some)))

/-- The row sums of a VECTOR are exact. -/
def vecExact (t : TileRef) (v : VecArgs) : M Bool := do
  if v.op ≠ 0x10 && v.op ≠ 0x12 && v.op ≠ 0x15 then pure true
  else
    let rows ← (List.range v.rows).mapM (vecRow t v.a v.fi v.n)
    pure (rows.all fun r => exactTerms (r.map fun b => if v.op = 0x12 then (f32 b).mul (f32 b) else f32 b))

/-- The reductions of a PEWTER_MV are exact: its pages by row, with the vectors loaded. -/
def pewterExact (s : State) (t : TileRef) (d : BitVec 512) (w : VecSlot) (pages : List (Nat × Nat × Nat)) : Bool :=
  let ks := pvKs d
  let wf := fld d 32 3 0
  let sm := fld d 32 5 4
  let segs := fld d 38 15 0
  let size := if sm = 2 then 16 else 32
  (List.range (pvRows d)).all fun row => (List.range (pvV d)).all fun v =>
    exactTerms ((pages.filter fun p => p.1 / segs = row).flatMap fun p =>
      let data := cellRead s.mem (pageAddr t p.2.1) pageSize
      let codes := unpackRun wf ks data
      let scales := (data.drop (runBytes wf ks)).take (scaleCount sm ks)
      let seg := p.1 % segs
      let valid := if seg + 1 = segs && fld d 56 11 0 ≠ 0 then fld d 56 11 0 else ks
      let vec := (((w.data[v]?).getD []).drop (seg * ks - w.k0)).take ks
      ((List.range valid).zip (codes.zip vec)).map fun e =>
        let x := (decodeNum wf e.2.1).mul (decodeNum w.fmt.toNat e.2.2.toNat)
        if sm = 0 then x else x.mul (scaleValue sm ((scales[e.1 / size]?).getD 0).toNat))

/-! ### KA_VECTOR -/

/-- A PEWTER_MV with the fence that follows it, on a tile out of service (R400): every page is read and reduced, and the
results are written. -/
def pewterRun (env : Env) (d : BitVec 512) : M Outc := do
  let (pages, outs, _) ← startChecks d env
  let s ← get
  let x := s.tile env.t
  let w := if pvLoad d then loadVectors x d s.time.now {} else kvGet x.pewter.vslots (fld d 34 4 4) (loadVectors x d s.time.now {})
  if !pewterExact s env.t d w pages then M.stop St.rejected Rs.notExact
  let q : PewSeq := { slot := env.slot, tag := fld d 34 3 0, half := some 0, vslot := fld d 34 4 4, desc := d, job := env.job
                      order := 0, outs := outs, todo := [] }
  let bad := pages.filter fun p => x.poisoned p.2.1 || x.pageFailing p.2.1
  let q := pages.foldl (fun (q : PewSeq) p =>
    if bad.contains p then { q with nanRows := insertRising (p.1 / fld d 38 15 0) q.nanRows, status := St.poisoned }
    else q.reduce w (cellRead s.mem (pageAddr env.t p.2.1) pageSize) p.1 p.2.2) q
  putResults env q
  pure (outc q.status 0)

/-- Run the descriptor of a KA_VECTOR on its tile: the exactness of its inputs, then the descriptor itself (R400). -/
def kaExecute (env : Env) (d : BitVec 512) : M Outc := do
  let slot : DescSlot := { desc := d, index := none, job := env.job, step := env.step, wall := env.step }
  match admitCheck d env.step with
  | some o => refuse o
  | none =>
    if dOpcode d = 0x10 then
      if !(← matExact env.t (matArgs d)) then M.stop St.rejected Rs.notExact
      pure (← matmulBody slot env).outc
    else if dOpcode d = 0x12 then
      if !(← gemmExact env d) then M.stop St.rejected Rs.notExact
      pure (← gemmBody slot env).outc
    else if dOpcode d = 0x18 then
      if !(← vecExact env.t (vecArgs d)) then M.stop St.rejected Rs.notExact
      pure (← vectorBody slot env).outc
    else pewterRun env d

/-- Any format a tensor may have. -/
def anyFmt (f : Nat) : Bool := f ≤ 9

/-- KA_VECTOR on one tile: its outcome, the elements that differ, and the first of them (R400). -/
def kaVectorTile (env : Env) (c : Cmd) : M (Outc × Nat × Nat) := do
  let d := descOf (← readDva env c.p1 64 1)
  if !([0x10, 0x12, 0x18, 0x40].contains (dOpcode d)) then M.stop St.rejected Rs.badOpcode
  let want ← readTd env c.p2 anyFmt
  let got ← readTd env c.p3 anyFmt
  M.check (want.sizes = got.sizes && want.fmt = got.fmt && want.smode = got.smode) St.rejected Rs.shape
  let expected ← readElems env 1 want (indices want.sizes)
  let o ← kaExecute env d
  if !(o.good || o.status = St.partial) then pure (o, 0, 0)
  else
    let produced ← readElems env 1 got (indices got.sizes)
    let diff := ((List.range expected.length).zip (expected.zip produced)).filter fun e => e.2.1 ≠ e.2.2
    match diff with
    | [] => pure (o, 0, 0)
    | e :: _ => pure (outc St.notReady Rs.testFailed, diff.length, e.1)

/-- What a command's tile accesses memory as (R390): its context, and what has come from other packages. PLAN_LOAD acts for the job and the
logical step that it names (R42, R108, R110). DESIGN CHOICE, log entry 36: KA_VECTOR, which runs for no plan, has its context as its job
and the wall step as its step. -/
def State.cmdEnv (s : State) (c : Cmd) (t : TileRef) (ctx : Nat) : Env :=
  let z := s.cmdSlot c
  let plan : Bool := c.opcode = 0x0310
  { t := t, slot := 256, ctx := ctx, job := if plan then BitVec.ofNat 16 c.p1.toNat else BitVec.ofNat 16 ctx
    step := if plan then c.p0.toNat else s.tick.wall, front := some false
    fetched := (z.map (·.fetched)).getD [], readFails := (z.map (·.readFails)).getD [] }

/-- KA_VECTOR at one own tile: its result, or the bytes it must first have from another package. -/
def State.kaVectorAt (s : State) (c : Cmd) (t : TileRef) : State × Option (Outc × Nat × Nat) × Option Need :=
  let env := s.cmdEnv c t (c.p0.toNat % 4096)
  match (kaVectorTile env c).result s with
  | (.ok r, s') => (s', some r, none)
  | (.error e, s') =>
    match e.need with
    | some n => (s, none, some n)
    | none => (s'.recordFault t e 0 env.ctx env.step, some (outc e.status e.reason, 0, 0), none)

/-- KA_VECTOR over own tiles, stopping where bytes of another package are needed. -/
def State.kaVectorAll (s : State) (c : Cmd) (listed : List TileRef) :
    List TileRef → List (TileRef × Outc × Nat × Nat) → State × List (TileRef × Outc × Nat × Nat) × Option (TileRef × Need)
  | [], acc => (s, acc, none)
  | t :: r, acc =>
    if !s.kaAccepts listed t then State.kaVectorAll s c listed r (acc ++ [(t, outc St.rejected Rs.inService, 0, 0)])
    else match s.kaVectorAt c t with
      | (s', some o, _) => State.kaVectorAll s' c listed r (acc ++ [(t, o)])
      | (_, none, some n) => (s, acc, some (t, n))
      | (_, none, none) => (s, acc, none)

/-- KA_VECTOR (R399, R400): a run that needs bytes of another package leaves no trace and waits for them. -/
def State.kaVector (s : State) (c : Cmd) : State :=
  let l := s.namedLeaves (s.depth + 4) c.unit []
  let listed := s.ownLeaves l
  match s.kaVectorAll c listed listed [] with
  | (_, _, some (t, n)) => s.askCmdRead c (s.cmdEnv c t (c.p0.toNat % 4096)) n
  | (s', res, none) =>
    match l, res with
    | [_], [(_, o, n, k)] =>
      (s'.setDetail c [([(0, 1, c.unit)], o)]).finish c { status := o.status, reason := o.reason, map := o.map, result0 := w64 n, result1 := w64 k, detail := true }
    | _, _ => s'.runOver c l (fun s t => (s, some (((res.find? fun e => e.1 = t).map fun e => e.2.1).getD {}))) fun t =>
        ((res.find? fun e => e.1 = t).map fun e => (w64 e.2.2.1, w64 e.2.2.2)).getD (0, 0)

/-- KA_VECTOR; once its members are asked for, the last report ends it. -/
def execKaVector (c : Cmd) (s : State) : Host.Outcome State Fault Refusal :=
  .next (s.onCmd 0x0A02 c fun s =>
    if ((s.cmdSlot c).map fun z => z.members.isEmpty).getD false then s.kaVector c else s)

/-- The port a lane group belongs to. -/
def LaneGroup.portNo (x : LaneGroup) : Option Nat := if x.role = 1 then some x.port.toNat else if x.role = 2 then some 8 else none

/-- CNS_LOOPBACK (R399, R400): the operand says how many bits were wrong. -/
def execCnsLoopback (c : Cmd) (errors : Nat) (s : State) : Host.Outcome State Fault Refusal :=
  .next (s.onCmd 0x0A04 c fun s => s.runAt c fun s =>
    let up := match (s.cornis.groups[c.p0.toNat]?).bind LaneGroup.portNo with
      | some p => (s.port p).up
      | none => false
    if up then s.finishWith c St.rejected Rs.inService
    else s.finish c { status := if errors = 0 then St.ok else St.notReady, reason := if errors = 0 then 0 else Rs.testFailed
                      result0 := w64 errors })

end Sys2Proof.Machine
end

