-- ==== Sys2Proof/Machine/Bundle.lean ====
section
/-! DEFINITION. Sys2Proof/Machine/Bundle.lean: the firmware bundle of R424 and its checks (R425, R426). -/

namespace Sys2Proof.Machine

/-- `n` bytes of a bundle from an offset. -/
def bslice (b : List Byte) (o n : Nat) : List Byte := (b.drop o).take n

/-- The number that `n` bytes of a bundle spell. -/
def bnum (b : List Byte) (o n : Nat) : Nat := natLE (bslice b o n)

/-- Reserved bytes of a bundle are zero. -/
def bzero (b : List Byte) (o n : Nat) : Bool := (bslice b o n).all (· = 0)

/-- An image entry of the manifest, by its number (R424). -/
def imageAt (man : List Byte) (i : Nat) : Image :=
  let e := bslice man (16 + 64 * i) 64
  { kind := bnum e 0 1, version := BitVec.ofNat 32 (bnum e 4 4), offset := bnum e 8 4, size := bnum e 12 4
    digest := digestOf (bslice e 16 48) }

/-- The 64 bytes of an image entry (R424). -/
def Image.bytes (i : Image) : List Byte :=
  bytesLE 1 i.kind ++ [0, 0, 0] ++ bytesLE 4 i.version.toNat ++ bytesLE 4 i.offset ++ bytesLE 4 i.size ++ digestBytes i.digest

/-- The manifest of a bundle. -/
def manifestOf (b : List Byte) : List Byte := bslice b (bnum b 12 4) (bnum b 16 4)

/-- The images of a bundle, in manifest order. -/
def imagesOf (man : List Byte) : List Image := (List.range (bnum man 5 1)).map (imageAt man)

/-- The header is as R424 lays it out. -/
def headerOk (b : List Byte) (len : Nat) : Bool :=
  64 ≤ len && bnum b 0 4 = 0x5746564F && bnum b 4 2 = 1 && bzero b 6 2 && bnum b 8 4 = len && bzero b 28 36
    && bnum b 12 4 + bnum b 16 4 ≤ len && bnum b 20 4 + bnum b 24 4 ≤ len && 16 ≤ bnum b 16 4

/-- The manifest is as R424 lays it out, with each kind once. -/
def manifestOk (man : List Byte) (len : Nat) : Bool :=
  let l := imagesOf man
  bnum man 4 1 < 128 && bzero man 6 10 && man.length = 16 + 64 * l.length && l.length = 4
    && [1, 2, 3, 4].all (fun k => l.any fun i => i.kind = k)
    && ((List.range l.length).all fun i => bzero man (16 + 64 * i + 1) 3)
    && l.all fun i => i.offset + i.size ≤ len && (i.kind ≠ 3 || i.size ≤ 4 * 2 ^ 20)

/-- The certificate and the signature of a signature block (R424): the certificate's DER says where it ends, and r and s follow. -/
def sigParts (b : List Byte) : Option (List Byte × List Byte) :=
  match derItem b with
  | some e => if e.whole.length + 96 = b.length then some (e.whole, b.drop e.whole.length) else none
  | none => none

/-- The root hash and both signatures hold (R425 step 2). -/
def signaturesOk (rootHash : BitVec 384) (block man : List Byte) : Bool :=
  let root := Config.rootKey block
  match sigParts block with
  | none => false
  | some (cert, sig) =>
    match certOf cert with
    | none => false
    | some c => sha384 root = rootHash && ecdsaOk root (sha384 c.signed) c.sig && ecdsaOk c.key (sha384 man) sig

/-- The image of a kind. -/
def imageOf (man : List Byte) (k : Nat) : Option Image := (imagesOf man).find? fun i => i.kind = k

/-- A part of a bundle of those read so far. -/
def bundlePart (parts : List (List Byte)) (k : Nat) : List Byte := (parts[k]?).getD []

/-- Offset and length of the part that is read after `parts` (R425): the header, the manifest, the signature block, and the images of
the security engine, of Cobalt, of the tiles and of the Cornis controllers. -/
def nextPart (parts : List (List Byte)) : Nat × Nat :=
  let h := bundlePart parts 0
  match parts.length with
  | 0 => (0, 64)
  | 1 => (bnum h 12 4, bnum h 16 4)
  | 2 => (bnum h 20 4, bnum h 24 4)
  | n + 3 => match imageOf (bundlePart parts 1) (n + 1) with
    | some i => (i.offset, i.size)
    | none => (0, 0)

/-- Why the parts read so far stop a bundle of `len` bytes: what the last of them is checked for, with the reason and the kind of the
failing image, or 0 (R425, R426). -/
def State.partStop (s : State) (parts : List (List Byte)) (len : Nat) : Option (Code × Nat) :=
  let man := bundlePart parts 1
  match parts.length with
  | 1 => if headerOk (bundlePart parts 0) len then none else some (Rs.fwFormat, 0)
  | 3 =>
    if !manifestOk man len || (sigParts (bundlePart parts 2)).isNone then some (Rs.fwFormat, 0)
    else if !signaturesOk s.bu.fuses.rootHash (bundlePart parts 2) man then some (Rs.fwSignature, 0)
    else if bnum man 4 1 < s.sec.svnFused then some (Rs.fwRollback, 0)
    else none
  | n + 4 =>
    if (imageOf man (n + 1)).map (·.digest) = some (sha384 (bundlePart parts (n + 3))) then none else some (Rs.fwDigest, n + 1)
  | _ => none

/-- The first stop among the parts of a bundle still to come, at most as many as the first argument says. -/
def State.stopFrom (s : State) (b : List Byte) (len : Nat) : Nat → List (List Byte) → Option (Code × Nat)
  | 0, _ => none
  | k + 1, parts =>
    let p := nextPart parts
    let parts := parts ++ [bslice b p.1 p.2]
    match s.partStop parts len with
    | some r => some r
    | none => s.stopFrom b len k parts

/-- Why a bundle of `len` bytes would not pass S7: the reason and the kind of the failing image, or 0 (R425, R426). -/
def State.bundleStop (s : State) (b : List Byte) (len : Nat) : Option (Code × Nat) :=
  if len < 64 then some (Rs.fwFormat, 0) else s.stopFrom b len 7 []

/-- The DeviceID secret, from the unique device secret (R432). -/
def State.deviceSecret (s : State) : List Byte := hmac384 (bytesLE 32 s.bu.fuses.secret.toNat) Config.deviceLabel

/-- What the part just read starts or is kept for (R425, R428): the security engine, Cobalt, the tile image, and the Cornis image, with
which the bundle runs. -/
def State.takePart (s : State) : State :=
  let parts := s.bu.fetched
  let man := bundlePart parts 1
  let last := bundlePart parts (parts.length - 1)
  let sec : SecState := match parts.length with
    | 4 => { s.sec with
        seRun := true, manifest := sha384 man
        deviceId := w64 ((sha384 (publicKey (privateKey s.deviceSecret))).toNat % 2 ^ 64) }
    | 5 => { s.sec with cobaltRun := true }
    | 6 => { s.sec with tileImage := last }
    | 7 => { s.sec with
        cornisImage := last, bundleOk := true
        bundleVersion := BitVec.ofNat 32 (bnum man 0 4)
        head := bslice man 0 16
        svnRunning := bnum man 4 1
        svnMeasured := s.sec.svnFused }
    | _ => s.sec
  { s with sec := { sec with images := (imagesOf man).filter fun i => i.kind + 3 ≤ parts.length } }

/-- Ask the host for the next part of the bundle (R425). Address bits [11:0] are ignored (R417). -/
def State.fetchPart (s : State) : State :=
  let p := nextPart s.bu.fetched
  s.askHost (s.bu.fwAddr.toNat / 4096 * 4096 + p.1) p.2 .bundle

/-- The part of the bundle that S7 has read, or what became of the read (R425, R426). `COUNT` is the KiB fetched. -/
def State.bundleCame (s : State) (len : Nat) (d : HostData) : State :=
  if !s.bu.busy || s.bu.running ≠ 7 || s.bu.out.isSome then s
  else
    match d with
    | .failed => s.refuseBundle Rs.bundleAbort 0
    | .poisoned => s.refuseBundle Rs.bundleAbort 0
    | .good b =>
      if b.length < len then s.refuseBundle Rs.bundleAbort 0
      else
        let s : State := { s with bu := { s.bu with fetched := s.bu.fetched ++ [b.take len] } }
        match s.partStop s.bu.fetched s.bu.fwLen.toNat with
        | some (r, k) => s.refuseBundle r k
        | none =>
          let s := s.takePart
          if 7 ≤ s.bu.fetched.length then { s with bu := { s.bu with out := some { step := 7, outc := {}, count := s.bu.kib } } }
          else s.fetchPart

end Sys2Proof.Machine
end

