-- ==== Sys2Proof/Machine/BringUp.lean ====
section
/-! DEFINITION. Sys2Proof/Machine/BringUp.lean: power-up (R437, R496), the bring-up steps and their ends (R414 to R430), the
package reset (R431), and the loss of the reference, of Brass and of the input (R25, R495, R498). -/

namespace Sys2Proof.Machine

/-! ### Power-up (R437, R496) -/

/-- A step's result in `BU_RES_s`, and BRINGUP_STEP (R419, R436). -/
def State.stepResult (s : State) (k : Nat) (o : Outc) (count us : Nat) : State :=
  ({ s with bu := { s.bu with results := kvPut s.bu.results k (o.status, o.reason, count % 65536, us) } } : State).raiseP
    Ev.bringupStep [w64 k, w64 o.status.toNat, w64 o.reason.toNat, w64 (count % 65536)]

/-- S0: Brass runs and the window opens (R417, R496). -/
def State.enterS0 (s : State) : State := ({ s with bu := { s.bu with s0 := true } } : State).stepResult 0 {} 0 0

/-- POWER_STAGE_START (R437): the input has held above 44 V for 10 ms. -/
def execPowerStageStart (s : State) : Host.Outcome State Fault Refusal :=
  .next (if s.bu.powered then s
    else
      let s := s.advanceTo (s.time.now + ms 10)
      { s with bu := { s.bu with powered := true } })

/-- POWER_GOOD (R437, R496): S0 begins, or waits for the reference. -/
def execPowerGood (s : State) : Host.Outcome State Fault Refusal :=
  .next (if !s.brassRuns || s.bu.good then s
    else
      let s : State := { s with bu := { s.bu with good := true } }
      if s.bu.refOk then s.enterS0 else s)

/-! ### Steps in general (R418, R419) -/

/-- The running step will end with an outcome. -/
def State.stepOut (s : State) (o : Outc) (count : Nat) : State :=
  { s with bu := { s.bu with out := some { step := s.bu.running, outc := o, count := count } } }

/-- OK, or PARTIAL when something was removed (R419). -/
def State.stepDone (s : State) (removed count : Nat) : State :=
  s.stepOut { status := if removed = 0 then St.ok else St.partial } count

/-- Reason that `BU_GO` is refused with, in the order of R418's table. -/
def BringUp.refuses (b : BringUp) (k : Nat) : Option Code :=
  if k ≠ b.done + 1 || k = 0 || 13 < k then some Rs.outOfOrder
  else if b.busy then some Rs.stepBusy
  else if b.failed then some Rs.outOfOrder
  else none

/-- A write of step `k` to `BU_GO` (R418). Once the reference has been lost or the package has halted, the dies of a step after
S1 do not run, and it ends ABORTED. -/
def State.bringStep (s : State) (k : Nat) (f : State → State) : State :=
  if !s.barOpen then s
  else match s.bu.refuses k with
    | some r => { s with bu := { s.bu with refusal := r } }
    | none =>
      let s : State := { s with bu := { s.bu with
          go := w64 k, busy := true, running := k, startAt := s.time.now, endAt := none, out := none } }
      if k ≠ 1 && s.bu.refLost then s.stepOut (outc St.aborted Rs.refLock) 0
      else if k ≠ 1 && s.therm.halted then s.stepOut (outc St.aborted Rs.noTiles) 0
      else f s

/-- Tiles of a stack. -/
def stackTiles (st : Nat) : List TileRef := (List.range 64).map (64 * st + ·)

/-- A stack of bring-up that is still to serve: neither removed nor absent. -/
def State.stackAlive (s : State) (st : Nat) : Bool := !(s.stackState st).isOut

/-- Stacks of a list that are alive. -/
def State.aliveOf (s : State) (l : List Nat) : List Nat := (List.range 24).filter fun st => l.contains st && s.stackAlive st

/-- A stack leaves bring-up with its tiles: REMOVED, or ABSENT when fused off (R421, R422). -/
def State.dropStack (s : State) (st : Nat) (new : UnitSt) (cause : Nat) : State :=
  ((stackTiles st).foldl (fun (s : State) t =>
    if (s.tile t).unit = .absent then s else s.tileState t new cause) s).setStackState st new cause

/-- The end of a step that needs a tile or a stack in service (R421). -/
def State.needAny (s : State) (any : Bool) (removed count : Nat) : State :=
  if any then s.stepDone removed count else s.stepOut (outc St.aborted Rs.noTiles) count

/-- A start-up test of a tile has failed: REMOVED, and shown in `BU_TESTED_s` (R422). -/
def State.failTile (s : State) (t : TileRef) : State :=
  let s : State := { s with bu := { s.bu with testedTiles := s.bu.testedTiles ++ [t] } }
  s.tileState t .removed 2

/-- A tile takes READY or DEGRADED (R70). -/
def State.gradeTile (s : State) (t : TileRef) : State :=
  s.tileState t (if ({ s.tile t with unit := .ready } : Tile).whole then .ready else .degraded) 0

/-- Every unit in service takes READY or DEGRADED anew: tiles, stacks, the package (R70, R430). -/
def State.gradeAll (s : State) : State :=
  let s := s.tilesUp.foldl (fun (s : State) t => s.gradeTile t) s
  let s := ((List.range 24).filter s.stackUp).foldl (fun (s : State) st => s.setStackState st (s.stackLevel st) 0) s
  s.setPackageState s.packageLevel 0

/-! ### S1 to S5 (R421) -/

/-- Stack of a die that checks its clocks, by the numbers of BRINGUP_S1: a head die or a layer. -/
def dieStack (d : Nat) : Option Nat := if d < 24 then some d else if d < 408 then some ((d - 24) / 16) else none

/-- Stacks with a failed clock check, in a list of dies. -/
def State.badClocks (s : State) (dies : List Nat) : List Nat := s.aliveOf (dies.filterMap dieStack)

/-- S1: the clocks, the seed of Invar, the dies' clock checks, and the guest dies found. A stack leaves with any of its dies; `COUNT` is
the dies whose check failed (R421). -/
def State.stepS1 (s : State) (pllOk : Bool) (badDies guests : List Nat) : State :=
  if !s.bu.refOk || !pllOk then s.stepOut (outc St.aborted Rs.refLock) 0
  else if !s.rearmed then s.stepOut (outc St.rejected Rs.notRearmed) 0
  else
    let s : State := { s with
      time := { s.time with invar := s.bu.seed }
      therm := { s.therm with diodes := [] }
      tap := { s.tap with driving := false }
      guest0 := { s.guest0 with state := if guests.contains 0 then .reset else .absent }
      guest1 := { s.guest1 with state := if guests.contains 1 then .reset else .absent } }
    let bad := s.badClocks badDies
    (bad.foldl (fun (s : State) st => s.dropStack st .removed 2) s).stepDone bad.length badDies.dedup.length

/-- BRINGUP_S1 (R421, R474). -/
def execBringupS1 (pllOk : Bool) (badDies guests : List Nat) (s : State) : Host.Outcome State Fault Refusal :=
  .next (s.bringStep 1 fun s => s.stepS1 pllOk badDies guests)

/-- S2: package links and stack-mesh links. -/
def State.stepS2 (s : State) (badStacks badLinks : List Nat) : State :=
  let bad := s.aliveOf badStacks
  let links := (List.range 38).filter fun k => badLinks.contains k
  let s := bad.foldl (fun (s : State) st => s.dropStack st .removed 2) s
  let s : State := { s with units := { s.units with meshOut := links.foldl (fun l k => kvPut l k 2) s.units.meshOut } }
  let s := if links.isEmpty then s else s.bumpPkg
  let n := bad.length + links.length
  s.needAny ((List.range 24).any s.stackAlive) n n

/-- BRINGUP_S2 (R421). -/
def execBringupS2 (badStacks badLinks : List Nat) (s : State) : Host.Outcome State Fault Refusal :=
  .next (s.bringStep 2 fun s => s.stepS2 badStacks badLinks)

/-- A channel is mapped out (R297). -/
def State.mapOut (s : State) (t : TileRef) (l cause failed : Nat) : State :=
  (s.modChannel t l fun c => { c with
    state := 1, cause := BitVec.ofNat 4 cause, failed := BitVec.ofNat 7 failed, spare68 := 0x7F, spare69 := 0x7F }).bumpTile t

/-- Distinct connections of a channel that a list names. -/
def connsOf (l : List (TileRef × Nat × Nat)) (t : TileRef) (layer : Nat) : List Nat :=
  (List.range 70).filter fun c => l.contains (t, layer, c)

/-- The fuse map's removals (R421, R422): stacks, tiles, channels, Pewter units and lane groups are ABSENT or out, with
`CAUSE` 1; a head die whose block fails its check takes its stack away. -/
def State.fuseOff (s : State) (f : FuseMap) : State :=
  let s := f.stacksOff.foldl (fun (s : State) st => if st < 24 then s.dropStack st .absent 1 else s) s
  let s := f.tilesOff.foldl (fun (s : State) t => if tileOk t then s.tileState t .absent 1 else s) s
  let s := (s.aliveOf f.badStacks).foldl (fun (s : State) st => s.dropStack st .removed 2) s
  let s := f.channelsOff.foldl (fun (s : State) e =>
    if tileOk e.1 && e.2 < 16 then s.mapOut e.1 e.2 1 (connsOf f.connsFailed e.1 e.2).length else s) s
  let s := f.banksOff.foldl (fun (s : State) e =>
    if tileOk e.1 && e.2 < 256 then
      (s.modTile e.1 fun x => { x with pewter := { x.pewter with out := kvPut x.pewter.out e.2 1 } }).bumpTile e.1
    else s) s
  let groups := ((List.range 16).zip s.cornis.groups).map fun e =>
    if f.groupsOff.contains e.1 then { e.2 with state := .out, cause := 1 } else e.2
  let gone := ((List.range 16).filter f.groupsOff.contains).map groupStack
  gone.foldl (fun (s : State) st => s.bumpStack st) { s with cornis := { s.cornis with groups := groups } }

/-- Units a fuse map turns off, each once. -/
def fusedCount (f : FuseMap) : Nat :=
  f.stacksOff.dedup.length + (f.tilesOff.dedup.filter fun t => !f.stacksOff.contains (t / 64)).length + f.channelsOff.dedup.length
    + f.banksOff.dedup.length + f.groupsOff.dedup.length

/-- Tiles that `BU_FUSED_s` shows: fused off, alone or with their stack. -/
def fuseMapTiles (f : FuseMap) : List TileRef :=
  (List.range 1536).filter fun t => f.tilesOff.contains t || f.stacksOff.contains (t / 64)

/-- S3: the fuse map. Fuses blown in service count with those of the map (R432, R435). -/
def State.stepS3 (s : State) (f : FuseMap) : State :=
  if !f.brassOk then s.stepOut (outc St.aborted Rs.fuseCheck) 0
  else
    let lost := (s.aliveOf f.badStacks).length
    let s := s.fuseOff f
    let rails := ((List.range 24).zip s.power.rails).map fun e =>
      { e.2 with minMv := (f.minMv[e.1]?).getD 0, maxMv := (f.maxMv[e.1]?).getD 0 }
    let s : State := { s with
      bu := { s.bu with fuses := f, fusedTiles := fuseMapTiles f }
      sec := { s.sec with svnFused := max f.svnMin s.sec.svnBlown }
      power := { s.power with rails := rails } }
    s.stepDone (fusedCount f + lost) (fusedCount f)

/-- BRINGUP_S3 (R421). -/
def execBringupS3 (f : FuseMap) (s : State) : Host.Outcome State Fault Refusal :=
  .next (s.bringStep 3 fun s => s.stepS3 f)

/-- The result of one channel's training (R297): its failed connections, ascending. -/
def State.trainChannel (s : State) (t : TileRef) (l : Nat) (conns : List Nat) : State :=
  match conns with
  | [] => s
  | [a] => s.modChannel t l fun c => { c with spare68 := BitVec.ofNat 7 a, failed := 1 }
  | [a, b] => s.modChannel t l fun c => { c with spare68 := BitVec.ofNat 7 a, spare69 := BitVec.ofNat 7 b, failed := 2 }
  | _ => s.mapOut t l 2 conns.length

/-- S4: every channel with a connection that failed, in training or in the fuse map, takes spares or is mapped out. -/
def State.stepS4 (s : State) (fails : List (TileRef × Nat × List Nat)) : State :=
  let all := (fails.flatMap fun e => e.2.2.map fun c => (e.1, e.2.1, c)) ++ s.bu.fuses.connsFailed
  let chans := ((all.map fun e => (e.1, e.2.1)).dedup).filter fun e =>
    tileOk e.1 && e.2 < 16 && s.stackAlive (e.1 / 64) && ((s.tile e.1).channel e.2).state = 0
  let s := chans.foldl (fun (s : State) e => s.trainChannel e.1 e.2 (connsOf all e.1 e.2)) s
  let n := (chans.filter fun e => ((s.tile e.1).channel e.2).state = 1).length
  s.stepDone n n

/-- BRINGUP_S4 (R297). -/
def execBringupS4 (fails : List (TileRef × Nat × List Nat)) (s : State) : Host.Outcome State Fault Refusal :=
  .next (s.bringStep 4 fun s => s.stepS4 fails)

/-- Fuse-backed repairs of a tile: what fuses blown in service keep, and the fuse map's (R300). -/
def State.loadRepairs (s : State) (l : List (TileRef × Nat × Nat × Nat × Bool)) : State :=
  l.foldl (fun (s : State) e =>
    let r := (e.2.1, e.2.2.1, e.2.2.2.1, e.2.2.2.2, true)
    s.modTile e.1 fun x => if x.mem.repairs.contains r then x else { x with mem := { x.mem with repairs := x.mem.repairs ++ [r] } }) s

/-- Spare rows used in a bank. -/
def Tile.rowsUsed (x : Tile) (l b : Nat) : Nat :=
  (x.mem.repairs.filter fun r => r.1 = l && r.2.1 = b && !r.2.2.2.1).length

/-- The failing rows of one bank: each takes a spare row, or the bank's channel is mapped out (R300, R421). Rows repaired. -/
def State.repairBank (s : State) (t : TileRef) (l b : Nat) (rows : List Nat) : State × Nat :=
  let x := s.tile t
  let rows := rows.filter fun r => !x.mem.repairs.any fun k => k.1 = l && k.2.1 = b && k.2.2.1 = r && !k.2.2.2.1
  if 32 < x.rowsUsed l b + rows.length then (s.mapOut t l 2 (x.channel l).failed.toNat, 0)
  else (s.modTile t fun x => { x with mem := { x.mem with
    repairs := x.mem.repairs ++ rows.map fun r => (l, b, r, false, false) } }, rows.length)

/-- S5: repairs load, the rows found failing are repaired, and every page is zero under the defaults of R280. -/
def State.stepS5 (s : State) (badRows : List (TileRef × Nat × Nat × Nat)) : State :=
  let s := s.loadRepairs (s.bu.fuses.repairs.filter fun e => tileOk e.1)
  let banks := ((badRows.map fun e => (e.1, e.2.1, e.2.2.1)).dedup).filter fun e =>
    tileOk e.1 && e.2.1 < 16 && e.2.2 < 16 && s.stackAlive (e.1 / 64) && ((s.tile e.1).channel e.2.1).state = 0
  let r := banks.foldl (fun (acc : State × Nat) e =>
    if ((acc.1.tile e.1).channel e.2.1).state = 0 then
      let rows := (badRows.filter fun k => k.1 = e.1 && k.2.1 = e.2.1 && k.2.2.1 = e.2.2).map fun k => k.2.2.2
      let q := acc.1.repairBank e.1 e.2.1 e.2.2 rows.dedup
      (q.1, acc.2 + q.2)
    else acc) (s, 0)
  let gone := (banks.filter fun e => ((r.1.tile e.1).channel e.2.1).state = 1).length
  let s : State := { r.1 with mem := [] }
  let s : State := { s with tiles := s.tiles.map fun e => (e.1, { e.2 with mem := { e.2.mem with
    regions := [], poison := [], marched := [], raw := [], narrow := [] } }) }
  s.stepDone gone r.2

/-- BRINGUP_S5 (R300, R421): the operand lists failing rows by tile, layer, bank and row. -/
def execBringupS5 (badRows : List (TileRef × Nat × Nat × Nat)) (s : State) : Host.Outcome State Fault Refusal :=
  .next (s.bringStep 5 fun s => s.stepS5 badRows)

/-! ### S6 to S9 -/

/-- Layers of a tile mapped out, which fix its layout (R298). -/
def Tile.mappedOut (x : Tile) : List Nat := (List.range 16).filter fun l => (x.channel l).state = 1

/-- A tile at S6: its layout is fixed; a tile still STARTING is removed when it has no channel, else READY or DEGRADED (R298,
R422). -/
def State.reconcileTile (s : State) (t : TileRef) : State :=
  let out := (s.tile t).mappedOut
  let s := if out.isEmpty then s else s.modTile t fun x => { x with mem := { x.mem with layoutOut := out } }
  if (s.tile t).unit ≠ .starting then s
  else if out.length = 16 then s.failTile t
  else s.gradeTile t

/-- S6: reconciliation (R422). `COUNT` is the tiles it leaves other than READY (the worked example of the chapter). -/
def State.stepS6 (s : State) : State :=
  let open_ := (List.range 1536).filter fun t => s.stackAlive (t / 64) && (s.tile t).unit = .starting
  let s := ((List.range 1536).filter fun t => s.stackAlive (t / 64)).foldl (fun (s : State) t => s.reconcileTile t) s
  let n := (open_.filter fun t => (s.tile t).unit ≠ .ready).length
  let sts := (List.range 24).filter s.stackAlive
  let s := sts.foldl (fun (s : State) st => s.setStackState st (s.stackLevel st) 0) s
  let s := s.setPackageState s.packageLevel 0
  s.needAny (!s.tilesUp.isEmpty) n n

/-- BRINGUP_S6 (R422). -/
def execBringupS6 (s : State) : Host.Outcome State Fault Refusal := .next (s.bringStep 6 State.stepS6)

/-- S7: Brass asks the host for the bundle, part by part; what comes settles the step (R425). A length that holds no header is refused
(R426). -/
def State.stepS7 (s : State) : State :=
  let s : State := { s with bu := { s.bu with fetched := [] } }
  if !s.hostReach then s.refuseBundle Rs.bundleAbort 0
  else if s.bu.fwLen.toNat < 64 then s.refuseBundle Rs.fwFormat 0
  else s.fetchPart

/-- BRINGUP_S7 (R425). -/
def execBringupS7 (s : State) : Host.Outcome State Fault Refusal := .next (s.bringStep 7 State.stepS7)

/-- Tiles of a list in service, each once. -/
def State.upOf (s : State) (l : List TileRef) : List TileRef := s.tilesUp.filter fun t => l.contains t

/-- S8: the tile image in every code page; tiles that mismatch twice are removed (R427). -/
def State.stepS8 (s : State) (mismatch : List TileRef) : State :=
  let s := s.tilesUp.foldl (fun (s : State) t => s.writeCode t) s
  let bad := s.upOf mismatch
  let s := bad.foldl (fun (s : State) t => s.failTile t) s
  let s := s.gradeAll
  s.needAny (!s.tilesUp.isEmpty) bad.length bad.length

/-- BRINGUP_S8 (R427). -/
def execBringupS8 (mismatch : List TileRef) (s : State) : Host.Outcome State Fault Refusal :=
  .next (s.bringStep 8 fun s => s.stepS8 mismatch)

/-- S9: what fails its known-answer run (R429). -/
def State.stepS9 (s : State) (tiles : List TileRef) (units channels : List (TileRef × Nat)) (groups : List Nat) : State :=
  let bad := s.upOf tiles
  let us := units.dedup.filter fun e => (s.upOf [e.1]).contains e.1 && e.2 < 256 && (s.tile e.1).bankUp e.2
  let cs := channels.dedup.filter fun e => tileOk e.1 && e.2 < 16 && s.stackUp (e.1 / 64) && ((s.tile e.1).channel e.2).state = 0
  let gs := (List.range 16).filter fun g => groups.contains g && (s.cornis.groups[g]?).map (·.state) ≠ some .out
  let s := bad.foldl (fun (s : State) t => s.failTile t) s
  let s := us.foldl (fun (s : State) e =>
    (s.modTile e.1 fun x => { x with pewter := { x.pewter with out := kvPut x.pewter.out e.2 2 } }).bumpTile e.1) s
  let s := cs.foldl (fun (s : State) e => (s.modChannel e.1 e.2 fun c => { c with state := 2, cause := 2 }).bumpTile e.1) s
  let s := gs.foldl (fun (s : State) g =>
    (({ s with cornis := { s.cornis with groups := s.cornis.groups.modify g fun x => { x with state := .out, cause := 2 } } } :
      State)).bumpStack (groupStack g)) s
  let s := s.gradeAll
  let n := bad.length + us.length + cs.length + gs.length
  s.needAny (!s.tilesUp.isEmpty) n n

/-- BRINGUP_S9 (R429). -/
def execBringupS9 (tiles : List TileRef) (units channels : List (TileRef × Nat)) (groups : List Nat) (s : State) :
    Host.Outcome State Fault Refusal :=
  .next (s.bringStep 9 fun s => s.stepS9 tiles units channels groups)

/-! ### S10 to S13 -/

/-- The fixed assignment of R309: as the default, without port 4. -/
def State.fallbackAssignment (s : State) : State :=
  let groups := ((List.range 16).zip s.cornis.groups).map fun e =>
    let g := e.1
    if g = 8 || g = 9 then { e.2 with role := 2, port := 0 }
    else if g = 10 || g = 11 then { e.2 with role := 0, port := 0 }
    else { e.2 with role := 1, port := BitVec.ofNat 3 (if g < 8 then g / 2 else g / 2 - 1) }
  let ports := s.cornis.ports.map fun p => { p with width := 1 }
  ({ s with cornis := { s.cornis with groups := groups, ports := ports, fallback := true } } : State).raiseP Ev.cnsFallback []

/-- The digest of the Cornis image holds where the head dies check it (R425). -/
def SecState.linkImageOk (x : SecState) : Bool :=
  match x.images.find? fun i => i.kind = 4 with
  | some i => sha384 x.cornisImage = i.digest
  | none => true

/-- Lane groups that are out. -/
def State.lanesOut (s : State) : List Nat := (List.range 16).filter fun g => (s.cornis.groups[g]?).map (·.state) = some .out

/-- S10: the link controllers fetch their image and verify it, the package number is copied, and the ports of the assignment train
(R309, R311, R421, R425). DESIGN CHOICE, log entry 48: controllers whose image does not verify train no port. -/
def State.stepS10 (s : State) : State :=
  if !s.bu.pkgValid then s.stepOut (outc St.rejected Rs.noPackageNum) 0
  else
    let s : State := { s with
      cornis := { s.cornis with
        self := s.bu.pkg.toNat, trained := true
        image := if s.sec.linkImageOk then s.sec.cornisImage else [] }
      bu := { s.bu with pkgLocked := true, outBefore := s.lanesOut } }
    let agree := (List.range 9).all s.widthAgrees
    let s := if s.cornis.valid && agree then s else ((List.range 9).foldl (fun (s : State) p => s.usePort p) s).fallbackAssignment
    (List.range 9).foldl (fun (s : State) p => if s.sec.linkImageOk && s.trainable p then s.startTraining p false none else s) s

/-- BRINGUP_S10 (R309, R311). -/
def execBringupS10 (s : State) : Host.Outcome State Fault Refusal := .next (s.bringStep 10 State.stepS10)

/-- S11: the member waits for a hello that it accepts (R352); one that has come already is heard now. -/
def execBringupS11 (s : State) : Host.Outcome State Fault Refusal :=
  .next (s.bringStep 11 fun s =>
    let early := s.twin.early
    let s := ({ s with twin := { s.twin with waiting := true, early := none } } : State).sendHello false
    match early with
    | some h => s.hearHello h
    | none => s)

/-- S12: the package waits for its lock (R31, R421). -/
def execBringupS12 (s : State) : Host.Outcome State Fault Refusal := .next (s.bringStep 12 id)

/-- The values that firmware writes in a tile at S13 (R128, R276, R430, R454). -/
def Tile.firmware (x : Tile) (self : Nat) (t : TileRef) : Tile :=
  { x with
    cplBase := self * 2 ^ 46 + x.reservedAt t + 4 * 2 ^ 20
    droopThresh := BitVec.ofNat 8 Config.droopMv
    pewter := { x.pewter with hint := 0x888 } }

/-- A rail at the value firmware sets from its margin reading, within its fused limits (R450). -/
def Rail.firmware (r : Rail) (st : Nat) : Rail := { r with mv := max r.minMv (min r.maxMv (Config.railMv st)) }

/-- The values that firmware writes at S13 (R9, R430). -/
def State.firmware (s : State) : State :=
  let ts := (List.range 1536).filter fun t => s.stackUp (t / 64) && (s.tile t).unit ≠ .absent
  let s := ts.foldl (fun (s : State) t => s.modTile t fun x => x.firmware s.self t) s
  let rails := ((List.range 24).zip s.power.rails).map fun e => e.2.firmware e.1
  { s with power := { s.power with fillMaxMw := Config.fillMw, rails := rails } }

/-- S13: readiness (R430, R352). -/
def State.stepS13 (s : State) : State :=
  let s := s.firmware.gradeAll
  let s := if s.twin.state = .unpaired then s.setPair .solo s.twin.gen Rs.twinAbsent else s
  let s : State := { s with
    host := { s.host with ringsOpen := true }
    bu := { s.bu with ready := true } }
  let n := s.tilesUp.length
  (s.raiseP Ev.deviceReady [w64 n, w64 s.sec.bundleVersion.toNat]).stepDone 0 n

/-- BRINGUP_S13 (R430). -/
def execBringupS13 (s : State) : Host.Outcome State Fault Refusal := .next (s.bringStep 13 State.stepS13)

/-! ### The end of a step (R419, R421) -/

/-- Ports that are up. -/
def State.portsUp (s : State) : Nat := ((List.range 9).filter fun p => (s.port p).up).length

/-- The end of S10: no port trains any more. Ports that the assignment names and that are not up, and groups that its training has
removed, make it PARTIAL (R419). From here the package takes itself as time root (R29). -/
def State.endS10 (s : State) : Option StepOut × State :=
  if (List.range 9).any fun p => (s.port p).state = .training then (none, s)
  else
    let missed := (List.range 9).any fun p => !(s.portGroups p).isEmpty && !(s.port p).up
    let lost := s.lanesOut.any fun g => !s.bu.outBefore.contains g
    let o : Outc := { status := if missed || lost then St.partial else St.ok }
    (some { step := 10, outc := o, count := s.portsUp }
      , { s with time := { s.time with treeOn := true, root := s.self, hops := 0, parent := none, locked := true } })

/-- How the running step ends now, if it can, with what its end changes. -/
def State.stepEnd (s : State) : Option StepOut × State :=
  match s.bu.out with
  | some o => (some o, s)
  | none =>
    let k := s.bu.running
    if k = 10 then s.endS10
    else if k = 11 then
      if s.twin.waiting then (none, s)
      else (some { step := 11, outc := {}, count := if s.twin.state = .paired then 1 else 0 }, s)
    else if k = 12 then
      if s.time.locked then (some { step := 12, outc := {}, count := s.time.hops }, s) else (none, s)
    else (none, s)

/-- Write a step's outcome and end it (R419). -/
def State.closeStep (s : State) (o : StepOut) : State :=
  let k := s.bu.running
  let good := o.outc.status = St.ok || o.outc.status = St.partial
  let s := s.stepResult k o.outc o.count (usBetween s.bu.startAt s.time.now)
  { s with bu := { s.bu with
      done := if good then k else s.bu.done
      failed := s.bu.failed || o.outc.status = St.aborted
      busy := false, endAt := some s.time.now, out := none } }

/-- What a step has come to in its `COUNT` when it is ended from outside: by its limit, or with its dies (R421). -/
def State.countSoFar (s : State) : Nat :=
  match s.bu.out with
  | some o => o.count
  | none => if s.bu.running = 7 then s.bu.kib else if s.bu.running = 10 then s.portsUp else 0

/-- BRINGUP_STEP_END (R419): a step whose work is done ends. One whose dies have stopped under it ends ABORTED. -/
def execBringupStepEnd (s : State) : Host.Outcome State Fault Refusal :=
  .next (if !s.brassRuns || !s.bu.busy || s.bu.resetting then s
    else if s.bu.out.isNone && s.bu.refLost then s.closeStep { step := s.bu.running, outc := outc St.aborted Rs.refLock, count := s.countSoFar }
    else if s.bu.out.isNone && s.therm.halted then s.closeStep { step := s.bu.running, outc := outc St.aborted Rs.noTiles, count := s.countSoFar }
    else match s.stepEnd with
      | (some o, s') => s'.closeStep o
      | (none, _) => s)

/-- Limit of a step, ms (R421). -/
def stepLimit (k : Nat) : Nat := ([0, 10, 50, 5, 20, 500, 1, 2000, 100, 2000, 500, 2000, 5000, 10][k]?).getD 0

/-- Reason of a step's fatal condition (R421); zero where the step has none. -/
def stepReason (k : Nat) : Code :=
  if k = 1 then Rs.refLock else if k = 3 then Rs.fuseCheck
  else if k = 2 || k = 6 || k = 8 || k = 9 then Rs.noTiles else 0

/-- How a step that has reached its limit ends (R419, R421): S11 and S12 are PARTIAL, every other is ABORTED. -/
def State.limitOut (s : State) : StepOut :=
  let k := s.bu.running
  if k = 11 || k = 12 then
    match s.stepEnd.1 with
    | some o => o
    | none =>
      if k = 11 then { step := 11, outc := outc St.partial Rs.twinAbsent, count := 0 }
      else { step := 12, outc := outc St.partial Rs.notLocked, count := s.time.hops }
  else { step := k, outc := outc St.aborted (stepReason k), count := s.countSoFar }

/-- BRINGUP_STEP_LIMIT (R419, R421). A bundle that S7 still waits for is given up. -/
def execBringupStepLimit (s : State) : Host.Outcome State Fault Refusal :=
  .next (if !s.brassRuns || !s.bu.busy || s.bu.resetting then s
    else
      let s := s.advanceTo (s.bu.startAt + ms (stepLimit s.bu.running))
      let o := s.limitOut
      let s : State := { s with
        host := { s.host with reads := s.host.reads.filter fun r => r.use ≠ .bundle }
        twin := { s.twin with waiting := false } }
      s.closeStep o)

/-! ### Package reset (R431) -/

/-- The host-interface block after a package reset: what the endpoint holds is kept. -/
def HostState.packageReset (h : HostState) : HostState :=
  { linkGen := h.linkGen, linkWidth := h.linkWidth, linkUp := h.linkUp, configReady := h.configReady, perst := h.perst
    barsOn := h.barsOn, busMaster := h.busMaster, msixOn := h.msixOn, resetAt := h.resetAt, nextRead := h.nextRead
    msix := h.msix, pba := h.pba }

/-- The dies that reached shutdown, with the views that R474 asks of them. -/
def ThermState.packageReset (x : ThermState) : ThermState :=
  { tripHw := x.tripHw
    diodes := (x.diodes.filter fun e => e.2.tripped).map fun e => (e.1, { temp := e.2.temp, raw := e.2.raw, tripped := true }) }

/-- The package as its reset leaves it (R417, R431). Elapsed time, pins, and what fuses hold go on. -/
def State.afterReset (s : State) : State :=
  { pending := s.pending, free := s.free, out := s.out, tap := s.tap
    time := { now := s.time.now }
    tiles := s.fusedTiles
    host := s.host.packageReset
    bu := { powered := true, good := true, s0 := true, refOk := s.bu.refOk, refAt := s.bu.refAt
            busy := true, resetting := true, startAt := s.time.now
            pkg := s.bu.pkg, pkgValid := s.bu.pkgValid, pkgLocked := s.bu.pkgLocked
            fwAddr := s.bu.fwAddr, fwLen := s.bu.fwLen, seed := s.bu.seed }
    sec := { svnBlown := s.sec.svnBlown }
    therm := s.therm.packageReset }

/-- PACKAGE_RESET (R417, R420, R431): a write to `BU_RESET`; a key other than 0x5A is ignored, and reads back (R8). -/
def execPackageReset (w : Word) (s : State) : Host.Outcome State Fault Refusal :=
  .next (if !s.barOpen then s
    else if bitsOf w 7 0 = 0x5A then s.afterReset
    else { s with bu := { s.bu with resetKey := w64 (bitsOf w 7 0) } })

/-- PACKAGE_RESET_END (R431): the dies are reset. -/
def execPackageResetEnd (s : State) : Host.Outcome State Fault Refusal :=
  .next (if !s.brassRuns || !s.bu.resetting then s
    else ({ s with bu := { s.bu with busy := false, resetting := false, endAt := some s.time.now } } : State).stepResult 0 {} 0
      (usBetween s.bu.startAt s.time.now))

/-! ### Loss of the reference, of Brass, of the input (R25, R495, R498) -/

/-- Every tile, stack and the package enter HALTED, and the ports go down. -/
def State.stopDies (s : State) : State :=
  let s := ((List.range 24).foldl (fun (s : State) st => s.haltStack st) s).setPackageState .halted 3
  (List.range 9).foldl (fun (s : State) p => s.portDown p 4) s

/-- REFERENCE_LOSS (R495): 2 µs without a good reference. -/
def execReferenceLoss (s : State) : Host.Outcome State Fault Refusal :=
  .next (if !s.bu.refOk then s
    else if !s.brassRuns || !s.bu.s0 then { s with bu := { s.bu with refOk := false } }
    else
      let last := s.time.invar
      let s := (s.advanceTo (s.time.now + us 2)).stopDies
      let s : State := { s with
        bu := { s.bu with refOk := false, refLost := true } }
      let s := s.stopGuests.raiseP Ev.refclkLost [last]
      if !Config.separateRef && s.host.linkUp then s.endpointReset 3 else s)

/-- REFERENCE_VALID (R495, R496): S0 begins if it waited for the reference. -/
def execReferenceValid (s : State) : Host.Outcome State Fault Refusal :=
  .next (if s.bu.refOk then s
    else
      let s : State := { s with bu := { s.bu with refOk := true, refAt := s.time.now } }
      if s.brassRuns && s.bu.good && !s.bu.s0 then s.enterS0 else s)

/-- BRASS_FAULT (R25): Brass stops, and every die with it. -/
def execBrassFault (s : State) : Host.Outcome State Fault Refusal :=
  .next { s with bu := { s.bu with brassOk := false } }

/-- THERMTRIP_RELEASE (R498): the input is below 20 V, so no stage runs and the latch, which that input powers, is released. -/
def execThermtripRelease (s : State) : Host.Outcome State Fault Refusal :=
  .next (
    let s := if s.bu.powered then s.powerOff else s
    { s with therm := { s.therm with trip := false, tripHw := false } })

end Sys2Proof.Machine
end

