-- ==== Sys2Proof/Machine/Trust.lean ====
section
/-! DEFINITION. Sys2Proof/Machine/Trust.lean: the DOE mailbox and SPDM (R432 to R434) and the firmware commands (R435). The layouts of
DOE objects and SPDM messages are those of their own specifications, which R376 and R433 name. -/

namespace Sys2Proof.Machine

/-! ### Measurements (R434) -/

/-- Digest of the running image of a kind. -/
def SecState.imageDigest (x : SecState) (k : Nat) : List Byte :=
  digestBytes (((x.images.find? fun i => i.kind = k).map (·.digest)).getD 0)

/-- The public fuse values, in the order R434 names them. -/
def State.publicFuses (s : State) : List Byte :=
  digestBytes s.bu.fuses.rootHash ++ bytesLE 1 s.sec.svnFused ++ bytesLE 16 orderCode.toNat ++ [0xB0]

/-- DMTF type and value of a measurement, 1 to 8 (R434). -/
def State.measured (s : State) (i : Nat) : Nat × List Byte :=
  if i = 1 then (0x00, digestBytes Config.romDigest)
  else if i = 2 then (0x02, digestBytes (sha384 s.publicFuses))
  else if i = 3 then (0x04, digestBytes s.sec.manifest)
  else if i ≤ 7 then (0x01, s.sec.imageDigest (i - 3))
  else (0x87, bytesLE 1 s.sec.svnMeasured ++ bytesLE 1 s.sec.svnRunning)

/-- A measurement block in the DMTF format (R434). -/
def State.measureBlock (s : State) (i : Nat) : List Byte :=
  let m := s.measured i
  bytesLE 1 i ++ [1] ++ bytesLE 2 (3 + m.2.length) ++ bytesLE 1 m.1 ++ bytesLE 2 m.2.length ++ m.2

/-- All eight measurement blocks. -/
def State.measureBlocks (s : State) : List Byte := (List.range 8).flatMap fun i => s.measureBlock (i + 1)

/-- The measurements that the Alias key is derived from: those of the images (R432). -/
def State.aliasInput (s : State) : List Byte := (List.range 4).flatMap fun i => s.sec.imageDigest (i + 1)

/-- The Alias private key, from the DeviceID secret and the measurements (R432). -/
def State.aliasKey (s : State) : Nat := privateKey (hmac384 s.deviceSecret s.aliasInput)

/-- The certificate chain of slot 0: what is stored, and the Alias certificate, which carries the measurements and is signed with the
DeviceID key (R432, R433). -/
def State.chain (s : State) : List Byte :=
  Config.certStore ++ certBytes (privateKey s.deviceSecret) (Config.aliasBody (publicKey s.aliasKey) s.aliasInput)

/-! ### The mailbox (R376, R433) -/

/-- Configuration space answers, so that the mailbox serves (R412, R433). -/
def State.mailbox (s : State) : Bool := s.brassRuns && s.bu.s0 && s.host.linkUp && s.host.configReady

/-- Send a DOE object of a type of vendor 1. -/
def State.doe (s : State) (type : Nat) (payload : List Byte) : State :=
  let n := ceilDiv payload.length 4 + 2
  { s with out := { s.out with doe := s.out.doe ++ [[1, 0] ++ bytesLE 1 type ++ [0] ++ bytesLE 4 n ++ padTo (4 * (n - 2)) payload] } }

/-- DOE_DISCOVERY: object types 0, discovery, and 1, SPDM. -/
def execDoeDiscovery (index : Byte) (s : State) : Host.Outcome State Fault Refusal :=
  .next (if !s.mailbox then s
    else if index = 0 then s.doe 0 [1, 0, 0, 1]
    else if index = 1 then s.doe 0 [1, 0, 1, 0]
    else s.doe 0 [0xFF, 0xFF, 0, 0])

/-- An SPDM ERROR response: 1 invalid request, 3 busy, 4 unexpected request. -/
def State.spdmError (s : State) (code : Nat) : State :=
  ({ s with sec := { s.sec with errors := s.sec.errors + 1 } } : State).doe 1 ([0x13, 0x7F] ++ bytesLE 1 code ++ [0])

/-- Serve an SPDM request once the security engine runs and the negotiation has come as far as `need` (R433): the request's
bytes go to the transcript, and `k` answers. -/
def State.spdm (s : State) (need : Nat) (request : List Byte) (k : State → State) : State :=
  if !s.mailbox then s
  else if !s.sec.seRun then s.spdmError 3
  else if s.sec.negotiated < need then s.spdmError 4
  else k { s with sec := { s.sec with transcript := s.sec.transcript ++ request } }

/-- Send an SPDM response that serves its request, and keep it in the transcript (R428, R433). -/
def State.spdmReply (s : State) (bytes : List Byte) : State :=
  ({ s with sec := { s.sec with requests := s.sec.requests + 1, transcript := s.sec.transcript ++ bytes } } : State).doe 1 bytes

/-- Send a signed SPDM response: the Alias key's signature of the transcript's digest follows its bytes; the transcript ends. -/
def State.spdmSigned (s : State) (bytes : List Byte) : State :=
  let digest := sha384 (s.sec.transcript ++ bytes)
  let s := s.spdmReply (bytes ++ ecdsaSign s.aliasKey digest)
  { s with sec := { s.sec with transcript := [] } }

/-- The negotiation has come to a point. -/
def State.negotiate (s : State) (n : Nat) : State := { s with sec := { s.sec with negotiated := n } }

/-- A random value of 32 bytes of the security engine. -/
def State.nonce (s : State) : List Byte × State := (padTo 32 (Config.randomBytes s.free), { s with free := s.free + 1 })

/-- GET_VERSION (R433): SPDM 1.3. -/
def execGetVersion (s : State) : Host.Outcome State Fault Refusal :=
  .next (s.spdm 0 [] fun s =>
    (({ s with sec := { s.sec with transcript := [0x10, 0x84, 0, 0] } } : State).negotiate 1).spdmReply
      [0x10, 0x04, 0, 0, 0, 1, 0x00, 0x13])

/-- GET_CAPABILITIES (R433): certificates, challenge, signed measurements. Timing and sizes are free. -/
def execGetCapabilities (s : State) : Host.Outcome State Fault Refusal :=
  .next (s.spdm 1 [0x13, 0xE1, 0, 0] fun s =>
    let r := s.freeVal 72
    let b := bytesLE 9 r.1.toNat
    (r.2.negotiate 2).spdmReply ([0x13, 0x61, 0, 0, 0] ++ b.take 1 ++ [0, 0] ++ bytesLE 4 0x16 ++ b.drop 1))

/-- NEGOTIATE_ALGORITHMS (R433): P-384 and SHA-384, and no others. -/
def execNegotiateAlgorithms (p384 sha384 : Bool) (s : State) : Host.Outcome State Fault Refusal :=
  .next (s.spdm 2 ([0x13, 0xE3, 0, 0] ++ bytesLE 1 (bitIf p384 0 + bitIf sha384 1)) fun s =>
    if !p384 || !sha384 then s.spdmError 1
    else (s.negotiate 3).spdmReply ([0x13, 0x63, 0, 0] ++ bytesLE 2 36 ++ [1, 0] ++ bytesLE 4 0x4 ++ bytesLE 4 0x80 ++ bytesLE 4 0x2
      ++ List.replicate 16 0))

/-- GET_DIGESTS (R433): slot 0. -/
def execGetDigests (s : State) : Host.Outcome State Fault Refusal :=
  .next (s.spdm 3 [0x13, 0x81, 0, 0] fun s =>
    s.spdmReply ([0x13, 0x01, 1, 1] ++ digestBytes (sha384 s.chain)))

/-- GET_CERTIFICATE (R433): a part of slot 0's chain. -/
def execGetCertificate (slot off len : Nat) (s : State) : Host.Outcome State Fault Refusal :=
  .next (s.spdm 3 ([0x13, 0x82] ++ bytesLE 1 slot ++ [0] ++ bytesLE 2 off ++ bytesLE 2 len) fun s =>
    let c := s.chain
    if slot ≠ 0 || c.length ≤ off then s.spdmError 1
    else
      let part := (c.drop off).take len
      s.spdmReply ([0x13, 0x02, 0, 0] ++ bytesLE 2 part.length ++ bytesLE 2 (c.length - off - part.length) ++ part))

/-- CHALLENGE (R433). -/
def execChallenge (slot : Nat) (nonce : BitVec 256) (s : State) : Host.Outcome State Fault Refusal :=
  .next (s.spdm 3 ([0x13, 0x83] ++ bytesLE 1 slot ++ [0] ++ bytesLE 32 nonce.toNat) fun s =>
    if slot ≠ 0 then s.spdmError 1
    else
      let r := s.nonce
      r.2.spdmSigned ([0x13, 0x03, 0, 1] ++ digestBytes (sha384 s.chain) ++ r.1 ++ [0, 0] ++ List.replicate 8 0))

/-- GET_MEASUREMENTS (R433, R434): 0 the number, 0xFF all, else one index. -/
def execGetMeasurements (index : Nat) (sign : Bool) (nonce : BitVec 256) (s : State) : Host.Outcome State Fault Refusal :=
  .next (s.spdm 3 ([0x13, 0xE0] ++ bytesLE 1 (bitIf sign 0) ++ bytesLE 1 index ++ (if sign then bytesLE 32 nonce.toNat else [])) fun s =>
    let n := if index = 0 then 0 else if index = 0xFF then 8 else 1
    if 8 < index && index ≠ 0xFF then s.spdmError 1
    else
      let rec_ := if index = 0 then [] else if index = 0xFF then s.measureBlocks else s.measureBlock index
      let r := s.nonce
      let bytes := [0x13, 0x60] ++ bytesLE 1 (if index = 0 then 8 else 0) ++ [0] ++ bytesLE 1 n ++ bytesLE 3 rec_.length ++ rec_
        ++ r.1 ++ [0, 0] ++ List.replicate 8 0
      if sign then r.2.spdmSigned bytes else r.2.spdmReply bytes)

/-! ### Firmware commands (R435) -/

/-- FW_INFO: the manifest's head and its entries. -/
def execFwInfo (c : Cmd) (s : State) : Host.Outcome State Fault Refusal :=
  .next (s.onCmd 0x0801 c fun s => s.runAt c fun s => s.finishData c (s.sec.head ++ s.sec.images.flatMap Image.bytes) {})

/-- FW_VERIFY or S7 refuses a bundle (R428, R436). -/
def State.refuseVerify (s : State) (c : Cmd) (reason : Code) (kind : Nat) : State :=
  let s : State := { s with sec := { s.sec with lastReason := reason } }
  (s.raiseP Ev.fwRejected [w64 reason.toNat, w64 kind]).finishWith c St.rejected reason

/-- The bundle of a FW_VERIFY cannot be read (R426). -/
def State.verifyAborts (s : State) (c : Cmd) : Bool :=
  match s.cmdSlot c with
  | none => false
  | some z => match z.param with
    | some .poisoned => true
    | some .failed => true
    | some (.good b) => b.length < c.p1.toNat
    | none => !c.devAddr && !s.hostReach

/-- FW_VERIFY: the checks of S7; no running state changes. -/
def execFwVerify (c : Cmd) (s : State) : Host.Outcome State Fault Refusal :=
  .next (s.onCmd 0x0802 c fun s => s.runAt c fun s =>
    let len := c.p1.toNat
    if len = 0 || 2 ^ 28 ≤ len then s.refuseVerify c Rs.fwFormat 0
    else if s.verifyAborts c then
      ((if c.devAddr then s else s.hostFault St.range Rs.hostAbort 2 c.p0.toNat)).refuseVerify c Rs.bundleAbort 0
    else s.withParam c c.p0.toNat len fun s b =>
      match s.bundleStop b len with
      | some (r, k) => s.refuseVerify c r k
      | none => s.finish c {})

/-- FW_SVN_COMMIT (R432, R435): 64 fuses hold at most 64. -/
def execFwSvnCommit (c : Cmd) (s : State) : Host.Outcome State Fault Refusal :=
  .next (s.onCmd 0x0803 c fun s => s.runAt c fun s =>
    let n := c.p0.toNat
    let old := s.sec.svnFused
    if n < old || s.sec.svnRunning < n then s.finishWith c St.rejected Rs.svnLower
    else if 64 < n then s.finishWith c St.rejected Rs.badField
    else if n = old then s.finish c {}
    else
      let s : State := { s with sec := { s.sec with svnFused := n, svnBlown := n } }
      (s.raiseP Ev.svnCommitted [w64 old, w64 n]).finish c {})

/-- ID_CHAIN_READ. -/
def execIdChainRead (c : Cmd) (s : State) : Host.Outcome State Fault Refusal :=
  .next (s.onCmd 0x0810 c fun s => s.runAt c fun s => s.finishData c s.chain {})

/-- MEASURE_READ. -/
def execMeasureRead (c : Cmd) (s : State) : Host.Outcome State Fault Refusal :=
  .next (s.onCmd 0x0811 c fun s => s.runAt c fun s => s.finishData c s.measureBlocks {})

end Sys2Proof.Machine
end

