-- ==== Sys2Proof/Machine/Power.lean ====
section
/-! DEFINITION. Sys2Proof/Machine/Power.lean: input power and the power stages (R437 to R439), the limiter (R442, R443), the energy
model and its attribution (R444 to R448), droop and margin (R449, R450), the end of tin fill (R451, R452), and the power commands
(R455). -/

namespace Sys2Proof.Machine

/-! ### Input power (R437, R438) -/

/-- The power stages' telemetry has joined Brass, at S2 (R414, R421). -/
def State.telemetry (s : State) : Bool := s.brassRuns && (2 ≤ s.bu.done || (s.bu.busy && 2 ≤ s.bu.running))

/-- Sum of one figure over twelve reports. -/
def reportSum (l : List StageReport) (f : StageReport → Nat) : Nat := (l.map f).sum

/-- Mean of a list; zero of none. -/
def meanOf (l : List Nat) : Nat := if l.isEmpty then 0 else l.sum / l.length

/-- A power stage after its report. -/
def PwrStage.report (x : PwrStage) (r : StageReport) : PwrStage :=
  let outs := (r.vout * r.iout / 1000000 :: x.outs).take 10
  { x with outs := outs, outW := meanOf outs, vout := r.vout, iout := r.iout, vin := r.vin, iin := r.iin }

/-- Voltage band of the sum of twelve input reports in mV, whose mean is the input voltage (R437). -/
def bandOf (mv : Nat) : Nat := if mv < 12 * 45000 then 1 else if 12 * 56000 < mv then 2 else 0

/-- The package input power after a report of every stage, with its energy over 10 µs and its 10 ms means (R438, R465). -/
def State.integrate (s : State) (l : List StageReport) : State :=
  let uw := reportSum l fun r => r.vin * r.iin
  let w := uw / 1000000
  let frac := s.power.energyFrac + 10 * uw
  let samples := (w :: s.power.samples).take 10
  let acc := (s.power.acc.1 + w, s.power.acc.2 + 1)
  let full := 1000 ≤ acc.2
  { s with
    power := { s.power with
      samples := samples, watts := meanOf samples
      vinSum := reportSum l StageReport.vin, vin10 := reportSum l StageReport.vin / 12 / 10, iin10 := reportSum l StageReport.iin / 10
      energyIn := (s.power.energyIn + frac / 1000000) % 2 ^ 64, energyFrac := frac % 1000000
      acc := if full then (0, 0) else acc
      stages := (s.power.stages.zip l).map fun e => e.1.report e.2 }
    therm := { s.therm with means := if full then (acc.1 / acc.2 :: s.therm.means).take 100 else s.therm.means } }

/-- INPUT_VOLTAGE on entering and leaving a band of R437; the ceiling follows the voltage. -/
def State.setBand (s : State) (band : Nat) : State :=
  let old := s.power.band
  let s := ({ s with power := { s.power with band := band } } : State).setCeiling 2
  if old = band then s else s.raiseP Ev.inputVoltage [w64 band, w64 s.power.vin10]

/-- POWER_SAMPLE (R438): the reports of the twelve stages, every 10 µs. -/
def execPowerSample (reports : List StageReport) (s : State) : Host.Outcome State Fault Refusal :=
  .next (if !s.telemetry || reports.length ≠ 12 then s
    else (s.integrate reports).setBand (bandOf (reportSum reports StageReport.vin)))

/-- INPUT_FAULT_STOP (R437): the input has left 40 V to 58 V for as long as its row says. -/
def execInputFaultStop (s : State) : Host.Outcome State Fault Refusal := .next (if s.bu.powered then s.powerOff else s)

/-! ### Power stages (R439) -/

/-- Change a power stage. -/
def State.modStage (s : State) (p : Nat) (f : PwrStage → PwrStage) : State :=
  { s with power := { s.power with stages := s.power.stages.modify p f } }

/-- Stages that run. -/
def State.stagesRunning (s : State) : Nat := (s.power.stages.filter fun x => x.state = 0).length

/-- A stage after a fault: it awaits its retry, or is held off at a second fault within 10 s of the first. -/
def PwrStage.fault (x : PwrStage) (cause now : Nat) : PwrStage :=
  match x.faultAt with
  | some a =>
    if now < a + ms 10000 then { x with state := 2, cause := BitVec.ofNat 4 cause }
    else { x with state := 1, cause := BitVec.ofNat 4 cause, faultAt := some now }
  | none => { x with state := 1, cause := BitVec.ofNat 4 cause, faultAt := some now }

/-- A stage stops (R439): fewer than four that run carry no cap. -/
def State.stageFault (s : State) (p cause : Nat) : State :=
  let s := (s.modStage p fun x => x.fault cause s.time.now).setCeiling 2
  let s := s.raiseP Ev.pwrStageFault [w64 p, w64 cause, w64 (10 * s.power.ceiling)]
  if s.stagesRunning < 4 then s.powerOff else s

/-- PWR_STAGE_FAULT (R439). -/
def execPwrStageFault (p cause : Nat) (s : State) : Host.Outcome State Fault Refusal :=
  .next (if !s.bu.powered || (s.power.stages[p]?).map (·.state) ≠ some 0 then s else s.stageFault p cause)

/-- STAGE_RETRY (R439): 100 ms after the fault the stage runs again. -/
def execStageRetry (p : Nat) (s : State) : Host.Outcome State Fault Refusal :=
  .next (match s.power.stages[p]? with
    | none => s
    | some x =>
      if !s.bu.powered || x.state ≠ 1 then s
      else ((s.advanceTo (x.faultAt.getD 0 + ms 100)).modStage p fun x => { x with state := 0 }).setCeiling 2)

/-! ### The limiter (R442, R443) -/

/-- The power limiter's ratio for a forecast of `f` W under a cap of `c` W (R442). -/
def limiterRatio (f c : Nat) : Nat := if f ≤ c then 0 else min 900 (ceilDiv (1000 * (f - c)) (f - 420))

/-- The pace pair as Cobalt writes it: the larger of the two ratios, and the period of the next wall step (R60, R442, R466). -/
def State.writePace (s : State) : State :=
  let next := s.tick.wall + 1
  let period := match s.tick.sched.change with
    | some (us_, m) => if next = m then us_ else s.tick.sched.periodUs
    | none => s.tick.sched.periodUs
  let s : State := { s with tick := { s.tick with paceRatio := max s.power.ratio s.therm.ratio, pacePeriod := period } }
  s.pairWritten 8400 s.tick.paceAgrees

/-- POWER_RATIO_COMPUTE (R442): within 100 µs after a tick, for the next wall step. -/
def execPowerRatioCompute (s : State) : Host.Outcome State Fault Refusal :=
  .next (if !s.clocksRun || !s.ready || !s.tick.running || s.therm.halted then s
    else
      let f := 10 * (s.tick.forecast[1]?).getD 42
      let f := if s.power.useMeasured then max f s.power.lastStepW else f
      ({ s with power := { s.power with ratio := limiterRatio f s.effCap, useMeasured := false } } : State).writePace)

/-- The excursion limit, W (R443, R453). -/
def State.excursionLimit (s : State) : Nat := min (s.effCap * (100 + min 20 s.power.pct.toNat) / 100) 3960

/-- The limiter's state after one 10 µs comparison (R443). -/
def PowerState.limit (p : PowerState) (c x : Nat) : PowerState :=
  let a := p.watts
  let under := if a ≤ c then p.underUs + 10 else 0
  let lower := a ≤ c && 1000 ≤ under && (under - 1000) % 100 = 0
  let st := if x < a then min 16 (p.stretch + 1) else if lower then p.stretch - 1 else p.stretch
  let overUs := if x < a && st = 16 then p.overUs + 10 else 0
  { p with
    underUs := under, stretch := st, overUs := overUs
    useMeasured := p.useMeasured || 10000 ≤ overUs
    usLimited := if st = 0 then p.usLimited else p.usLimited + 10
    peak := if st = 0 then p.peak else max p.peak a }

/-- The limiter's next state; a stretch, held or new, takes every tile's core time, with its stretched cycles, anew (R6, R443). -/
def State.setStretch (s : State) (p : PowerState) : State :=
  { s with
    tiles := if p.stretch = 0 && s.power.stretch = 0 then s.tiles else s.tiles.map fun e => (e.1, s.rebase e.2)
    power := p }

/-- LIMITER_SAMPLE (R443): every 10 µs. -/
def execLimiterSample (s : State) : Host.Outcome State Fault Refusal :=
  .next (if !s.telemetry then s
    else
      let s := s.setStretch (s.power.limit s.effCap s.excursionLimit)
      if s.power.stretch = 0 || !dueAfter s.power.excursionAt s.time.now (ms 1000) then s
      else
        let s := s.raiseP Ev.pwrExcursion [w64 s.power.peak, w64 s.effCap, w64 (s.power.usLimited - s.power.usAtEvent).toNat]
        { s with power := { s.power with peak := 0, usAtEvent := s.power.usLimited, excursionAt := some s.time.now } })

/-! ### The energy model (R445 to R448) -/

/-- Dynamic model energy of a tile since its activity counters stood at `mark`, fJ (R445). -/
def State.dynamicSince (s : State) (t : TileRef) (mark : KV (BitVec 64)) : Nat :=
  ((List.range 24).map fun k => (kvGet (s.tile t).activity k 0 - kvGet mark k 0).toNat * Config.weight t (s.railMv t) k).sum

/-- Dynamic model energy of a tile since the last tick, fJ (R445). -/
def State.dynamicFj (s : State) (t : TileRef) : Nat := s.dynamicSince t (s.tile t).actMark

/-- Time since the last tick, ns. -/
def State.sinceTick (s : State) : Nat := (s.time.now - s.power.tickAt) / 7

/-- Static model power of a tile, µW: its leakage at its rail and its head diode's view (R445). -/
def State.leakUw (s : State) (t : TileRef) : Nat := Config.leakage t (s.railMv t) (kvGet s.therm.diodes (t / 64) {}).temp

/-- Static model energy of a tile since the last tick, fJ (R445). -/
def State.staticFj (s : State) (t : TileRef) : Nat := s.leakUw t * s.sinceTick

/-- Model energy of a tile since the last tick, fJ. -/
def State.tileFj (s : State) (t : TileRef) : Nat := s.dynamicFj t + s.staticFj t

/-- Background of the layers at their refresh bands, mW (R445). -/
def State.layersMw (s : State) : Nat :=
  ((List.range 384).map fun j => Config.layerMw (kvGet s.therm.bands j 0)).sum

/-- The baseline B, mW: Brass, idle Cornis lanes, the guest sites at their allowance of 80 W (R440, R508), and the layers' background
(R445). -/
def State.modelBase (s : State) : Nat := Config.baselineMw + 80000 + s.layersMw

/-- Baseline energy of the package since the last tick, fJ (R445). -/
def State.baseFj (s : State) : Nat := s.modelBase * 1000 * s.sinceTick

/-- Package model energy since the last tick, fJ (R446). -/
def State.packageFj (s : State) : Nat := (s.tiles.map fun e => s.tileFj e.1).sum + s.baseFj

/-- k_f times an energy in fJ, in µJ (R447). -/
def PowerState.scaled (p : PowerState) (fj : Nat) : Nat := fj * p.kf / 2 ^ 32 / 10 ^ 9

/-- Work of a tile's engines in the step, ended or going on (R447): a descriptor that waits at its engine, or the item in hand. -/
def State.tileSpans (s : State) (t : TileRef) : List JobSpan :=
  let x := s.tile t
  let now := s.time.now
  let waiting := x.slots.filter fun e => !e.2.applied && !e.2.waits.isEmpty && (e.2.ph = .queued || e.2.ph = .running)
  s.noted t
    ++ (waiting.map fun e => { job := some e.2.job, queue := (queueOf e.2).key, start := min now (s.wallAt x (x.engineStart e.2)), stop := now, act := [] })
    ++ ((x.items.take 1).filter (·.started)).map fun it =>
      { job := some it.job, queue := EngineQ.attention.key, start := min now it.startedAt, stop := now, act := [] }

/-- The 1 µs intervals of a step that a note of work lies in, by number: the step began at `a`, and it is `now` (R447). -/
def JobSpan.intervals (p : JobSpan) (a now : Nat) : List Nat :=
  if p.stop ≤ a || now ≤ a then []
  else
    let hi := (min p.stop now - 1 - a) / 7000
    let lo := min hi ((max p.start a - a) / 7000)
    (List.range (hi + 1 - lo)).map (lo + ·)

/-- Whom the model energy of one interval goes to, in fJ (R447, steps 1 and 2): the jobs of the descriptors that occupy engines in it, by
their engines' time; where there is none, the static energy and that of fill and hold go to the tile's plan. -/
def State.intervalJobs (s : State) (t : TileRef) (spans : List JobSpan) (lo hi : Nat) : List (Nat × Nat) :=
  let parts := spans.map fun p => (p, p.part lo hi)
  let working := parts.filter fun e => e.1.job.isSome && 0 < e.2
  let long := working.filter fun e => e.1.start < e.1.stop
  let takers := if long.isEmpty then working else long
  let energy := fun (which : Nat → Bool) => (parts.map fun e => s.spanFj t which e.1 * e.2 / e.1.length).sum
  let static := s.leakUw t * ((hi - lo) / 7)
  if takers.isEmpty then
    ((s.tile t).running.map fun p => (p.job.toNat, static + energy fun k => k = 4 || k = 5)).toList
  else
    let whole := static + energy fun _ => true
    takers.map fun e => ((e.1.job.getD 0).toNat, whole * e.2 / (takers.map Prod.snd).sum)

/-- Entries of one key added up. -/
def addUp (l : List (Nat × Nat)) : KV Nat := l.foldl (fun k e => kvMod k e.1 0 (· + e.2)) []

/-- Whom a tile's model energy since the last tick goes to, in µJ after k_f (R447): by intervals, and the rest of the step, in which no
engine was occupied, to the tile's plan. -/
def State.tileJobs (s : State) (t : TileRef) : KV Nat :=
  let a := s.power.tickAt
  let now := s.time.now
  let spans := s.tileSpans t
  let ends := (spans.flatMap fun p => p.intervals a now).dedup.map fun k => (a + 7000 * k, min now (a + 7000 * (k + 1)))
  let rest := (now - a) / 7 - (ends.map fun e => (e.2 - e.1) / 7).sum
  let idle := ((s.tile t).running.map fun p => (p.job.toNat, s.leakUw t * rest)).toList
  (addUp ((ends.flatMap fun e => s.intervalJobs t spans e.1 e.2) ++ idle)).map fun e => (e.1, s.power.scaled e.2)

/-- Energy of the step so far by job, and by tile as far as jobs took it (R447, steps 1 and 2). -/
def State.tileShares (s : State) : KV Nat × List (TileRef × Nat) :=
  let l := s.tiles.map fun e => (e.1, s.tileJobs e.1)
  (addUp (l.flatMap Prod.snd), l.map fun e => (e.1, (e.2.map Prod.snd).sum))

/-- Each job's part of the baseline with its own energy (R447, step 3). -/
def withBase (jobs : KV Nat) (base : Nat) : KV Nat :=
  let total := (jobs.map Prod.snd).sum
  if total = 0 then jobs else jobs.map fun e => (e.1, e.2 + base * e.2 / total)

/-- Energy of the step so far by job, less what JOB_CLOSE has returned of it (R447, R448). -/
def State.stepShares (s : State) : KV Nat × List (TileRef × Nat) :=
  let q := s.tileShares
  (withBase q.1 (s.power.scaled s.baseFj), q.2)

/-- Account of a job tag. -/
def PowerState.account (p : PowerState) (tag : BitVec 16) : Option JobAcct := p.jobs.find? fun j => j.tag = tag

/-- The 16 bytes of an account (R455). -/
def JobAcct.bytes (j : JobAcct) : List Byte := bytesLE 4 j.tag.toNat ++ bytesLE 4 j.steps ++ bytesLE 8 j.uj

/-- JOB_ENERGY_READ on this package. -/
def State.readJobs (s : State) (c : Cmd) : State × Outc × List Byte :=
  if bitAt c.p0 16 then (s, {}, s.power.jobs.flatMap JobAcct.bytes)
  else match s.power.account (BitVec.ofNat 16 (bitsOf c.p0 15 0)) with
    | some j => (s, {}, j.bytes)
    | none => (s, outc St.rejected Rs.noJob, [])

/-- JOB_ENERGY_READ (R448, R455). -/
def execJobEnergyRead (c : Cmd) (s : State) : Host.Outcome State Fault Refusal :=
  .next (s.onCmd 0x0703 c fun s => s.runPackages c fun s => s.readJobs c)

/-- JOB_CLOSE on this package: the account's value with its part of the step in progress; the account is freed. -/
def State.closeJob (s : State) (c : Cmd) : State × Outc × List Byte :=
  let tag := BitVec.ofNat 16 (bitsOf c.p0 15 0)
  let q := s.stepShares
  let got := kvGet s.power.closed tag.toNat 0
  let part := kvGet q.1 tag.toNat 0 - got
  let held := (s.power.account tag).map (·.uj)
  if held.isNone && part = 0 then (s, outc St.rejected Rs.noJob, [])
  else
    let s : State := { s with power := { s.power with
      jobs := s.power.jobs.filter fun j => j.tag ≠ tag
      closed := kvPut s.power.closed tag.toNat (got + part) } }
    (s, {}, bytesLE 8 (held.getD 0 + part))

/-- JOB_CLOSE (R448, R455). -/
def execJobClose (c : Cmd) (s : State) : Host.Outcome State Fault Refusal :=
  .next (s.onCmd 0x0704 c fun s => s.runPackages c fun s => s.closeJob c)

/-- Give an energy to a job (R448): its account opens when there is room; what finds none is answered. -/
def State.giveJob (s : State) (tag uj : Nat) : State × Nat :=
  let t := BitVec.ofNat 16 tag
  if uj = 0 then (s, 0)
  else if (s.power.account t).isSome then
    ({ s with power := { s.power with jobs := s.power.jobs.map fun j =>
        if j.tag = t then { j with steps := j.steps + 1, uj := j.uj + uj } else j } }, 0)
  else if 4096 ≤ s.power.jobs.length then (s, uj)
  else ({ s with power := { s.power with jobs := s.power.jobs ++ [{ tag := t, steps := 1, uj := uj }] } }, 0)

/-- The ratio k of a step and the filtered ratio (R446); MODEL_RANGE when k is outside 0.5 to 2.0. -/
def State.modelRatio (s : State) (step euj mfj : Nat) : State :=
  let one : Nat := 2 ^ 32
  let k := if mfj = 0 then one else euj * 10 ^ 9 * one / mfj
  let s : State := { s with power := { s.power with kLast := k } }
  if one / 2 ≤ k && k ≤ 2 * one then
    let kf : Int := s.power.kf + ((k : Int) - s.power.kf) / 8
    { s with power := { s.power with kf := min (one * 5 / 4) (max (one * 4 / 5) kf.toNat) } }
  else s.raiseP Ev.modelRange [w64 step, w64 (ratioBits k).toNat]

/-- Attribute the energy of the step just ended (R446 to R448). What JOB_CLOSE has returned of the step stays attributed, and the residual
takes the rest, so that the sum is the measured energy. -/
def State.attribute (s : State) (step : Nat) : State :=
  let e := s.power.energyIn - s.power.tickEnergy
  let dt := s.sinceTick
  let s := s.modelRatio step e s.packageFj
  let q := s.stepShares
  let closed := s.power.closed
  let given := (q.1.map fun j => max j.2 (kvGet closed j.1 0)).sum
    + ((closed.filter fun k => (kvFind q.1 k.1).isNone).map Prod.snd).sum
  let r := q.1.foldl (fun (acc : State × Nat) j =>
    let g := acc.1.giveJob j.1 (j.2 - kvGet s.power.closed j.1 0)
    (g.1, acc.2 + g.2)) (s, 0)
  let s := q.2.foldl (fun (s : State) t => s.modTile t.1 fun x => x.count 18 t.2) r.1
  let residual : Int := (s.power.residual : Int) + e - given + r.2
  let s : State := { s with power := { s.power with
    residual := (residual % (2 ^ 64 : Int)).toNat
    closed := []
    lastStepW := if dt = 0 then 0 else e * 1000 / dt
    tickEnergy := s.power.energyIn
    tickAt := s.time.now } }
  if r.2 = 0 || s.power.jobFullStep = some step then s
  else ({ s with power := { s.power with jobFullStep := some step } } : State).raiseP Ev.jobTableFull [w64 step, w64 r.2]

/-! ### Droop and margin (R449, R450) -/

/-- A tile's droop entry, from which its core clock runs at half frequency: DROOP_HIGH above 1,000 in the step, at most once a minute. -/
def State.droop (s : State) (t : TileRef) : State :=
  let s := s.modTile t fun x => { s.rebase x with
    droopEvents := x.droopEvents + 1, droopStep := x.droopStep + 1, droopSince := some (x.droopSince.getD s.time.now) }
  let x := s.tile t
  if x.droopStep ≤ 1000 || !dueAfter x.droopHighAt s.time.now (ms 60000) then s
  else (s.modTile t fun x => { x with droopHighAt := some s.time.now }).raise Ev.droopHigh (s.tileId t)
    [w64 (s.tileId t).toNat, w64 x.droopStep]

/-- DROOP_ENTRY (R449). -/
def execDroopEntry (t : TileRef) (s : State) : Host.Outcome State Fault Refusal := .next (if s.tileUp t then s.droop t else s)

/-- DROOP_EXIT (R449): the cycles at half frequency count as stretched. -/
def execDroopExit (t : TileRef) (s : State) : Host.Outcome State Fault Refusal :=
  .next (if !s.tileUp t || (s.tile t).droopSince.isNone then s
    else s.modTile t fun x => { s.rebase x with droopSince := none })

/-- A rail after a margin reading of a slack in 0.1 % (R450). -/
def Rail.read (r : Rail) (slack : Nat) : Rail :=
  let r := { r with slack := slack }
  if slack < 50 then
    if r.maxMv ≤ r.mv then { r with above := 0, exhausted := true } else { r with above := 0, move := 5 }
  else if 80 < slack then
    if 3600 ≤ r.above + 1 then { r with above := 0, move := if r.minMv < r.mv then -5 else 0 } else { r with above := r.above + 1 }
  else { r with above := 0 }

/-- The margin reading of one stack. -/
def State.readRail (s : State) (st slack : Nat) : State :=
  let s : State := { s with power := { s.power with rails := s.power.rails.modify st fun r => r.read slack } }
  match s.power.rails[st]? with
  | none => s
  | some r =>
    if slack < 50 && r.exhausted && r.maxMv ≤ r.mv && dueAfter r.exhaustedAt s.time.now (ms 3600000) then
      let s := s.raise Ev.marginExhausted (stackUnit s.self st) [w64 st, w64 r.mv, w64 slack]
      { s with power := { s.power with rails := s.power.rails.modify st fun r => { r with exhaustedAt := some s.time.now } } }
    else s

/-- MARGIN_READING (R450): once per second, the least slack of each stack. -/
def execMarginReading (slacks : List Nat) (s : State) : Host.Outcome State Fault Refusal :=
  .next (if !s.clocksRun || !s.ready || s.therm.halted then s
    else ((List.range 24).zip slacks).foldl (fun (s : State) e => if s.stackUp e.1 then s.readRail e.1 e.2 else s) s)

/-- The rails' moves take effect at a tick (R450). -/
def Rail.step (r : Rail) : Rail :=
  { r with mv := (min (r.maxMv : Int) (max r.minMv (r.mv + r.move))).toNat, move := 0 }

/-! ### Tin fill (R451, R452) -/

/-- Energy of a tile's fill between two times, fJ: its level falls linearly (R451). -/
def State.fillFj (s : State) (level a lo hi : Nat) : Nat := (s.fillLevel level a lo + s.fillLevel level a hi) * ((hi - lo) / 7) / 2

/-- Fill of a tile ends: its group-cycles are those of the energy it took, but for the time in which the matrix queue held the groups
(R444, R451, R452). -/
def State.endFill (s : State) (t : TileRef) : State :=
  match (s.tile t).fill with
  | none => s
  | some (level, a) =>
    let now := s.time.now
    let held := (s.tile t).spans.filter fun p => p.job.isSome && p.queue = EngineQ.matrix.key && max p.start a < min p.stop now
    let fj := s.fillFj level a a now - (held.map fun p => s.fillFj level a (max p.start a) (min p.stop now)).sum
    s.modTile t fun x => { (x.act 4 (fj / max 1 (Config.weight t (s.railMv t) 4))).note none EngineQ.matrix.key a now with fill := none }

/-- FILL_ZERO (R451): a tile's level has come to zero. -/
def execFillZero (t : TileRef) (s : State) : Host.Outcome State Fault Refusal :=
  .next (if !s.tileUp t then s
    else match (s.tile t).fill with
      | none => s
      | some (level, a) => (s.advanceTo (a + 7 * ceilDiv (level * 100 * max 1 s.tilesUp.length) s.fillFall)).endFill t)

/-- Number of the next tick (R33, R37). -/
def TickState.nextTick (k : TickState) : Nat := if k.running then k.wall + 1 else k.first

/-- Invar time of the next tick, when one is scheduled (R33); a late record waits for a tick of the old one (R54). Step numbers have
48 bits (R35), and no tick follows the largest. -/
def State.nextTickAt (s : State) : Option Nat :=
  if !s.tick.hasSchedule || 2 ^ 48 ≤ s.tick.nextTick then none else some ((s.tick.oldSched.getD s.tick.sched).tickTime s.tick.nextTick).toNat

/-- FILL_CUTOFF (R452): fill ends 1 µs before the tick in every tile. -/
def execFillCutoff (s : State) : Host.Outcome State Fault Refusal :=
  .next (if !s.clocksRun then s
    else
      let s := match s.nextTickAt with
        | some a => s.advanceInvar (a - 1000)
        | none => s
      (s.tiles.filter fun e => e.2.fill.isSome).foldl (fun (s : State) e => s.endFill e.1) s)

/-! ### Commands (R455) -/

/-- PWR_READ. -/
def execPwrRead (c : Cmd) (s : State) : Host.Outcome State Fault Refusal :=
  .next (s.onCmd 0x0701 c fun s => s.runPackages c fun s => (s, {}, s.blockBytes 0x104000 0x1C0))

/-- PWR_SET_CAP: a cap above the ceiling is written as given. -/
def execPwrSetCap (c : Cmd) (s : State) : Host.Outcome State Fault Refusal :=
  .next (s.onCmd 0x0702 c fun s => s.runPackages c fun s =>
    let n := c.p0.toNat
    if n < 120 || 360 < n then (s, outc St.rejected Rs.capRange, [])
    else (s.writeCap (BitVec.ofNat 9 n), outc St.ok (if s.power.ceiling < n then Rs.capCeiling else 0), []))

/-- A tile's figures in MODEL_READ at its rail: its 24 weights, then its leakage from 0 to 130 °C by 10 °C. -/
def State.modelBytes (s : State) (t : TileRef) : List Byte :=
  ((List.range 24).flatMap fun k => bytesLE 8 (Config.weight t (s.railMv t) k))
    ++ (List.range 14).flatMap fun (i : Nat) => bytesLE 4 (Config.leakage t (s.railMv t) (160 * i))

/-- MODEL_READ: each tile's weights and leakage curve, the baseline, k_f and k. -/
def execModelRead (c : Cmd) (s : State) : Host.Outcome State Fault Refusal :=
  .next (s.onCmd 0x0705 c fun s => s.runAt c fun s =>
    s.finishData c ((List.range 1536).flatMap s.modelBytes ++ bytesLE 8 s.modelBase ++ s.regBytes 0x104020 8) {})

/-- MARGIN_READ: the rails, and each tile's monitor reading, which the spec does not give (free). -/
def execMarginRead (c : Cmd) (s : State) : Host.Outcome State Fault Refusal :=
  .next (s.onCmd 0x0706 c fun s => s.runAt c fun s =>
    s.finishData c (s.regBytes 0x104100 192
      ++ (List.range 1536).map fun t => BitVec.ofNat 8 (Config.freeBits 8 (2 ^ 42 + t))) {})

end Sys2Proof.Machine
end

