-- ==== Sys2Proof/Machine/FacOps.lean ====
section
/-! DEFINITION. Sys2Proof/Machine/FacOps.lean: sending on the facility port (R480 to R482), the ALARM frames of the thermal state
(R481), the coolant limit (R478), and the two open-drain outputs (R498, R499). -/

namespace Sys2Proof.Machine

/-! ### Frames (R482) -/

/-- One bit of the CRC-16 of R482. -/
def crc16Bit (c : Nat) : Nat := if 0x8000 ≤ c then (2 * c) % 0x10000 ^^^ 0x1021 else 2 * c

/-- CRC-16 of bytes, polynomial 0x1021, initial value 0xFFFF (R482). -/
def crc16 (l : List Byte) : Nat :=
  l.foldl (fun c b => crc16Bit (crc16Bit (crc16Bit (crc16Bit (crc16Bit (crc16Bit (crc16Bit (crc16Bit
    (c ^^^ (256 * b.toNat)))))))))) 0xFFFF

/-- A frame of the package (R482). -/
def State.facFrame (s : State) (ty : Nat) (payload : List Byte) : List Byte :=
  let number := if s.bu.pkgValid then s.bu.pkg.toNat else 1024
  let body := bytesLE 1 ty ++ bytesLE 1 payload.length ++ bytesLE 2 (number + s.fac.tx.toNat % 32 * 2048) ++ payload
  [0xA5, 0x5A] ++ body ++ bytesLE 2 (crc16 body)

/-- The facility port works from S0 and through a halt (R480). -/
def State.facOpen (s : State) : Bool := s.brassRuns && s.bu.s0

/-- Put a frame on the line from a time on; a byte takes 1 µs (R480). -/
def State.putFrame (s : State) (start ty : Nat) (payload : List Byte) : State :=
  let f := s.facFrame ty payload
  { s with
    fac := { s.fac with tx := s.fac.tx + 1, txAt := some (start + us f.length) }
    out := { s.out with fac := s.out.fac ++ [f] } }

/-- The reply window after the last frame is not over (R481). -/
def State.windowOpen (s : State) : Bool :=
  match s.fac.txAt with
  | some a => s.time.now < a + us 2020
  | none => false

/-- Send a frame, or let it wait for the end of the reply window, behind those that wait already (R481). -/
def State.sendFrame (s : State) (ty : Nat) (payload : List Byte) : State :=
  if !s.facOpen then s
  else if s.windowOpen || !s.fac.waiting.isEmpty then { s with fac := { s.fac with waiting := s.fac.waiting ++ [(ty, payload)] } }
  else s.putFrame (max s.time.now ((s.fac.txAt.map fun a => a + us 2040).getD 0)) ty payload

/-- Severity with which the package sends an ALARM code: that of the event beside it (R489). -/
def alarmSeverity (code : Nat) : Nat := if code = 4 || code = 5 then 3 else if code = 7 || code = 8 then 2 else 1

/-- Send an ALARM frame (R482). -/
def State.sendAlarm (s : State) (code : Nat) : State :=
  s.sendFrame 0x84 (bytesLE 2 code ++ bytesLE 1 (alarmSeverity code) ++ bytesLE 1 0)

/-! ### The thermal state as the facility sees it (R481, R482) -/

/-- The thermal state: 0 normal, 1 to 5 as the ALARM codes, 9 halted. -/
def ThermState.alarm (x : ThermState) : Nat :=
  if x.halted then 9
  else if x.decided then x.kind
  else if x.stage = 2 then 3
  else if x.stage = 1 then 2
  else if x.diodes.any (fun d => d.2.warm) then 1 else 0

/-- An ALARM frame at a change of the thermal state; the return to normal and the halt have no code (R481, R482). -/
def State.syncAlarm (s : State) : State :=
  let a := s.therm.alarm
  if a = s.fac.alarmed then s
  else
    let s : State := { s with fac := { s.fac with alarmed := a } }
    if 1 ≤ a && a ≤ 5 then s.sendAlarm a else s

/-! ### Coolant limit (R478, R441) -/

/-- The coolant limit from the flow and inlet limits, in 10 W units. -/
def FacState.coolant (f : FacState) : Nat := max 120 (min f.flowLimit f.inletLimit / 10)

/-- Take the coolant limit anew: a change enters the ceiling and raises CAP_CHANGED (R441, R478). -/
def State.setCoolant (s : State) : State :=
  let new := s.fac.coolant
  if new = s.fac.limit then s
  else
    let old := s.effCap
    let s : State := { s with fac := { s.fac with limit := new } }
    let s : State := { s with power := { s.power with ceiling := s.ceilingNow } }
    s.raiseP Ev.capChanged [w64 old, w64 s.effCap, w64 3]

/-! ### Outputs (R498, R499) -/

/-- `THERMTRIP_N` is low. -/
def State.thermtripLow (s : State) : Bool := s.therm.trip || s.therm.tripHw

/-- `ALERT_N` is low; the output is valid from S0. -/
def State.alertLow (s : State) : Bool :=
  s.brassRuns && s.bu.s0 && (s.therm.stage ≠ 0 || s.therm.decided || s.fac.suspect || s.host.suspect
    || s.power.stages.any (fun x => x.state ≠ 0) || s.power.band ≠ 0 || s.guest0.state = .faulted || s.guest1.state = .faulted
    || s.bu.refLost)

end Sys2Proof.Machine
end

