-- ==== Sys2Proof/Machine/Thermal.lean ====
section
/-! DEFINITION. Sys2Proof/Machine/Thermal.lean: diodes and their views (R457 to R464), refresh bands (R295), the throttle (R465 to
R468), shutdown (R469 to R473), sudden loss of flow by slope (R479), and the thermal commands (R488). -/

namespace Sys2Proof.Machine

/-! ### Diodes -/

/-- A diode. -/
def State.diode (s : State) (i : Nat) : Diode := kvGet s.therm.diodes i {}

/-- Change a diode. -/
def State.modDiode (s : State) (i : Nat) (f : Diode → Diode) : State :=
  { s with therm := { s.therm with diodes := kvMod s.therm.diodes i {} f } }

/-- Cobalt's firmware runs (R427), so that it can act on what the diodes show. -/
def State.cobaltActs (s : State) : Bool := s.brassRuns && s.sec.cobaltRun && !s.bu.refLost

/-- A sample lies outside −20 °C to 150 °C or failed its conversion check (R463). -/
def badReading (r : DiodeReading) : Bool := !r.ok || r.temp < -320 || 2400 < r.temp

/-- Ten seconds of readings that moved by less than 0.25 °C (R463). -/
def Diode.flat (d : Diode) : Bool :=
  10001 ≤ d.recent.length && ((d.recent.max?).getD 0 - (d.recent.min?).getD 0) < 4

/-- Model energy of the tiles of a stack over the `d` ns since its head diode was last sampled, fJ (R445, R462). -/
def State.stackFj (s : State) (st d : Nat) : Nat :=
  ((List.range 64).map fun i => s.dynamicSince (64 * st + i) (s.tile (64 * st + i)).heatMark + s.leakUw (64 * st + i) * d).sum

/-- A sample of a head diode takes the die's model power over the time since the last one (R445, R462). -/
def State.takePower (s : State) (st : Nat) : State :=
  let d := (s.time.now - kvGet s.therm.dieAt st 0) / 7
  { s with
    therm := { s.therm with
      dieMw := if d = 0 then s.therm.dieMw else kvPut s.therm.dieMw st (s.stackFj st d / d / 1000)
      dieAt := kvPut s.therm.dieAt st s.time.now }
    tiles := s.tiles.map fun e => if e.1 / 64 = st then (e.1, { e.2 with heatMark := e.2.activity }) else e }

/-- Model power of a head die, mW (R445, R462); of a layer or of Brass it is free. -/
def State.diePower (s : State) (n i : Nat) : Nat := if i < 24 then kvGet s.therm.dieMw i 0 else Config.modelPower i n

/-- Ten seconds of flat readings in which the die's model power moved by more than 20 % of its rated power (R463). -/
def Diode.stuck (d : Diode) (rated : Nat) : Bool :=
  d.flat && rated < 5 * ((d.powers.max?).getD 0 - (d.powers.min?).getD 0)

/-- Take one reading: it is kept with the die's model power, and a diode that R463 calls failed is marked. -/
def State.takeReading (s : State) (n : Nat) (r : DiodeReading) : State :=
  let i := r.index
  let p := s.diePower n i
  let s := s.modDiode i fun d =>
    { d with raw := r.temp, recent := (r.temp :: d.recent).take 10001, powers := (p :: d.powers).take 10001 }
  let d := s.diode i
  if d.failed || !(badReading r || d.stuck (Config.ratedMw i)) then s
  else ((s.modDiode i fun d => { d with failed := true }).raiseP Ev.sensorFailed [w64 i, i64 r.temp]).sendAlarm 7

/-- Modelled offset of a stack's head diode over its layer 0 diode, 1/16 °C (R462). -/
def State.offsetM (s : State) (st : Nat) : Int := Config.offsetK st * s.diePower 0 st / 1000

/-- R462 for one stack whose two diodes were sampled. -/
def State.compareDiodes (s : State) (st : Nat) : State :=
  let h := s.diode st
  let l := s.diode (24 + 16 * st)
  if h.failed || l.failed then s
  else
    let delta := h.raw - l.raw
    let off := (delta - s.offsetM st).natAbs
    let bad := if 160 < off then h.badRun + 1 else 0
    let good := if off ≤ 128 then h.goodRun + 1 else 0
    let s := s.modDiode st fun d => { d with badRun := bad, goodRun := good }
    let mark := fun (s : State) (b : Bool) =>
      (s.modDiode st fun d => { d with disagree := b }).modDiode (24 + 16 * st) fun d => { d with disagree := b }
    if bad = 8 && !h.disagree then (mark s true).raise Ev.sensorDisagree (stackUnit s.self st) [w64 st, i64 delta, i64 (s.offsetM st)]
    else if 64 ≤ good && h.disagree then mark s false
    else s

/-- View of a diode that is not failed (R459, R462). -/
def State.ownView (s : State) (i : Nat) : Int :=
  let d := s.diode i
  if !d.disagree then d.raw
  else if i < 24 then max d.raw ((s.diode (24 + 16 * i)).raw + s.offsetM i)
  else max d.raw ((s.diode ((i - 24) / 16)).raw - s.offsetM ((i - 24) / 16))

/-- Neighbours of a layer or of a power stage from which a failed diode is estimated (R463). -/
def diodeNeighbours (i : Nat) : List Nat :=
  if i < 24 then []
  else if i < 408 then
    let l := (i - 24) % 16
    (if l = 0 then [] else [i - 1]) ++ (if l = 15 then [] else [i + 1])
  else if i = 408 then []
  else
    let p := (i - 409) % 6
    (if p = 0 then [] else [i - 1]) ++ (if p = 5 then [] else [i + 1])

/-- Estimate of a failed diode before its guard (R463); none where every diode it would rest on has failed too. -/
def State.estimate (s : State) (n i : Nat) : Option Int :=
  let alive := (diodeNeighbours i).filter fun k => !(s.diode k).failed
  let views := alive.map fun k => (s.diode k).temp
  if i < 24 then some ((s.diode (24 + 16 * i)).temp + s.offsetM i)
  else if i < 408 then
    if views.isEmpty then none else some (views.sum / (views.length : Int) + Config.modelDiff i)
  else if i = 408 then some (s.fac.outlet * 16 / 100 + (Config.modelPower 408 n * Config.brassR / 1000 : Nat))
  else match views with
    | [] => none
    | [v] => some (v + Config.modelDiff i)
    | v :: w :: _ => some ((if Config.freeBool n then v else w) + Config.modelDiff i)

/-- Set the view of a sampled diode: its own, or its estimate with the guard of 5 °C; an estimate that rests on nothing is free. -/
def State.setView (s : State) (n i : Nat) : State :=
  if !(s.diode i).failed then
    let v := s.ownView i
    s.modDiode i fun d => { d with temp := v }
  else match s.estimate n i with
    | some v => s.modDiode i fun d => { d with temp := v + 80, estimated := true }
    | none =>
      let q := s.freeVal 16
      q.2.modDiode i fun d => { d with temp := q.1.toInt, estimated := true }

/-! ### Thresholds (R459) -/

/-- A threshold in 1/16 °C. -/
def deg (x : BitVec 8) : Int := 16 * (x.toNat : Int)

/-- A diode after a sample of its view against its thresholds (R459, R460). -/
def Diode.compare (d : Diode) (k : Thresh) : Diode :=
  let v := d.temp
  let warm := if deg k.warn ≤ v then true else if v ≤ deg k.warnClr then false else d.warm
  let was := d.state = .throttle || d.state = .shutdown
  let hot := if deg k.thr ≤ v then true else if v ≤ deg k.thrClr then false else was
  let sdRun := if deg k.sd ≤ v then d.sdRun + 1 else 0
  let hwRun := if deg k.sd + 80 ≤ v then d.hwRun + 1 else 0
  { d with
    warm := warm, sdRun := sdRun, hwRun := hwRun, tripped := d.tripped || 2 ≤ sdRun
    state := if 2 ≤ sdRun then .shutdown else if hot then .throttle else if warm then .warning else .normal }

/-- Local address of `THRESH_k` (R486, R513). -/
def threshAddr (k : Nat) : Nat := 0x3F0000000000 + 0x105020 + 8 * k

/-- Compare one die's view: the coupled thresholds are used (R408, R461), and entering warning raises its event (R459). -/
def State.compareDie (s : State) (i : Nat) : State :=
  let k := dieType i
  let s := s.coupledUse (8448 + k) (s.threshAgrees k) (threshAddr k) (threshAddr k) (pkgUnit s.self)
  let was := (s.diode i).warm
  let s := s.modDiode i fun d => d.compare (s.threshFor k)
  let d := s.diode i
  if d.warm && !was then s.raiseP Ev.thermalWarning [w64 i, i64 d.temp] else s

/-- Refresh band after a sample of a layer's view (R295). -/
def bandStep (old : Nat) (v : Int) : Nat :=
  let b := if 1520 < v then 2 else if 1360 < v then max 1 old else old
  let b := if b = 2 && v ≤ 1472 then 1 else b
  if b = 1 && v ≤ 1312 then 0 else b

/-- The band of a stack layer follows its diode (R295). -/
def State.setBandOf (s : State) (i : Nat) : State :=
  let j := i - 24
  let old := kvGet s.therm.bands j 0
  let new := bandStep old (s.diode i).temp
  if new = old then s
  else
    let u := stackUnit s.self (j / 16)
    ({ s with therm := { s.therm with bands := kvPut s.therm.bands j new } } : State).raise Ev.refreshBand u
      [w64 u.toNat, w64 (j % 16), w64 new]

/-! ### Slopes and the time to shutdown (R470) -/

/-- Least-squares slope of readings a millisecond apart, newest first, in 1/16 °C per second: numerator and denominator. -/
def lsSlope (l : List Int) : Int × Int :=
  let n : Int := l.length
  let sx := n * (n - 1) / 2
  let sxx := (n - 1) * n * (2 * n - 1) / 6
  let sxy := (((List.range l.length).zip l).map fun e => (e.1 : Int) * e.2).sum
  (1000 * (sx * l.sum - n * sxy), n * sxx - sx * sx)

/-- Measured slope of a die: none with fewer than two readings, or from a diode that is failed. -/
def Diode.measured (d : Diode) : Option (Int × Int) :=
  if d.failed || d.recent.length < 2 then none else some (lsSlope (d.recent.take 64))

/-- Modelled slope of a die, in 1/16 °C per second (R470). -/
def State.modelled (s : State) (n i : Nat) : Int × Int :=
  let g : Int := if s.therm.flowLost then 0 else Config.thermalG i
  ((s.diePower n i : Int) * 400 - g * (25 * (s.diode i).temp - 4 * s.fac.inlet), 25 * (Config.thermalC i + 1))

/-- The larger of a die's two slopes. -/
def State.slope (s : State) (n i : Nat) : Int × Int :=
  let b := s.modelled n i
  match (s.diode i).measured with
  | none => b
  | some a => if a.1 * b.2 ≤ b.1 * a.2 then b else a

/-- Time to shutdown of a die, ms; none while it does not heat (R470). -/
def State.timeLeft (s : State) (n i : Nat) : Option Nat :=
  let q := s.slope n i
  let room := deg (s.threshFor (dieType i)).sd - (s.diode i).temp
  if q.1 ≤ 0 then none else some ((max 0 room * 1000 * q.2) / q.1).toNat

/-- The estimate of R470 with its die: the least time of every head die, layer and Brass sampled so far. -/
def State.leastTime (s : State) (n : Nat) : Option (Nat × Nat) :=
  s.therm.diodes.foldl (fun best e =>
    if 408 < e.1 then best
    else match s.timeLeft n e.1, best with
      | none, b => b
      | some t, none => some (t, e.1)
      | some t, some b => if t < b.1 then some (t, e.1) else some b) none

/-- `EST_MS` of an estimate (R486). -/
def estField (e : Option (Nat × Nat)) : Nat := (e.map fun k => min k.1 0xFFFE).getD 0xFFFF

/-! ### Shutdown (R469 to R473) -/

/-- The immediate end of a shutdown (R472): every tile stops, and the package halts without leaving its twin. -/
def State.stopNow (s : State) : State :=
  let s : State := { s with
    therm := { s.therm with immediate := true, leaving := false }
    twin := { s.twin with leaving := if s.twin.leaveDetach then s.twin.leaving else none } }
  let s := s.tilesUp.foldl (fun (s : State) t => s.stopTile t Rs.shutdown) s.syncAlarm
  s.halt.syncAlarm

/-- The shutdown decision (R469 to R472): orderly when the estimate exceeds the budget. -/
def State.decide (s : State) (cause die : Nat) (est : Option (Nat × Nat)) : State :=
  if s.therm.decided || s.therm.halted || !s.cobaltActs then s
  else
    let budget := max 100 s.therm.budgetMs.toNat
    let now_ := match est with
      | some e => e.1 ≤ budget
      | none => false
    let s : State := { s with therm := { s.therm with
      decided := true, immediate := now_, die := die, cause := cause, estMs := estField est
      planDeadline := s.time.now + ms (budget - 60) } }
    let s := s.tilesUp.foldl (fun (s : State) t => s.endFill t) s
    if now_ then s.stopNow else s.syncAlarm

/-- An orderly shutdown becomes immediate when the estimate falls below 20 ms or a die reaches shutdown (R470). -/
def State.hurry (s : State) (est : Option (Nat × Nat)) (dieDown : Bool) : State :=
  if !s.therm.decided || s.therm.immediate || s.therm.halted then s
  else if dieDown || (match est with | some e => e.1 < 20 | none => false) then s.stopNow else s

/-- Sudden loss of flow (R479): criterion 1 report, 2 pump, 3 slope. -/
def State.loseFlow (s : State) (criterion : Nat) : State :=
  if s.therm.flowLost then s
  else
    let s : State := { s with therm := { s.therm with flowLost := true } }
    let s := s.raiseP Ev.flowLost [w64 criterion]
    let n := s.free
    ({ s with free := n + 1 } : State).decide 5 0 (s.leastTime n)

/-! ### The throttle (R465 to R468) -/

/-- The cause of the throttle in force, with its die (R465). -/
def State.throttleCause (s : State) : Option (Nat × Nat) :=
  match s.therm.diodes.find? fun e => e.1 ≤ 408 && (e.2.state = .throttle || e.2.state = .shutdown) with
  | some e => some (1, e.1)
  | none => if s.therm.flowCause then some (2, 0) else if s.therm.inletCause then some (3, 0) else none

/-- THERMAL_SLOW with the throttle as it stands (R465, R467). -/
def State.slowEvent (s : State) : State :=
  let x := s.therm
  s.raiseP Ev.thermalSlow [w64 x.cause, w64 x.die, w64 x.fraction, w64 x.targetW, w64 x.deadline]

/-- Target for a fraction (R465). -/
def ThermState.target (x : ThermState) (f : Nat) : Nat := x.pRef * (1000 - f) / 1000

/-- Note every view, for the next review (R467). -/
def ThermState.note (x : ThermState) : ThermState :=
  { x with diodes := x.diodes.map fun e => (e.1, { e.2 with reviewed := e.2.temp }) }

/-- Stage 1 begins (R465). -/
def State.beginThrottle (s : State) (cause die : Nat) : State :=
  let p := if s.therm.means.isEmpty then s.power.watts else meanOf s.therm.means
  let x := { s.therm.note with
    stage := 1, fraction := 100, pRef := p, targetW := p * 900 / 1000, cause := cause, die := die
    throttleAt := s.time.now, reviewAt := s.time.now + ms 1000
    deadline := s.time.invar.toNat + s.therm.graceMs.toNat * 1000000 }
  ({ s with therm := x } : State).slowEvent

/-- The throttle clears (R468). -/
def State.clearThrottle (s : State) : State :=
  let dur := (s.time.now - s.therm.throttleAt) / 7000000
  let s : State := { s with therm := { s.therm with stage := 0, fraction := 0, ratio := 0, targetW := 0 } }
  s.writePace.raiseP Ev.thermalClear [w64 dur]

/-- The throttle begins or clears as its causes stand (R465, R468). -/
def State.followCauses (s : State) : State :=
  if !s.cobaltActs || s.therm.decided || s.therm.halted then s
  else
    (match s.throttleCause with
      | some k => if s.therm.stage = 0 then s.beginThrottle k.1 k.2 else s
      | none => if s.therm.stage ≠ 0 then s.clearThrottle else s).syncAlarm

/-- Thermal ratio of a fraction under a gain in sixteenths (R466, R486). -/
def thermalRatio (f : Nat) (gain : BitVec 8) : Nat := min 900 (ceilDiv (f * (if gain = 0 then 16 else gain.toNat)) 16)

/-- Input power that R466 compares: over the last 100 ms, or over the last complete step when that is longer. -/
def State.gracePower (s : State) : Nat :=
  if s.tick.running && 100000 < s.tick.sched.periodUs then s.power.lastStepW
  else if s.therm.means.isEmpty then s.power.watts else meanOf (s.therm.means.take 10)

/-- The comparison of R466: stage 2 begins when the power exceeds the target by more than 1 %. -/
def State.graceCheck (s : State) : State :=
  let p := s.gracePower
  if s.therm.stage ≠ 1 || s.therm.decided || p * 100000 ≤ s.therm.pRef * (1000 - s.therm.fraction) * 101 then s
  else
    let r := thermalRatio s.therm.fraction s.therm.gain
    let s : State := { s with therm := { s.therm with stage := 2, ratio := r } }
    (s.writePace.raiseP Ev.thermalEnforced [w64 s.therm.fraction, w64 r, w64 p]).syncAlarm

/-- GRACE_DEADLINE (R466). -/
def execGraceDeadline (s : State) : Host.Outcome State Fault Refusal :=
  .next (if !s.cobaltActs || s.therm.stage ≠ 1 || s.therm.decided then s else (s.advanceInvar s.therm.deadline).graceCheck)

/-- A cause of the throttle persists (R467): a die only if its view has not fallen since the last review. -/
def State.persists (s : State) : Bool :=
  s.therm.flowCause || s.therm.inletCause ||
    s.therm.diodes.any fun e => e.1 ≤ 408 && (e.2.state = .throttle || e.2.state = .shutdown) && e.2.reviewed ≤ e.2.temp

/-- One review of the throttle (R467). -/
def State.review (s : State) : State :=
  let up := s.persists && s.therm.fraction < 500
  let s : State := { s with therm := { s.therm.note with reviewAt := s.therm.reviewAt + ms 1000 } }
  if !up then s
  else
    let f := s.therm.fraction + 100
    let r := if s.therm.stage = 2 then thermalRatio f s.therm.gain else s.therm.ratio
    let s : State := { s with therm := { s.therm with fraction := f, targetW := s.therm.target f, ratio := r } }
    (if s.therm.stage = 2 then s.writePace else s).slowEvent

/-- The horizon of R469: stage 2 is in force at 500 ‰ and the estimate is below `HORIZON_MS`. -/
def State.checkHorizon (s : State) (est : Option (Nat × Nat)) : State :=
  match est with
  | some e => if s.therm.stage = 2 && s.therm.fraction = 500 && e.1 < s.therm.horizonMs.toNat then s.decide 8 e.2 est else s
  | none => s

/-- THROTTLE_REVIEW (R467); a fraction that has risen may bring the shutdown decision (R469). -/
def execThrottleReview (s : State) : Host.Outcome State Fault Refusal :=
  .next (if !s.cobaltActs || s.therm.stage = 0 || s.therm.decided then s
    else
      let s := (s.advanceTo s.therm.reviewAt).review
      let n := s.free
      (({ s with free := n + 1 } : State).checkHorizon (s.leastTime n)).syncAlarm)

/-! ### The sample (R457) -/

/-- Stacks whose head diode and layer 0 diode are both failed leave service (R464). -/
def State.dropBlind (s : State) : State :=
  (List.range 24).foldl (fun (s : State) st =>
    if (s.diode st).failed && (s.diode (24 + 16 * st)).failed && s.stackUp st then s.removeStack st 3 else s) s

/-- Power stages in shutdown stop, and the ceiling counts those in throttle out (R439, R459). -/
def State.stageHeat (s : State) : State :=
  let s := (List.range 12).foldl (fun (s : State) p =>
    if s.bu.powered && (s.diode (409 + p)).state = .shutdown && (s.power.stages[p]?).map (·.state) = some 0 then s.stageFault p 2
    else s) s
  if s.bu.powered then s.setCeiling 2 else s

/-- The hardware path of R460, when no shutdown has halted the package. -/
def State.hardwareTrip (s : State) : State :=
  if !s.bu.powered || s.therm.halted || !s.therm.diodes.any (fun e => e.1 ≤ 408 && 2 ≤ e.2.hwRun) then s
  else ({ s with therm := { s.therm with tripHw := true } } : State).powerOff

/-- A diode that shows a rise of more than 2 °C/s over its last 500 readings (R479). -/
def Diode.rises (d : Diode) : Bool :=
  let q := lsSlope (d.recent.take 500)
  !d.failed && 500 ≤ d.recent.length && 32 * q.2 < q.1

/-- What Cobalt makes of the dies after a sample (R465, R469, R470, R479). -/
def State.actOnHeat (s : State) (n : Nat) : State :=
  let est := s.leastTime n
  let s : State := { s with therm := { s.therm with estMs := estField est } }
  let down := s.therm.diodes.find? fun e => e.1 ≤ 408 && e.2.state = .shutdown
  let s : State := match down with
    | some e => (s.decide 4 e.1 (some (0, e.1))).hurry est true
    | none => s.hurry est false
  let s := if 6 ≤ (s.therm.diodes.filter fun e => e.1 < 421 && e.2.rises).length then s.loseFlow 3 else s
  s.followCauses.checkHorizon est

/-- DIODE_SAMPLE (R457): readings of one or more dies; guest dies report by GUEST_TEMP. -/
def execDiodeSample (readings : List DiodeReading) (s : State) : Host.Outcome State Fault Refusal :=
  .next (if !s.facOpen then s
    else
      let l := readings.filter fun r => r.index < 421
      let ids := l.map (·.index)
      let n := s.free
      let s := ((List.range 24).filter ids.contains).foldl (fun (s : State) st => s.takePower st) ({ s with free := n + 1 } : State)
      let s := l.foldl (fun (s : State) r => s.takeReading n r) s
      let s := ((List.range 24).filter fun st => ids.contains st && ids.contains (24 + 16 * st)).foldl
        (fun (s : State) st => s.compareDiodes st) s
      let ok := ids.filter fun i => !(s.diode i).failed
      let s := (ok ++ ids.filter fun i => (s.diode i).failed).foldl (fun (s : State) i => s.setView n i) s
      let s := ids.foldl (fun (s : State) i => s.compareDie i) s
      let s := (ids.filter fun i => 24 ≤ i && i < 408).foldl (fun (s : State) i => s.setBandOf i) s
      let s := s.dropBlind.stageHeat
      let s := if s.cobaltActs then s.actOnHeat n else s
      s.hardwareTrip.syncAlarm)

/-! ### The plan deadline of an orderly shutdown (R471) -/

/-- Every tile is done with its plan (R46). -/
def State.allDone (s : State) : Bool := s.tiles.all fun e => !e.2.unit.inService || !e.2.runsPlan

/-- The later actions of an orderly shutdown: the twin is left, where there is one, and the package halts (R471). -/
def State.leaveAndHalt (s : State) : State :=
  let s : State := { s with therm := { s.therm with leaving := true } }
  (if s.twin.leaving.isSome then s
    else if s.twin.state.forwards then s.startLeave false
    else ({ s with therm := { s.therm with haltDue := true } } : State)).afterLeave.syncAlarm

/-- Time of the done sample of the step in progress, when it lies ahead (R46). -/
def State.sampleAt (s : State) : Option Nat :=
  s.nextTickAt.bind fun a =>
    if s.time.invar.toNat + 2000 ≤ a then some (s.advanceInvar (a - 2000)).time.now else none

/-- SHUTDOWN_DEADLINE (R471): the running plan is done, or its deadline comes and every tile stops. -/
def execShutdownDeadline (s : State) : Host.Outcome State Fault Refusal :=
  .next (if !s.cobaltActs || !s.therm.decided || s.therm.immediate || s.therm.halted || s.therm.leaving then s
    else if s.allDone then s.leaveAndHalt
    else
      let s := s.advanceTo (min s.therm.planDeadline (s.sampleAt.getD s.therm.planDeadline))
      (s.tilesUp.foldl (fun (s : State) t => s.stopTile t Rs.shutdown) s).leaveAndHalt)

/-! ### Commands (R488) -/

/-- Slopes and time of one die, as THERMAL_READ returns them: measured and modelled slope in 1/256 °C per second, and ms. -/
def State.slopeBytes (s : State) (n i : Nat) : List Byte :=
  let word := fun (q : Int × Int) => bytesLE 8 (i64 (16 * q.1 / q.2)).toNat
  let model := if i ≤ 408 then word (s.modelled n i) else bytesLE 8 0
  let left := if i ≤ 408 then s.timeLeft n i else none
  word ((s.diode i).measured.getD (0, 1)) ++ model ++ bytesLE 8 (left.getD (2 ^ 64 - 1))

/-- THERMAL_READ. -/
def execThermalRead (c : Cmd) (s : State) : Host.Outcome State Fault Refusal :=
  .next (s.onCmd 0x0720 c fun s => s.runPackages c fun s =>
    (({ s with free := s.free + 1 } : State), {}, s.blockBytes 0x105000 0xE38 ++ (List.range 421).flatMap (s.slopeBytes s.free)))

/-- The six values of THRESH_SET, from the low bytes of its second parameter. -/
def threshOf (w : Word) : Thresh :=
  ⟨bits 8 w 0, bits 8 w 8, bits 8 w 16, bits 8 w 24, bits 8 w 32, bits 8 w 40⟩

/-- THRESH_SET. -/
def execThreshSet (c : Cmd) (s : State) : Host.Outcome State Fault Refusal :=
  .next (s.onCmd 0x0721 c fun s => s.runAt c fun s =>
    if 3 < c.p0.toNat || (List.range 6).any (fun i => 150 < (bits 8 c.p1 (8 * i)).toNat) then
      s.finishWith c St.rejected Rs.badField
    else ({ s with therm := { s.therm with thresh := s.therm.thresh.set c.p0.toNat (threshOf c.p1) } } : State).threshWritten.finish c {})

/-- THERMAL_MODEL_READ: K_s, C and G of each die, R_b and the model differences. -/
def execThermalModelRead (c : Cmd) (s : State) : Host.Outcome State Fault Refusal :=
  .next (s.onCmd 0x0722 c fun s => s.runAt c fun s =>
    s.finishData c (((List.range 24).flatMap fun st => bytesLE 4 (Config.offsetK st))
      ++ ((List.range 409).flatMap fun i => bytesLE 4 (Config.thermalC i + 1) ++ bytesLE 4 (Config.thermalG i))
      ++ bytesLE 4 Config.brassR
      ++ (List.range 421).flatMap fun i => bytesLE 4 (BitVec.ofInt 32 (Config.modelDiff i)).toNat) {})

end Sys2Proof.Machine
end

