-- ==== Sys2Proof/Machine/Facility.lean ====
section
/-! DEFINITION. Sys2Proof/Machine/Facility.lean: coolant flow and inlet temperature (R476 to R479), the facility port's frames and
their checks (R481 to R485), and the facility commands (R488). -/

namespace Sys2Proof.Machine

/-! ### Thermistors and flow (R476 to R478) -/

/-- Volumetric heat capacity of the coolant, J/(L·K) (R476). -/
def FacState.capacity (f : FacState) : Nat := if f.pg25 then 3930 else 4150

/-- Flow estimate of one sample, 0.01 L/min, where it is valid (R476). -/
def State.flowEstimate (s : State) : Option Nat :=
  let rise := s.fac.outlet - s.fac.inlet
  if 600 ≤ s.power.watts && 100 ≤ rise then some (600000 * s.power.watts / (s.fac.capacity * rise.toNat)) else none

/-- Inlet band of R478, with its leave value above 45 °C. -/
def inletBandOf (old : Nat) (inlet : Int) : Nat :=
  if inlet < 1500 then 0
  else if 5000 < inlet then 4
  else if 4500 < inlet || (3 ≤ old && 4400 < inlet) then 3
  else if 4000 < inlet then 2 else 1

/-- Inlet limit of a band, W (R478). -/
def inletLimitOf (band : Nat) (inlet : Int) : Nat :=
  if band = 2 then ((360000 - 240 * (inlet - 4000)) / 100).toNat else if 3 ≤ band then 2400 else 3600

/-- What the inlet temperature asks for (R465, R469, R478). -/
def State.followInlet (s : State) : State :=
  let old := s.fac.inletBand
  let band := inletBandOf old s.fac.inlet
  let s : State := { s with
    fac := { s.fac with inletBand := band, inletLimit := inletLimitOf band s.fac.inlet }
    therm := { s.therm with inletCause := 3 ≤ band } }
  let s := if (band = 0 && old ≠ 0) || (3 ≤ band && old < 3) then s.raiseP Ev.inletTemp [i64 s.fac.inlet, w64 band] else s
  let s := s.setCoolant.followCauses
  if band = 4 then
    let n := s.free
    (({ s with free := n + 1 } : State).decide 7 0 (s.leastTime n)).syncAlarm
  else s

/-- THERMISTOR_SAMPLE (R475, R476): inlet and outlet in 0.01 °C. -/
def execThermistorSample (inlet outlet : Int) (s : State) : Host.Outcome State Fault Refusal :=
  .next (if !s.facOpen then s
    else
      let s : State := { s with fac := { s.fac with inlet := inlet, outlet := outlet } }
      let ests := match s.flowEstimate with
        | some q => (q :: s.fac.ests).take 100
        | none => []
      let s : State := { s with fac := { s.fac with ests := ests, estimated := meanOf ests, estValid := !ests.isEmpty } }
      s.followInlet)

/-- The flow used: the lower of those that are valid (R477). -/
def FacState.flowUsed (f : FacState) : Option Nat :=
  match f.repValid, f.estValid with
  | true, true => some (min f.reported f.estimated)
  | true, false => some f.reported
  | false, true => some f.estimated
  | false, false => none

/-- The two flows are valid and differ by more than 20 % of the reported one (R476). -/
def FacState.flowsDiffer (f : FacState) : Bool :=
  f.repValid && f.estValid && f.reported < 5 * ((f.reported : Int) - f.estimated).natAbs

/-- The trend after an update (R477). -/
def FacState.trendStep (f : FacState) : FacState :=
  let flows := (f.flowUsed :: f.flows).take 100
  let used := flows.filterMap id
  let trend := meanOf used
  let valid := !used.isEmpty
  let low := valid && (trend < 500 || (f.low && trend < 520))
  { f with
    flows := flows, trend := trend, trendValid := valid, low := low
    flowLimit := if low then 720 * trend / 100 else 3600
    disagree := if f.flowsDiffer then f.disagree + 1 else 0 }

/-- What the flow trend asks for (R465, R469, R477). -/
def State.followFlow (s : State) (wasLow : Bool) : State :=
  let f := s.fac
  let cause := f.trendValid && (f.trend < 450 || (s.therm.flowCause && f.trend < 470))
  let s := ({ s with therm := { s.therm with flowCause := cause } } : State).setCoolant
  let s := if f.low && !wasLow then (s.raiseP Ev.flowLow [w64 f.trend, w64 (10 * s.fac.limit)]).sendAlarm 6 else s
  let s := s.followCauses
  if f.trendValid && f.trend < 200 then
    let n := s.free
    (({ s with free := n + 1 } : State).decide 6 0 (s.leastTime n)).syncAlarm
  else s

/-- FLOW_TREND_UPDATE (R476, R477): every 100 ms. -/
def execFlowTrendUpdate (s : State) : Host.Outcome State Fault Refusal :=
  .next (if !s.facOpen then s
    else
      let wasLow := s.fac.low
      let s : State := { s with fac := s.fac.trendStep }
      let s := if s.fac.disagree = 100 then s.raiseP Ev.flowDisagree [w64 s.fac.reported, w64 s.fac.estimated] else s
      s.followFlow wasLow)

/-! ### Frames of the package (R481, R482) -/

/-- Requested flow, 0.01 L/min (R482). -/
def State.flowRequest (s : State) : Nat :=
  if s.therm.stage ≠ 0 then 660 else max 450 (5 * ((s.tick.forecast.max?).getD 42) / 3)

/-- Payload of VALVE_REQUEST (R482). -/
def State.valvePayload (s : State) : List Byte :=
  let st := if s.therm.halted then 5 else if s.therm.decided then 4 else if s.therm.stage = 2 then 3 else if s.therm.stage = 1 then 2
    else if s.therm.diodes.any (fun d => d.2.warm) then 1 else 0
  bytesLE 2 s.flowRequest ++ bytesLE 2 s.fac.estimated ++ bytesLE 2 (sbits 16 s.fac.outlet) ++ bytesLE 2 (sbits 16 s.fac.inlet)
    ++ bytesLE 2 s.power.watts ++ bytesLE 1 st ++ bytesLE 1 0

/-- VALVE_REQUEST (R481): 5 ms without a frame of the package. -/
def execValveRequest (s : State) : Host.Outcome State Fault Refusal :=
  .next (if !s.facOpen || !s.fac.waiting.isEmpty then s
    else
      let s := match s.fac.txAt with
        | some a => s.advanceTo (a + ms 5)
        | none => s
      s.sendFrame 0x81 s.valvePayload)

/-- REPLY_WINDOW_CLOSE (R481): the oldest frame that waits is sent after 20 µs of idle line. -/
def execReplyWindowClose (s : State) : Host.Outcome State Fault Refusal :=
  .next (if !s.facOpen then s
    else match s.fac.txAt with
      | none => s
      | some a =>
        let s := s.advanceTo (a + us 2020)
        match s.fac.waiting with
        | [] => s
        | (ty, p) :: r => ({ s with fac := { s.fac with waiting := r } } : State).putFrame (max s.time.now (a + us 2040)) ty p)

/-! ### Frames of the controller (R482 to R485) -/

/-- Payload bytes of a controller frame's type (R482). -/
def facLen (ty : Nat) : Option Nat := if ty = 3 then some 2 else if ty = 1 || ty = 2 || ty = 4 then some 4 else none

/-- A Reserved payload bit is set. -/
def facReserved (ty p : Nat) : Bool :=
  if ty = 1 || ty = 4 then p / 2 ^ 24 ≠ 0 else if ty = 2 then p / 2 ^ 16 ≠ 0 else p / 4 % 64 ≠ 0

/-- A field lies outside its range (R482, R483). -/
def facOutside (ty p : Nat) : Bool :=
  if ty = 1 then 3000 < p % 2 ^ 16 || 100 < p / 2 ^ 16 % 256
  else if ty = 2 then signedOf 16 p < -1000 || 8000 < signedOf 16 p
  else if ty = 3 then p % 4 = 3
  else 3 < p / 2 ^ 16 % 256

/-- Why a controller frame is a violation (R483), in the order of its table. -/
def State.facWrong (s : State) (f : List Byte) (inWindow : Bool) : Option Code :=
  let n := bnum f 3 1
  let ty := bnum f 2 1
  let p := bnum f 6 n
  let head := bnum f 4 2
  if f.length < 8 || f.length < 8 + n || crc16 (bslice f 2 (4 + n)) ≠ bnum f (6 + n) 2 then some Rs.facBadCrc
  else if bnum f 0 2 ≠ 0x5AA5 || facLen ty ≠ some n || f.length ≠ 8 + n || facReserved ty p then some Rs.facBadFrame
  else if !inWindow then some Rs.facWindow
  else if facOutside ty p then some Rs.facRange
  else if head / 1024 % 2 = 0 && head % 1024 ≠ s.bu.pkg.toNat then some Rs.facAddress
  else none

/-- Violations reach the count: the controller is marked suspect (R485). -/
def State.suspectCtrl (s : State) : State :=
  if s.fac.suspect || !s.fac.violWin.reached s.fac.suspectCount.toNat then s
  else
    let s : State := { s with fac := { s.fac with suspect := true, repValid := false } }
    (s.raiseP Ev.facSuspect [w64 s.fac.violWin.times.length]).sendAlarm 8

/-- One violation of the controller (R483). -/
def State.facViolation (s : State) (reason : Code) : State :=
  let w := s.fac.violWin.add s.time.now s.fac.suspectMs.toNat
  let s : State := { s with fac := { s.fac with viol := s.fac.viol + 1, violWin := w } }
  let s := if dueAfter w.lastEvent s.time.now (ms 1000) then
      let s := s.raiseP Ev.facViolation [w64 reason.toNat, w64 w.since]
      { s with fac := { s.fac with violWin := { w with since := 0, lastEvent := some s.time.now } } }
    else s
  s.suspectCtrl

/-- A valid frame makes the controller active, and its reported flow valid once there is one (R476, R484). -/
def State.facAccept (s : State) (f : List Byte) : State :=
  let frames := kvPut s.fac.frames (bnum f 2 1) f
  { s with fac := { s.fac with
    rx := s.fac.rx + 1, active := true, rxAt := some s.time.now, rxInvar := s.time.invar, frames := frames
    repValid := (kvFind frames 1).isSome } }

/-- A frame begins inside the reply window, 20 µs after its opening frame's end or later. -/
def State.intoWindow (s : State) : State :=
  match s.fac.txAt with
  | some a => if s.time.now < a + us 2020 then s.advanceTo (a + us 20) else s
  | none => s

/-- Receive a controller frame of a type: `k` is what its payload does. A suspect controller is ignored (R485). -/
def State.facReceive (s : State) (ty : Nat) (f : List Byte) (k : State → Nat → State) : State :=
  if !s.facOpen || s.fac.suspect then s
  else
    let inWindow := s.windowOpen
    let s := s.intoWindow
    match s.facWrong f inWindow with
    | some r => s.facViolation r
    | none => if bnum f 2 1 ≠ ty then s else k (s.facAccept f) (bnum f 6 (bnum f 3 1))

/-- FLOW_REPORT (R482); below 1.0 L/min it is sudden loss of flow (R479). -/
def execFlowReport (frame : List Byte) (s : State) : Host.Outcome State Fault Refusal :=
  .next (s.facReceive 1 frame fun s p =>
    let s : State := { s with fac := { s.fac with reported := p % 2 ^ 16 } }
    if p % 2 ^ 16 < 100 && s.cobaltActs then (s.loseFlow 1).syncAlarm else s)

/-- INLET_TEMP_FRAME (R482): shown and logged only (R478). -/
def execInletTempFrame (frame : List Byte) (s : State) : Host.Outcome State Fault Refusal :=
  .next (s.facReceive 2 frame fun s p => { s with fac := { s.fac with repInlet := signedOf 16 p } })

/-- PUMP_STATE (R482); stopped is sudden loss of flow (R479). -/
def execPumpState (frame : List Byte) (s : State) : Host.Outcome State Fault Refusal :=
  .next (s.facReceive 3 frame fun s p =>
    let s : State := { s with fac := { s.fac with pump := BitVec.ofNat 2 p } }
    if p % 4 = 2 && s.cobaltActs then (s.loseFlow 2).syncAlarm else s)

/-- ALARM (R482): logged. -/
def execAlarm (frame : List Byte) (s : State) : Host.Outcome State Fault Refusal :=
  .next (s.facReceive 4 frame fun s p => s.raiseP Ev.facAlarm [w64 (p % 2 ^ 16), w64 (p / 2 ^ 16 % 256)])

/-- FAC_SILENT (R484): 1,000 ms without a valid frame. -/
def execFacSilent (s : State) : Host.Outcome State Fault Refusal :=
  .next (if !s.facOpen || !s.fac.active then s
    else
      let s := s.advanceTo ((s.fac.rxAt.getD s.time.now) + ms 1000)
      ({ s with fac := { s.fac with active := false, repValid := false } } : State).raiseP Ev.facSilent [s.fac.rxInvar])

/-- The mark and the count of the controller are cleared (R485, R487); its last reported flow is valid while it is active (R476). -/
def State.clearCtrl (s : State) : State :=
  { s with fac := { s.fac with
    suspect := false, viol := 0, violWin := { s.fac.violWin with times := [] }
    repValid := s.fac.active && (kvFind s.fac.frames 1).isSome } }

/-- FAC_VIOL_SUSPECT_CLEAR (R487): writing 1 to `SUSPECT`. -/
def execFacViolSuspectClear (w : Word) (s : State) : Host.Outcome State Fault Refusal :=
  .next (if !s.barOpen || !bitAt w 32 then s else s.clearCtrl)

/-! ### Commands (R488) -/

/-- FAC_READ: the registers of R487, then the last valid frame of each type, 16 bytes each. -/
def execFacRead (c : Cmd) (s : State) : Host.Outcome State Fault Refusal :=
  .next (s.onCmd 0x0723 c fun s => s.runAt c fun s =>
    s.finishData c (s.regBytes 0x106000 0x40 ++ [1, 2, 3, 4].flatMap fun ty => padTo 16 (kvGet s.fac.frames ty [])) {})

/-- FAC_CLEAR. -/
def execFacClear (c : Cmd) (s : State) : Host.Outcome State Fault Refusal :=
  .next (s.onCmd 0x0724 c fun s => s.runAt c fun s => s.clearCtrl.finish c {})

end Sys2Proof.Machine
end

