-- ==== Sys2Proof/Machine/Guests.lean ====
section
/-! DEFINITION. Sys2Proof/Machine/Guests.lean: the guest sites (R501 to R511): their states, the firewall of their traffic and its
rates, their commands, faults and violations; and the test access port (R500). -/

namespace Sys2Proof.Machine

/-! ### Faults and violations (R508 to R510) -/

/-- Change a site. -/
def State.modGuest (s : State) (g : Nat) (f : Guest → Guest) : State := s.setGuest g (f (s.guest g))

/-- Send a message to a guest. -/
def State.toGuest (s : State) (g : Nat) (m : Msg) : State :=
  { s with out := { s.out with guest := s.out.guest ++ [(g, { m with src := s.self, dst := s.self, hops := 0 })] } }

/-- A guest is faulted and held in reset (R508). -/
def State.guestFault (s : State) (g : Nat) (cause : Code) : State :=
  ((s.guestExit g .faulted cause).modGuest g fun x => { x with cause := cause }).raiseP Ev.guestFault [w64 g, w64 cause.toNat]

/-- Violations reach the count: the guest is marked suspect and faulted (R510). -/
def State.suspectGuest (s : State) (g : Nat) : State :=
  let x := s.guest g
  if x.suspect || !x.violWin.reached x.suspectCount.toNat then s
  else
    let s := (s.modGuest g fun x => { x with suspect := true }).raiseP Ev.guestSuspect [w64 g, w64 x.violWin.times.length]
    s.guestFault g Rs.suspect

/-- One violation of a guest (R509). -/
def State.guestViolation (s : State) (g : Nat) (reason : Code) : State :=
  let x := s.guest g
  let w := x.violWin.add s.time.now x.suspectMs.toNat
  let s := s.setGuest g { x with viol := x.viol + 1, violWin := w }
  let s := if dueAfter w.lastEvent s.time.now (ms 1000) then
      (s.raiseP Ev.guestViolation [w64 g, w64 reason.toNat, w64 w.since]).modGuest g fun x =>
        { x with violWin := { w with since := 0, lastEvent := some s.time.now } }
    else s
  s.suspectGuest g

/-- Answer a guest's message. -/
def State.answerGuest (s : State) (g : Nat) (m : Msg) (status reason : Code) (operand : BitVec 64 := 0) (data : List Byte := []) :
    State := s.toGuest g (reply m status reason operand data)

/-- A message that R509 refuses: answered and counted. -/
def State.refuseGuest (s : State) (g : Nat) (m : Msg) (status reason : Code) : State :=
  (s.answerGuest g m status reason).guestViolation g reason

/-! ### The windows (R504) -/

/-- The windows of a site: while the two registers of one disagree, it admits nothing, and the accesses that it admitted as they last
agreed are those that only it would admit (R408, R409, R504). -/
def Guest.windows (x : Guest) : List GuestWin :=
  (x.wins.zip x.winsWere).map fun e => if (guestWin e.1).agree then guestWin e.1 else { guestWin e.2 with agree := false }

/-- A window covers an access and grants its right, seals aside. -/
def GuestWin.covers (k : GuestWin) (g n : Nat) (op : BitVec 8) : Bool :=
  k.lo ≤ g && g + n ≤ k.hi && (if op = Op.read then k.read else if op = Op.write then k.write else k.read && k.write)

/-- Bytes of a memory operation. -/
def guestBytes (m : Msg) : Nat := if m.op = Op.atomic then (if m.atype = 1 then 8 else 4) else m.length

/-- The address is one that R92 and R93 admit. -/
def State.guestAddr (s : State) (g n : Nat) : Bool :=
  let a := localArea (localOf g)
  let b := localArea (localOf g + (n - 1))
  g + n ≤ 2 ^ 56 && s.inDomain (pkgOf g) && localOf g + n ≤ 2 ^ 46 && a ≠ .hole && b ≠ .hole

/-- Every window pair of a site is used by an access (R408). -/
def State.useWindows (s : State) (g : Nat) : State :=
  (List.range 8).foldl (fun (s : State) w =>
    let base := 0x3F0000000000 + 0x108000 + 0x1000 * g + 0x100 + 0x10 * w
    let e := ((s.guest g).wins[w]?).getD (0, 0)
    s.coupledUse (windowKey g w) (guestWin e).agree base (base + 8) (pkgUnit s.self)) s

/-! ### Memory operations (R502, R504, R505) -/

/-- The physical message of an admitted operation (R335, R502). -/
def State.guestPhys (s : State) (m : Msg) : Msg := { m with src := s.self, dst := pkgOf m.gaddr, srcUnit := pkgUnit s.self, hops := 15 }

/-- Carry out an admitted operation here (R335, R382). -/
def State.guestHere (s : State) (g : Nat) (m : Msg) : State :=
  let p := s.guestPhys m
  if m.op = Op.read then
    match (readAsked p).result s with
    | (.ok (b, bad), s') => s'.answerGuest g m (if bad then St.poisoned else St.ok) 0 0 b
    | (.error e, s') => s'.answerGuest g m e.status e.reason
  else if m.op = Op.write then
    match (writeOrdinary p).result s with
    | (.ok _, s') => s'.answerGuest g m St.ok 0
    | (.error e, s') => s'.answerGuest g m e.status e.reason
  else
    match (applyAtomic p).result s with
    | (.ok old, s') => s'.answerGuest g m St.ok 0 (w64 old)
    | (.error e, s') => s'.answerGuest g m e.status e.reason

/-- The firewall's check of one operation, and the operation (R504). -/
def State.guestAccess (s : State) (g : Nat) (m : Msg) : State :=
  let s := s.useWindows g
  let l := (s.guest g).windows.filter fun k => k.covers m.gaddr (guestBytes m) m.op
  if l.isEmpty || !s.guestAddr m.gaddr (guestBytes m) then s.refuseGuest g m St.range Rs.guestWindow
  else if !l.any (·.agree) then s.answerGuest g m St.configMismatch 0
  else if pkgOf m.gaddr = s.self then s.guestHere g m
  else match s.pathStop (pkgOf m.gaddr) with
    | some (st, rs) => s.answerGuest g m st rs
    | none => s.request (s.guestPhys m) (.guest g m.txn)

/-- A site's credits let an operation pass now (R505). -/
def Guest.passes (x : Guest) (m : Msg) : Bool :=
  if m.op = Op.read then x.rdGbps ≠ 0 && m.length ≤ x.rdCredit else x.wrGbps ≠ 0 && guestBytes m ≤ x.wrCredit

/-- A site's credits after an operation. -/
def Guest.spend (x : Guest) (m : Msg) : Guest :=
  if m.op = Op.read then { x with rdCredit := x.rdCredit - m.length } else { x with wrCredit := x.wrCredit - guestBytes m }

/-- An operation must stay behind one that waits: the same direction, or both `ORDERED` (R336, R502). -/
def guestBehind (m w : Msg) : Bool := ((m.op = Op.read) = (w.op = Op.read)) || (m.ordered && w.ordered)

/-- Let the operations that wait pass as far as credit goes, in arrival order (R505). -/
def State.guestDrain (s : State) (g : Nat) : List Msg → List Msg → State
  | [], kept => s.modGuest g fun x => if x.state = .up then { x with waiting := kept } else x
  | m :: r, kept =>
    if (s.guest g).state = .up && (s.guest g).passes m && !kept.any (guestBehind m) then
      State.guestDrain ((s.modGuest g fun x => x.spend m).guestAccess g m) g r kept
    else State.guestDrain s g r (kept ++ [m])

/-- A site's traffic as time has refilled its credits (R505). -/
def State.guestFlow (s : State) (g : Nat) : State :=
  if (s.guest g).state ≠ .up then s
  else
    let s := s.modGuest g fun x => x.refill s.time.now
    s.guestDrain g (s.guest g).waiting []

/-- Nothing is commanded: time passes, and guests' traffic that waits for credit may go on. -/
def State.passCycle (s : State) : State := (s.idle.guestFlow 0).guestFlow 1

/-! ### Receiving (R502, R503, R509) -/

/-- A field lies outside R502, whatever the opcode. -/
def State.guestBad (s : State) (m : Msg) : Bool :=
  !m.reservedZero || !m.lengthOk || m.src ≠ s.self || m.dst ≠ s.self || m.hops ≠ 0 || m.srcUnit ≠ 0 || m.dva ≠ 0 || m.job ≠ 0
    || 8192 < m.length || m.arrEn || m.arrFinal || m.phys ≠ (1 ≤ m.op.toNat && m.op.toNat ≤ 3)

/-- What a guest's message meets before its own effect: its class is bit `cls` of `ALLOW`, none for one that always passes. -/
def State.guestIn (s : State) (g : Nat) (op : BitVec 8) (cls : Option Nat) (form : Bool) (m : Msg) (k : State → State) : State :=
  if 2 ≤ g || (s.guest g).state ≠ .up || !s.clocksRun then s
  else
    let s := s.guestFlow g
    let known := [0x01, 0x02, 0x03, 0x06, 0x20, 0x21].contains m.op.toNat
    if !m.crcOk then s.refuseGuest g m St.peerViolation Rs.badCrc
    else if 0x80 ≤ m.op.toNat then s.guestViolation g 0
    else if !known then s.refuseGuest g m St.peerViolation Rs.badMessage
    else if m.op ≠ op then s
    else if s.guestBad m || !form then s.refuseGuest g m St.peerViolation Rs.badMessage
    else match cls with
      | some b => if bitAt (s.guest g).allow b then k s else s.refuseGuest g m St.peerViolation Rs.guestClass
      | none => k s

/-- A memory operation joins the site's traffic. -/
def State.guestMemory (s : State) (g : Nat) (m : Msg) : State :=
  (s.modGuest g fun x => { x with waiting := x.waiting ++ [m] }).guestFlow g

/-- GUEST_READ (R503, R504). -/
def execGuestRead (g : Nat) (m : Msg) (s : State) : Host.Outcome State Fault Refusal :=
  .next (s.guestIn g Op.read (some 0) (m.length ≠ 0 && m.data.isEmpty) m fun s => s.guestMemory g m)

/-- GUEST_WRITE (R503, R504). -/
def execGuestWrite (g : Nat) (m : Msg) (s : State) : Host.Outcome State Fault Refusal :=
  .next (s.guestIn g Op.write (some 1) (m.length ≠ 0 && m.length = m.data.length && m.operand = 0 && m.operand2 = 0) m fun s =>
    s.guestMemory g m)

/-- GUEST_ATOMIC (R331, R503, R504). -/
def execGuestAtomic (g : Nat) (m : Msg) (s : State) : Host.Outcome State Fault Refusal :=
  .next (s.guestIn g Op.atomic (some 2) (m.length = 0 && m.aop ≠ 3 && m.atype ≠ 3) m fun s => s.guestMemory g m)

/-- GUEST_CONTROL (R503, R506): one Normor command waits for its ring to fetch it. The command is numbered apart from the host's
own commands of the ring. -/
def execGuestControl (g : Nat) (m : Msg) (s : State) : Host.Outcome State Fault Refusal :=
  .next (s.guestIn g Op.control (some 3) (m.length = 64 && m.data.length = 64) m fun s =>
    let x := s.guest g
    if !x.has x.ring.toNat then s.refuseGuest g m St.peerViolation Rs.guestClass
    else
      let c : Cmd := { decodeCmd (16 * (g + 1) + x.ring.toNat) (descOf m.data) with guest := some g }
      s.modGuest g fun x => { x with cmdQueue := x.cmdQueue ++ [(c, m.txn)] })

/-- GUEST_EVENT (R503): posted with its 32 bytes. -/
def execGuestEvent (g : Nat) (m : Msg) (s : State) : Host.Outcome State Fault Refusal :=
  .next (s.guestIn g 0x20 (some 4) (m.length = 32 && m.data.length = 32) m fun s =>
    s.raiseP Ev.guestMessage (w64 g :: (List.range 4).map fun i => w64 (bnum m.data (8 * i) 8)))

/-- A guest's diode shows its report, which raises THERMAL_WARNING only (R457); at what temperature, the spec does not say. -/
def State.guestTemp (s : State) (g : Nat) (t : Int) : State :=
  let warm := Config.freeBool s.free
  let was := (s.diode (421 + g)).warm
  let s := ({ s with free := s.free + 1 } : State).modDiode (421 + g) fun d => { d with
    temp := t, raw := t, warm := warm, state := if warm then .warning else .normal }
  if warm && !was then s.raiseP Ev.thermalWarning [w64 (421 + g), i64 t] else s

/-- GUEST_TEMP (R503, R508). -/
def execGuestTemp (g : Nat) (m : Msg) (s : State) : Host.Outcome State Fault Refusal :=
  .next (s.guestIn g 0x21 none (m.length = 0 && m.data.isEmpty) m fun s =>
    let t := m.operand.toInt
    let s := (s.modGuest g fun x => { x with tempAt := s.time.now }).guestTemp g t
    let s := if deg (s.guest g).sdC ≤ t then s.guestFault g Rs.guestHot else s
    s.syncAlarm)

/-! ### States (R507, R508) -/

/-- GST_CTL_WRITE (R507): 1 holds the guest in reset; 0 releases one that is in reset, and training begins. -/
def execGstCtlWrite (g : Nat) (w : Word) (s : State) : Host.Outcome State Fault Refusal :=
  .next (if !s.barOpen || 2 ≤ g then s
    else
      let hold := bitAt w 0
      let s := s.modGuest g fun x => { x with reset := hold }
      let st := (s.guest g).state
      if st = .absent then s
      else if hold then if st = .reset then s else s.guestExit g .reset Rs.guestReset
      else if st = .reset && s.clocksRun && s.bu.ready && !s.therm.halted then
        s.modGuest g fun x => { x with state := .training, trainAt := some (s.time.now + ms 100) }
      else s)

/-- GUEST_LINK_TRAIN_END (R507): a link of 8 or 16 lanes within 100 ms, or a fault. -/
def execGuestLinkTrainEnd (g lanes : Nat) (s : State) : Host.Outcome State Fault Refusal :=
  .next (if 2 ≤ g || (s.guest g).state ≠ .training || !s.clocksRun then s
    else
      let last := ((s.guest g).trainAt).getD s.time.now
      if (lanes = 8 || lanes = 16) && s.time.now ≤ last then
        (s.modGuest g fun x => { x with
          state := .up, width := BitVec.ofNat 5 lanes, trainAt := none, tempAt := s.time.now, throttleAt := none }).raiseP
          Ev.guestUp [w64 g, w64 lanes]
      else (s.advanceTo last).guestFault g Rs.guestLink)

/-- GUEST_LINK_LOSS (R507): the site trains again. -/
def execGuestLinkLoss (g : Nat) (s : State) : Host.Outcome State Fault Refusal :=
  .next (if 2 ≤ g || (s.guest g).state ≠ .up || !s.clocksRun then s
    else (s.guestExit g .training Rs.guestLink).modGuest g fun x => { x with trainAt := some (s.time.now + ms 100) })

/-- GST_RING_WRITE (R506): commands that wait for a ring no longer granted are gone. -/
def execGstRingWrite (g : Nat) (w : Word) (s : State) : Host.Outcome State Fault Refusal :=
  .next (if !s.barOpen || 2 ≤ g then s
    else s.modGuest g fun x =>
      let same := x.grant = bitAt w 0 && x.ring = bits 4 w 1
      { x with grant := bitAt w 0, ring := bits 4 w 1, cmdQueue := if same then x.cmdQueue else [] })

/-- GST_VIOL_SUSPECT_CLEAR (R510, R511): writing 1 to `SUSPECT`. -/
def execGstViolSuspectClear (g : Nat) (w : Word) (s : State) : Host.Outcome State Fault Refusal :=
  .next (if !s.barOpen || 2 ≤ g || !bitAt w 32 then s
    else s.modGuest g fun x => { x with suspect := false, viol := 0, violWin := { x.violWin with times := [] } })

/-- GUEST_SILENCE (R508): 100 ms without GUEST_TEMP while UP. -/
def execGuestSilence (g : Nat) (s : State) : Host.Outcome State Fault Refusal :=
  .next (if 2 ≤ g || (s.guest g).state ≠ .up || !s.clocksRun then s
    else (s.advanceTo ((s.guest g).tempAt + ms 100)).guestFault g Rs.guestSilent)

/-- Power cap of a site, W (R511). -/
def Guest.cap (x : Guest) : Nat := min 40 x.capW.toNat

/-- GUEST_POWER_CHECK (R508): the site's power as Brass measures it. Above the cap, 10 ms pass and GUEST_THROTTLE goes out; still
above it 100 ms later, the guest is faulted. -/
def execGuestPowerCheck (g watts : Nat) (s : State) : Host.Outcome State Fault Refusal :=
  .next (if 2 ≤ g || !s.facOpen || (s.guest g).state = .absent then s
    else
      let s := s.modGuest g fun x => { x with measW := BitVec.ofNat 8 (min 255 watts) }
      let x := s.guest g
      if watts ≤ x.cap || x.state ≠ .up then s.modGuest g fun x => { x with throttleAt := none }
      else match x.throttleAt with
        | none =>
          let s := s.advanceTo (s.time.now + ms 10)
          (s.modGuest g fun x => { x with throttleAt := some s.time.now }).toGuest g { op := 0x23, operand := w64 x.cap }
        | some a => (s.advanceTo (a + ms 100)).guestFault g Rs.guestPower)

/-! ### Test access (R500) -/

/-- S1 has not run since power-on or package reset. -/
def State.beforeS1 (s : State) : Bool := s.bu.done = 0 && !(s.bu.busy && !s.bu.resetting) && (kvFind s.bu.results 1).isNone

/-- Take a test instruction; what it drives stops with the one before it. -/
def State.setTap (s : State) (ir : TapIr) (dr : BitVec 64) : State :=
  { s with tap := { s.tap with ir := ir, dr := dr, driving := false } }

/-- BYPASS: one bit, captured as 0. -/
def execBypass (s : State) : Host.Outcome State Fault Refusal := .next (if !s.bu.powered then s else s.setTap .bypass 0)

/-- IDCODE. -/
def execIdcode (s : State) : Host.Outcome State Fault Refusal := .next (if !s.bu.powered then s else s.setTap .idcode 0x1E2439E7)

/-- SAMPLE_PRELOAD: the contacts are captured, in an order that the spec does not give (free), and `b` is preloaded. -/
def execSamplePreload (b : Word) (s : State) : Host.Outcome State Fault Refusal :=
  .next (if !s.bu.powered then s
    else
      let q := s.freeVal 64
      let s := q.2.setTap .samplePreload q.1
      { s with tap := { s.tap with boundary := b } })

/-- EXTEST: the boundary register drives the contacts before S1 has run; after that it acts as BYPASS. -/
def execExtest (b : Word) (s : State) : Host.Outcome State Fault Refusal :=
  .next (if !s.bu.powered then s
    else if !s.beforeS1 then s.setTap .extest 0
    else
      let q := s.freeVal 64
      let s := q.2.setTap .extest q.1
      { s with tap := { s.tap with boundary := b, driving := true } })

end Sys2Proof.Machine
end

