-- ==== Sys2Proof/Machine/Tick.lean ====
section
/-! DEFINITION. Sys2Proof/Machine/Tick.lean: the tick and what happens at it (R33 to R37, R43, R44, R52, R54, R60), the done sample
and overrun (R46 to R48), the step's end and its report (R50), and the energy forecast (R62 to R64). -/

namespace Sys2Proof.Machine

/-! ### The forecast (R62, R63) -/

/-- Estimated energy of a plan: its own, or the mean measured over the tile's last 16 plans (R62). -/
def Tile.planUj (x : Tile) (p : Plan) : Nat := if p.energyUj = 0 then meanOf x.energies else p.energyUj

/-- The plan of a tile for a logical step. -/
def Tile.planFor (x : Tile) (step : Nat) : Option Plan := x.queue.find? fun p => p.step = step

/-- Period in force at a wall step under a record (R33, R52). -/
def Schedule.periodAt (r : Schedule) (w : Nat) : Nat :=
  match r.change with
  | some (us_, m) => if m ≤ w then us_ else r.periodUs
  | none => r.periodUs

/-- Estimates of the plans that count for the forecast's entry `k`: the step's that runs, or those that will be due. -/
def State.entryUj (s : State) (k : Nat) : List Nat :=
  let due := s.tick.wall + k - (s.tick.lag - s.tick.realign)
  s.tiles.filterMap fun e =>
    if !e.2.unit.inService then none
    else if k = 0 then (if s.tick.step.isSome then e.2.running.map e.2.planUj else none)
    else (e.2.planFor due).map e.2.planUj

/-- Entry `k` of the forecast, in 10 W units (R62). -/
def State.forecastEntry (s : State) (k : Nat) : Nat :=
  match s.entryUj k with
  | [] => 42
  | l =>
    let w := l.sum * s.tick.calibration / 65536 / max 1 (s.tick.sched.periodAt (s.tick.wall + k))
    min 65535 ((w + Config.baselineMw / 1000) / 10)

/-- Cobalt recomputes the forecast (R62). -/
def State.reforecast (s : State) : State :=
  if s.cobaltActs then { s with tick := { s.tick with forecast := (List.range 64).map s.forecastEntry } } else s

/-- Payload of a POWER_FORECAST frame (R482). -/
def State.forecastPayload (s : State) : List Byte :=
  bytesLE 6 s.tick.wall ++ bytesLE 2 0 ++ bytesLE 8 (s.tick.sched.tickTime s.tick.wall).toNat ++ bytesLE 4 s.tick.sched.periodUs
    ++ bytesLE 2 (s.effCap / 10) ++ bytesLE 2 0 ++ s.tick.forecast.flatMap fun e => bytesLE 2 e

/-- The forecast goes to the facility at a tick, no more often than once in 5 ms (R64). -/
def State.sendForecast (s : State) : State :=
  if !s.cobaltActs || !dueAfter s.fac.forecastAt s.time.now (ms 5) then s
  else ({ s with fac := { s.fac with forecastAt := some s.time.now } } : State).sendFrame 0x82 s.forecastPayload

/-- The calibration factor after a step, in 1/65536 (R63); a step whose plans have no estimate leaves it. -/
def TickState.calibrate (k : TickState) (energy estimate : Nat) : TickState :=
  if estimate = 0 then k
  else
    let ratio : Int := (energy * 65536 / estimate : Nat)
    let c : Int := k.calibration + (ratio - k.calibration) / 16
    { k with calibration := (min 131072 (max 32768 c)).toNat }

/-! ### The end of a step (R46, R50) -/

/-- Measured energy of a tile's plan so far: what counter 18 has gained (R62, R447). -/
def Tile.gained (x : Tile) : Nat := (kvGet x.counters 18 0 - x.energyMark).toNat

/-- A tile's plan is over with its step: its measured energy is kept. -/
def Tile.endPlan (x : Tile) : Tile :=
  let e := x.gained
  { x with
    energies := (e :: x.energies).take 16
    history := x.history.map fun h => if h.step = x.planStep then { h with energy := e } else h }

/-- The tick ends the step whose plans ran, if there is one: its report is to come (R50). -/
def State.endStep (s : State) : State :=
  match s.tick.step with
  | none => s
  | some r =>
    let ran := s.tiles.filter fun e => e.2.running.isSome && e.2.planWall = r.wallAtStart
    let bad := ran.filter fun e => !e.2.planOutc.good
    let energy := s.power.energyIn - r.energyStart
    let map := BitVec.ofNat 64 (bitsOn (((ran.filter fun e => e.2.planOutc.status ≠ St.ok).map fun e => e.1 / 64).dedup))
    let s := ran.foldl (fun (s : State) e => s.modTile e.1 Tile.endPlan) s
    let e : StepEnd := { run := r, energy := energy, partialSeen := !bad.isEmpty, stackMap := map }
    { s with tick := ({ s.tick with step := none, reports := s.tick.reports ++ [e] } : TickState).calibrate energy r.estimate }

/-- A tile's KV_SPILL for each logical step whose appends spilled (R225). -/
def State.spillEvent (s : State) (t : TileRef) : State :=
  (s.tile t).spillSteps.foldl (fun (s : State) e => s.raise Ev.kvSpill (s.tileId t) [w64 e.1, w64 e.2])
    (s.modTile t fun x => { x with spillSteps := [] })

/-! ### Starting plans (R43, R44, R46) -/

/-- The log entries of a plan that starts read `DONE` 0 (R128). -/
def clearDone (m : List Host.Cell) (base n : Nat) : List Host.Cell :=
  m.filterMap fun e =>
    if base ≤ e.1 && e.1 < base + 16 * n && (e.1 - base) % 16 = 2 then
      (if e.2 &&& 0xFE = 0 then none else some (e.1, e.2 &&& 0xFE))
    else some e

/-- A tile starts a plan at tick `n` (R36, R118, R258, R259). -/
def Tile.startPlan (x : Tile) (p : Plan) (n now core : Nat) : Tile :=
  { x with
    queue := x.queue.filter fun q => q.step ≠ p.step
    running := some p, planStep := p.step, planWall := n, planAt := now, planCore := core, admitted := 0, completed := 0
    started := p.step :: x.started
    planOutc := {}, planOuts := [], sems := [], fill := none, energyMark := kvGet x.counters 18 0
    pewter := { x.pewter with vslots := [], seqs := x.pewter.seqs.filter fun q => !q.done } }

/-- Start one tile's plan. -/
def State.startTile (s : State) (t : TileRef) (p : Plan) (n : Nat) : State :=
  let s := (s.endFill t).modTile t fun x => x.startPlan p n s.time.now (s.coreNow x)
  let s : State := { s with mem := clearDone s.mem (logAddr (s.tile t) p.step 0) p.descs.length }
  s.useContext (p.job.toNat % 4096)

/-- Every plan due at tick `n` starts; the tiles in service that have none run nothing (R43, R44). -/
def State.startPlans (s : State) (n : Nat) : State :=
  let logical := n - s.tick.lag
  let up := s.tilesUp
  let due := up.filterMap fun t => ((s.tile t).planFor logical).map fun p => (t, p)
  let missing := ((up.filter fun t => ((s.tile t).planFor logical).isNone).map (· / 64)).dedup
  let run : StepRun := {
    logical := logical, wallAtStart := n, jobs := ((due.map fun e => e.2.job).dedup), configMismatch := s.tick.paceMismatch
    throttled := s.tick.stepRatio ≠ 0, energyStart := s.power.energyIn
    estimate := (due.map fun e => (s.tile e.1).planUj e.2).sum }
  let s : State := { s with
    tiles := s.tiles.map fun e =>
      (e.1, { e.2 with running := none, dmaHalted := if due.isEmpty then e.2.dmaHalted else 0 })
    tick := { s.tick with latched := some logical } }
  let s := due.foldl (fun (s : State) e => s.startTile e.1 e.2 n) s
  let s : State := if due.isEmpty then s
    else { s with
      tick := { s.tick with step := some run, paceMismatch := false }
      twin := { s.twin with fresh := false } }
  if missing.isEmpty then s else s.raiseP Ev.planMissing [w64 (bitsOn missing)]

/-- Discard the queued plans that a realignment passes over: PLAN_STATUS reports them ABORTED (R49). -/
def Tile.passOver (x : Tile) (old new : Nat) : Tile :=
  let gone := x.queue.filter fun p => old ≤ p.step && p.step < new
  { x with
    queue := x.queue.filter fun p => !(old ≤ p.step && p.step < new)
    history := ((gone.map fun p => ({ step := p.step, job := p.job, outc := outc St.aborted 0, energy := 0 } : PlanHist)).reverse
      ++ x.history).take 16 }

/-! ### The tick (R36, R47) -/

/-- Least tick number whose time under a record is not past (R37). -/
def Schedule.nextFrom (r : Schedule) (inv : Nat) : Nat :=
  if inv ≤ r.baseTime then r.baseStep else r.baseStep + ceilDiv (inv - r.baseTime) (max 1 (r.periodUs * 1000))

/-- Number of the last tick of a record at a time (R54); the step before its base when none has come. -/
def Schedule.lastAt (r : Schedule) (inv : Nat) : Nat :=
  if inv < r.baseTime then r.baseStep - 1 else r.baseStep + (inv - r.baseTime) / max 1 (r.periodUs * 1000)

/-- A record whose pending change has come by a time, as it is from then on (R52). -/
def Schedule.rolled (r : Schedule) (inv : Nat) : Schedule :=
  match r.change with
  | some (us_, m) =>
    if (r.tickTime m).toNat ≤ inv then { r with baseStep := m, baseTime := (r.tickTime m).toNat, periodUs := us_, change := none }
    else r
  | none => r

/-- The number of the tick that comes, or none where a late record withholds it; the lag counts what it jumps (R54). -/
def State.numberTick (s : State) : State × Option Nat :=
  let n := s.tick.nextTick
  match s.tick.oldSched with
  | none => (s, some n)
  | some _ =>
    let inv := s.time.invar.toNat
    let r := s.tick.sched.rolled inv
    let w := r.lastAt inv
    let r := if s.tick.sched.change.map Prod.snd = some w then s.tick.sched else r
    let s : State := { s with tick := { s.tick with sched := r, oldSched := none } }
    if w ≤ s.tick.wall || 2 ^ 48 ≤ w then (s, none)
    else if w ≤ n then (s, some w)
    else (({ s with tick := { s.tick with lag := s.tick.lag + (w - n) } } : State).raiseP Ev.tickRealigned [w64 (w - n)], some w)

/-- The period changes at its effective step (R52). The root's record takes a new version with it. -/
def State.changePeriod (s : State) (n : Nat) : State :=
  match s.tick.sched.change with
  | some (us_, m) =>
    if m ≠ n then s
    else
      let r := s.tick.sched
      let r : Schedule := {
        baseStep := m, baseTime := (r.tickTime m).toNat, periodUs := us_, change := none
        version := if s.isRoot then r.version + 1 else r.version }
      ({ s with tick := { s.tick with sched := r } } : State).raiseP Ev.tickPeriodChanged []
  | none => s

/-- A waiting realignment takes effect (R49). -/
def State.realignNow (s : State) (n : Nat) : State :=
  if s.tick.realign = 0 then s
  else
    let old := n - s.tick.lag
    let lag := s.tick.lag - s.tick.realign
    { s with
      tick := { s.tick with lag := lag, realign := 0 }
      tiles := s.tiles.map fun e => (e.1, e.2.passOver old (n - lag)) }

/-- What each tile and rail starts anew at a tick (R445, R447, R449, R450). -/
def State.freshStep (s : State) : State :=
  { s with
    tiles := s.tiles.map fun e => (e.1, { e.2 with
      actMark := e.2.activity, spans := e.2.spans.filter fun p => s.time.now < p.stop + us 64, droopStep := 0 })
    power := { s.power with rails := s.power.rails.map Rail.step } }

/-- The tick is skipped: the lag grows, up to the wall step (R39, R47). -/
def State.skipTick (s : State) (n : Nat) (done agree : Bool) : State :=
  let k := { s.tick with lag := min (s.tick.lag + 1) n }
  let k : TickState := if done then (if agree then k else { k with paceMismatch := true })
    else { k with skips := k.skips + 1, step := k.step.map fun r => { r with skipped := true } }
  { s with tick := k }

/-- A ratio in force at a tick holds for the step (R60): a step that runs on under one is throttled. -/
def TickState.takeRatio (k : TickState) (agree : Bool) : TickState :=
  if !agree then k
  else { k with
    stepRatio := k.paceRatio
    step := k.step.map fun r => { r with throttled := r.throttled || k.paceRatio ≠ 0 } }

/-- A guest that may have them gets a notice of the tick (R503). -/
def State.noticeGuest (s : State) (g : Nat) : State :=
  if (s.guest g).state = .up && (s.guest g).allow.getLsbD 5 then
    s.toGuest g { op := 0x22, operand := w64 s.tick.wall, operand2 := w64 s.logicalStep }
  else s

/-- The rest of a tick, whatever it started: the forecast, the notices, tails to be forwarded, and the grace comparison of a
deadline that has come (R62, R64, R358, R466, R503). -/
def State.afterTick (s : State) : State :=
  let s : State := { s with tiles := s.tiles.map fun e =>
    (e.1, { e.2 with tailDue := e.2.tailDue || !(e.2.kv.isEmpty && e.2.spills.isEmpty) }) }
  let s := s.reforecast.sendForecast
  let s := if s.cobaltActs && s.therm.stage = 1 && s.therm.deadline ≤ s.time.invar.toNat then s.graceCheck else s
  (s.noticeGuest 0).noticeGuest 1

/-- Tick `n` comes (R47): the step that is over ends, and the plans due start or the tick is skipped. -/
def State.deliverTick (s : State) (n : Nat) : State :=
  let first := !s.tick.running
  let last := s.logicalStep
  let s : State := { s with tick := { s.tick with wall := n, running := true } }
  let s := s.changePeriod n
  let s : State := { s with tick := { s.tick with times := ((n, s.tick.sched.tickTime n) :: s.tick.times.filter (·.1 < n)).take 64 } }
  let s := s.realignNow n
  let s := if first then { s with power := { s.power with tickEnergy := s.power.energyIn, tickAt := s.time.now } } else s.attribute last
  let s := s.freshStep
  let done := if s.tick.sampled then s.tick.sampleDone else s.allDone
  let s : State := { s with tick := { s.tick with sampled := false } }
  let s := if done then
      let s := s.endStep
      let s := (s.tiles.map Prod.fst).foldl (fun (s : State) t => s.spillEvent t) s
      { s with tick := { s.tick with skips := 0 } }
    else s
  let agree := s.tick.paceAgrees
  let s := s.coupledUse 8400 agree (0x3F0000000000 + 0x101018) (0x3F0000000000 + 0x101068) (pkgUnit s.self)
  let s : State := { s with tick := s.tick.takeRatio agree }
  let s := if s.therm.decided || !done || !agree then s.skipTick n done agree else s.startPlans n
  s.afterTick

/-- TICK (R36, R47). -/
def execTick (s : State) : Host.Outcome State Fault Refusal :=
  .next (if !s.clocksRun || !s.tick.hasSchedule then s
    else
      match s.nextTickAt with
      | none => s
      | some a =>
        match (s.advanceInvar a).numberTick with
        | (s', some n) => s'.deliverTick n
        | (s', none) => s')

/-- DONE_SAMPLE (R46): 2 µs before the next tick. -/
def execDoneSample (s : State) : Host.Outcome State Fault Refusal :=
  .next (if !s.clocksRun then s
    else match s.nextTickAt with
      | none => s
      | some a =>
        let s := s.advanceInvar (a - 2000)
        { s with tick := { s.tick with sampled := true, sampleDone := s.allDone } })

/-- Status of a step's report, in the order of R50. -/
def StepEnd.status (e : StepEnd) : Code :=
  if e.run.skipped then St.overrun
  else if e.run.configMismatch then St.configMismatch
  else if e.run.throttled then St.throttled
  else if e.partialSeen then St.partial else St.ok

/-- The job tags of a report, up to four from bit 0 (R401). -/
def jobTags (l : List (BitVec 16)) : Nat := natLE ((l.take 4).flatMap fun t => bytesLE 2 t.toNat)

/-- STEP_REPORT (R50): the oldest ended step's report. -/
def execStepReport (s : State) : Host.Outcome State Fault Refusal :=
  .next (if !s.brassRuns then s else match s.tick.reports with
    | [] => s
    | e :: r =>
      ({ s with tick := { s.tick with reports := r } } : State).raiseP Ev.stepReport
        [w64 e.run.logical, w64 e.run.wallAtStart, w64 (jobTags e.run.jobs), w64 e.energy, w64 e.status.toNat, e.stackMap])

/-- PLAN_LIMIT_ABORT (R48): every tile stops once the limit of skipped ticks has passed. -/
def execPlanLimitAbort (s : State) : Host.Outcome State Fault Refusal :=
  .next (if !s.clocksRun || s.tick.planLimit = 0 || s.tick.skips < s.tick.planLimit.toNat || s.allDone then s
    else
      let s := s.tilesUp.foldl (fun (s : State) t => s.stopTile t 0) s
      ({ s with tick := { s.tick with skips := 0 } } : State).raiseP Ev.planHung [])

end Sys2Proof.Machine
end

