-- ==== Sys2Proof/Machine/TimeSync.lean ====
section
/-! DEFINITION. Sys2Proof/Machine/TimeSync.lean: time transfer, the time root and parent, lock and holdover (R28 to R32, R338, R339),
the schedule record's adoption (R33, R37, R54), and the commands on the schedule and the forecast (R37, R49, R51, R53, R64, R65). -/

namespace Sys2Proof.Machine

/-! ### Frames sent (R338) -/

/-- The frame this package sends on a port now. -/
def State.timeFrame (s : State) (p : Nat) : TimeFrame :=
  let x := kvFind s.time.peers p
  let r := s.tick.sched
  { port := p, peer := s.self, txNs := s.time.invar
    echoTx := (x.map (·.txNs)).getD 0, echoRx := (x.map (·.rxNs)).getD 0
    root := s.time.root, locked := s.time.locked, rootHops := s.time.hops
    version := r.version, baseStep := BitVec.ofNat 48 r.baseStep, baseTime := w64 r.baseTime
    periodUs := BitVec.ofNat 18 r.periodUs
    newUs := BitVec.ofNat 18 ((r.change.map Prod.fst).getD 0)
    changeStep := BitVec.ofNat 48 ((r.change.map Prod.snd).getD 0) }

/-- The 64 data bytes of a frame (R338). -/
def frameBytes (f : TimeFrame) : List Byte :=
  bytesLE 8 f.txNs.toNat ++ bytesLE 8 f.echoTx.toNat ++ bytesLE 8 f.echoRx.toNat ++ bytesLE 2 (f.root % 1024 + f.locked.toNat * 2 ^ 10)
    ++ bytesLE 2 (f.rootHops % 2 ^ 11) ++ bytesLE 4 f.version.toNat ++ bytesLE 8 f.baseStep.toNat ++ bytesLE 8 f.baseTime.toNat
    ++ bytesLE 8 (f.periodUs.toNat + f.newUs.toNat * 2 ^ 18) ++ bytesLE 8 f.changeStep.toNat

/-- The TIME message of a frame, for the adjacent peer of its port alone (R320, R338). -/
def State.timeMsg (s : State) (f : TimeFrame) : Msg :=
  { op := 0x07, src := s.self, dst := (s.port f.port).peer, hops := 0, srcUnit := pkgUnit s.self, vc := 3, length := 64, data := frameBytes f }

/-- Send a frame on a port: its message queues on the control channel (R317, R338). -/
def State.sendTimeFrame (s : State) (p : Nat) : State :=
  let f := s.timeFrame p
  ({ s with out := { s.out with time := s.out.time ++ [f] } } : State).transmit p (s.timeMsg f)

/-- TIME_FRAME_SEND (R30, R338): a frame on every port that is up. -/
def execTimeFrameSend (s : State) : Host.Outcome State Fault Refusal :=
  .next (if !s.clocksRun || !s.time.treeOn then s else ((List.range 9).filter fun p => (s.port p).up).foldl State.sendTimeFrame s)

/-! ### The schedule record (R33) -/

/-- The record a frame carries. -/
def scheduleOf (f : TimeFrame) : Schedule :=
  { baseStep := f.baseStep.toNat, baseTime := f.baseTime.toNat, periodUs := f.periodUs.toNat, version := f.version
    change := if f.newUs = 0 then none else some (f.newUs.toNat, f.changeStep.toNat) }

/-- A period of R34, µs. -/
def periodOk (n : Nat) : Bool := 500 ≤ n && n ≤ 200000

/-- A step number of R35. -/
def stepOk (n : Nat) : Bool := n < 2 ^ 48 - 1

/-- A frame whose fields keep R33 and R34. -/
def recordOk (r : Schedule) : Bool :=
  periodOk r.periodUs && stepOk r.baseStep &&
    match r.change with
    | some (us_, m) => periodOk us_ && stepOk m && r.baseStep ≤ m
    | none => true

/-- Two records name the same ticks, their pending changes apart. -/
def Schedule.same (a b : Schedule) : Bool := a.baseStep = b.baseStep && a.baseTime = b.baseTime && a.periodUs = b.periodUs

/-- Adopt a record of a higher version (R33, R37). One whose effective step has passed without this package following it takes
effect at the next tick under the old record (R54). -/
def State.adoptRecord (s : State) (r : Schedule) : State :=
  if r.version.toNat ≤ s.tick.sched.version.toNat then s
  else
    let inv := s.time.invar.toNat
    let r := r.rolled inv
    if !s.tick.running then
      { s with tick := { s.tick with sched := r, hasSchedule := true, oldSched := none, first := r.nextFrom inv } }
    else if !r.same s.tick.sched && r.baseTime ≤ inv then
      { s with tick := { s.tick with sched := r, oldSched := some (s.tick.oldSched.getD s.tick.sched) } }
    else { s with tick := { s.tick with sched := r } }

/-! ### Root and parent (R29) -/

/-- The peer of a port may be the parent: the port is up, its package is not suspect, and it names the root. -/
def State.parentAble (s : State) (p : Nat) (x : TimePeer) : Bool :=
  (s.port p).up && !s.cornis.suspects.contains (s.port p).peer && x.root = s.time.root && x.rootHops ≠ 0x7FF

/-- Ports whose peers may be the parent, with their hops. -/
def State.parentPorts (s : State) : List (Nat × Nat) :=
  s.time.peers.filterMap fun e => if s.parentAble e.1 e.2 then some (e.1, e.2.rootHops) else none

/-- The port with the fewest hops; among equals the lowest-numbered. -/
def fewestHops : List (Nat × Nat) → Option (Nat × Nat)
  | [] => none
  | e :: r =>
    match fewestHops r with
    | some b => if b.2 < e.2 then some b else some e
    | none => some e

/-- Choose the parent and count the hops (R29, R339); a new parent loses the lock (R31). -/
def State.chooseParent (s : State) : State :=
  if s.time.root = s.self then { s with time := { s.time with parent := none, hops := 0, locked := true } }
  else
    let b := fewestHops s.parentPorts
    let parent := b.map Prod.fst
    let hops := match b with
      | some e => min 0x7FF (e.2 + 1)
      | none => 0x7FF
    if parent = s.time.parent then { s with time := { s.time with hops := hops } }
    else { s with time := { s.time with
      parent := parent, hops := hops, locked := false, goodExchanges := 0, parentAt := s.time.now } }

/-- Adopt a lower root that a frame names (R29). -/
def State.adoptRoot (s : State) (root : Nat) : State :=
  if root < s.time.root then
    { s with time := { s.time with root := root, rootAt := s.time.now, locked := false, goodExchanges := 0 } }
  else s

/-- R31 is met: the package is locked, which ends a holdover with INVAR_LOCKED (R32). -/
def State.lock (s : State) : State :=
  let was := s.time.holdover
  let s : State := { s with time := { s.time with locked := true, holdover := false } }
  if was then s.raiseP Ev.invarLocked [] else s

/-! ### Exchanges (R28, R31, R339) -/

/-- The offset a frame received at local time `rx` measures: the peer's count less the package's own (R339). -/
def measuredOffset (f : TimeFrame) (rx : BitVec 64) : Int :=
  (((f.echoRx.toNat : Int) - f.echoTx.toNat) - ((rx.toNat : Int) - f.txNs.toNat)) / 2

/-- The delay that such a frame measures (R339). -/
def measuredDelay (f : TimeFrame) (rx : BitVec 64) : Int :=
  (((rx.toNat : Int) - f.echoTx.toNat) - ((f.txNs.toNat : Int) - f.echoRx.toNat)) / 2

/-- Rate that an exchange leads to, ppm: in a holdover the package slews at the limit of R28 until it locks again (R32);
otherwise the rate of the filtered offset, held within that limit. -/
def State.rateOf (s : State) (o : Int) : Int :=
  if s.time.holdover then 100 * o.sign else min 100 (max (-100) (Config.rateFor o))

/-- An exchange with the parent: the filtered offset, the rate it leads to, and the lock test. The controller stamps the frame
with its head die's copy of the count (R24), which this model holds equal to the package's own. Before S12 completes Brass may
set the count to any value, so that it is free (R28). -/
def State.exchange (s : State) (f : TimeFrame) : State :=
  let m := measuredOffset f s.time.invar
  let o := Config.offsetFilter s.time.offset.toInt m
  let rate := s.rateOf o
  let good := if f.locked && (m - o).natAbs ≤ 10 then min 64 (s.time.goodExchanges + 1) else 0
  let s : State := { s with time := { s.time with
    offset := BitVec.ofInt 32 o, delay := BitVec.ofInt 64 (measuredDelay f s.time.invar), ratePpm := rate, goodExchanges := good, locked := s.time.locked && f.locked } }
  let s : State := if s.bu.done < 12 then
      let q := s.freeVal 64
      { q.2 with time := { q.2.time with invar := q.1 } }
    else s
  if good = 64 && !s.time.locked then s.lock else s

/-- A sound frame of a peer (R29 to R33). -/
def State.takeTime (s : State) (f : TimeFrame) : State :=
  let x : TimePeer := { root := f.root, rootHops := f.rootHops, locked := f.locked, version := f.version, txNs := f.txNs
                        rxNs := s.time.invar }
  let s : State := { s with time := { s.time with peers := kvPut s.time.peers f.port x } }
  if !s.time.treeOn then s
  else
    let s := (s.adoptRecord (scheduleOf f)).adoptRoot f.root
    let s : State := if f.root = s.time.root then { s with time := { s.time with rootAt := s.time.now } } else s
    let s := s.chooseParent
    if s.time.parent ≠ some f.port then s
    else
      let s : State := { s with time := { s.time with parentAt := s.time.now } }
      let s : State := if f.locked then s else { s with time := { s.time with locked := false, goodExchanges := 0 } }
      if f.echoTx = 0 then s else s.exchange f

/-- A frame below the version already had on its port, or with fields out of range (R340). -/
def State.badTime (s : State) (f : TimeFrame) : Bool :=
  (match kvFind s.time.peers f.port with
    | some x => f.version.toNat < x.version.toNat
    | none => false) || !recordOk (scheduleOf f)

/-- TIME (R338 to R341). -/
def execTime (f : TimeFrame) (s : State) : Host.Outcome State Fault Refusal :=
  .next (if !s.clocksRun || !(s.port f.port).up then s
    else
      let s := s.freeCredit f.port 3 1
      if f.port = 8 && f.peer ≠ s.twinPkg then s.msgViolation s.twinPkg 8 Viol.twinPort 0
      else if f.peer = s.self then s.ownSource f.port
      else
      let s := s.hearTwin f.peer
      if !f.crcOk then s.msgViolation f.peer f.port Viol.crc Rs.badCrc
      else if s.cornis.suspects.contains f.peer then s
      else if !f.reservedZero then s.msgViolation f.peer f.port Viol.message Rs.badMessage
      else if s.badTime f then s.linkViolation f.port Viol.time
      else s.takeTime f)

/-- PARENT_FRAME_SILENCE (R32): holdover at the last rate. -/
def execParentFrameSilence (s : State) : Host.Outcome State Fault Refusal :=
  .next (if !s.clocksRun || !s.time.treeOn || s.time.parent.isNone || s.time.holdover then s
    else
      let s := s.advanceTo (s.time.parentAt + ms 8)
      ({ s with time := { s.time with holdover := true, locked := false, goodExchanges := 0 } } : State).raiseP Ev.invarHoldover [])

/-- ROOT_FORGET (R29): the package takes itself as root again; what the peers said of their hops to the old one counts no more. -/
def execRootForget (s : State) : Host.Outcome State Fault Refusal :=
  .next (if !s.clocksRun || !s.time.treeOn || s.time.root = s.self then s
    else
      let s := s.advanceTo (s.time.rootAt + ms 10)
      let old := s.time.root
      let s : State := { s with time := { s.time with
        root := s.self, peers := s.time.peers.map fun e => (e.1, if e.2.root = old then { e.2 with rootHops := 0x7FF } else e.2)
        goodExchanges := 0 } }
      s.chooseParent.lock)

/-! ### Commands (R65) -/

/-- TICK_GET: all tick registers of R38. -/
def execTickGet (c : Cmd) (s : State) : Host.Outcome State Fault Refusal :=
  .next (s.onCmd 0x0301 c fun s => s.finishData c (s.regBytes 0x101000 0x78) {})

/-- Run a command on the schedule at the root: here, or by the control channel; NOT_READY when the root is unreachable (R51). -/
def State.atRoot (s : State) (c : Cmd) (here : State → State) : State :=
  if s.isRoot then here s
  else if ((s.cmdSlot c).map fun z => !z.members.isEmpty).getD true then s
  else match s.pathStop s.time.root with
    | some _ => s.finishWith c St.notReady Rs.portDown
    | none => s.passOn c s.time.root []

/-- Write a new record: its version rises (R33), and the forecast follows (R62). -/
def State.putRecord (s : State) (r : Schedule) : State :=
  ({ s with tick := { s.tick with sched := { r with version := s.tick.sched.version + 1 } } } : State).reforecast

/-- TICK_START at the root (R34, R35, R37). -/
def State.startTicks (s : State) (c : Cmd) : State :=
  let step := c.p0.toNat
  let base := c.p1.toNat
  if s.tick.hasSchedule then s.finishWith c St.rejected Rs.scheduleRunning
  else if !periodOk c.p2.toNat then s.finishWith c St.rejected Rs.badPeriod
  else if !stepOk step then s.finishWith c St.rejected Rs.badStep
  else if base < s.time.invar.toNat + 200000000 then s.finishWith c St.rejected Rs.tooSoon
  else
    let s := s.putRecord { baseStep := step, baseTime := base, periodUs := c.p2.toNat }
    ({ s with tick := { s.tick with hasSchedule := true, first := step } } : State).finish c {}

/-- TICK_START. -/
def execTickStart (c : Cmd) (s : State) : Host.Outcome State Fault Refusal :=
  .next (s.onCmd 0x0302 c fun s => s.atRoot c fun s => s.startTicks c)

/-- TICK_SET_PERIOD at the root (R51). -/
def State.setPeriod (s : State) (c : Cmd) : State :=
  let m := c.p1.toNat
  let r := s.tick.sched
  if !s.tick.hasSchedule then s.finishWith c St.notReady Rs.noSchedule
  else if !periodOk c.p0.toNat then s.finishWith c St.rejected Rs.badPeriod
  else if !stepOk m then s.finishWith c St.rejected Rs.badStep
  else if r.change.isSome then s.finishWith c St.rejected Rs.changePending
  else if m < r.baseStep || m < s.tick.wall + 16 || (r.tickTime m).toNat < s.time.invar.toNat + 200000000 then
    s.finishWith c St.rejected Rs.tooSoon
  else (s.putRecord { r with change := some (c.p0.toNat, m) }).finish c {}

/-- TICK_SET_PERIOD. -/
def execTickSetPeriod (c : Cmd) (s : State) : Host.Outcome State Fault Refusal :=
  .next (s.onCmd 0x0303 c fun s => s.atRoot c fun s => s.setPeriod c)

/-- TICK_CANCEL_CHANGE at the root (R53). -/
def State.cancelChange (s : State) (c : Cmd) : State :=
  let r := s.tick.sched
  if !s.tick.hasSchedule then s.finishWith c St.notReady Rs.noSchedule
  else match r.change with
    | none => s.finish c {}
    | some (_, m) =>
      if (r.tickTime m).toNat < s.time.invar.toNat + 100000000 then s.finishWith c St.rejected Rs.tooSoon
      else (s.putRecord { r with change := none }).finish c {}

/-- TICK_CANCEL_CHANGE. -/
def execTickCancelChange (c : Cmd) (s : State) : Host.Outcome State Fault Refusal :=
  .next (s.onCmd 0x0304 c fun s => s.atRoot c fun s => s.cancelChange c)

/-- STEP_REALIGN (R49): each package's lag falls at its next tick. -/
def execStepRealign (c : Cmd) (s : State) : Host.Outcome State Fault Refusal :=
  .next (s.onCmd 0x0305 c fun s => s.runPackages c fun s =>
    if s.tick.lag - s.tick.realign < c.p0.toNat then (s, outc St.rejected Rs.badCount, [])
    else (({ s with tick := { s.tick with realign := s.tick.realign + c.p0.toNat } } : State).reforecast, {}, []))

/-- FORECAST_READ (R62, R64): 64 entries of 16 bits. -/
def execForecastRead (c : Cmd) (s : State) : Host.Outcome State Fault Refusal :=
  .next (s.onCmd 0x0320 c fun s => s.runPackages c fun s => (s, {}, s.tick.forecast.flatMap fun e => bytesLE 2 e))

end Sys2Proof.Machine
end

