-- ==== Sys2Proof/Machine/Plans.lean ====
section
/-! DEFINITION. Sys2Proof/Machine/Plans.lean: loading, cancelling and reading step plans (R40 to R45, R50, R65), and the completion
of a device read of host memory (R391). -/

namespace Sys2Proof.Machine

/-! ### The plan table (R41) -/

/-- What PLAN_LOAD of a unit goes to: own tiles, and tiles, stacks and packages elsewhere, with their places; a group of another package
that an own group lists is opened by its owner's last records (R41, R75). `all` takes members out of service too. -/
def State.tableLeaves (s : State) (all : Bool) : Nat → BitVec 32 → Path → List (BitVec 32 × Path)
  | 0, _, _ => []
  | f + 1, u, path =>
    if unitLevel u = 1 || (unitLevel u ≤ 3 && unitPkg u ≠ s.self) then [(u, path)]
    else
      let n := (s.members u).length
      (if all then (List.range n).zip (s.members u) else s.liveMembers u).flatMap fun m =>
        State.tableLeaves s all f m.2 (path ++ [(m.1, n, m.2)])

/-- The leaves of a PLAN_LOAD's unit: a group of another package gets the command whole (R68). -/
def State.planLeaves (s : State) (all : Bool) (u : BitVec 32) : List (BitVec 32 × Path) :=
  if unitLevel u = 7 && unitPkg u ≠ s.self then [(u, [])] else s.tableLeaves all (s.depth + 4) u []

/-- The identifier of a leaf's first tile. -/
def firstTile (u : BitVec 32) : Nat :=
  match unitLevel u with
  | 1 => u.toNat
  | 2 => (tileUnit (unitPkg u) (64 * unitStack u)).toNat
  | 3 => (tileUnit (unitPkg u) 0).toNat
  | _ => 2 ^ 32

/-- Tiles of a leaf. -/
def leafTiles (u : BitVec 32) : Nat :=
  match unitLevel u with
  | 1 => 1
  | 2 => 64
  | 3 => 1536
  | _ => 0

/-- Place of a leaf's first tile in a plan table for all the leaves of a unit: tiles stand in ascending order (R41). -/
def tablePlace (leaves : List (BitVec 32)) (u : BitVec 32) : Nat :=
  ((leaves.filter fun k => firstTile k < firstTile u).map leafTiles).sum

/-- An entry of a plan table. -/
structure PlanEntry where
  source : BitVec 64
  count : Nat
  host : Bool
  skip : Bool
  reservedOk : Bool
  energyUj : Nat
  deriving DecidableEq, Repr

/-- The 16 bytes of an entry (R41). -/
def planEntry (b : List Byte) : PlanEntry :=
  let n := natLE b
  { source := w64 (n % 2 ^ 64), count := n / 2 ^ 64 % 2 ^ 15, host := n.testBit 80, skip := n.testBit 81
    reservedOk := !n.testBit 79 && n / 2 ^ 82 % 2 ^ 14 = 0, energyUj := n / 2 ^ 96 % 2 ^ 32 }

/-- The 64-byte descriptors of a list. -/
def descList (b : List Byte) : List (BitVec 512) := (chunks 64 b.length b).map fun x => BitVec.ofNat 512 (natLE x)

/-! ### Loading at one tile (R40 to R42) -/

/-- Why a tile refuses a plan (R42), in the order of its rows. -/
def State.planRefusal (s : State) (t : TileRef) (step : Nat) (e : PlanEntry) : Option Code :=
  let x := s.tile t
  if s.tick.latched.any (fun l => step ≤ l) then some Rs.stepPassed
  else if (x.planFor step).isSome then some Rs.planExists
  else if e.count = 0 || 16384 < e.count || !e.reservedOk then some Rs.badEntry
  else if 16 ≤ x.queue.length || 32768 < (x.queue.map fun p => p.descs.length).sum + e.count then some Rs.queueFull
  else none

/-- The first `n` units of 64 bytes, from unit `k` on, that are not used. -/
def takeUnits (used : List Nat) : Nat → Nat → Nat → List Nat
  | 0, _, _ => []
  | _, _, 0 => []
  | f + 1, k, n + 1 => if used.contains k then takeUnits used f (k + 1) (n + 1) else k :: takeUnits used f (k + 1) n

/-- Runs of consecutive units, each with its first unit and its length. -/
def unitSpans : List Nat → List (Nat × Nat)
  | [] => []
  | k :: r =>
    match unitSpans r with
    | (a, n) :: m => if a = k + 1 then (k, n + 1) :: m else (k, 1) :: (a, n) :: m
    | [] => [(k, 1)]

/-- Write bytes over the units of spans, in order. -/
def writeSpans (base : Nat) : List (Nat × Nat) → List Byte → M Unit
  | [], _ => pure ()
  | (k, n) :: r, b => do
    writeStack (base + 64 * k) 9 (b.take (64 * n))
    writeSpans base r (b.drop (64 * n))

/-- Queue a plan, by rising step (R40). -/
def Tile.addPlan (x : Tile) (p : Plan) : Tile :=
  { x with queue := x.queue.filter (fun q => q.step < p.step) ++ [p] ++ x.queue.filter fun q => !(q.step < p.step) }

/-- Copy a plan's descriptors into units of the plan area that no queued plan holds, in the tile's reserved area (R40, R423). -/
def copyPlan (s : State) (t : TileRef) (units : List Nat) (b : List Byte) : Except Stop Unit × State :=
  (writeSpans ((s.tile t).reservedAt t + 5 * 2 ^ 20) (unitSpans units) b).result s

/-- How loading one tile's entry stands: its outcome, bytes of another package, or bytes of host memory. -/
inductive LoadRes where
  | done (o : Outc)
  | need (n : Need)
  | host (addr len : Nat)
  deriving DecidableEq, Repr

/-- A source in host memory as it came, or why the tile's load ends (R42, R391). -/
def hostSource (d : Option HostData) (len : Nat) : Option (Except (Code × Code) (List Byte)) :=
  d.map fun d => match d with
    | .good b => if b.length < len then .error (St.range, Rs.hostAbort) else .ok (b.take len)
    | .poisoned => .error (St.poisoned, 0)
    | .failed => .error (St.range, Rs.hostAbort)

/-- A tile takes a plan: its descriptors are copied, and it is queued (R40). A copy that cannot be made ends the tile's load. -/
def State.putPlan (s : State) (t : TileRef) (p : Plan) (b : List Byte) : State × LoadRes :=
  let units := takeUnits ((s.tile t).queue.flatMap (·.units)) 32768 0 p.descs.length
  match copyPlan s t units b with
  | (.ok _, s') => (s'.modTile t fun x => x.addPlan { p with units := units }, .done {})
  | (.error e, s') => (s', .done (outc e.status e.reason))

/-- A read by DVA of a load ended: its value goes on; a stop is the tile's outcome, or asks for bytes first. -/
def State.loadRead (s : State) (env : Env) (dva : BitVec 64) (n : Nat) (k : State → List Byte → State × LoadRes) : State × LoadRes :=
  match (readDva env dva n 1).result s with
  | (.ok b, s') => k s' b
  | (.error e, s') =>
    match e.need with
    | some q => (s, .need q)
    | none => (s'.recordFault env.t e 0 env.ctx env.step, .done (outc e.status e.reason))

/-- One own tile reads its entry, and its descriptor list unless it refuses the plan (R41, R42). -/
def State.loadTile (s : State) (c : Cmd) (t : TileRef) (place : Nat) : State × LoadRes :=
  let step := c.p0.toNat
  let job : BitVec 16 := BitVec.ofNat 16 c.p1.toNat
  let env := s.cmdEnv c t (job.toNat % 4096)
  let put := fun (s : State) (e : PlanEntry) (b : List Byte) =>
    s.putPlan t { step := step, job := job, descs := descList b, energyUj := e.energyUj } b
  s.loadRead env (c.p2 + w64 (16 * place)) 16 fun s b =>
    let e := planEntry b
    if e.skip then (s, .done {})
    else match s.planRefusal t step e with
      | some r => (s, .done (outc St.rejected r))
      | none =>
        if !e.host then s.loadRead env e.source (64 * e.count) fun s b => put s e b
        else match hostSource (((s.cmdSlot c).map (·.hostGot)).bind fun h => kvFind h t) (64 * e.count) with
          | some (.ok b) => put s e b
          | some (.error (st, rs)) => (s.hostFault st rs 2 e.source.toNat, .done (outc st rs))
          | none => if s.hostReach then (s, .host e.source.toNat (64 * e.count))
            else (s.hostFault St.range Rs.hostAbort 2 e.source.toNat, .done (outc St.range Rs.hostAbort))

/-- What a pass over the own tiles has come to: the state, the outcomes, the host reads to ask for, and bytes needed first. -/
structure LoadPass where
  s : State
  done : List (TileRef × Outc) := []
  asks : List (TileRef × Nat × Nat) := []
  need : Option (TileRef × Need) := none

/-- One tile of the pass. -/
def LoadPass.next (a : LoadPass) (c : Cmd) (t : TileRef) (place : Nat) : LoadPass :=
  if a.need.isSome then a
  else match a.s.loadTile c t place with
    | (s, .done o) => { a with s := s, done := a.done ++ [(t, o)] }
    | (_, .need n) => { a with need := some (t, n) }
    | (_, .host addr len) => { a with asks := a.asks ++ [(t, addr, len)] }

/-- Ask for the host reads of a load that are not outstanding (R41, R391). -/
def State.askSources (s : State) (c : Cmd) (l : List (TileRef × Nat × Nat)) : State :=
  l.foldl (fun (s : State) e =>
    if s.host.reads.any fun r => r.use = .planSource c.ring c.tag e.1 then s
    else s.askHost e.2.1 e.2.2 (.planSource c.ring c.tag e.1)) s

/-- Forward a load to a unit of another package, with the part of the table that is its own (R41, R68). -/
def State.forwardLoad (s : State) (c : Cmd) (u : BitVec 32) (pos place : Nat) : State × Member :=
  match s.pathStop (unitPkg u) with
  | some (st, rs) => (s, { unit := u, pos := pos, report := some (outc st rs), remote := true })
  | none =>
    (s.request (controlMsg { c with p2 := c.p2 + w64 (16 * place) } s.self (unitPkg u) u []) (.command c.ring c.tag u)
      , { unit := u, pos := pos, sentAt := s.time.now, remote := true })

/-- The members of a load: own tiles have their outcomes, units elsewhere are asked. -/
def State.loadMembers (s : State) (c : Cmd) (named : List (BitVec 32)) (done : List (TileRef × Outc))
    (live : List (BitVec 32 × Path)) : State :=
  let r := live.foldl (fun (acc : State × List Member) e =>
    let pos := (e.2.head?.map Prod.fst).getD 0
    if unitPkg e.1 = s.self then
      let o := ((done.find? fun d => d.1 = unitTileRef e.1).map Prod.snd).getD {}
      (acc.1, acc.2 ++ [{ unit := e.1, pos := pos, report := some o, path := e.2 }])
    else
      let q := acc.1.forwardLoad c e.1 pos (tablePlace named e.1)
      (q.1, acc.2 ++ [{ q.2 with path := e.2 }])) (s, [])
  let s := r.1.modCmd c fun k => { k with members := r.2 }
  if r.2.all fun m => m.report.isSome then s.finishTree c else s

/-- PLAN_LOAD over the unit (R41): a pass that needs bytes from elsewhere leaves no trace and waits for them. -/
def State.planLoad (s : State) (c : Cmd) : State :=
  if !stepOk c.p0.toNat then s.finishWith c St.rejected Rs.badStep
  else
    let live := s.planLeaves false c.unit
    let named := ((s.planLeaves true c.unit).map Prod.fst).dedup
    let own := (live.filter fun e => unitPkg e.1 = s.self).map Prod.fst
    let a := own.foldl (fun (a : LoadPass) u => a.next c (unitTileRef u) (tablePlace named u)) { s := s }
    match a.need, a.asks with
    | some (t, n), _ => s.askCmdRead c (s.cmdEnv c t (c.p1.toNat % 4096)) n
    | none, _ :: _ => s.askSources c a.asks
    | none, [] => (a.s.loadMembers c named a.done live).reforecast

/-- A started command has asked no member yet. -/
def State.noMembers (s : State) (c : Cmd) : Bool := ((s.cmdSlot c).map fun z => z.members.isEmpty).getD false

/-- PLAN_LOAD (R41). -/
def execPlanLoad (c : Cmd) (s : State) : Host.Outcome State Fault Refusal :=
  .next (s.onCmd 0x0310 c fun s => if s.noMembers c then s.planLoad c else s)

/-! ### Cancelling and reading (R45, R50) -/

/-- Cancel a queued plan of one tile; with none, nothing is done. -/
def State.cancelPlan (s : State) (t : TileRef) (step : Nat) : State × Outc :=
  let x := s.tile t
  if (x.planFor step).isSome then (s.modTile t fun x => { x with queue := x.queue.filter fun p => p.step ≠ step }, {})
  else if x.started.contains step then (s, outc St.rejected Rs.planRunning)
  else (s, {})

/-- PLAN_CANCEL (R45). -/
def execPlanCancel (c : Cmd) (s : State) : Host.Outcome State Fault Refusal :=
  .next (s.onCmd 0x0311 c fun s =>
    if !stepOk c.p0.toNat then s.finishWith c St.rejected Rs.badStep
    else if !s.noMembers c then s
    else (s.runLater c fun s t =>
      let r := s.cancelPlan t c.p0.toNat
      (r.1, some r.2)).reforecast)

/-- A tile's record for a step; NOT_READY where it has none. -/
def State.planRecord (s : State) (t : TileRef) (step : Nat) : List Byte :=
  PlanHist.bytes (s.tileId t) (((s.tile t).history.find? fun h => h.step = step).getD
    { step := step, job := 0, outc := outc St.notReady 0, energy := 0 })

/-- PLAN_STATUS (R50, R65). -/
def execPlanStatus (c : Cmd) (s : State) : Host.Outcome State Fault Refusal :=
  .next (s.onCmd 0x0312 c fun s =>
    let step := c.p0.toNat
    if !stepOk step then s.finishWith c St.rejected Rs.badStep
    else s.runReplicated c fun s u =>
      if s.tick.latched.any (fun l => step + 16 ≤ l) then (s, { o := outc St.range 0 })
      else (s, { data := (s.liveTiles u).flatMap fun t => s.planRecord t step }))

/-! ### Host memory (R391) -/

/-- What came for a plan's source is kept for its command. -/
def State.sourceCame (s : State) (ring : Nat) (tag : BitVec 16) (t : TileRef) (d : HostData) : State :=
  { s with host := { s.host with slots := s.host.slots.map fun k =>
      if k.cmd.ring = ring && k.cmd.tag = tag && k.ph = .started then { k with hostGot := kvPut k.hostGot t d } else k } }

/-- What came for a parameter is kept for its command. -/
def State.parameterCame (s : State) (ring : Nat) (tag : BitVec 16) (d : HostData) : State :=
  { s with host := { s.host with slots := s.host.slots.map fun k =>
      if k.cmd.ring = ring && k.cmd.tag = tag && k.ph = .started then { k with param := some d } else k } }

/-- Requests of at most 4,096 bytes that a read of host memory takes (R376). -/
def HostRead.requests (r : HostRead) : Nat := max 1 (ceilDiv r.len 4096)

/-- The reads of host memory that are outstanding: the endpoint has at most 256 requests out (R376), so that a read waits, in order,
while those before it take all of them. -/
def HostState.outReads (h : HostState) : List HostRead :=
  (h.reads.foldl (fun (a : List HostRead × Nat) r =>
    if a.2 < 256 then (a.1 ++ [r], a.2 + r.requests) else (a.1, 256)) ([], 0)).1

/-- HOST_MEMORY_COMPLETION (R376, R391, R425): a read that is not outstanding is answered to no one. -/
def execHostMemoryCompletion (id : Nat) (d : HostData) (s : State) : Host.Outcome State Fault Refusal :=
  .next (match s.host.outReads.find? fun r => r.id = id with
    | none => s
    | some x =>
      let s : State := { s with host := { s.host with reads := s.host.reads.filter fun r => r.id ≠ id } }
      match x.use with
      | .planSource r t k => s.sourceCame r t k d
      | .parameter r t => s.parameterCame r t d
      | .bundle => s.bundleCame x.len d)

end Sys2Proof.Machine
end

