-- ==== Sys2Proof/Machine/Dispatch.lean ====
section
/-! DEFINITION. Sys2Proof/Machine/Dispatch.lean: one arm per command, each one direct call of its meaning. -/

namespace Sys2Proof.Machine

def exec (i : Instr) (s : State) : Host.Outcome State Fault Refusal :=
  match i with
  | .tick => Sys2Proof.Machine.execTick s
  | .doneSample => Sys2Proof.Machine.execDoneSample s
  | .stepReport => Sys2Proof.Machine.execStepReport s
  | .planLimitAbort => Sys2Proof.Machine.execPlanLimitAbort s
  | .timeFrameSend => Sys2Proof.Machine.execTimeFrameSend s
  | .time f => Sys2Proof.Machine.execTime f s
  | .parentFrameSilence => Sys2Proof.Machine.execParentFrameSilence s
  | .rootForget => Sys2Proof.Machine.execRootForget s
  | .receiveFenceDeadline t slot => Sys2Proof.Machine.execReceiveFenceDeadline t slot s
  | .tickGet c => Sys2Proof.Machine.execTickGet c s
  | .tickStart c => Sys2Proof.Machine.execTickStart c s
  | .tickSetPeriod c => Sys2Proof.Machine.execTickSetPeriod c s
  | .tickCancelChange c => Sys2Proof.Machine.execTickCancelChange c s
  | .stepRealign c => Sys2Proof.Machine.execStepRealign c s
  | .planLoad c => Sys2Proof.Machine.execPlanLoad c s
  | .planCancel c => Sys2Proof.Machine.execPlanCancel c s
  | .planStatus c => Sys2Proof.Machine.execPlanStatus c s
  | .forecastRead c => Sys2Proof.Machine.execForecastRead c s
  | .unitRead c => Sys2Proof.Machine.execUnitRead c s
  | .stateDump c => Sys2Proof.Machine.execStateDump c s
  | .memberStatus c => Sys2Proof.Machine.execMemberStatus c s
  | .groupWrite c => Sys2Proof.Machine.execGroupWrite c s
  | .groupDelete c => Sys2Proof.Machine.execGroupDelete c s
  | .groupRead c => Sys2Proof.Machine.execGroupRead c s
  | .unitRemove c => Sys2Proof.Machine.execUnitRemove c s
  | .unitRestore c headFails tileFails => Sys2Proof.Machine.execUnitRestore c headFails tileFails s
  | .xltSetBase c => Sys2Proof.Machine.execXltSetBase c s
  | .xltSetLimit c => Sys2Proof.Machine.execXltSetLimit c s
  | .xltInvalidate c => Sys2Proof.Machine.execXltInvalidate c s
  | .xltRead c => Sys2Proof.Machine.execXltRead c s
  | .xltProbe c => Sys2Proof.Machine.execXltProbe c s
  | .faultRead c => Sys2Proof.Machine.execFaultRead c s
  | .faultStatusClear t w => Sys2Proof.Machine.execFaultStatusClear t w s
  | .recordSend => Sys2Proof.Machine.execRecordSend s
  | .record r => Sys2Proof.Machine.execRecord r s
  | .descriptorAdmit t => Sys2Proof.Machine.execDescriptorAdmit t s
  | .descriptorDispatch t slot => Sys2Proof.Machine.execDescriptorDispatch t slot s
  | .descriptorComplete t slot => Sys2Proof.Machine.execDescriptorComplete t slot s
  | .remoteSignal t => Sys2Proof.Machine.execRemoteSignal t s
  | .shareArrival t => Sys2Proof.Machine.execShareArrival t s
  | .shareRetry t => Sys2Proof.Machine.execShareRetry t s
  | .shareReport t => Sys2Proof.Machine.execShareReport t s
  | .seqWatchdog t info => Sys2Proof.Machine.execSeqWatchdog t info s
  | .holdExpiry t => Sys2Proof.Machine.execHoldExpiry t s
  | .nop t slot => Sys2Proof.Machine.execNop t slot s
  | .receiveFence t slot => Sys2Proof.Machine.execReceiveFence t slot s
  | .xltInvalidateDesc t slot => Sys2Proof.Machine.execXltInvalidateDesc t slot s
  | .matmul t slot e => Sys2Proof.Machine.execMatmul t slot e s
  | .accDrain t slot e => Sys2Proof.Machine.execAccDrain t slot e s
  | .gemm t slot e => Sys2Proof.Machine.execGemm t slot e s
  | .vector t slot e => Sys2Proof.Machine.execVector t slot e s
  | .merge t slot => Sys2Proof.Machine.execMerge t slot s
  | .load t slot e => Sys2Proof.Machine.execLoad t slot e s
  | .store t slot e => Sys2Proof.Machine.execStore t slot e s
  | .copy t slot => Sys2Proof.Machine.execCopy t slot s
  | .gather t slot e => Sys2Proof.Machine.execGather t slot e s
  | .scatter t slot e => Sys2Proof.Machine.execScatter t slot e s
  | .commit t slot e => Sys2Proof.Machine.execCommit t slot e s
  | .stage t slot e => Sys2Proof.Machine.execStage t slot e s
  | .accept t slot e => Sys2Proof.Machine.execAccept t slot e s
  | .appendRowsArrive t e => Sys2Proof.Machine.execAppendRowsArrive t e s
  | .attention t slot => Sys2Proof.Machine.execAttention t slot s
  | .attentionItem t => Sys2Proof.Machine.execAttentionItem t s
  | .blockArrival t e => Sys2Proof.Machine.execBlockArrival t e s
  | .itemReport t => Sys2Proof.Machine.execItemReport t s
  | .kvFlush c => Sys2Proof.Machine.execKvFlush c s
  | .kvRelease c => Sys2Proof.Machine.execKvRelease c s
  | .kvTailRead c => Sys2Proof.Machine.execKvTailRead c s
  | .kvBufferRead c => Sys2Proof.Machine.execKvBufferRead c s
  | .pewterMv t slot => Sys2Proof.Machine.execPewterMv t slot s
  | .pewterSequenceStart t e => Sys2Proof.Machine.execPewterSequenceStart t e s
  | .pewterSlice t bank e => Sys2Proof.Machine.execPewterSlice t bank e s
  | .pewterSequenceComplete t tag => Sys2Proof.Machine.execPewterSequenceComplete t tag s
  | .fence t slot e => Sys2Proof.Machine.execFence t slot e s
  | .pageVerdict t page kind v => Sys2Proof.Machine.execPageVerdict t page kind v s
  | .refresh t layer bank => Sys2Proof.Machine.execRefresh t layer bank s
  | .scrubPage t v => Sys2Proof.Machine.execScrubPage t v s
  | .reinitialisationEnd t region => Sys2Proof.Machine.execReinitialisationEnd t region s
  | .connectionSpareSwitch t layer conn => Sys2Proof.Machine.execConnectionSpareSwitch t layer conn s
  | .repairCtlWrite t w => Sys2Proof.Machine.execRepairCtlWrite t w s
  | .rawRead t => Sys2Proof.Machine.execRawRead t s
  | .rawWrite t => Sys2Proof.Machine.execRawWrite t s
  | .softRow t => Sys2Proof.Machine.execSoftRow t s
  | .softCol t => Sys2Proof.Machine.execSoftCol t s
  | .fuseRow t => Sys2Proof.Machine.execFuseRow t s
  | .fuseCol t => Sys2Proof.Machine.execFuseCol t s
  | .clearSoft t => Sys2Proof.Machine.execClearSoft t s
  | .march t => Sys2Proof.Machine.execMarch t s
  | .marchComplete t errs => Sys2Proof.Machine.execMarchComplete t errs s
  | .regionSetCode c => Sys2Proof.Machine.execRegionSetCode c s
  | .regionSetInterleave c => Sys2Proof.Machine.execRegionSetInterleave c s
  | .regionRead c => Sys2Proof.Machine.execRegionRead c s
  | .scrubNow c => Sys2Proof.Machine.execScrubNow c s
  | .memPoisonRead c => Sys2Proof.Machine.execMemPoisonRead c s
  | .channelRead c => Sys2Proof.Machine.execChannelRead c s
  | .cnsAssignmentWrite off w => Sys2Proof.Machine.execCnsAssignmentWrite off w s
  | .portTrainEnd p r => Sys2Proof.Machine.execPortTrainEnd p r s
  | .flitReceive p hdr intact corrected => Sys2Proof.Machine.execFlitReceive p hdr intact corrected s
  | .read m => Sys2Proof.Machine.execRead m s
  | .write m => Sys2Proof.Machine.execWrite m s
  | .atomic m => Sys2Proof.Machine.execAtomic m s
  | .appendFwd m => Sys2Proof.Machine.execAppendFwd m s
  | .share m => Sys2Proof.Machine.execShare m s
  | .control m => Sys2Proof.Machine.execControl m s
  | .readData m => Sys2Proof.Machine.execReadData m s
  | .writeAck m => Sys2Proof.Machine.execWriteAck m s
  | .atomicAck m => Sys2Proof.Machine.execAtomicAck m s
  | .appendAck m => Sys2Proof.Machine.execAppendAck m s
  | .shareDone m => Sys2Proof.Machine.execShareDone m s
  | .controlReply m => Sys2Proof.Machine.execControlReply m s
  | .requestTimeout txn => Sys2Proof.Machine.execRequestTimeout txn s
  | .creditStallDiscard stall => Sys2Proof.Machine.execCreditStallDiscard stall s
  | .trackerTimeout t srcUnit arrId step => Sys2Proof.Machine.execTrackerTimeout t srcUnit arrId step s
  | .arrResend txn => Sys2Proof.Machine.execArrResend txn s
  | .cnsStatus c => Sys2Proof.Machine.execCnsStatus c s
  | .cnsRouteWrite c => Sys2Proof.Machine.execCnsRouteWrite c s
  | .cnsRouteRead c => Sys2Proof.Machine.execCnsRouteRead c s
  | .cnsPortRetrain c => Sys2Proof.Machine.execCnsPortRetrain c s
  | .cnsPeerClear c => Sys2Proof.Machine.execCnsPeerClear c s
  | .cnsAtomic c => Sys2Proof.Machine.execCnsAtomic c s
  | .cnsViolRead c => Sys2Proof.Machine.execCnsViolRead c s
  | .hello h => Sys2Proof.Machine.execHello h s
  | .helloRetry => Sys2Proof.Machine.execHelloRetry s
  | .twinLossTimeout => Sys2Proof.Machine.execTwinLossTimeout s
  | .leaveWaitTimeout => Sys2Proof.Machine.execLeaveWaitTimeout s
  | .tailForward t => Sys2Proof.Machine.execTailForward t s
  | .resyncPageCopy => Sys2Proof.Machine.execResyncPageCopy s
  | .twinStatusRead c => Sys2Proof.Machine.execTwinStatusRead c s
  | .twinResync c => Sys2Proof.Machine.execTwinResync c s
  | .twinDetach c => Sys2Proof.Machine.execTwinDetach c s
  | .twinAttach c => Sys2Proof.Machine.execTwinAttach c s
  | .twinPageFetch c => Sys2Proof.Machine.execTwinPageFetch c s
  | .registerWrite bar off bytes => Sys2Proof.Machine.execRegisterWrite bar off bytes s
  | .apertureRead off len => Sys2Proof.Machine.execApertureRead off len s
  | .apertureWrite off bytes ep => Sys2Proof.Machine.execApertureWrite off bytes ep s
  | .sqTailWrite r w => Sys2Proof.Machine.execSqTailWrite r w s
  | .cqHeadWrite r w => Sys2Proof.Machine.execCqHeadWrite r w s
  | .eqHeadWrite w => Sys2Proof.Machine.execEqHeadWrite w s
  | .ringReset r => Sys2Proof.Machine.execRingReset r s
  | .eqReset => Sys2Proof.Machine.execEqReset s
  | .ringRun r run => Sys2Proof.Machine.execRingRun r run s
  | .hostViolSuspectClear w => Sys2Proof.Machine.execHostViolSuspectClear w s
  | .commandFetch r => Sys2Proof.Machine.execCommandFetch r s
  | .completionPost r tag => Sys2Proof.Machine.execCompletionPost r tag s
  | .interruptCoalesceTimer r => Sys2Proof.Machine.execInterruptCoalesceTimer r s
  | .functionLevelReset => Sys2Proof.Machine.execFunctionLevelReset s
  | .hotReset => Sys2Proof.Machine.execHotReset s
  | .linkDown => Sys2Proof.Machine.execLinkDown s
  | .perstAssert => Sys2Proof.Machine.execPerstAssert s
  | .eventLogRead c => Sys2Proof.Machine.execEventLogRead c s
  | .eventSetAction c => Sys2Proof.Machine.execEventSetAction c s
  | .eventReadActions c => Sys2Proof.Machine.execEventReadActions c s
  | .cmdAbort c => Sys2Proof.Machine.execCmdAbort c s
  | .kaRun c fails => Sys2Proof.Machine.execKaRun c fails s
  | .kaVector c => Sys2Proof.Machine.execKaVector c s
  | .kaResults c => Sys2Proof.Machine.execKaResults c s
  | .cnsLoopback c errors => Sys2Proof.Machine.execCnsLoopback c errors s
  | .doeDiscovery index => Sys2Proof.Machine.execDoeDiscovery index s
  | .getVersion => Sys2Proof.Machine.execGetVersion s
  | .getCapabilities => Sys2Proof.Machine.execGetCapabilities s
  | .negotiateAlgorithms p384 sha384 => Sys2Proof.Machine.execNegotiateAlgorithms p384 sha384 s
  | .getDigests => Sys2Proof.Machine.execGetDigests s
  | .getCertificate slot off len => Sys2Proof.Machine.execGetCertificate slot off len s
  | .challenge slot nonce => Sys2Proof.Machine.execChallenge slot nonce s
  | .getMeasurements index sign nonce => Sys2Proof.Machine.execGetMeasurements index sign nonce s
  | .powerStageStart => Sys2Proof.Machine.execPowerStageStart s
  | .powerGood => Sys2Proof.Machine.execPowerGood s
  | .bringupS1 pllOk badDies guests => Sys2Proof.Machine.execBringupS1 pllOk badDies guests s
  | .bringupS2 badStacks badLinks => Sys2Proof.Machine.execBringupS2 badStacks badLinks s
  | .bringupS3 f => Sys2Proof.Machine.execBringupS3 f s
  | .bringupS4 fails => Sys2Proof.Machine.execBringupS4 fails s
  | .bringupS5 badRows => Sys2Proof.Machine.execBringupS5 badRows s
  | .bringupS6 => Sys2Proof.Machine.execBringupS6 s
  | .bringupS7 => Sys2Proof.Machine.execBringupS7 s
  | .bringupS8 mismatch => Sys2Proof.Machine.execBringupS8 mismatch s
  | .bringupS9 tiles units channels groups => Sys2Proof.Machine.execBringupS9 tiles units channels groups s
  | .bringupS10 => Sys2Proof.Machine.execBringupS10 s
  | .bringupS11 => Sys2Proof.Machine.execBringupS11 s
  | .bringupS12 => Sys2Proof.Machine.execBringupS12 s
  | .bringupS13 => Sys2Proof.Machine.execBringupS13 s
  | .bringupStepEnd => Sys2Proof.Machine.execBringupStepEnd s
  | .bringupStepLimit => Sys2Proof.Machine.execBringupStepLimit s
  | .packageReset w => Sys2Proof.Machine.execPackageReset w s
  | .fwInfo c => Sys2Proof.Machine.execFwInfo c s
  | .fwVerify c => Sys2Proof.Machine.execFwVerify c s
  | .fwSvnCommit c => Sys2Proof.Machine.execFwSvnCommit c s
  | .idChainRead c => Sys2Proof.Machine.execIdChainRead c s
  | .measureRead c => Sys2Proof.Machine.execMeasureRead c s
  | .powerSample reports => Sys2Proof.Machine.execPowerSample reports s
  | .inputFaultStop => Sys2Proof.Machine.execInputFaultStop s
  | .pwrStageFault p cause => Sys2Proof.Machine.execPwrStageFault p cause s
  | .stageRetry p => Sys2Proof.Machine.execStageRetry p s
  | .powerRatioCompute => Sys2Proof.Machine.execPowerRatioCompute s
  | .limiterSample => Sys2Proof.Machine.execLimiterSample s
  | .droopEntry t => Sys2Proof.Machine.execDroopEntry t s
  | .droopExit t => Sys2Proof.Machine.execDroopExit t s
  | .marginReading slacks => Sys2Proof.Machine.execMarginReading slacks s
  | .fillCutoff => Sys2Proof.Machine.execFillCutoff s
  | .fillZero t => Sys2Proof.Machine.execFillZero t s
  | .pwrRead c => Sys2Proof.Machine.execPwrRead c s
  | .pwrSetCap c => Sys2Proof.Machine.execPwrSetCap c s
  | .jobEnergyRead c => Sys2Proof.Machine.execJobEnergyRead c s
  | .jobClose c => Sys2Proof.Machine.execJobClose c s
  | .modelRead c => Sys2Proof.Machine.execModelRead c s
  | .marginRead c => Sys2Proof.Machine.execMarginRead c s
  | .diodeSample readings => Sys2Proof.Machine.execDiodeSample readings s
  | .graceDeadline => Sys2Proof.Machine.execGraceDeadline s
  | .throttleReview => Sys2Proof.Machine.execThrottleReview s
  | .shutdownDeadline => Sys2Proof.Machine.execShutdownDeadline s
  | .thermistorSample inlet outlet => Sys2Proof.Machine.execThermistorSample inlet outlet s
  | .flowTrendUpdate => Sys2Proof.Machine.execFlowTrendUpdate s
  | .valveRequest => Sys2Proof.Machine.execValveRequest s
  | .flowReport frame => Sys2Proof.Machine.execFlowReport frame s
  | .inletTempFrame frame => Sys2Proof.Machine.execInletTempFrame frame s
  | .pumpState frame => Sys2Proof.Machine.execPumpState frame s
  | .alarm frame => Sys2Proof.Machine.execAlarm frame s
  | .facSilent => Sys2Proof.Machine.execFacSilent s
  | .facViolSuspectClear w => Sys2Proof.Machine.execFacViolSuspectClear w s
  | .thermalRead c => Sys2Proof.Machine.execThermalRead c s
  | .threshSet c => Sys2Proof.Machine.execThreshSet c s
  | .thermalModelRead c => Sys2Proof.Machine.execThermalModelRead c s
  | .facRead c => Sys2Proof.Machine.execFacRead c s
  | .facClear c => Sys2Proof.Machine.execFacClear c s
  | .referenceLoss => Sys2Proof.Machine.execReferenceLoss s
  | .thermtripRelease => Sys2Proof.Machine.execThermtripRelease s
  | .bypass => Sys2Proof.Machine.execBypass s
  | .idcode => Sys2Proof.Machine.execIdcode s
  | .samplePreload b => Sys2Proof.Machine.execSamplePreload b s
  | .extest b => Sys2Proof.Machine.execExtest b s
  | .gstCtlWrite g w => Sys2Proof.Machine.execGstCtlWrite g w s
  | .guestLinkTrainEnd g lanes => Sys2Proof.Machine.execGuestLinkTrainEnd g lanes s
  | .gstRingWrite g w => Sys2Proof.Machine.execGstRingWrite g w s
  | .gstViolSuspectClear g w => Sys2Proof.Machine.execGstViolSuspectClear g w s
  | .guestRead g m => Sys2Proof.Machine.execGuestRead g m s
  | .guestWrite g m => Sys2Proof.Machine.execGuestWrite g m s
  | .guestAtomic g m => Sys2Proof.Machine.execGuestAtomic g m s
  | .guestControl g m => Sys2Proof.Machine.execGuestControl g m s
  | .guestEvent g m => Sys2Proof.Machine.execGuestEvent g m s
  | .guestTemp g m => Sys2Proof.Machine.execGuestTemp g m s
  | .guestSilence g => Sys2Proof.Machine.execGuestSilence g s
  | .guestPowerCheck g watts => Sys2Proof.Machine.execGuestPowerCheck g watts s
  | .referenceValid => Sys2Proof.Machine.execReferenceValid s
  | .perstDeassert => Sys2Proof.Machine.execPerstDeassert s
  | .hostLinkUp gen width => Sys2Proof.Machine.execHostLinkUp gen width s
  | .endpointReady => Sys2Proof.Machine.execEndpointReady s
  | .packageResetEnd => Sys2Proof.Machine.execPackageResetEnd s
  | .pewterSliceEnd t bank => Sys2Proof.Machine.execPewterSliceEnd t bank s
  | .guestLinkLoss g => Sys2Proof.Machine.execGuestLinkLoss g s
  | .brassFault => Sys2Proof.Machine.execBrassFault s
  | .storeControl t info => Sys2Proof.Machine.execStoreControl t info s
  | .fwCheck t info => Sys2Proof.Machine.execFwCheck t info s
  | .hostMemoryCompletion id d => Sys2Proof.Machine.execHostMemoryCompletion id d s
  | .replyWindowClose => Sys2Proof.Machine.execReplyWindowClose s

end Sys2Proof.Machine
end

