-- ==== Sys2Proof/Safety.lean ====
section
/-! DEFINITION. Sys2Proof/Safety.lean: what a safe run of the block is, and the terms in which claims speak of its states. -/

namespace Sys2Proof.Safety

open Sys2Proof.Machine

/-- A step that goes on. -/
def Runs (s : State) : Prop := ∃ t, step s = .next t

/-- The command has this opcode, has been fetched and started, its own step is to come, and Brass runs (R25, R388). -/
def Started (c : Cmd) (op : Nat) (s : State) : Prop := c.opcode.toNat = op ∧ s.started c = true ∧ s.brassRuns = true

/-- The command's unit is one of this package: the package, a stack or tile of it, or a group of it that reaches nothing elsewhere
(R12, R14, R76). -/
def Own (c : Cmd) (s : State) : Prop :=
  (unitLevel c.unit ≤ 3 ∨ (unitLevel c.unit = 7 ∧ s.ownOnly c.unit = true)) ∧ unitPkg c.unit = s.self

/-- The command is replicated and reaches other packages: over a pair, the domain or a group of this package that lists units elsewhere
(R68, R81). -/
def Spread (c : Cmd) (s : State) : Prop :=
  unitLevel c.unit = 4 ∨ unitLevel c.unit = 5 ∨ (unitLevel c.unit = 7 ∧ unitPkg c.unit = s.self ∧ s.ownOnly c.unit = false)

/-- The command's unit is of this package, for a command that acts on one named unit (R68). -/
def Here (c : Cmd) (s : State) : Prop := unitPkg c.unit = s.self

/-- The command's unit is tile `t` of this package. -/
def OwnTile (c : Cmd) (s : State) (t : TileRef) : Prop :=
  unitLevel c.unit = 1 ∧ unitPkg c.unit = s.self ∧ unitTileRef c.unit = t

/-- A slot of the command stands finished with this completion (R392). -/
def Ends (t : State) (c : Cmd) (k : Compl) : Prop := ∃ z ∈ t.host.slots, z.cmd = c ∧ z.ph = .finished ∧ z.compl = k

/-- The completion of a command whose members have reported (R84). -/
def membersSay (o : Outc) : Compl := { status := o.status, reason := o.reason, map := o.map, detail := true }

/-- The state in which a replicated command on an own unit has completed with what the unit gives (R84, R391); the kept detail names the
unit's members, or the unit itself where it gives none of theirs (R86). -/
def answeredBy (s : State) (c : Cmd) (q : LeafOut) : State :=
  let s := s.setDetail c (if q.parts.isEmpty then [([(0, 1, c.unit)], q.o)] else q.parts)
  let k : Compl := { status := q.o.status, reason := q.o.reason, map := q.o.map, detail := true }
  if q.data.isEmpty then s.finish c k
  else s.finishData c q.data { k with result0 := if 16 < q.data.length then w64 q.data.length else 0 }

/-- The state in which it has completed with the unit's own outcome and data. -/
def answered (s : State) (c : Cmd) (o : Outc) (data : List Byte) : State := answeredBy s c { o := o, data := data }

/-- The tiles in service of a unit report OK; the others NOT_READY (R84, R86). -/
def readAll (s : State) (u : BitVec 32) : State × Outc × List (Path × Outc) :=
  State.replicate (fun s _ => (s, ({} : Outc))) (s.depth + 2) s u

/-- The overall status of a unit whose tiles are all read: the tiles in service report OK (R84). -/
def reached (s : State) (u : BitVec 32) : Outc := (readAll s u).2.1

/-- What reading all tiles of a unit gives. -/
def allRead (s : State) (u : BitVec 32) (data : List Byte) : LeafOut :=
  { o := reached s u, data := data, parts := (readAll s u).2.2 }

/-- A state that differs from `s` only in command slots, kept details and the count of free values taken. -/
def OnlyCommands (s t : State) : Prop :=
  t = { s with free := t.free, host := { s.host with slots := t.host.slots, details := t.host.details } }

/-- A slot with no message to send, no arrival to count and no answer kept (R195, R328, R356). -/
def Quiet (d : DescSlot) : Prop := d.toSend = [] ∧ d.landed = [] ∧ d.entries = [] ∧ d.mirror.status = St.ok

/-- Slot `i` of tile `t` held `d`, whose engine has finished it with an outcome; it waits for its completion until a time and a core
time (R117, R61). -/
def Finished (u : State) (t : TileRef) (i : Nat) (d : DescSlot) (o : Outc) (ready core : Nat) : Prop :=
  (u.tile t).slot i = some { d with
    ph := .finished, applied := true, result := o, readyAt := ready, readyCore := core, toSend := [], landed := [] }

/-- From `s`, the engine of slot `i` has done an amount of work that ends at a core time `last`; the pause of R61 follows it. -/
def Executed (s u : State) (t : TileRef) (i : Nat) (d : DescSlot) (o : Outc) (last work : Nat) : Prop :=
  let e := s.advanceCore t last
  Finished u t i d o e.time.now (last + s.pauseOf work) ∧ u.time = e.time

/-- From `s`, the matrix engine has taken up slot `i` for an amount of work that ends at a core time `last`; its completion alone waits for
that end, and the clock stands (R139). -/
def Reckoned (s u : State) (t : TileRef) (i : Nat) (d : DescSlot) (o : Outc) (last work : Nat) : Prop :=
  Finished u t i d o s.time.now (last + s.pauseOf work) ∧ u.time = s.time

/-- A descriptor of an engine other than the matrix queue's starts where its engine is free (R116) and ends when its work is done. -/
def RunsFor (s u : State) (t : TileRef) (i : Nat) (d : DescSlot) (o : Outc) (work : Nat) : Prop :=
  Executed s u t i d o ((s.tile t).engineStart d + work) work

/-- A state that differs from `s` only in its tiles. -/
def OnlyTiles (s u : State) : Prop := u = { s with tiles := u.tiles }

/-- A state that differs from `s` only in its tiles and its time. -/
def OnlyTilesAndTime (s u : State) : Prop := u = { s with tiles := u.tiles, time := u.time }

/-- A message for this package arrives on a port that carries traffic (R322, R372). -/
def Arrives (m : Msg) (s : State) : Prop :=
  s.clocksRun = true ∧ (s.port m.port).up = true ∧ (m.port = 8 → m.src = s.twinPkg) ∧ m.src ≠ s.self ∧ m.dst = s.self

/-- The state once an arriving message has left its port's buffer, its source heard (R317, R360). -/
def taken (s : State) (m : Msg) : State := (s.freeFlits m).hearTwin m.src

/-- Nothing that R340, R341 or R415 asks stands against a request. -/
def Sound (m : Msg) (s : State) : Prop :=
  m.crcOk = true ∧ s.ready = true ∧ s.cornis.suspects.contains m.src = false ∧ s.badRequest m = false ∧ unitValid m.srcUnit = true

/-- The memory of the stacks is in canonical form. -/
def MemoryCanonical (s : State) : Prop := Memory.wf s.mem = true

end Sys2Proof.Safety
end

