-- ==== Sys2Proof/Certificates/Slice0/Obligations.lean ====
section
/-! DEFINITION. Sys2Proof/Certificates/Slice0/Obligations.lean: what is claimed of the model. Each docstring says which rules of
the spec its statement formalises, or which log entry of notes/assumptions it rests on. -/

open Sys2Proof Sys2Proof.Machine Sys2Proof.Safety

/-- A step runs the command at the front of the queue on the state with the queue's rest; on an empty queue a cycle passes
(the model's choice, log entry 2). -/
def Obligations.StepTakesTheFrontCommand : Prop :=
  (∀ (c : Instr) (l : List Instr) (s : State), s.pending = c :: l → step s = exec c { s with pending := l })
    ∧ ∀ s : State, s.pending = [] → step s = .next s.passCycle

/-- Every command, in every state, answers a next state: the spec gives each an outcome of its own (R87, R396, R397). -/
def Obligations.NoCommandFaultsOrIsRefused : Prop :=
  ∀ (i : Instr) (s : State), ∃ t, exec i s = .next t

/-- The 64 bytes of a command slot and the command read from them determine each other (R4, R389). -/
def Obligations.NormorSlotsRoundTrip : Prop :=
  (∀ c : Cmd, c.reserved.toNat < 2 ^ 29 → c.guest = none → c.origin = none →
      (encodeCmd c).length = 64 ∧ decodeCmd c.ring (BitVec.ofNat 512 (natLE (encodeCmd c))) = c)
    ∧ ∀ (r : Nat) (w : BitVec 512), natLE (encodeCmd (decodeCmd r w)) = w.toNat

/-- Unit identifiers carry what they name, at every value (R11 to R15). -/
def Obligations.UnitIdentifiersReadBack : Prop :=
  (∀ p : Nat, p < 1024 → ∀ t : Nat, t < 1536 → unitValid (tileUnit p t) = true ∧ unitLevel (tileUnit p t) = 1 ∧ unitPkg (tileUnit p t) = p
      ∧ unitTileRef (tileUnit p t) = t)
    ∧ (∀ p : Nat, p < 1024 → ∀ st : Nat, st < 24 → unitValid (stackUnit p st) = true ∧ unitLevel (stackUnit p st) = 2 ∧ unitPkg (stackUnit p st) = p
      ∧ unitStack (stackUnit p st) = st)
    ∧ (∀ p : Nat, p < 1024 → unitValid (pkgUnit p) = true ∧ unitLevel (pkgUnit p) = 3 ∧ unitPkg (pkgUnit p) = p)
    ∧ (∀ k : Nat, k < 512 → unitValid (pairUnit k) = true ∧ unitLevel (pairUnit k) = 4 ∧ unitPair (pairUnit k) = k)
    ∧ (unitValid domainUnit = true ∧ unitLevel domainUnit = 5)
    ∧ (∀ p : Nat, p < 1024 → ∀ g : Nat, g < 4096 → unitValid (groupUnit p g) = true ∧ unitLevel (groupUnit p g) = 7 ∧ unitPkg (groupUnit p g) = p
      ∧ unitGroup (groupUnit p g) = g)
    ∧ ∀ u : BitVec 32, unitLevel u = 0 ∨ unitLevel u = 6 → unitValid u = false

/-- Numbers are laid out least significant byte first, and read back (R4). -/
def Obligations.BytesAreLittleEndian : Prop :=
  (∀ n v : Nat, (bytesLE n v).length = n ∧ natLE (bytesLE n v) = v % 256 ^ n)
    ∧ (∀ n v i : Nat, i < n → (bytesLE n v)[i]? = some (BitVec.ofNat 8 (v / 256 ^ i)))
    ∧ ∀ l : List Byte, bytesLE l.length (natLE l) = l

/-- Byte stores in canonical form: a write is read back and leaves every other byte; stores that read alike are equal. -/
def Obligations.StackMemoryIsBytesByAddress : Prop :=
  (∀ (m : List Host.Cell) (a c : Nat) (bs : List Byte), Memory.wf m = true →
      cellGet (cellWrite m a bs) c = if a ≤ c then (bs[c - a]?).getD (cellGet m c) else cellGet m c)
    ∧ (∀ (m : List Host.Cell) (a n c : Nat), Memory.wf m = true →
      cellGet (cellZero m a n) c = if a ≤ c ∧ c < a + n then 0 else cellGet m c)
    ∧ ∀ m k : List Host.Cell, Memory.wf m = true → Memory.wf k = true → (∀ a, cellGet m a = cellGet k a) → m = k

/-- The split of R81: floors, the remainder to the first members, every granule given once, in order. -/
def Obligations.DividedWorkIsCutByWeight : Prop :=
  ∀ (w : Nat) (ws : List Nat),
    (shareLens w ws).length = ws.length
      ∧ (ws.sum = 0 → ∀ x ∈ shareLens w ws, x = 0)
      ∧ (0 < ws.sum →
        w - (ws.map fun x => w * x / ws.sum).sum < ws.length
          ∧ (∀ i x : Nat, ws[i]? = some x → (shareLens w ws)[i]? =
            some (w * x / ws.sum + if i < w - (ws.map fun x => w * x / ws.sum).sum then 1 else 0))
          ∧ (shareLens w ws).sum = w)
      ∧ ∀ (a i n : Nat), (shareLens w ws)[i]? = some n → (shareStarts a (shareLens w ws))[i]? = some (a + ((shareLens w ws).take i).sum)

/-- The table of R84. -/
def Obligations.MembersGiveTheOverallStatus : Prop :=
  ∀ (n : Nat) (ms : List (Nat × Outc)),
    let good := fun (m : Nat × Outc) => m.2.status = St.ok ∨ m.2.status = St.throttled
    let failed := fun (m : Nat × Outc) => ¬good m ∧ m.2.status ≠ St.partial
    (ms = [] → (combine n ms).status = St.notReady)
      ∧ (ms ≠ [] → (∀ m ∈ ms, m.2.status = St.ok) → (combine n ms).status = St.ok)
      ∧ ((∀ m ∈ ms, good m) → (∃ m ∈ ms, m.2.status = St.throttled) → (combine n ms).status = St.throttled)
      ∧ (∀ m l, ms = m :: l → (∀ k ∈ ms, failed k) → (combine n ms).status = m.2.status ∧ (combine n ms).reason = m.2.reason)
      ∧ ((∃ m ∈ ms, ¬good m) → (∃ m ∈ ms, ¬failed m) → (combine n ms).status = St.partial)

/-- The member map of R85. -/
def Obligations.MemberMapMarksMembersNotDone : Prop :=
  ∀ (n b : Nat) (ms : List (Nat × Outc)), 1 ≤ n → n ≤ 4096 → (∀ m ∈ ms, m.1 < n) →
    (bitAt (combine n ms).map b = true ↔ ∃ m ∈ ms, ¬(m.2.status = St.ok ∨ m.2.status = St.throttled) ∧
      if n ≤ 64 then m.1 = b else ceilDiv n 64 * b ≤ m.1 ∧ m.1 < ceilDiv n 64 * b + ceilDiv n 64)

/-- R96. -/
def Obligations.NonCanonicalAddressesFault : Prop :=
  (∀ dva : BitVec 64, canonical dva = true ↔ ∀ k : Nat, 57 ≤ k → k < 64 → bitAt dva k = bitAt dva 56)
    ∧ ∀ (t : TileRef) (ctx kind : Nat) (dva : BitVec 64) (s : State), canonical dva = false →
      ∃ e, (Machine.translate t ctx dva kind).result s = (.error e, s) ∧ e.status = St.range ∧ e.reason = Rs.nonCanonical ∧ e.need = none

/-- Codes of every format round-trip through their values; NaNs take the canonical code (R152, R155 to R157). -/
def Obligations.NumberFormatsRoundTrip : Prop :=
  (∀ fmt : Nat, fmt < 10 → ∀ code : Nat, code < 2 ^ fmtBits fmt → (decodeNum fmt code).isNan = false →
      convert fmt false (decodeNum fmt code) = (code, {}))
    ∧ (convert 0 false .nan).1 = 0x7FC00000 ∧ (convert 1 false .nan).1 = 0x7FC0 ∧ (convert 2 false .nan).1 = 0x7E00
    ∧ (convert 3 false .nan).1 = 0x7F ∧ (convert 4 false .nan).1 = 0x7E

/-- Where a command's return data goes (R391, R392), and that nothing but the command slots changes. -/
def Obligations.ReturnDataGoesToTheResultsOrToRet : Prop :=
  ∀ (s : State) (c : Cmd) (bytes : List Byte) (k : Compl),
    let ends := fun (f : CmdSlot → CmdSlot) =>
      { s with host := { s.host with slots := s.host.slots.map fun z => if z.cmd = c ∧ z.ph = .started then f z else z } }
    let r0 := w64 (natLE (bytes.take 8))
    let r1 := w64 (natLE (bytes.drop 8))
    let small : Compl := { status := St.rejected, reason := Rs.destSmall, result0 := w64 bytes.length }
    (bytes.length ≤ 16 →
        s.finishData c bytes k = ends fun z => { z with ph := .finished, compl := { k with result0 := r0, result1 := r1 } })
      ∧ (16 < bytes.length → (c.ret = 0 ∨ c.retLen.toNat < bytes.length) →
        s.finishData c bytes k = ends fun z => { z with ph := .finished, compl := small })
      ∧ (16 < bytes.length → c.ret ≠ 0 → bytes.length ≤ c.retLen.toNat →
        s.finishData c bytes k = ends fun z => { z with ph := .finished, ret := bytes, compl := k })

/-- TICK_GET (R38), CNS_STATUS (R343), TWIN_STATUS_READ (R374), PWR_READ (R455), THERMAL_READ, FORECAST_READ (R64) and FAC_READ
return their registers, and a unit that reaches other packages passes them the command (R68, R81); the layout around the registers is
the model's choice (log entry 47). -/
def Obligations.RegisterReadsReturnTheirBlock : Prop :=
  ∀ (c : Cmd) (s : State),
    let id := bytesLE 8 (pkgUnit s.self).toNat
    (Started c 0x0301 s → exec (.tickGet c) s = .next (s.finishData c (s.regBytes 0x101000 0x78) {}))
      ∧ (Started c 0x0501 s → Own c s → exec (.cnsStatus c) s = .next (answered s c {} (id ++ s.regBytes 0x102000 0x198)))
      ∧ (Started c 0x0601 s → Own c s → exec (.twinStatusRead c) s = .next (answered s c {} (id ++ s.regBytes 0x103000 0x40)))
      ∧ (Started c 0x0701 s → Own c s → exec (.pwrRead c) s = .next (answered s c {} (id ++ s.regBytes 0x104000 0x1C0)))
      ∧ (Started c 0x0720 s → Own c s → exec (.thermalRead c) s = .next (answered { s with free := s.free + 1 } c {}
          (id ++ s.regBytes 0x105000 0xE38 ++ (List.range 421).flatMap (s.slopeBytes s.free))))
      ∧ (Started c 0x0320 s → Own c s → exec (.forecastRead c) s = .next (answered s c {} (s.tick.forecast.flatMap fun e => bytesLE 2 e)))
      ∧ (Started c 0x0723 s → Here c s → exec (.facRead c) s = .next (s.finishData c
          (s.regBytes 0x106000 0x40 ++ [1, 2, 3, 4].flatMap fun ty => padTo 16 (kvGet s.fac.frames ty [])) {}))
      ∧ (Spread c s → ∀ op i, (op, i) ∈ [(0x0501, Instr.cnsStatus c), (0x0601, .twinStatusRead c), (0x0701, .pwrRead c),
          (0x0320, .forecastRead c)] → Started c op s → ∃ u, exec i s = .next u
          ∧ ∀ e ∈ s.unitsUnder (s.depth + 2) c.unit [], unitPkg e.1 ≠ s.self → s.pathStop (unitPkg e.1) = none →
            ∃ x ∈ u.cornis.txns, x.user = .command c.ring c.tag e.1 ∧ x.dst = unitPkg e.1 ∧ x.msg.op = Op.control)
      ∧ ∀ o n i : Nat, i < n → (s.regBytes o n)[i]? =
        some (BitVec.ofNat 8 ((s.regRead ((o + i) / 8 * 8)).toNat / 256 ^ ((o + i) % 8)))

/-- The reads of the firmware, identity, models, routes, violations and a context (R112, R342, R343, R435, R455, R488); layouts
the spec does not give are the model's choice (log entries 44, 45 and 47). -/
def Obligations.PackageReadsReturnTheirRecords : Prop :=
  ∀ (c : Cmd) (s : State),
    (Started c 0x0801 s → Here c s →
        exec (.fwInfo c) s = .next (s.finishData c (s.sec.head ++ s.sec.images.flatMap Image.bytes) {}))
      ∧ (Started c 0x0810 s → Here c s → exec (.idChainRead c) s = .next (s.finishData c s.chain {}))
      ∧ (Started c 0x0811 s → Here c s → exec (.measureRead c) s = .next (s.finishData c s.measureBlocks {}))
      ∧ (Started c 0x0705 s → Here c s → exec (.modelRead c) s = .next (s.finishData c
          (((List.range 1536).flatMap fun t => ((List.range 24).flatMap fun k => bytesLE 8 (Config.weight t (s.railMv t) k))
              ++ ((List.range 14).flatMap fun (i : Nat) => bytesLE 4 (Config.leakage t (s.railMv t) (160 * i))))
            ++ bytesLE 8 s.modelBase ++ s.regBytes 0x104020 8) {}))
      ∧ (Started c 0x0706 s → Here c s → ∃ monitors : List Byte, monitors.length = 1536
          ∧ exec (.marginRead c) s = .next (s.finishData c (s.regBytes 0x104100 192 ++ monitors) {}))
      ∧ (Started c 0x0722 s → Here c s → exec (.thermalModelRead c) s = .next (s.finishData c
          (((List.range 24).flatMap fun st => bytesLE 4 (Config.offsetK st))
            ++ ((List.range 409).flatMap fun i => bytesLE 4 (Config.thermalC i + 1) ++ bytesLE 4 (Config.thermalG i))
            ++ bytesLE 4 Config.brassR
            ++ (List.range 421).flatMap fun i => bytesLE 4 (BitVec.ofInt 32 (Config.modelDiff i)).toNat) {}))
      ∧ (Started c 0x0503 s → Here c s → exec (.cnsRouteRead c) s = .next (s.finishData c
          ((List.range 1024).flatMap fun p => bytesLE 2 (kvGet s.cornis.routes p 0).toNat) { result0 := 2048 }))
      ∧ (Started c 0x0507 s → Here c s → exec (.cnsViolRead c) s = .next (s.finishData c
          (s.cornis.log.flatMap ViolRec.bytes) { result0 := w64 (16 * s.cornis.log.length) }))
      ∧ (Started c 0x0204 s →
        exec (.xltRead c) s = .next (s.finishData c (contextBytes (s.context c.p0.toNat)) { result0 := 32 }))

/-- GROUP_READ (R112), MEMBER_STATUS (R86), EVENT_READ_ACTIONS and EVENT_LOG_READ (R399), JOB_ENERGY_READ (R455); a bad count and
the order of the lists CHILD names are the model's choices (log entries 32 and 34). -/
def Obligations.ListReadsSayWhatTheyHold : Prop :=
  ∀ (c : Cmd) (s : State),
    (Started c 0x0112 s → ∀ l, kvFind s.units.groups c.p0.toNat = some l →
        exec (.groupRead c) s =
          .next (s.finishData c (l.flatMap fun m => bytesLE 4 m.toNat) { result0 := w64 (4 * l.length) }))
      ∧ (Started c 0x0112 s → kvFind s.units.groups c.p0.toNat = none →
        exec (.groupRead c) s = .next (s.finishWith c St.rejected Rs.noGroup))
      ∧ (Started c 0x0103 s → ∀ d,
        s.host.details.find? (fun d => d.ring = ringKey c c.p0.toNat && d.tag.toNat = c.p1.toNat) = some d →
        exec (.memberStatus c) s = .next (s.finishData c (d.members.flatMap fun m =>
          bytesLE 4 m.1.toNat ++ bytesLE 1 m.2.1.status.toNat ++ bytesLE 1 m.2.1.reason.toNat ++ bytesLE 2 m.2.2) {}))
      ∧ (Started c 0x0103 s → (∀ d ∈ s.host.details, ¬(d.ring = ringKey c c.p0.toNat ∧ d.tag.toNat = c.p1.toNat)) →
        exec (.memberStatus c) s = .next (s.finishWith c St.range 0))
      ∧ (Started c 0x0903 s → exec (.eventReadActions c) s = .next (s.finishData c
          (eventTable.map fun e => if s.events.logOnly.contains (BitVec.ofNat 16 e.1) then 1 else 0) {}))
      ∧ (Started c 0x0901 s →
        let oldest := (s.events.log.head?.map (·.seq)).getD s.events.next
        let n := c.p1.toNat
        let l := (s.events.log.filter fun e => c.p0.toNat ≤ e.seq).take n
        let k : Compl := { result0 := w64 l.length, result1 := w64 (c.p0.toNat + l.length) }
        ((n = 0 ∨ 65536 < n) → exec (.eventLogRead c) s = .next (s.finishWith c St.rejected Rs.badCount))
          ∧ (0 < n → n ≤ 65536 → c.p0.toNat < oldest →
            exec (.eventLogRead c) s = .next (s.finish c { status := St.range, result0 := w64 oldest }))
          ∧ (0 < n → n ≤ 65536 → oldest ≤ c.p0.toNat → l = [] → exec (.eventLogRead c) s = .next (s.finish c k))
          ∧ (0 < n → n ≤ 65536 → oldest ≤ c.p0.toNat → l ≠ [] →
            exec (.eventLogRead c) s = .next (s.finishData c (l.flatMap fun e => eventBytes e false) k)))
      ∧ (Started c 0x0703 s → Own c s →
        (bitAt c.p0 16 = true → exec (.jobEnergyRead c) s = .next (answered s c {} (s.power.jobs.flatMap JobAcct.bytes)))
          ∧ (bitAt c.p0 16 = false → ∀ j, s.power.account (BitVec.ofNat 16 (bitsOf c.p0 15 0)) = some j →
            exec (.jobEnergyRead c) s = .next (answered s c {} j.bytes))
          ∧ (bitAt c.p0 16 = false → s.power.account (BitVec.ofNat 16 (bitsOf c.p0 15 0)) = none →
            exec (.jobEnergyRead c) s = .next (answered s c (outc St.rejected Rs.noJob) [])))

/-- REGION_READ, CHANNEL_READ and MEM_POISON_READ (R303), FAULT_READ (R112), KA_RESULTS (R399), KV_BUFFER_READ (R250) and
PLAN_STATUS (R50, R65); layouts are the model's choice (log entries 22 and 47). -/
def Obligations.TileReadsReturnEachTile : Prop :=
  ∀ (c : Cmd) (s : State), Own c s →
    let tiles := s.tilesReached (s.depth + 2) c.unit
    let live := tiles.filter fun t => s.tileUp t
    (Started c 0x0222 s → exec (.regionRead c) s = .next (answeredBy s c (allRead s c.unit
        (live.flatMap fun t => bytesLE 8 (s.tileId t).toNat ++ s.regBytes (tileBlock t + 0x300) 256))))
      ∧ (Started c 0x0225 s → ∃ margins : TileRef → List Byte, exec (.channelRead c) s = .next (answeredBy s c (allRead s c.unit
        (live.flatMap fun t => bytesLE 8 (s.tileId t).toNat ++ (s.regBytes (tileBlock t + 0x400) 128 ++ margins t)))))
      ∧ (Started c 0x0210 s → exec (.faultRead c) s = .next (answeredBy s c (allRead s c.unit
        ((tiles.filter fun t => (s.tile t).fault.valid).flatMap fun t =>
          bytesLE 8 (s.tileId t).toNat ++ s.regBytes (tileBlock t + 0x100) 40))))
      ∧ (Started c 0x0A03 s → exec (.kaResults c) s = .next (answeredBy s c { allRead s c.unit
        (tiles.flatMap fun t => bytesLE 4 (s.tileId t).toNat ++ [(s.tile t).kaRun, (s.tile t).kaFailed, 0, 0]) with o := {} }))
      ∧ (Started c 0x0404 s → (unitLevel c.unit = 1 → s.tileUp (unitTileRef c.unit) = true) →
        exec (.kvBufferRead c) s = .next (answeredBy s c (allRead s c.unit
          (live.flatMap fun t => (s.tile t).kv.flatMap KvSlot.bufferRecord))))
      ∧ (Started c 0x0312 s → stepOk c.p0.toNat = true → (∀ l, s.tick.latched = some l → l < c.p0.toNat + 16) →
        exec (.planStatus c) s = .next (answered s c {} (live.flatMap fun t => s.planRecord t c.p0.toNat)))
      ∧ (Started c 0x0312 s → stepOk c.p0.toNat = true → (∃ l, s.tick.latched = some l ∧ c.p0.toNat + 16 ≤ l) →
        exec (.planStatus c) s = .next (answered s c (outc St.range 0) []))
      ∧ (Started c 0x0312 s → stepOk c.p0.toNat = false →
        exec (.planStatus c) s = .next (s.finishWith c St.rejected Rs.badStep))
      ∧ (Started c 0x0224 s → s.tileUp (unitTileRef c.unit) = true → ∃ bytes : List Byte,
        exec (.memPoisonRead c) s = .next (s.finishData c bytes {}) ∧ bytes.length = 4096
          ∧ ∀ p : Nat, p < 32768 → ((bytes[p / 8]?).getD 0).toNat.testBit (p % 8)
            = decide (32768 * (c.p0.toNat % 32) + p ∈ (s.tile (unitTileRef c.unit)).mem.poison))

/-- The frame of the read commands: nothing but command slots, kept details and the count of free values changes. -/
def Obligations.ReadsChangeOnlyTheirCommand : Prop :=
  ∀ (c : Cmd) (s : State), Own c s →
    ∀ i ∈ ([.tickGet c, .cnsStatus c, .cnsRouteRead c, .cnsViolRead c, .twinStatusRead c, .pwrRead c, .modelRead c, .marginRead c,
        .thermalRead c, .thermalModelRead c, .facRead c, .forecastRead c, .fwInfo c, .idChainRead c, .measureRead c, .xltRead c,
        .groupRead c, .memberStatus c, .eventLogRead c, .eventReadActions c, .jobEnergyRead c, .regionRead c, .channelRead c,
        .memPoisonRead c, .faultRead c, .kaResults c, .kvBufferRead c, .planStatus c, .unitRead c, .stateDump c] : List Instr),
      ∃ t, exec i s = .next t ∧ OnlyCommands s t

/-- UNIT_READ (R73, R112), STATE_DUMP (R406) and KV_TAIL_READ, which runs in the package of its table (R68, R207, R250); log entries
21, 22 and 34. -/
def Obligations.UnitRecordsAndDumpsAreReturned : Prop :=
  ∀ (c : Cmd) (s : State),
    (Started c 0x0101 s → (Here c s ∨ unitLevel c.unit = 4 ∨ unitLevel c.unit = 5) →
        let bytes := s.recordBytes c.unit c.p0.toNat 65492
        exec (.unitRead c) s = .next (s.finishData c bytes
          { result0 := w64 bytes.length, result1 := w64 (s.outAt s.depth c.unit).length }))
      ∧ (Started c 0x0102 s → Own c s →
        exec (.stateDump c) s = .next (answered s c {} (s.dumpEnd c.unit (s.dumpAt s.depth c.unit))))
      ∧ (Started c 0x0403 s →
        (∀ q, (tablePkg (s.kvAgent c) c.p0).result s = (.ok s.self, q) →
            (∀ l t, (tailData c.p0 c.p1.toNat (q.kvAgent c)).result q = (.ok l, t) →
                exec (.kvTailRead c) s = .next (t.finishData c l { result0 := w64 l.length }))
              ∧ ∀ e t, (tailData c.p0 c.p1.toNat (q.kvAgent c)).result q = (.error e, t) →
                exec (.kvTailRead c) s = .next (t.finishWith c e.status e.reason))
          ∧ (∀ e q, (tablePkg (s.kvAgent c) c.p0).result s = (.error e, q) →
            exec (.kvTailRead c) s = .next (q.finishWith c e.status e.reason))
          ∧ ∀ p q z, (tablePkg (s.kvAgent c) c.p0).result s = (.ok p, q) → p ≠ s.self → s.cmdSlot c = some z → z.members = [] →
            exec (.kvTailRead c) s = .next (q.passOn c p []))

/-- The range of the period (R34). -/
def Obligations.PeriodsOutsideTheRangeAreRefused : Prop :=
  State.reset.tick.sched.periodUs = 20000
    ∧ ∀ (c : Cmd) (s : State), s.isRoot = true →
      (Started c 0x0302 s → s.tick.hasSchedule = false → (c.p2.toNat < 500 ∨ 200000 < c.p2.toNat) →
          exec (.tickStart c) s = .next (s.finishWith c St.rejected Rs.badPeriod))
        ∧ (Started c 0x0303 s → s.tick.hasSchedule = true → (c.p0.toNat < 500 ∨ 200000 < c.p0.toNat) →
          exec (.tickSetPeriod c) s = .next (s.finishWith c St.rejected Rs.badPeriod))
        ∧ (Started c 0x0302 s → s.tick.hasSchedule = false → 500 ≤ c.p2.toNat → c.p2.toNat ≤ 200000 → c.p0.toNat < 2 ^ 48 - 1 →
          s.time.invar.toNat + 200000000 ≤ c.p1.toNat →
          ∃ t, exec (.tickStart c) s = .next t ∧ t.tick.sched.periodUs = c.p2.toNat)
        ∧ (Started c 0x0303 s → s.tick.hasSchedule = true → 500 ≤ c.p0.toNat → c.p0.toNat ≤ 200000 → c.p1.toNat < 2 ^ 48 - 1 →
          s.tick.sched.change = none → s.tick.sched.baseStep ≤ c.p1.toNat → s.tick.wall + 16 ≤ c.p1.toNat →
          s.time.invar.toNat + 200000000 ≤ (s.tick.sched.tickTime c.p1.toNat).toNat →
          ∃ t, exec (.tickSetPeriod c) s = .next t ∧ t.tick.sched.change = some (c.p0.toNat, c.p1.toNat))

/-- The commands on the schedule at the root (R33, R37, R51, R53), and STEP_REALIGN (R49); log entry 56. -/
def Obligations.ScheduleCommandsWriteTheRecord : Prop :=
  ∀ (c : Cmd) (s : State),
    let written := fun (r : Schedule) =>
      State.reforecast { s with tick := { s.tick with sched := { r with version := s.tick.sched.version + 1 } } }
    let now := s.time.invar.toNat
    let r := s.tick.sched
    (s.isRoot = true →
      (Started c 0x0302 s → s.tick.hasSchedule = false → periodOk c.p2.toNat = true → stepOk c.p0.toNat = true →
          now + 200000000 ≤ c.p1.toNat →
          exec (.tickStart c) s =
            let q := written { baseStep := c.p0.toNat, baseTime := c.p1.toNat, periodUs := c.p2.toNat }
            .next (State.finish { q with tick := { q.tick with hasSchedule := true, first := c.p0.toNat } } c {}))
        ∧ (Started c 0x0303 s → s.tick.hasSchedule = true → periodOk c.p0.toNat = true → stepOk c.p1.toNat = true →
          r.change = none → r.baseStep ≤ c.p1.toNat → s.tick.wall + 16 ≤ c.p1.toNat →
          now + 200000000 ≤ (r.tickTime c.p1.toNat).toNat →
          exec (.tickSetPeriod c) s = .next ((written { r with change := some (c.p0.toNat, c.p1.toNat) }).finish c {}))
        ∧ (Started c 0x0303 s → s.tick.hasSchedule = true → periodOk c.p0.toNat = true → stepOk c.p1.toNat = true →
          r.change ≠ none → exec (.tickSetPeriod c) s = .next (s.finishWith c St.rejected Rs.changePending))
        ∧ (Started c 0x0304 s → s.tick.hasSchedule = true → ∀ p m, r.change = some (p, m) →
          (now + 100000000 ≤ (r.tickTime m).toNat →
              exec (.tickCancelChange c) s = .next ((written { r with change := none }).finish c {}))
            ∧ ((r.tickTime m).toNat < now + 100000000 →
              exec (.tickCancelChange c) s = .next (s.finishWith c St.rejected Rs.tooSoon)))
        ∧ (s.tick.hasSchedule = false →
          (Started c 0x0303 s → exec (.tickSetPeriod c) s = .next (s.finishWith c St.notReady Rs.noSchedule))
            ∧ (Started c 0x0304 s → exec (.tickCancelChange c) s = .next (s.finishWith c St.notReady Rs.noSchedule))))
      ∧ (Started c 0x0305 s → Own c s →
        (c.p0.toNat ≤ s.tick.lag - s.tick.realign → exec (.stepRealign c) s =
            .next (answered (State.reforecast { s with tick := { s.tick with realign := s.tick.realign + c.p0.toNat } }) c {} []))
          ∧ (s.tick.lag - s.tick.realign < c.p0.toNat →
            exec (.stepRealign c) s = .next (answered s c (outc St.rejected Rs.badCount) [])))

/-- PLAN_CANCEL (R45), XLT_INVALIDATE (R103), the region commands (R279, R280, R303), SCRUB_NOW (R303) and KA_RUN (R400) on one
tile; log entry 57. -/
def Obligations.TileCommandsActOnTheirTile : Prop :=
  ∀ (c : Cmd) (s : State) (t : TileRef), OwnTile c s t →
    let x := s.tile t
    let ends := fun (i : Instr) (q : State) (o : Outc) => ∃ u, exec i s = .next u ∧ OnlyCommands q u ∧ Ends u c (membersSay o)
    let step := c.p0.toNat
    let rs := maskRegions c.p0
    (Started c 0x0311 s → s.noMembers c = true → stepOk step = true →
        ((x.planFor step).isSome = true →
            ends (.planCancel c) (s.modTile t fun x => { x with queue := x.queue.filter fun p => p.step ≠ step }).reforecast {})
          ∧ ((x.planFor step).isSome = false → step ∈ x.started →
            ends (.planCancel c) s.reforecast (outc St.rejected Rs.planRunning))
          ∧ ((x.planFor step).isSome = false → step ∉ x.started → ends (.planCancel c) s.reforecast {}))
      ∧ (Started c 0x0203 s → x.inFlight c.p0.toNat (some (c.p1.toNat, c.p1.toNat + c.p2.toNat)) = true →
        exec (.xltInvalidate c) s = .next s)
      ∧ (Started c 0x0203 s → x.inFlight c.p0.toNat (some (c.p1.toNat, c.p1.toNat + c.p2.toNat)) = false →
        ends (.xltInvalidate c) (s.modTile t fun x => x.invalidate c.p0.toNat (some (c.p1.toNat, c.p1.toNat + c.p2.toNat))) {})
      ∧ (Started c 0x0220 s → c.p2.toNat < 6 →
        (x.topRegion ∈ rs → ends (.regionSetCode c) s (outc St.rejected Rs.fwRegion))
          ∧ (x.topRegion ∉ rs → ends (.regionSetCode c)
            ((rs.filter x.regionPresent).foldl (fun (s : State) r =>
              s.modRegion t r fun g => g.recode (c.p1 = 1) (BitVec.ofNat 3 c.p2.toNat)) s)
            (if rs.all x.regionPresent then {} else outc St.range Rs.channelOut)))
      ∧ (Started c 0x0221 s → c.p1 ≠ 3 → x.degraded = false → (∀ r ∈ rs, r % 16 ≠ 15) →
        ends (.regionSetInterleave c) (s.setInterleave t rs (BitVec.ofNat 2 c.p1.toNat)) {})
      ∧ (Started c 0x0223 s → s.noMembers c = true →
        (rs.filter x.regionPresent = [] → ends (.scrubNow c) s {})
          ∧ (rs.filter x.regionPresent ≠ [] → ∃ u, exec (.scrubNow c) s = .next u
            ∧ OnlyCommands (s.modTile t fun x => { x with mem := { x.mem with
              demand := x.mem.demand ++ [(c, (rs.filter x.regionPresent).map (· * 32768))] } }) u))
      ∧ (Started c 0x0A01 s → ∀ fails : List (TileRef × Byte),
        let mask : Byte := BitVec.ofNat 8 c.p0.toNat
        let bad := (((fails.find? fun f => f.1 = t).map Prod.snd).getD 0) &&& mask
        (x.unit = .removed → ends (.kaRun c fails) (s.modTile t fun x => { x with kaRun := mask, kaFailed := bad })
            (if bad = 0 then {} else outc St.notReady Rs.testFailed))
          ∧ (x.unit ≠ .removed → ends (.kaRun c fails) s (outc St.rejected Rs.inService)))

/-- UNIT_REMOVE (R89), UNIT_RESTORE (R90), GROUP_WRITE (R77), GROUP_DELETE (R78), XLT_SET_BASE and XLT_SET_LIMIT (R98, R112) and
XLT_PROBE (R517). -/
def Obligations.UnitsGroupsAndContextsAreSet : Prop :=
  ∀ (c : Cmd) (s : State),
    let g := c.p0.toNat
    let me := groupUnit s.self g
    let st := unitStack c.unit
    (∀ t, OwnTile c s t →
        (Started c 0x0120 s → (s.tile t).unit.inService = true → (∀ e ∈ (s.tile t).mem.demand, e.1 ≠ c) →
            ∃ u, exec (.unitRemove c) s = .next u ∧ (u.tile t).unit = .removed ∧ (u.tile t).queue = [] ∧ Ends u c {})
          ∧ (Started c 0x0121 s → ∀ heads fails,
            ((s.tile t).unit = .removed → s.stackUp st = true → t ∉ fails →
                ∃ u, exec (.unitRestore c heads fails) s = .next u ∧ ((u.tile t).unit = .ready ∨ (u.tile t).unit = .degraded)
                  ∧ (u.tile t).queue = [] ∧ (u.tile t).running = none ∧ (u.tile t).xlt = [] ∧ Ends u c {})
              ∧ ((s.tile t).unit = .removed → s.stackUp st = true → t ∈ fails →
                exec (.unitRestore c heads fails) s = .next (s.finishWith c St.notReady Rs.testFailed))
              ∧ ((s.tile t).unit = .removed → s.stackUp st = false →
                exec (.unitRestore c heads fails) s = .next (s.finishWith c St.notReady Rs.stackOut))
              ∧ ∀ a b, restoreRefusal (s.tile t).unit = some (a, b) →
                exec (.unitRestore c heads fails) s = .next (s.finishWith c a b)))
      ∧ (restoreRefusal .absent = some (St.rejected, Rs.fusedOff) ∧ restoreRefusal .halted = some (St.rejected, Rs.unitHalted)
        ∧ restoreRefusal .ready = some (St.rejected, Rs.inService) ∧ restoreRefusal .degraded = some (St.rejected, Rs.inService))
      ∧ (Started c 0x0110 s → ∀ z b, s.cmdSlot c = some z → z.param = some (.good b) → z.members = [] →
        4 * c.p1.toNat ≤ b.length →
        let new := unitList (b.take (4 * c.p1.toNat))
        let lists := (me, new) :: ((s.units.groups.filter fun k => k.1 ≠ g).map fun k => (groupUnit s.self k.1, k.2))
        (∀ l ∈ lists, ∀ u ∈ l.2, unitLevel u = 7 → unitPkg u = s.self) →
          (s.groupCheck lists g c.p1.toNat new = none → ∃ u, exec (.groupWrite c) s = .next u ∧ Ends u c {}
              ∧ kvFind u.units.groups g = some new ∧ ∀ h, h ≠ g → kvFind u.units.groups h = kvFind s.units.groups h)
            ∧ ∀ r, s.groupCheck lists g c.p1.toNat new = some r →
              exec (.groupWrite c) s = .next (s.finishWith c St.rejected r))
      ∧ (Started c 0x0111 s →
        (kvFind s.units.groups g = none → exec (.groupDelete c) s = .next (s.finishWith c St.rejected Rs.noGroup))
          ∧ ((kvFind s.units.groups g).isSome = true → (∃ k ∈ s.units.groups, me ∈ k.2) →
            exec (.groupDelete c) s = .next (s.finishWith c St.rejected Rs.groupInUse))
          ∧ ((kvFind s.units.groups g).isSome = true → (∀ k ∈ s.units.groups, me ∉ k.2) → exec (.groupDelete c) s =
            .next (State.finish { s with units := { s.units with groups := kvErase s.units.groups g } } c {})))
      ∧ (Own c s →
        (Started c 0x0201 s → (c.p1 = 0 ∨ (s.nodeLocal (4096 * c.p1.toNat)).isSome = true) → exec (.xltSetBase c) s =
            .next (answered (s.setContext g fun k => { k with root := 4096 * c.p1.toNat, baseSeal := BitVec.ofNat 8 c.p2.toNat }) c {} []))
          ∧ (Started c 0x0201 s → c.p1 ≠ 0 → s.nodeLocal (4096 * c.p1.toNat) = none →
            exec (.xltSetBase c) s = .next (answered s c (outc St.rejected Rs.badEntry) []))
          ∧ (Started c 0x0202 s → c.p1.toNat ≤ 256 → c.p2.toNat ≤ 256 → exec (.xltSetLimit c) s =
            .next (answered (s.setContext g fun k =>
              { k with pos := c.p1.toNat, neg := c.p2.toNat, limitSeal := BitVec.ofNat 8 c.p3.toNat }) c {} []))
          ∧ (Started c 0x0202 s → (256 < c.p1.toNat ∨ 256 < c.p2.toNat) →
            exec (.xltSetLimit c) s = .next (answered s c (outc St.rejected Rs.badEntry) [])))
      ∧ (∀ f t e, e ∈ ((s.setContext g f).tile t).xlt → e.ctx ≠ g)
      ∧ (∀ t, OwnTile c s t → Started c 0x0205 s → s.tileUp t = true →
        (∀ e hit u, (probe t (g % 4096) c.p1).result s = (.ok (e, hit), u) → exec (.xltProbe c) s =
            .next (u.finishOk c (w64 (e.global c.p1)) (w64 (4 * e.prot.toNat + if hit then 256 else 0))))
          ∧ ∀ e u, (probe t (g % 4096) c.p1).result s = (.error e, u) →
            exec (.xltProbe c) s = .next (u.finishWith c e.status e.reason))

/-- EVENT_SET_ACTION, CMD_ABORT (R399), KA_VECTOR and CNS_LOOPBACK (R400), CNS_ROUTE_WRITE (R325), CNS_PORT_RETRAIN (R311),
CNS_PEER_CLEAR (R341) and CNS_ATOMIC (R331); log entries 38 and 40. -/
def Obligations.TestsEventsAndCornisCommandsDoTheirWork : Prop :=
  ∀ (c : Cmd) (s : State),
    let code := BitVec.ofNat 16 c.p0.toNat
    let rest := s.events.logOnly.filter (· ≠ code)
    let held := fun (k : CmdSlot) => k.cmd.ring = ringKey c c.p0.toNat ∧ k.cmd.tag.toNat = c.p1.toNat ∧ k.ph = .held
    let p := c.p0.toNat
    let portUp := fun (g : Nat) => ∃ x q, s.cornis.groups[g]? = some x ∧ LaneGroup.portNo x = some q ∧ (s.port q).up = true
    (Started c 0x0902 s →
        ((∀ e ∈ eventTable, e.1 ≠ code.toNat) → exec (.eventSetAction c) s = .next (s.finishWith c St.rejected Rs.badField))
          ∧ ((∃ e ∈ eventTable, e.1 = code.toNat) → exec (.eventSetAction c) s = .next (State.finish
            { s with events := { s.events with logOnly := if c.p1 = 0 then rest else code :: rest } } c {})))
      ∧ (Started c 0x0910 s →
        ((∀ k ∈ s.host.slots, ¬held k) → exec (.cmdAbort c) s = .next (s.finishOk c 0 0))
          ∧ ((∃ k ∈ s.host.slots, held k) → ∃ u, exec (.cmdAbort c) s = .next u ∧ OnlyCommands s u ∧ Ends u c { result0 := 1 }
            ∧ (∀ k ∈ s.host.slots, held k → { k with ph := .finished, compl := { status := St.aborted } } ∈ u.host.slots)))
      ∧ (∀ t, Started c 0x0A02 s → OwnTile c s t → (s.tile t).unit = .removed → s.noMembers c = true → ∀ o n k q,
        (kaVectorTile (s.cmdEnv c t (c.p0.toNat % 4096)) c).result s = (.ok (o, n, k), q) →
        exec (.kaVector c) s = .next ((q.setDetail c [([(0, 1, c.unit)], o)]).finish c
          { membersSay o with result0 := w64 n, result1 := w64 k }))
      ∧ (Here c s → Started c 0x0A04 s → ∀ errors : Nat,
        (portUp p → exec (.cnsLoopback c errors) s = .next (s.finishWith c St.rejected Rs.inService))
          ∧ (¬portUp p → exec (.cnsLoopback c errors) s = .next (s.finish c { result0 := w64 errors
                                                                              status := if errors = 0 then St.ok else St.notReady
                                                                              reason := if errors = 0 then 0 else Rs.testFailed })))
      ∧ (Own c s → Started c 0x0502 s → ∀ z b, s.cmdSlot c = some z → z.param = some (.good b) → 2 * c.p1.toNat ≤ b.length →
        let l := routeEntries (b.take (2 * c.p1.toNat))
        (p + l.length ≤ 1024 → (∀ e ∈ l, routeOk e = true) →
            exec (.cnsRouteWrite c) s = .next (answered ((s.setRoutes p l).noteAbove s 0).retryHeld c {} []))
          ∧ ((1024 < p + l.length ∨ ∃ e ∈ l, routeOk e = false) →
            exec (.cnsRouteWrite c) s = .next (answered s c (outc St.rejected Rs.badField) [])))
      ∧ (Here c s → Started c 0x0504 s →
        (8 < p → exec (.cnsPortRetrain c) s = .next (s.finishWith c St.rejected Rs.badField))
          ∧ (p ≤ 8 → (s.port p).trainCmd = none → s.cornis.trained = true → (s.usePort p).trainable p = true →
            exec (.cnsPortRetrain c) s = .next ((s.usePort p).startTraining p true (some c)))
          ∧ (p ≤ 8 → (s.port p).trainCmd = none → (s.cornis.trained = false ∨ (s.usePort p).trainable p = false) →
            exec (.cnsPortRetrain c) s = .next ((s.usePort p).finishWith c St.notReady Rs.portDown)))
      ∧ (Own c s → Started c 0x0505 s →
        (p < 9 → exec (.cnsPeerClear c) s = .next (answered (s.clearParty (1024 + p)) c {} []))
          ∧ (∀ k : Nat, k < 1024 → c.p0.toNat = (pkgUnit k).toNat →
            exec (.cnsPeerClear c) s = .next (answered (s.clearParty k) c {} [])))
      ∧ (Started c 0x0506 s → c.p1 ≠ 3 → c.p2 ≠ 3 → pkgOf p = s.self →
        let m := s.atomicMsg p c.p1.toNat c.p2.toNat c.p3 c.p4
        (∀ old q, (applyAtomic m).result s = (.ok old, q) → exec (.cnsAtomic c) s = .next (q.finishOk c (w64 old) 0))
          ∧ ∀ e q, (applyAtomic m).result s = (.error e, q) → exec (.cnsAtomic c) s = .next (q.finishWith c e.status e.reason))

/-- TWIN_RESYNC (R364), TWIN_DETACH (R361, R370), TWIN_ATTACH (R371) and TWIN_PAGE_FETCH (R369); log entry 30. -/
def Obligations.TwinCommandsMoveThePair : Prop :=
  ∀ (c : Cmd) (s : State) (z : CmdSlot), s.cmdSlot c = some z → z.members = [] → unitPair c.unit = s.self / 2 →
    let path := s.pathStop s.twinPkg
    (∀ b k rest, Started c 0x0602 s → 1 ≤ c.p1.toNat → c.p1.toNat ≤ 4096 → z.param = some (.good b) →
        b.length = 2 * c.p1.toNat → (chunks 2 b.length b).map (fun e => natLE e % 4096) = k :: rest →
        (s.twin.state = .solo → s.twin.suspect = false → s.twin.barred = false → pairOf s.twin.peerState = .stale →
            s.twin.peerGen = s.twin.gen → path = none → ∃ u, exec (.twinResync c) s = .next u ∧ u.twin.state = .source ∧ u.twin.phase = 1 ∧ u.twin.context = k
              ∧ u.twin.contexts = rest ∧ u.twin.gen = s.twin.gen ∧ Ends u c {})
          ∧ (s.twin.state ≠ .stale → (s.twin.state ≠ .solo ∨ s.twin.suspect = true ∨ s.twin.barred = true) →
            exec (.twinResync c) s = .next (s.finishWith c St.rejected Rs.notStale)))
      ∧ (Started c 0x0603 s → s.twin.leaving = none → s.tailTiles = [] →
        (s.twin.tailsOut = 0 → ∃ u, exec (.twinDetach c) s = .next u ∧ u.twin.state = .detached ∧ u.twin.gen = s.twin.gen
            ∧ u.twin.leaving = none)
          ∧ (s.twin.tailsOut ≠ 0 → ∃ u, exec (.twinDetach c) s = .next u ∧ u.twin.state = s.twin.state
            ∧ u.twin.leaving = some s.time.now ∧ u.twin.leaveDetach = true ∧ u.twin.detachCmd = some c))
      ∧ (Started c 0x0604 s →
        (c.origin = none → path = none → s.self % 2 = c.p0.toNat % 2 →
            ∃ u, exec (.twinAttach c) s = .next u ∧ u.twin.state = .solo ∧ u.twin.gen = s.twin.gen + 1)
          ∧ (c.origin = none → ∀ st rs, path = some (st, rs) →
            exec (.twinAttach c) s = .next (s.finishWith c St.notReady rs))
          ∧ (c.origin.isSome = true → s.self % 2 ≠ c.p0.toNat % 2 →
            ∃ u, exec (.twinAttach c) s = .next u ∧ u.twin.state = .stale
              ∧ u.twin.gen = BitVec.ofNat 32 (natLE ((s.paramOf c).take 4)) ∧ Ends u c {}))
      ∧ (Started c 0x0605 s → Here c s →
        (s.twin.state ≠ .paired → exec (.twinPageFetch c) s = .next (s.finishWith c St.notReady Rs.notPaired))
          ∧ (s.twin.state = .paired → c.p2 ≠ 0 → c.p1.toNat % 2048 = 0 → path = none →
            exec (.twinPageFetch c) s = .next (s.fetchPages c)))
      ∧ ∀ (i : Nat) e q, (translatePlain c.p0.toNat (c.p1 + w64 (i * 2048)) 0).result s = (.ok e, q) →
        let g := e.global (c.p1 + w64 (i * 2048))
        pkgOf g = s.self → isStack (localOf g) = true →
          (s.fetchPage c c.p0.toNat i).1.twin.fetching = q.twin.fetching ++ [(localOf g, [])]
            ∧ (s.fetchPage c c.p0.toNat i).2.report = none

/-- PWR_SET_CAP, JOB_CLOSE (R455), THRESH_SET and FAC_CLEAR (R488), FW_VERIFY and FW_SVN_COMMIT (R435), KV_FLUSH and KV_RELEASE,
which run in the package of their table (R68, R207, R250), PLAN_LOAD (R40 to R42, R423); log entries 21, 44 and 57. -/
def Obligations.SettingCommandsWriteWhatTheyName : Prop :=
  ∀ (c : Cmd) (s : State),
    let n := c.p0.toNat
    let tag := BitVec.ofNat 16 (bitsOf c.p0 15 0)
    (Own c s → Started c 0x0702 s →
        (120 ≤ n → n ≤ 360 → exec (.pwrSetCap c) s = .next (answered (s.writeCap (BitVec.ofNat 9 n)) c
            (outc St.ok (if s.power.ceiling < n then Rs.capCeiling else 0)) []))
          ∧ ((n < 120 ∨ 360 < n) → exec (.pwrSetCap c) s = .next (answered s c (outc St.rejected Rs.capRange) [])))
      ∧ (Own c s → Started c 0x0704 s →
        let part := kvGet s.stepShares.1 tag.toNat 0 - kvGet s.power.closed tag.toNat 0
        (∀ j, s.power.account tag = some j → ∃ q, exec (.jobClose c) s = .next (answered q c {} (bytesLE 8 (j.uj + part)))
            ∧ q.power.account tag = none)
          ∧ (s.power.account tag = none → part = 0 → exec (.jobClose c) s = .next (answered s c (outc St.rejected Rs.noJob) [])))
      ∧ (Here c s →
        (Started c 0x0721 s → n ≤ 3 → (∀ i : Nat, i < 6 → (bits 8 c.p1 (8 * i)).toNat ≤ 150) → exec (.threshSet c) s =
            .next (State.finish { s with therm := { s.therm with thresh := s.therm.thresh.set n (threshOf c.p1) } } c {}))
          ∧ (Started c 0x0721 s → (3 < n ∨ ∃ i : Nat, i < 6 ∧ 150 < (bits 8 c.p1 (8 * i)).toNat) →
            exec (.threshSet c) s = .next (s.finishWith c St.rejected Rs.badField))
          ∧ (Started c 0x0724 s → exec (.facClear c) s = .next (State.finish { s with fac := { s.fac with
              suspect := false, viol := 0, violWin := { s.fac.violWin with times := [] }
              repValid := s.fac.active && (kvFind s.fac.frames 1).isSome } } c {}))
          ∧ (Started c 0x0802 s → ∀ z b, s.cmdSlot c = some z → z.param = some (.good b) → 0 < c.p1.toNat → c.p1.toNat < 2 ^ 28 →
            c.p1.toNat ≤ b.length → exec (.fwVerify c) s = .next (match s.bundleStop (b.take c.p1.toNat) c.p1.toNat with
              | some (r, k) => s.refuseVerify c r k
              | none => s.finish c {}))
          ∧ (Started c 0x0803 s → (n < s.sec.svnFused ∨ s.sec.svnRunning < n) →
            exec (.fwSvnCommit c) s = .next (s.finishWith c St.rejected Rs.svnLower))
          ∧ (Started c 0x0803 s → s.sec.svnFused ≤ n → n ≤ s.sec.svnRunning → n ≤ 64 →
            ∃ u, exec (.fwSvnCommit c) s = .next u ∧ u.sec.svnFused = n ∧ Ends u c {}))
      ∧ (∀ (op : Nat) (i : Instr) (act : KvHeader → BitVec 64 → Nat → Env → M Outc),
        (op, i, act) ∈ [(0x0401, Instr.kvFlush c, flushPlane), (0x0402, .kvRelease c, releasePlane)] → Started c op s →
        (∀ s1, (tablePkg (s.kvAgent c) c.p0).result s = (.ok s.self, s1) →
            let env := s1.kvAgent c
            let ended := fun (u : State) (o : Outc) => exec i s =
              .next (u.finish c { status := o.status, reason := o.reason, map := o.map })
            (∀ e q, (readHeader env c.p0).result s1 = (.error e, q) → exec i s = .next (q.finishWith c e.status e.reason))
              ∧ ∀ h p q, (readHeader env c.p0).result s1 = (.ok (h, p), q) →
                let pass := planePass (fun k => act h c.p0 k env) (planesOf h c.p1.toNat) q []
                (∀ o u, c.p1.toNat ≠ 255 → pass = (.ok [(c.p1.toNat, o)], u) → ended u o)
                  ∧ (∀ l u, c.p1.toNat = 255 → pass = (.ok l, u) → ended u (combine h.planes l))
                  ∧ ∀ n u, pass = (.error n, u) → exec i s = .next (s1.askCmdRead c env n))
          ∧ (∀ e q, (tablePkg (s.kvAgent c) c.p0).result s = (.error e, q) → exec i s = .next (q.finishWith c e.status e.reason))
          ∧ ∀ p q z, (tablePkg (s.kvAgent c) c.p0).result s = (.ok p, q) → p ≠ s.self → s.cmdSlot c = some z → z.members = [] →
            exec i s = .next (q.passOn c p []))
      ∧ ∀ t, OwnTile c s t → Started c 0x0310 s → s.noMembers c = true → stepOk n = true →
        let env := s.cmdEnv c t (c.p1.toNat % 2 ^ 16 % 4096)
        ∀ b q, (readDva env c.p2 16 1).result s = (.ok b, q) → (planEntry b).skip = false →
          (∀ r, q.planRefusal t n (planEntry b) = some r → ∃ u, exec (.planLoad c) s = .next u
              ∧ OnlyCommands q.reforecast u ∧ Ends u c (membersSay (outc St.rejected r)))
            ∧ (q.planRefusal t n (planEntry b) = none → (planEntry b).host = false →
              ∀ l r, (readDva env (planEntry b).source (64 * (planEntry b).count) 1).result q = (.ok l, r) →
                let units := takeUnits ((r.tile t).queue.flatMap (·.units)) 32768 0 (descList l).length
                (∀ w, copyPlan r t units l = (.ok (), w) → ∃ u, exec (.planLoad c) s = .next u ∧ Ends u c (membersSay {})
                    ∧ OnlyCommands (w.modTile t fun x => x.addPlan { step := n, job := BitVec.ofNat 16 c.p1.toNat, descs := descList l
                                                                     energyUj := (planEntry b).energyUj, units := units }).reforecast u)
                  ∧ ∀ e w, copyPlan r t units l = (.error e, w) → ∃ u, exec (.planLoad c) s = .next u
                    ∧ OnlyCommands w.reforecast u ∧ Ends u c (membersSay (outc e.status e.reason)))

/-- TICK (R36, R43, R47), DONE_SAMPLE (R46), STEP_REPORT (R50) and PLAN_LIMIT_ABORT (R48); log entry 11. -/
def Obligations.TicksStartPlansOrAreSkipped : Prop :=
  ∀ s : State, s.clocksRun = true →
    (∀ a, s.nextTickAt = some a → a < 2 ^ 64 →
      let n := s.tick.nextTick
      (s.tick.oldSched = none → (∀ p m, s.tick.sched.change = some (p, m) → m ≠ n) → s.tick.realign = 0 →
          s.therm.decided = false → s.tick.sampled = true →
          (s.tick.sampleDone = true → s.tick.paceAgrees = true → ∃ u, exec .tick s = .next u ∧ u.tick.wall = n
              ∧ u.tick.running = true ∧ u.tick.lag = s.tick.lag ∧ u.tick.latched = some (n - s.tick.lag)
              ∧ ∀ t, s.tileUp t = true → (u.tile t).running = (s.tile t).planFor (n - s.tick.lag))
            ∧ (s.tick.sampleDone = false → ∃ u, exec .tick s = .next u ∧ u.tick.wall = n ∧ u.tick.running = true
              ∧ u.tick.lag = min (s.tick.lag + 1) n ∧ ∀ t, (u.tile t).running = (s.tile t).running))
        ∧ ∃ u, exec .doneSample s = .next u ∧ u.tick.sampled = true ∧ u.tick.sampleDone = s.allDone
          ∧ u.time.invar.toNat = max s.time.invar.toNat (a - 2000)
          ∧ u = { s with time := u.time, tick := { s.tick with sampled := true, sampleDone := s.allDone } })
      ∧ (∀ e r, s.tick.reports = e :: r → exec .stepReport s =
        .next (State.raiseP { s with tick := { s.tick with reports := r } } Ev.stepReport
          [w64 e.run.logical, w64 e.run.wallAtStart, w64 (jobTags e.run.jobs), w64 e.energy, w64 e.status.toNat, e.stackMap]))
      ∧ (s.tick.planLimit ≠ 0 → s.tick.planLimit.toNat ≤ s.tick.skips → s.allDone = false →
        let q : State := s.tilesUp.foldl (fun (s : State) t => s.stopTile t 0) s
        exec .planLimitAbort s = .next (State.raiseP { q with tick := { q.tick with skips := 0 } } Ev.planHung []))

/-- The lag never exceeds the wall step (R39). -/
def Obligations.TheLagNeverExceedsTheWallStep : Prop :=
  State.reset.tick.lag = 0 ∧ State.reset.tick.wall = 0
    ∧ ∀ s : State, s.tick.lag ≤ s.tick.wall →
      (s.tick.running = true → ∃ u, exec .tick s = .next u ∧ u.tick.lag ≤ u.tick.wall ∧ s.tick.wall ≤ u.tick.wall)
        ∧ ∀ c, Own c s → ∃ u, exec (.stepRealign c) s = .next u ∧ u.tick.lag = s.tick.lag ∧ u.tick.wall = s.tick.wall

/-- TIME_FRAME_SEND (R30), TIME (R29, R33, R338, R340), PARENT_FRAME_SILENCE (R32) and ROOT_FORGET (R29); log entry 55. -/
def Obligations.TimeFramesDisciplineTheCount : Prop :=
  ∀ s : State, s.clocksRun = true →
    (s.time.treeOn = true → ∃ u, exec .timeFrameSend s = .next u
        ∧ u.out.time = s.out.time ++ ((List.range 9).filter fun p => (s.port p).up).map s.timeFrame
        ∧ u.time = s.time ∧ u.tick = s.tick ∧ u.tiles = s.tiles ∧ u.mem = s.mem)
      ∧ (∀ f : TimeFrame, (s.port f.port).up = true → f.peer ≠ s.self → (f.port = 8 → f.peer = s.twinPkg) →
        f.peer ∉ s.cornis.suspects →
        let h := (s.freeCredit f.port 3 1).hearTwin f.peer
        let x : TimePeer := ⟨f.root, f.rootHops, f.locked, f.version, f.txNs, s.time.invar⟩
        let sound := f.crcOk = true ∧ f.reservedZero = true ∧ h.badTime f = false
        (f.crcOk = false → exec (.time f) s = .next (h.msgViolation f.peer f.port Viol.crc Rs.badCrc))
          ∧ (f.crcOk = true → f.reservedZero = false → exec (.time f) s = .next (h.msgViolation f.peer f.port Viol.message Rs.badMessage))
          ∧ (f.crcOk = true → f.reservedZero = true → h.badTime f = true → exec (.time f) s = .next (h.linkViolation f.port Viol.time))
          ∧ (sound → ∃ u, exec (.time f) s = .next u ∧ kvFind u.time.peers f.port = some x)
          ∧ (sound → s.time.treeOn = true → ∃ u, exec (.time f) s = .next u ∧ u.time.root = min s.time.root f.root
            ∧ (s.tick.running = false → s.tick.sched.version.toNat < f.version.toNat →
              u.tick.sched = (scheduleOf f).rolled s.time.invar.toNat ∧ u.tick.hasSchedule = true)
            ∧ (f.version.toNat ≤ s.tick.sched.version.toNat → u.tick = s.tick)))
      ∧ (s.time.treeOn = true → s.time.parent ≠ none → s.time.holdover = false →
        ∃ q, exec .parentFrameSilence s = .next (State.raiseP q Ev.invarHoldover []) ∧ q.time.holdover = true ∧ q.time.locked = false
          ∧ q.time.ratePpm = s.time.ratePpm ∧ q.time.now = max s.time.now (s.time.parentAt + ms 8)
          ∧ q = { s with time := q.time })
      ∧ (s.time.treeOn = true → s.time.root ≠ s.self →
        ∃ u, exec .rootForget s = .next u ∧ u.time.root = s.self ∧ u.time.parent = none ∧ u.time.hops = 0 ∧ u.time.locked = true
          ∧ u.time.now = max s.time.now (s.time.rootAt + ms 10))

/-- RECORD_SEND and RECORD (R69, R70, R75), FAULT_STATUS_CLEAR (R110); log entry 70. -/
def Obligations.RecordsAndFaultStatusChange : Prop :=
  ∀ s : State,
    (s.clocksRun = true →
        exec .recordSend s = .next ((s.domainPkgs.filter fun p => p ≠ s.self && (s.pathStop p).isNone).foldl State.sendRecords s))
      ∧ (s.clocksRun = true → ∀ r : RemoteRec, r.package ≠ s.self → r.dst ≠ s.self → (r.port = 8 → False) → r.flits = 0 →
        exec (.record r) s = .next ((s.hearTwin r.package).forwardMsg (recordMsg r)))
      ∧ (s.clocksRun = true → ∀ r : RemoteRec, r.package ≠ s.self → s.inDomain r.package = true → r.package ∉ s.cornis.suspects →
        r.dst = s.self → r.crcOk = true → r.reservedZero = true → (r.port = 8 → r.package = s.twinPkg) →
        let s : State := if r.flits = 0 then s else s.freeCredit r.port 3 r.flits
        ∃ u : State, exec (.record r) s = .next (u.notePackage s r.package) ∧ kvFind u.units.remote r.package = some r ∧ r.package ∉ u.units.silent
          ∧ (r.package = s.twinPkg → u.twin.heardAt = s.time.now) ∧ (r.package ≠ s.twinPkg → u.twin = s.twin)
          ∧ u = { s with
              units := { s.units with remote := u.units.remote, silent := u.units.silent, changeCounts := u.units.changeCounts }
              twin := u.twin }
          ∧ (recordView (s.remoteRec r.package) = recordView r → u.units.changeCounts = s.units.changeCounts)
          ∧ (recordView (s.remoteRec r.package) ≠ recordView r → u.changeCount 2 = s.changeCount 2 + 1)
          ∧ ∀ p, p ≠ r.package → kvFind u.units.remote p = kvFind s.units.remote p)
      ∧ (s.barOpen = true → ∀ (t : Nat) (w : Word), tileOk t = true → ∃ u, exec (.faultStatusClear t w) s = .next u
        ∧ (u.tile t).fault.valid = ((s.tile t).fault.valid && !bitAt w 0)
        ∧ (u.tile t).fault.more = ((s.tile t).fault.more && !bitAt w 1)
        ∧ (bitAt w 0 = false → { (u.tile t).fault with more := (s.tile t).fault.more } = (s.tile t).fault)
        ∧ { u.tile t with fault := (s.tile t).fault } = s.tile t
        ∧ (∀ k, k ≠ t → u.tile k = s.tile k) ∧ u = { s with tiles := u.tiles })

/-- DESCRIPTOR_ADMIT (R36, R115, R124, R126), DESCRIPTOR_DISPATCH (R116, R118) and DESCRIPTOR_COMPLETE (R117). -/
def Obligations.DescriptorsAreAdmittedDispatchedAndCompleted : Prop :=
  ∀ (s : State) (t : TileRef), s.tileUp t = true →
    let x := s.tile t
    (∀ i p d, x.freeSlot = some i → x.shares = [] → x.running = some p → p.descs[x.admitted]? = some d →
        (dBarrier d = true → x.completed = x.admitted) →
        (admitCheck d p.step = none → (dWaitEn d = true → (kvGet x.sems (dWaitSem d) {}).failed = false) →
            ∃ u, exec (.descriptorAdmit t) s = .next u ∧ (u.tile t).admitted = x.admitted + 1
              ∧ (u.tile t).slot i = some { desc := d, index := some x.admitted, job := p.job, step := p.step, wall := x.planWall }
              ∧ u.time.now = (s.advanceCore t (x.planCore + cc 16)).time.now ∧ u.mem = s.mem)
          ∧ (∀ o, admitCheck d p.step = some o → dSigEn d = false →
            ∃ u, exec (.descriptorAdmit t) s = .next u ∧ (u.tile t).admitted = x.admitted + 1 ∧ (u.tile t).slot i = none
              ∧ (u.tile t).completed = x.completed + 1))
      ∧ (∀ i sh r, x.freeSlot = some i → x.shares = sh :: r →
        exec (.descriptorAdmit t) s = .next ((s.setTile t { x with shares := r }).admitSlot t i (shareSlot sh)))
      ∧ (∀ i d, x.slot i = some d → d.ph = .waiting → x.waitMet d = true → s.ownWork t d = true → x.channelDown (queueOf d) = false →
        let k := (queueOf d).key
        (k ≠ 8 → x.room k = true → ∃ u, exec (.descriptorDispatch t i) s = .next u ∧ (u.tile t).queue_ k = x.queue_ k ++ [i]
            ∧ (u.tile t).slot i = some { d with
                ph := .queued, dispatchAt := s.time.now, dispatchCore := s.coreNow x, order := x.pewter.nextOrder }
            ∧ u = { s with tiles := u.tiles })
          ∧ (k ≠ 8 → x.room k = false → exec (.descriptorDispatch t i) s = .next s)
          ∧ (k = 8 → exec (.descriptorDispatch t i) s =
            .next (s.modSlot t i fun d => { d with ph := .queued, dispatchAt := s.time.now, dispatchCore := s.coreNow x })))
      ∧ (∀ i d n, x.slot i = some d → d.ph = .finished → d.signalling = false → d.share = none → d.index = some n →
        dSigEn d.desc = false → ∃ u, exec (.descriptorComplete t i) s = .next u ∧ (u.tile t).slot i = none
          ∧ (u.tile t).completed = x.completed + 1 ∧ (x.pewter.busy = [] → u.time.now = ((s.advanceTo d.readyAt).advanceCore t d.readyCore).time.now)
          ∧ ((s.advanceTo d.readyAt).advanceCore t d.readyCore).time.now ≤ u.time.now
          ∧ ((s.asCompleted d.result).status ≠ St.ok → kvGet (u.tile t).planOuts n {} = s.asCompleted d.result))

/-- REMOTE_SIGNAL (R117 to R120), SHARE_ARRIVAL and SHARE_RETRY (R126), SHARE_REPORT (R127); log entry 19. -/
def Obligations.SignalsAndSharesArriveInTurn : Prop :=
  ∀ (s : State) (t : TileRef), s.clocksRun = true →
    let x := s.tile t
    let sig := fun (b : MeshBody) => match b with
      | .signal sem amount fail src slot => some (sem, amount, fail, src, slot)
      | _ => none
    let shr := fun (b : MeshBody) => match b with
      | .share sh => some sh
      | _ => none
    let rep := fun (b : MeshBody) => match b with
      | .report slot unit o => some (slot, unit, o)
      | _ => none
    (∀ (sem amount : Nat) src slot m rest, meshTake t sig s.mesh = some ((sem, amount, false, src, slot), m, rest) →
        ∃ u, exec (.remoteSignal t) s = .next u ∧ u.mesh = rest ∧ u.time.now = max s.time.now m.due
          ∧ (kvGet (u.tile t).sems sem {}).value.toNat = min ((kvGet x.sems sem {}).value.toNat + amount) (2 ^ 32 - 1)
          ∧ (kvGet (u.tile t).sems sem {}).failed = (kvGet x.sems sem {}).failed ∧ (u.tile src).slot slot = none)
      ∧ (∀ (sem amount : Nat) src slot m rest, meshTake t sig s.mesh = some ((sem, amount, true, src, slot), m, rest) →
        ∃ u, exec (.remoteSignal t) s = .next u ∧ (kvGet (u.tile t).sems sem {}).failed = true)
      ∧ (∀ sh m rest, meshTake t shr s.mesh = some (sh, m, rest) →
        let q := State.advanceTo { s with mesh := rest } m.due
        (s.tileUp t = true → x.holdsTwin sh = false → x.shares.length < 32 →
            exec (.shareArrival t) s = .next
              (q.setTile t { x with shares := x.shares ++ [sh], splitsTaken := (sh.mark :: x.splitsTaken).take 1024 }))
          ∧ (s.tileUp t = true → x.holdsTwin sh = false → 32 ≤ x.shares.length → sh.leadMsg = none →
            exec (.shareArrival t) s = .next (q.modTile sh.lead fun k => { k with retry := k.retry ++ [(t, sh)] }))
          ∧ (s.tileUp t = false → exec (.shareArrival t) s = .next (q.reportShare t sh (outc St.notReady 0))))
      ∧ (x.retry ≠ [] → ∃ u, exec (.shareRetry t) s = .next u ∧ (u.tile t).retry = []
        ∧ u.time.now = s.time.now + s.coreSpan t 64
        ∧ u.mesh = s.mesh ++ x.retry.map fun e =>
          { dest := e.1, due := s.time.now + s.coreSpan t 64 + meshDelay t e.1, body := .share e.2 })
      ∧ (∀ slot unit o m rest d, meshTake t rep s.mesh = some ((slot, unit, o), m, rest) → x.slot slot = some d →
        d.split = true → d.ph = .running →
        let ms := d.members.map fun k => if k.unit = unit && k.report.isNone then { k with report := some o } else k
        ∃ u, exec (.shareReport t) s = .next u ∧ u.mesh = rest
          ∧ ((∃ k ∈ ms, k.report = none) → (u.tile t).slot slot = some { d with members := ms })
          ∧ ((∀ k ∈ ms, k.report ≠ none) → (u.tile t).slot slot =
            some { d with members := ms, ph := .finished, result := combineTree 8 (ms.map fun k => (k.path, k.report.getD {})) }))

/-- NOP (R125), RECEIVE_FENCE and its deadline (R59), XLT_INVALIDATE (R103, R104), the traps (R149, R150) and HOLD_EXPIRY (R138);
log entries 20 and 67. -/
def Obligations.SequencerDescriptorsTrapsAndHolds : Prop :=
  ∀ (s : State) (t : TileRef) (i : Nat),
    let x := s.tile t
    (∀ d, s.runnable t i 0x01 = some d → Quiet d →
        ∃ u, exec (.nop t i) s = .next u ∧ RunsFor s u t i d {} 0 ∧ OnlyTilesAndTime s u)
      ∧ (∀ d st, s.runnable t i 0x02 = some d → Quiet d → fenceStep d.desc d.step = some st →
        let a := kvGet x.arr (4 * fld d.desc 16 3 0 + st % 4) (0, 0)
        let met := a.1.toNat = st ∧ fld d.desc 20 31 0 ≤ a.2.toNat
        let us10 := fld d.desc 32 31 0
        (met → ∃ u, exec (.receiveFence t i) s = .next u ∧ RunsFor s u t i d {} 0 ∧ OnlyTilesAndTime s u)
          ∧ (¬ met → exec (.receiveFence t i) s = .next s)
          ∧ (¬ met → us10 ≠ 0 → d.share = none → ∃ u, exec (.receiveFenceDeadline t i) s = .next u
            ∧ RunsFor (s.advanceTo (x.planAt + us us10)) u t i d (outc St.notReady 0) 0 ∧ OnlyTilesAndTime s u)
          ∧ (¬ met → us10 ≠ 0 → d.share.isSome = true → ∃ u, exec (.receiveFenceDeadline t i) s = .next u
            ∧ RunsFor (s.advanceInvar (s.tick.timeOf d.wall + 1000 * us10).toNat) u t i d (outc St.notReady 0) 0
            ∧ OnlyTilesAndTime s u)
          ∧ (us10 = 0 → exec (.receiveFenceDeadline t i) s = .next s))
      ∧ (∀ d, s.runnable t i 0x03 = some d → Quiet d →
        let ctx := if fld d.desc 32 12 12 = 1 then d.job.toNat % 4096 else fld d.desc 32 11 0
        let lo := fld d.desc 16 63 0
        let range := if fld d.desc 32 13 13 = 1 then none else some (lo, lo + fld d.desc 24 63 0)
        (x.inFlight ctx range = true → exec (.xltInvalidateDesc t i) s = .next s)
          ∧ (x.inFlight ctx range = false → ∃ u, exec (.xltInvalidateDesc t i) s = .next u ∧ RunsFor s u t i d {} 0
            ∧ OnlyTilesAndTime s u ∧ ∀ e : XEntry, e ∈ (u.tile t).xlt ↔ e ∈ x.xlt ∧ ¬ (e.ctx = ctx ∧
              (fld d.desc 32 13 13 = 1 ∨ (lo < e.dva + 2 ^ e.size ∧ e.dva < lo + fld d.desc 24 63 0)))))
      ∧ (∀ info : Word, s.tileUp t = true →
        (∃ u, exec (.seqWatchdog t info) s = .next u ∧ (u.tile t).trap = 3 ∧ (u.tile t).trapInfo = info
            ∧ (u.tile t).unit = .halted ∧ (u.tile t).queue = [])
          ∧ (∃ u, exec (.storeControl t info) s = .next u ∧ (u.tile t).trap = 2 ∧ (u.tile t).trapInfo = info
            ∧ (u.tile t).unit = .halted ∧ (u.tile t).queue = [])
          ∧ (∃ u, exec (.fwCheck t info) s = .next u ∧ (u.tile t).trap = 4 ∧ (u.tile t).trapInfo = info
            ∧ (u.tile t).unit = .halted ∧ (u.tile t).queue = []))
      ∧ (∀ e, x.holdEnd = some e → s.clocksRun = true → ∃ u, exec (.holdExpiry t) s = .next u
        ∧ u.time = (s.advanceCore t e).time ∧ (u.tile t).holdEnd = none ∧ u.tile t = x.endHold e ∧ OnlyTilesAndTime s u)

/-- MATMUL (R129 to R138, R148, R172); log entries 64 and 67. -/
def Obligations.MatmulAddsTheProductsOfItsChunks : Prop :=
  ∀ (s : State) (t : TileRef) (i : Nat) (d : DescSlot), s.runnable t i 0x10 = some d → Quiet d →
    let a := matArgs d.desc
    let x := s.tile t
    let lanes := fun (fmt smode valid elemAt sclAt : Nat) =>
      let scl := if smode = 0 then [] else cellRead x.ws sclAt (a.l / blockSize smode)
      ((List.range a.l).map fun k =>
        if k < valid then some (getElem fmt (cellRead x.ws elemAt (runBytes fmt a.l)) k, ((scl[k / blockSize smode]?).getD 0).toNat)
        else none : List Lane)
    let product := fun (nb m u kc : Nat) =>
      let valid := if kc + 1 = a.kc then a.kLast else a.l
      chunkSum a.fa a.sa a.fb a.sb
        ((lanes a.fa a.sa valid (a.aBase + (kc * a.m + m) * 128) (a.aScl + (kc * a.m + m) * 16)).zip
          (lanes a.fb a.sb valid (a.bBase + ((nb * a.kc + kc) * 32 + u) * 128) (a.bScl + ((nb * a.kc + kc) * 32 + u) * 16)))
    let columns := fun (nb : Nat) => if nb + 1 = a.nb then a.nLast else 32
    let c := a.nb * a.kc * max ((chunkOf a.fa a.fb).2 * a.m) 6
    let last := x.mxStart a d.dispatchCore + cc (c + 34)
    a.nLast ≤ 32 →
    (∀ n : Nat, ∃ w, exec (.matmul t i ⟨n, none⟩) s = .next w
      ∧ (∀ nb m u, nb < a.nb → m < a.m → u < columns nb →
          (w.tile t).accAt (a.row + nb * a.m + m) u =
            accumulate a.add (x.accAt (a.row + nb * a.m + m) u) ((List.range a.kc).map (product nb m u)))
      ∧ (∀ nb m u, nb < a.nb → m < a.m → columns nb ≤ u → u < 32 →
          (w.tile t).accAt (a.row + nb * a.m + m) u = x.accAt (a.row + nb * a.m + m) u)
      ∧ (∀ row u, u < 32 → row < a.row ∨ a.row + a.m * a.nb ≤ row → (w.tile t).accAt row u = x.accAt row u)
      ∧ (w.tile t).ws = x.ws ∧ w.mem = s.mem
      ∧ Reckoned s w t i d {} last (cc c) ∧ (w.tile t).mxEnd = last
      ∧ ((∀ e ∈ x.drains, rowsMeet (a.row, a.m * a.nb) (e.1, e.2.1) = false) →
          (x.mxEnd ≤ d.dispatchCore → x.mxPause ≤ d.dispatchCore → last = d.dispatchCore + cc (c + 34))
            ∧ (d.dispatchCore < x.mxEnd → x.mxPause ≤ x.mxEnd - cc 34 → cc 34 ≤ x.mxEnd → last = x.mxEnd + cc c))
      ∧ (let hold := a.hold ≠ 0 ∧ x.mxWaiting.length ≤ 1 ∧ s.tick.stepRatio = 0
        (hold → (w.tile t).holdEnd = some (last + cc a.hold - cc 6)
            ∧ (35 ≤ a.hold → x.mxWaiting = [(i, d)] → w.groupsAt t (w.tile t) last = 8))
          ∧ (¬ hold → (w.tile t).holdEnd = none))
      ∧ (w.tile t).eccCorrected = x.eccCorrected + BitVec.ofNat 32 n ∧ (w.tile t).eccUncorrected = x.eccUncorrected)
      ∧ (∀ n addr : Nat, ∃ w v, exec (.matmul t i ⟨n, some addr⟩) s = .next w ∧ exec (.matmul t i {}) s = .next v
        ∧ (∀ row ∉ a.rowsFrom addr, ∀ u < 32, (w.tile t).accAt row u = (v.tile t).accAt row u)
        ∧ (w.tile t).ws = x.ws ∧ w.mem = s.mem
        ∧ (w.tile t).eccCorrected = x.eccCorrected + BitVec.ofNat 32 n ∧ (w.tile t).eccUncorrected = x.eccUncorrected + 1
        ∧ Reckoned s w t i d (outc St.poisoned 0) last (cc c) ∧ Reckoned s v t i d {} last (cc c))

/-- ACC_DRAIN (R139 to R141) and VECTOR (R145 to R147, R168, R174), and what errors in the stores do
(R148); log entries 15, 17, 64 and 67. -/
def Obligations.DrainAndVectorWriteTheirResults : Prop :=
  ∀ (s : State) (t : TileRef) (i : Nat) (d : DescSlot), Quiet d →
    let x := s.tile t
    let sat := dSaturate d.desc
    (s.runnable t i 0x11 = some d →
      let a := drainArgs d.desc
      let codes := fun (r : Nat) => (List.range a.cols).map fun u =>
        (convert a.fmt sat (f32 (mulF (x.accAt (a.row + r) u) a.scale))).1
      ∀ n : Nat, ∃ w o, exec (.accDrain t i ⟨n, none⟩) s = .next w ∧ o.status = St.ok ∧ w.mem = s.mem
        ∧ (w.tile t).eccCorrected = x.eccCorrected + BitVec.ofNat 32 n ∧ (w.tile t).eccUncorrected = x.eccUncorrected
        ∧ Executed s w t i d o (x.drainStart a d.dispatchCore + cc (a.rows + 8)) (cc a.rows)
        ∧ ((∀ r ∈ x.mxRuns, rowsMeet (a.row, a.rows) (r.row, r.m * r.nb) = false) → x.mxPause ≤ d.dispatchCore →
            x.drainStart a d.dispatchCore = max d.dispatchCore x.drainEnd)
        ∧ (∀ row u, u < 32 → (w.tile t).accAt row u =
            if a.clear = true ∧ a.row ≤ row ∧ row < a.row + a.rows then 0 else x.accAt row u)
        ∧ (a.bcast = false → a.smode = 0 → 1 ≤ fmtBits a.fmt → runBytes a.fmt a.cols ≤ a.pitch → ∀ r < a.rows,
            cellRead (w.tile t).ws (a.dest + r * a.pitch) (packRun a.fmt (codes r)).length = packRun a.fmt (codes r)))
      ∧ (s.runnable t i 0x18 = some d →
        let v := vecArgs d.desc
        let row := fun (base fmt n r : Nat) =>
          (unpackRun fmt n (cellRead x.ws (base + r * vecPitch fmt n) (fmtBits fmt / 8 * n))).map fun c => toF32 (decodeNum fmt c)
        let b := fun (r : Nat) =>
          let r := if v.bRow then 0 else r
          if vopUsesB v.op = false ∨ v.bImm = true then List.replicate v.n v.imm
          else if v.op = 0x13 then List.replicate v.n (((row v.b v.fi 1 r).head?).getD 0) else row v.b v.fi v.n r
        let z := fun (r : Nat) => if v.op = 0x03 then row v.dest v.fo v.n r else row v.a v.fi v.n r
        let out := fun (l : List (BitVec 32)) => packRun v.fo (l.map fun q => (convert v.fo sat (f32 q)).1)
        ∀ n : Nat, ∃ w o, exec (.vector t i ⟨n, none⟩) s = .next w ∧ o.status = St.ok ∧ w.mem = s.mem
          ∧ (w.tile t).eccCorrected = x.eccCorrected + BitVec.ofNat 32 n ∧ (w.tile t).eccUncorrected = x.eccUncorrected
          ∧ RunsFor s w t i d o (cc (v.rows * (ceilDiv v.n (vecRate v.op) + if 0x10 ≤ v.op then 12 else 0)))
          ∧ (8 ≤ fmtBits v.fo → vecClash v = false → ∀ r < v.rows,
            (vopReduces v.op = false →
                cellRead (w.tile t).ws (v.dest + r * vecPitch v.fo v.n) (fmtBits v.fo / 8 * v.n) =
                  out ((((row v.a v.fi v.n r).zip (b r)).zip (z r)).map fun e => vecElem v.op e.1.1 e.1.2 e.2))
              ∧ (v.op = 0x10 → cellRead (w.tile t).ws (v.dest + r * vecPitch v.fo 1) (fmtBits v.fo / 8) =
                out [sumRow (row v.a v.fi v.n r)])
              ∧ (v.op = 0x11 → 0 < v.n → ∀ k l, row v.a v.fi v.n r = k :: l →
                cellRead (w.tile t).ws (v.dest + r * vecPitch v.fo 1) (fmtBits v.fo / 8) = out [l.foldl maxF k])))
      ∧ (∀ n addr : Nat, ∀ p ∈ [(0x11, Instr.accDrain t i ⟨n, some addr⟩), (0x18, Instr.vector t i ⟨n, some addr⟩)],
        s.runnable t i p.1 = some d → ∃ w, exec p.2 s = .next w ∧ RunsFor s w t i d (outc St.poisoned 0) 0
          ∧ (w.tile t).ws = x.ws ∧ (w.tile t).acc = x.acc ∧ w.mem = s.mem
          ∧ (w.tile t).eccCorrected = x.eccCorrected + BitVec.ofNat 32 n ∧ (w.tile t).eccUncorrected = x.eccUncorrected + 1)

/-- GEMM (R142 to R144), MERGE (R247), LOAD and STORE (R190), COPY (R191), GATHER and SCATTER (R199 to R201), their stops (R87,
R111), the halt of a channel (R204, R205) and errors in the work store (R148); log entries 64 and 67. -/
def Obligations.MovementDescriptorsRunToTheirEnd : Prop :=
  ∀ (s0 : State) (t : TileRef) (i op k : Nat) (body : DescSlot → Env → M Done) (c : StoreErr → Instr),
    (op, body, c) ∈ [(0x12, gemmBody, fun e => Instr.gemm t i e), (0x19, mergeBody, fun _ => Instr.merge t i),
      (0x20, loadBody, fun e => Instr.load t i e), (0x21, storeBody, fun e => Instr.store t i e),
      (0x22, copyBody, fun _ => Instr.copy t i), (0x23, gatherBody, fun e => Instr.gather t i e),
      (0x24, scatterBody, fun e => Instr.scatter t i e)] →
    ∀ d, s0.runnable t i op = some d →
      let reads := op ≠ 0x19 ∧ op ≠ 0x22
      let s := if reads then s0.modTile t fun x => { x with eccCorrected := x.eccCorrected + BitVec.ofNat 32 k } else s0
      let channel := if op ≤ 0x21 then fld d.desc 34 5 4 else if op = 0x22 then fld d.desc 32 1 0 else fld d.desc 42 3 2
      (∀ r q z, (body d (d.env t i)).result s = (.ok r, q) → (q.tile t).slot i = some z → Quiet z → z.waits = [] → r.arr = none →
          let work := cc r.cycles + q.inCore t r.latency
          let last := q.workEnd t z r
          ∃ u, exec (c ⟨k, none⟩) s0 = .next u ∧ u.mem = q.mem ∧ u.time = (q.advanceCore t last).time
            ∧ Finished u t i z r.outc (r.endAt.getD (q.advanceCore t last).time.now) (last + q.pauseOf work))
        ∧ (∀ e q z, (body d (d.env t i)).result s = (.error e, q) → e.need = none → (q.tile t).slot i = some z → Quiet z →
          z.waits = [] → ∃ u last, exec (c ⟨k, none⟩) s0 = .next u ∧ Executed q u t i z (outc e.status e.reason) last 0 ∧ u.mem = q.mem
            ∧ (e.status ≠ St.poisoned → last = (q.tile t).engineStart z)
            ∧ (0x20 ≤ op → e.status = St.poisoned → e.kind ≠ 3 → (u.tile t).dmaHalted.getLsbD channel = true))
        ∧ (∀ e q n, (body d (d.env t i)).result s = (.error e, q) → e.need = some n →
          ∃ u z, exec (c ⟨k, none⟩) s0 = .next u ∧ (u.tile t).slot i = some z ∧ z.ph = .running ∧ z.waits ≠ [] ∧ u.mem = s.mem)
        ∧ (reads → Quiet d → d.waits = [] → ∀ a : Nat, ∃ u last, exec (c ⟨k, some a⟩) s0 = .next u
          ∧ Executed s u t i d (outc St.poisoned 0) last 0 ∧ u.mem = s.mem ∧ (u.tile t).ws = (s.tile t).ws
          ∧ (u.tile t).eccCorrected = (s.tile t).eccCorrected ∧ (u.tile t).eccUncorrected = (s.tile t).eccUncorrected + 1
          ∧ (0x20 ≤ op → (s.tile t).dmaHalted.getLsbD channel = false → (u.tile t).dmaHalted.getLsbD channel = true
            ∧ kvFind (u.tile t).dmaPoison channel = some (BitVec.allOnes 64)))

/-- COMMIT (R224), STAGE (R226), ACCEPT (R227) at the issuer (R217 to R219), and APPEND_ROWS_ARRIVE (R220), with errors in the
stores (R148, R214, R228) and what goes to the twin (R229, R355); log entries 21, 22, 64 and 67. -/
def Obligations.AppendEntriesGoHomeAndAreApplied : Prop :=
  ∀ (s0 : State) (t : TileRef) (i : Nat),
    let s := s0
    let x := s.tile t
    (∀ (mode : Nat) (k : StoreErr) (c : Instr),
      (mode, c) ∈ [(0, Instr.commit t i k), (1, Instr.stage t i k), (2, Instr.accept t i k)] →
      ∀ d, s.runnable t i 0x30 = some d → d.entries = [] →
        (fld d.desc 34 1 0 ≠ mode → exec c s0 = .next s0)
          ∧ (fld d.desc 34 1 0 = mode →
            let s := s.modTile t fun x => { x with
              eccCorrected := x.eccCorrected + BitVec.ofNat 32 k.corrected
              eccUncorrected := if k.bad.isSome then x.eccUncorrected + 1 else x.eccUncorrected }
            (∀ l q, (issueAll d (d.env t i) mode).result s = (.ok l, q) →
                let q := (q.modTile t fun x => x.dequeue i).modSlot t i fun d => { d with ph := .running, split := true }
                exec c s0 = .next (((List.range l.length).zip l).foldl
                  (fun (s : State) e => s.sendEntry t i mode d (k.bad = some e.1) e.1 e.2) q)
                ∧ (∀ b g, l = [(b, .ok g)] → unitPkg g.home = s.self → unitPkg g.home = q.self →
                  let home := unitTileRef g.home
                  let first := q.time.now + meshDelay t home + q.pathTimeTo t (pageAddr home 0) (g.rows.length + g.aux.length)
                  ∃ u due, exec c s0 = .next u ∧ u.mem = q.mem ∧ first ≤ due
                    ∧ ((∀ m ∈ q.mesh, m.dest ≠ home) → due = first)
                    ∧ (∀ m ∈ q.mesh, ∀ r, m.dest = home → m.body = .rows r → r.remote = none → r.issuer = t → m.due ≤ due)
                    ∧ u.mesh = q.mesh ++ [{ dest := home, due := due
                                            body := .rows { entry := b, entryNo := 0, mode := mode, issuer := t, slot := i, job := d.job
                                                            step := d.step, rows := g.rows, aux := g.aux
                                                            poisoned := k.bad = some 0 } }])
                ∧ ∀ b g, l = [(b, .ok g)] → unitPkg g.home ≠ q.self → k.bad = some 0 → exec c s0 = .next
                  (q.entryDone t i 0 (outc St.poisoned 0) (recordOf (outc St.poisoned 0) 0 0 false false false)))
              ∧ (∀ e q z, (issueAll d (d.env t i) mode).result s = (.error e, q) → e.need = none →
                (q.tile t).slot i = some z → Quiet z → z.waits = [] →
                  ∃ u, exec c s0 = .next u ∧ RunsFor q u t i z (outc e.status e.reason) 0 ∧ u.mem = q.mem)))
      ∧ (let rows := fun (b : MeshBody) => match b with
          | .rows r => some r
          | _ => none
        ∀ r m rest (k : StoreErr), meshTake t rows s.mesh = some (r, m, rest) → s.clocksRun = true → x.frontWaits = [] →
          r.since = 0 → r.last = true →
          let bad := k.bad.isSome
          let s1 := State.advanceTo { s with mesh := rest } m.due
          let env := s1.frontEnv t r.job r.step true
          (s.tileUp t = false → exec (.appendRowsArrive t k) s = .next
              (s1.answerEntry r (outc St.notReady 0) (recordOf (outc St.notReady 0) 0 0 false false false)))
            ∧ (∀ a q, s.tileUp t = true → (applyRows bad env r).result s1 = (.ok a, q) → a.send = none →
              let q := q.modTile t fun x => { x with frontFetched := [], frontFails := [] }
              exec (.appendRowsArrive t k) s = .next
                ((if a.unmirrored = true then q.countPartial else q).answerEntry r a.outc a.record))
            ∧ (∀ a q bytes, s.tileUp t = true → (applyRows bad env r).result s1 = (.ok a, q) → a.send = some bytes →
              exec (.appendRowsArrive t k) s = .next
                ((q.modTile t fun x => { x with frontFetched := [], frontFails := [] }).mirrorCommit t r a bytes))
            ∧ (∀ e q, s.tileUp t = true → (applyRows bad env r).result s1 = (.error e, q) → e.need = none →
              let o := outc e.status e.reason
              exec (.appendRowsArrive t k) s = .next
                (((q.recordFault t e r.slot env.ctx env.step).modTile t fun x => { x with frontFetched := [], frontFails := [] }
                  ).answerEntry r o (recordOf o 0 0 false false false)))
            ∧ (∀ e q n, s.tileUp t = true → (applyRows bad env r).result s1 = (.error e, q) → e.need = some n →
              ∃ u, exec (.appendRowsArrive t k) s = .next u ∧ (u.tile t).frontWaits ≠ [] ∧ u.mem = s.mem))

/-- ATTENTION (R231, R238, R241), ATTENTION_ITEM (R240), BLOCK_ARRIVAL (R237, R241, R243), ITEM_REPORT (R242, R245); log
entries 23 to 25 and 64. -/
def Obligations.AttentionItemsRunBlockByBlock : Prop :=
  ∀ (s : State) (t : TileRef) (i : Nat),
    let x := s.tile t
    (∀ d, s.runnable t i 0x31 = some d →
        let env := (d.env t i).attn
        let targets := ((s.attnTargets t d).map Prod.fst).eraseDups
        (x.leadsOf i = [] → s.noGroup (s.slotUnitId t d) = true → ∃ u, exec (.attention t i) s = .next u
            ∧ (u.tile t).slot i = some { d with ph := .finished, result := outc St.rejected Rs.noGroup })
          ∧ (x.leadsOf i = [] → s.noGroup (s.slotUnitId t d) = false → targets = [] → ∃ u, exec (.attention t i) s = .next u
            ∧ (u.tile t).slot i = some { d with ph := .finished, result := outc St.notReady 0 })
          ∧ (∀ l q, x.leadsOf i = [] → s.noGroup (s.slotUnitId t d) = false → targets ≠ [] →
            (leadAttention env d targets).result s = (.ok l, q) →
            let q := (q.modTile t fun x => { x with leads := x.leads ++ l }).modSlot t i fun z => { z with targets := s.attnTargets t d }
            ((∃ r ∈ l, r.refused = none ∧ 3 ≤ r.bucket) → ∃ u, exec (.attention t i) s = .next u
                ∧ (u.tile t).leads = (q.tile t).leads ∧ u.mem = q.mem
                ∧ ∀ z, (q.tile t).slot i = some z →
                  (u.tile t).slot i = some { z with ph := .running, fetched := [], readFails := [] })
              ∧ ((¬ ∃ r ∈ l, r.refused = none ∧ 3 ≤ r.bucket) → exec (.attention t i) s = .next (q.sendItems t i d)))
          ∧ (∀ l q, x.leadsOf i ≠ [] →
            let s1 := s.modSlot t i fun d => { d with fetched := [], readFails := [] }
            (recheckGen env ((s1.tile t).leadsOf i)).result s1 = (.ok l, q) → exec (.attention t i) s = .next
              ((q.modTile t fun x => { x with leads := (x.leads.filter fun q => q.slot ≠ i) ++ l }).sendItems t i d)))
      ∧ (let item := fun (b : MeshBody) => match b with
          | .item k => some k
          | _ => none
        ∀ it m rest, meshTake t item s.mesh = some (it, m, rest) → s.clocksRun = true →
          let s1 := State.advanceTo { s with mesh := rest } m.due
          (s.tileUp t = false → it.leadPkg = none → ∃ u, exec (.attentionItem t) s = .next u ∧ u.mesh = rest ++ [
              { dest := it.lead, due := s1.time.now + meshDelay t it.lead
                body := .itemReport it.leadSlot it.seq it.slotNo (outc St.notReady 0) false 0 }])
            ∧ (∀ k r, s.tileUp t = true → x.items = k :: r → k.started = true → ∃ u, exec (.attentionItem t) s = .next u
              ∧ (u.tile t).items = k :: r ++ [it] ∧ u.mesh = rest)
            ∧ (∀ it' q, s.tileUp t = true → x.items = [] → it.waits = [] → it.started = false →
              (startItem (it.env t) it).result (s1.modTile t fun x => { x with items := [it] }) = (.ok it', q) →
              (q.tile t).items = [it] →
              ∃ u, exec (.attentionItem t) s = .next u ∧ u.mem = q.mem
                ∧ (u.tile t).items = [{ it' with
                    startedAt := q.time.now, nextAt := q.time.now + q.itemLatency t it', fetched := [], readFails := [] }]))
      ∧ (∀ it r, x.items = it :: r → s.tileUp t = true → it.waits = [] → it.started = true →
        (∀ (k : StoreErr) b b' bs l q, it.todo = b :: b' :: bs → (blockTokens k.bad.isSome (it.env t) it b).result (s.advanceTo (s.blockDue t it b)) = (.ok l, q) → (q.tile t).items = it :: r →
            ∃ u, exec (.blockArrival t k) s = .next u ∧ u.mem = q.mem
              ∧ (u.tile t).items = { it.absorb l with
                  todo := b' :: bs, lastCycles := it.blockCycles b, fetched := [], readFails := []
                  nextAt := if it.fetched = [] then s.blockDue t it b else max (s.blockDue t it b) q.time.now } :: r)
          ∧ (∀ (k : StoreErr) b bs v, it.todo = b :: bs → it.kind ≠ .listed → it.kind ≠ .span → b ≠ candBlock →
            ((s.tile it.tailTile).tailSlot it.ctx_.b.pt it.ctx_.b.plane it.ctx_.h.seqId).filter (fun k => k.block = b) = some v →
            k.bad.isSome = true ∨ v.bad = true → ∀ l q, (do
              let l ← poisonSlot it
              writeDva (it.env t) it.slotAt l 2
              pure l : M (List Byte)).result
                ((s.advanceTo (s.blockDue t it b)).modTile it.tailTile fun x => x.spoilKv it.ctx_.b.pt it.ctx_.b.plane it.ctx_.h.seqId) = (.ok l, q) → ∃ u, exec (.blockArrival t k) s = .next u
                ∧ u = (q.endItem t it (outc St.poisoned 0) true v.dva).finishItem t)
          ∧ (∀ (e : StoreErr) k q, it.todo = [] → (do
              let k ← checkGen (it.env t) it
              writeDva (it.env t) k.slotAt k.slot 2
              pure k : M AttnItem).result (s.itemRest t it) = (.ok k, q) → exec (.blockArrival t e) s = .next
                ((q.advanceTo (q.time.now + q.slotTime t k)).endItem t k (if k.stale = true then outc St.tableChanged 0 else {}) true 0)))
      ∧ (let rep := fun (b : MeshBody) => match b with
          | .itemReport slot seq slotNo o wrote poison => some (slot, seq, slotNo, o, wrote, poison)
          | _ => none
        ∀ slot seq slotNo o wrote poison m rest, meshTake t rep s.mesh = some ((slot, seq, slotNo, o, wrote, poison), m, rest) →
          s.clocksRun = true → x.slot slot = none → ∃ u, exec (.itemReport t) s = .next u ∧ u.mesh = rest
            ∧ (u.tile t).leads = x.leads.map fun q =>
              if q.slot = slot ∧ q.seq = seq ∧ kvFind q.reports slotNo = none then { q with
                reports := kvPut q.reports slotNo o
                valid := if wrote = true then q.valid ||| BitVec.ofNat 256 (2 ^ slotNo) else q.valid
                poisonDva := if q.poisonDva = 0 then poison else q.poisonDva }
              else q)
      ∧ (let rep := fun (b : MeshBody) => match b with
          | .itemReport slot seq slotNo o wrote poison => some (slot, seq, slotNo, o, wrote, poison)
          | _ => none
        ∀ slot seq slotNo o wrote poison m rest, meshTake t rep s.mesh = some ((slot, seq, slotNo, o, wrote, poison), m, rest) →
          s.clocksRun = true → exec (.itemReport t) s = .next
            ((State.advanceTo { s with mesh := rest } m.due).itemReported t slot seq slotNo o wrote poison))

/-- PEWTER_MV (R256), PEWTER_SEQUENCE_START (R257 to R259), slices (R260 to R262, R267, R271, R273, R279, R280, R301),
PEWTER_SEQUENCE_COMPLETE (R262) and FENCE (R263 to R266), with errors in the stores (R148, R258, R262); log entries 26, 64, 67 and
69. -/
def Obligations.PewterSequencesRunSliceBySlice : Prop :=
  ∀ (s : State) (t : TileRef) (i : Nat), s.tileUp t = true →
    let x := s.tile t
    (∀ d, x.slot i = some d → dOpcode d.desc = 0x40 → d.ph = .waiting → x.waitMet d = true → s.ownWork t d = true →
        (queueOf d).key = 7 → x.channelDown (queueOf d) = false → x.room 7 = true →
        ∃ u, exec (.pewterMv t i) s = .next u ∧ (u.tile t).queue_ 7 = x.queue_ 7 ++ [i] ∧ OnlyTiles s u
          ∧ (u.tile t).slot i = some { d with
            ph := .queued, dispatchAt := s.time.now, dispatchCore := s.coreNow x, order := x.pewter.nextOrder })
      ∧ (∀ k d, x.pewterHead = some (k, d) → x.slot k = some d →
        ∀ k0 : StoreErr,
        (x.pewter.mayStart d.desc = false → exec (.pewterSequenceStart t k0) s = .next s)
          ∧ (∀ r q, x.pewter.mayStart d.desc = true → (startChecks d.desc (d.env t k)).result s = (.ok r, q) →
            let y := q.tile t
            y.slot k = some d → ∃ u, exec (.pewterSequenceStart t k0) s = .next u
              ∧ (u.tile t).slot k = some { d with ph := .running }
              ∧ (u.tile t).pewter.seqs = y.pewter.seqs ++ [
                { slot := k, tag := fld d.desc 34 3 0, half := if pvRows d.desc = 0 then none else y.pewter.freeHalf
                  vslot := fld d.desc 34 4 4, desc := d.desc, job := d.job, order := d.order, outs := r.2.1
                  maps := r.2.2.map fun e => (e.dva, 2 ^ e.size), twinMaps := (r.2.2.filter (·.mirrored)).map fun e => (e.dva, 2 ^ e.size)
                  todo := r.1
                  startAt := q.time.now, lastEnd := q.time.now }]
              ∧ (u.tile t).pewter.vslots = (if pvLoad d.desc = true
                  then kvPut y.pewter.vslots (fld d.desc 34 4 4) (loadVectors y d.desc q.time.now k0) else y.pewter.vslots)
              ∧ (pvLoad d.desc = true → (u.tile t).eccCorrected = y.eccCorrected + BitVec.ofNat 32 k0.corrected
                ∧ (k0.bad.isSome = true → (u.tile t).eccUncorrected = y.eccUncorrected + 1)))
          ∧ (∀ e q, x.pewter.mayStart d.desc = true → (startChecks d.desc (d.env t k)).result s = (.error e, q) →
            (q.tile t).slot k = some d → ∃ u, exec (.pewterSequenceStart t k0) s = .next u
              ∧ (u.tile t).slot k = some { d with ph := .finished, result := outc e.status e.reason }))
      ∧ (∀ (k0 : StoreErr) bank q page sp, kvFind x.pewter.busy bank = none → x.pewter.nextPage bank = some (q, page, sp) →
        (x.bankUp bank = true ∨ x.reducerBusy (bank / 16) = false) →
        let seqs := fun (f : PewSeq → PewSeq) => x.pewter.seqs.map fun k => if k.order = q.order then f k else k
        let bad := x.poisoned sp = true ∨ x.pageFailing sp = true
        let agrees := x.ilvAgrees (regionOf sp) = true
        let stops := fun (st rs : Code) => ∃ u, exec (.pewterSlice t bank k0) s = .next u ∧ u.mem = s.mem
          ∧ (u.tile t).pewter.seqs.map (fun k => (k.order, k.todo, k.status, k.reason)) =
            (seqs fun k => { k with
              todo := k.todo.filter fun e => e.1 ≠ page, status := if k.status = St.ok then st else k.status
              reason := if k.status = St.ok then rs else k.reason }).map fun k => (k.order, k.todo, k.status, k.reason)
        (bad → ∃ u, exec (.pewterSlice t bank k0) s = .next u ∧ u.mem = s.mem
            ∧ (u.tile t).pewter.poison = pvDva q.desc page
            ∧ (u.tile t).pewter.seqs = seqs fun k => { k with
              todo := k.todo.filter fun e => e.1 ≠ page, nanRows := insertRising (page / fld k.desc 38 15 0) k.nanRows
              status := St.poisoned })
          ∧ (¬ bad → ¬ agrees → stops St.configMismatch 0)
          ∧ (¬ bad → agrees → (x.region (regionOf sp)).init = true → stops St.rejected Rs.notComputable)
          ∧ (¬ bad → agrees → (x.region (regionOf sp)).init = false → q.twinStops s.twin page = true →
            stops St.notReady Rs.twinResync)
          ∧ (¬ bad → agrees → (x.region (regionOf sp)).init = false → q.twinStops s.twin page = false → x.mem.hold = some (bank / 16) →
            exec (.pewterSlice t bank k0) s = .next (s.useRegion t sp))
          ∧ (∀ w, ¬ bad → agrees → (x.region (regionOf sp)).init = false → q.twinStops s.twin page = false →
            x.mem.hold ≠ some (bank / 16) → x.mem.marched.contains sp = false → kvFind x.pewter.vslots q.vslot = some w →
            let s1 := ((s.useRegion t sp).mergeNarrow t sp).advanceTo (s.sliceReady x.pewter q w page bank)
            let time := ceilDiv (7 * pvPageBytes q.desc) 2
            let fin := s1.time.now + time
            ∃ u, exec (.pewterSlice t bank k0) s = .next u ∧ u.time.now = s1.time.now
              ∧ kvFind (u.tile t).pewter.busy bank = some (sp, fin, q.order)
              ∧ kvGet (u.tile t).pewter.rests bank 0 =
                (if s1.sliceShare time ≤ time then kvGet x.pewter.rests bank 0 else s1.time.now + s1.sliceShare time)
              ∧ (u.tile t).pewter.seqs = seqs fun k =>
                let segment := page % fld k.desc 38 15 0
                let row := page / fld k.desc 38 15 0
                let inSegment := fun (c : Nat) => segment * pvKs k.desc ≤ c ∧ c < (segment + 1) * pvKs k.desc
                let hit := k0.bad = some 0 ∨ (∃ c ∈ w.bad, inSegment c) ∨ ∃ e ∈ w.badAt, e.1 = bank / 16 ∧ inSegment e.2
                let z := k.reduce w (cellRead s1.mem (pageAddr t sp) pageSize) page bank
                { z with
                nanRows := if hit then insertRising row z.nanRows else z.nanRows
                status := if hit ∨ k0.bad.isSome = true then St.poisoned else z.status
                sums := match k0.bad with
                  | some (v + 1) => kvPut z.sums (sumKey bank row v) 0x7FC00000
                  | _ => z.sums
                todo := k.todo.filter fun e => e.1 ≠ page, lastEnd := max k.lastEnd fin }))
      ∧ (∀ bank b, kvFind x.pewter.busy bank = some b → s.clocksRun = true → ∃ u, exec (.pewterSliceEnd t bank) s = .next u
        ∧ u.time.now = max s.time.now b.2.1 ∧ kvFind (u.tile t).pewter.busy bank = none ∧ bank ∉ (u.tile t).pewter.deferred)
      ∧ (∀ tag q d, (x.pewter.seqs.find? fun q => q.tag = tag && !q.done && x.pewter.readThrough q) = some q →
        x.slot q.slot = some d → ∃ u, exec (.pewterSequenceComplete t tag) s = .next u
          ∧ u.time.now = max s.time.now (s.sequenceEnd q)
          ∧ (u.tile t).slot q.slot = some { d with ph := .finished, result := outc q.status q.reason }
          ∧ (u.tile t).pewter.seqs = (x.pewter.seqs.map fun k => if k.order = q.order then { k with
              done := true, status := (s.asCompleted (outc q.status q.reason)).status } else k).filter
            fun k => k.order ≠ q.order || k.half.isSome)
      ∧ (∀ d, x.slot i = some d → dOpcode d.desc = 0x41 → d.applied = false → d.ph = .queued → Quiet d → d.waits = [] →
        d.members = [] →
        let covers := fun (q : PewSeq) => q.half.isSome && q.order < d.order && (fld d.desc 16 15 0).testBit q.tag
        ∀ k0 : StoreErr,
        ((x.pewter.seqs.find? covers) = none → x.coveredWaiting (fld d.desc 16 15 0) d.order = false →
            ∃ u, exec (.fence t i k0) s = .next u
              ∧ Finished u t i d (outc St.ok Rs.fenceEmpty) (max d.readyAt s.time.now) (x.engineStart d + s.pauseOf 0))
          ∧ (∀ q, (x.pewter.seqs.find? covers) = some q → q.done = false → exec (.fence t i k0) s = .next s)
          ∧ (∀ q r, x.pewter.seqs = [q] → covers q = true → q.done = true → q.status = St.ok → x.queue_ 7 = [i] →
            (putResults (d.env t i) q).result s = (.ok (), r) → r.tile t = { x with
              ws := (r.tile t).ws, activity := (r.tile t).activity, xlt := (r.tile t).xlt, counters := (r.tile t).counters } →
            ∃ u z, exec (.fence t i k0) s = .next u ∧ u.mem = r.mem ∧ (u.tile t).pewter.seqs = []
              ∧ (u.tile t).slot i = some z ∧ z.ph = .finished
              ∧ (let reads := pvOutWs q.desc = true ∧ pvAdd q.desc = true
                let meets := fun (a : Nat) => reads ∧ ∃ n < pvRows q.desc, ∃ v < pvV q.desc, a = fld q.desc 24 63 0 + pvOut q.desc n v
                (u.tile t).eccCorrected = x.eccCorrected + (if reads then BitVec.ofNat 32 k0.corrected else 0)
                  ∧ (¬ (∃ a, k0.bad = some a ∧ meets a) → z.result.status = St.ok ∧ (u.tile t).ws = (r.tile t).ws
                    ∧ (u.tile t).eccUncorrected = x.eccUncorrected)
                  ∧ (∀ a, k0.bad = some a → meets a → z.result.status = St.poisoned
                    ∧ (u.tile t).eccUncorrected = x.eccUncorrected + 1
                    ∧ ∀ b, b < a ∨ a + 4 ≤ b → cellGet (u.tile t).ws b = cellGet (r.tile t).ws b))))

/-- PAGE_VERDICT (R113, R149, R284 to R288, R290 to R293), REFRESH (R268), SCRUB_PAGE (R294), REINITIALISATION_END (R280) and
CONNECTION_SPARE_SWITCH (R299); log entries 27 and 66. -/
def Obligations.StackMemoryActsOnItsVerdicts : Prop :=
  ∀ (s : State) (t : TileRef), tileOk t = true → s.clocksRun = true →
    let x := s.tile t
    (∀ page kind v, page < 2 ^ 20 → s.pageStop t page = none → x.poisoned page = false → x.pageFailing page = false →
        x.mem.marched.contains page = false → kvFind x.mem.raw page = none →
        let g := x.region (regionOf page)
        let c := Instr.pageVerdict t page kind v
        let fills := kind = 9 ∧ x.codePage page = true ∧ s.tileUp t = true
        (fills →
            (v = .clean → exec c s = .next (((s.pageMoved t page false).mergeNarrow t page).modTile t fun x =>
                { x with icache := (page :: x.icache.filter (· ≠ page)).take 32 }))
              ∧ (v = .uncorrectable → kvFind x.mem.narrow page = none → ∃ u, exec c s = .next u ∧ (u.tile t).trap = 1 ∧ (u.tile t).unit = .halted
                ∧ (u.tile t).trapInfo = w64 (s.self * 2 ^ 46 + pageAddr t page)))
          ∧ (¬ fills → v = .clean → exec c s = .next (s.mergeNarrow t page))
          ∧ (¬ fills → kvFind x.mem.narrow page = none →
            (v = .clean → exec c s = .next s)
              ∧ (∀ n, v = .corrected n → g.computable = false → n ≤ strength g.t → ∃ u, exec c s = .next u
                ∧ (u.tile t).mem.corrected = x.mem.corrected + 1 ∧ (u.tile t).mem.poison = x.mem.poison
                ∧ ∀ a, cellGet u.mem a = cellGet s.mem a)
              ∧ ((v = .uncorrectable ∨ ∃ n, v = .corrected n ∧ (g.computable = true ∨ strength g.t < n)) → ∃ u, exec c s = .next u
                ∧ (u.tile t).poisoned page = true ∧ (u.tile t).mem.uncorrectable = x.mem.uncorrectable + 1 ∧ u.mem = s.mem)))
      ∧ (∀ page v, page < 2 ^ 20 → s.pageStop t page = none → x.pageFailing page = true →
        (x.codePage page = true → s.tileUp t = true → ∃ u, exec (.pageVerdict t page 9 v) s = .next u ∧ (u.tile t).trap = 1
            ∧ (u.tile t).mem.poison = x.mem.poison)
          ∧ ∀ kind, (kind ≠ 9 ∨ x.codePage page = false) → exec (.pageVerdict t page kind v) s = .next s)
      ∧ (∀ layer bank, layer < 16 → bank < 16 →
        let b := 16 * layer + bank
        (kvFind x.pewter.busy b = none → exec (.refresh t layer bank) s = .next s)
          ∧ (kvFind x.pewter.busy b ≠ none → ∃ u, exec (.refresh t layer bank) s = .next u ∧ OnlyTiles s u
            ∧ (u.tile t).pewter.deferred.contains b = true
            ∧ (u.tile t).pewter.waitRef = if x.pewter.deferred.contains b then x.pewter.waitRef else x.pewter.waitRef + 1))
      ∧ (s.stackUp (t / 64) = true → ∀ v,
        (x.mem.demand = [] → x.mem.scrubPeriod ≠ 0 →
            (x.scrubNext (2 ^ 20) x.scrubFuel x.mem.scrubPos = none → ∃ u, exec (.scrubPage t v) s = .next u
                ∧ (u.tile t).mem.scrubPos = 0 ∧ (u.tile t).mem.scrubPasses = x.mem.scrubPasses + 1 ∧ u.mem = s.mem)
              ∧ (∀ p, x.scrubNext (2 ^ 20) x.scrubFuel x.mem.scrubPos = some p → ∃ u, exec (.scrubPage t v) s = .next u
                ∧ (u.tile t).mem.scrubPos = (if p + 1 = 2 ^ 20 then 0 else p + 1)
                ∧ (u.tile t).mem.scrubPasses = (if p + 1 = 2 ^ 20 then x.mem.scrubPasses + 1 else x.mem.scrubPasses)))
          ∧ (x.mem.demand = [] → x.mem.scrubPeriod = 0 → exec (.scrubPage t v) s = .next s)
          ∧ (∀ c h hs rest p, x.mem.demand = (c, h :: hs) :: rest → x.scrubNext ((h / 32768 + 1) * 32768) x.scrubFuel h = some p →
            (p + 1) % 32768 ≠ 0 → (x.mem.scrubTurn = false ∨ x.mem.scrubPeriod = 0) → ∃ u, exec (.scrubPage t v) s = .next u
              ∧ (u.tile t).mem.demand = (c, (p + 1) :: hs) :: rest ∧ (u.tile t).mem.scrubPos = x.mem.scrubPos
              ∧ (u.tile t).mem.scrubTurn = true)
          ∧ (∀ p, x.mem.demand ≠ [] → x.mem.scrubTurn = true → x.mem.scrubPeriod ≠ 0 →
            x.scrubNext (2 ^ 20) x.scrubFuel x.mem.scrubPos = some p → ∃ u, exec (.scrubPage t v) s = .next u
              ∧ (u.tile t).mem.scrubPos = (if p + 1 = 2 ^ 20 then 0 else p + 1) ∧ (u.tile t).mem.demand = x.mem.demand
              ∧ (u.tile t).mem.scrubTurn = false))
      ∧ (∀ r, r < 32 → (x.region r).init = true → ∃ u, exec (.reinitialisationEnd t r) s = .next u
        ∧ ((u.tile t).region r).init = false ∧ (∀ p ∈ (u.tile t).mem.poison, regionOf p ≠ r)
        ∧ (∀ a, pageAddr t (32768 * r) ≤ a → a < pageAddr t (32768 * r) + 2 ^ 26 → cellGet u.mem a = 0)
        ∧ (∀ a, a < pageAddr t (32768 * r) ∨ pageAddr t (32768 * r) + 2 ^ 26 ≤ a → cellGet u.mem a = cellGet s.mem a))
      ∧ (∀ layer conn, layer < 16 → conn < 70 → (x.channel layer).state = 0 → ∃ u, exec (.connectionSpareSwitch t layer conn) s = .next u
        ∧ let c := x.channel layer
          let k := (u.tile t).channel layer
          k.linkErrs = c.linkErrs + 16
            ∧ (c.spare68 = 0x7F → k.spare68 = BitVec.ofNat 7 conn ∧ k.spare69 = c.spare69 ∧ k.state = 0)
            ∧ (c.spare68 ≠ 0x7F → c.spare69 = 0x7F → k.spare69 = BitVec.ofNat 7 conn ∧ k.spare68 = c.spare68 ∧ k.state = 0)
            ∧ (c.spare68 ≠ 0x7F → c.spare69 ≠ 0x7F → k.state = 2 ∧ k.cause = 3))

/-- The repair window (R300, R301); log entries 28 and 41. -/
def Obligations.TheRepairPortActsOnTheSelectedBank : Prop :=
  ∀ (s : State) (t : TileRef), s.barOpen = true → tileOk t = true →
    let x := s.tile t
    let l := x.selected.1
    let b := x.selected.2.1
    let row := x.selected.2.2.1
    let col := x.selected.2.2.2
    let setHold := fun (h : Option Nat) => s.setTile t { x with mem := { x.mem with hold := h } }
    let ended := fun (op r : Nat) (c : Instr) => exec c s = .next (s.modTile t fun x =>
      { x with mem := { x.mem with repairCmd := w64 op, repairResult := BitVec.ofNat 3 r } })
    (∀ w, (bitAt w 0 = false → exec (.repairCtlWrite t w) s = .next (setHold none))
        ∧ (bitAt w 0 = true → x.unit = .starting ∨ x.unit = .removed ∨ x.unit = .halted →
          exec (.repairCtlWrite t w) s = .next (setHold (some l)))
        ∧ (bitAt w 0 = true → ¬ (x.unit = .starting ∨ x.unit = .removed ∨ x.unit = .halted) →
          exec (.repairCtlWrite t w) s = .next s))
      ∧ (s.clocksRun = true → x.mem.repairBusy = false →
        let free := (x.channel l).state ≠ 1
        (∀ op c, (op, c) ∈ [(2, Instr.rawWrite t), (3, Instr.softRow t), (4, Instr.softCol t), (5, Instr.fuseRow t),
            (6, Instr.fuseCol t), (7, Instr.clearSoft t), (8, Instr.march t)] →
            (x.mem.hold = none → ended op 2 c) ∧ (x.mem.hold ≠ none → ¬ free → ended op 3 c))
          ∧ (free → ∃ u, exec (.rawRead t) s = .next u ∧ (u.tile t).mem.repairCmd = 1 ∧ (u.tile t).mem.repairResult = 0
            ∧ u.mem = s.mem ∧ ∀ p, x.pageAt l b row = some p → x.mem.marched.contains p = false →
              let data := cellRead s.mem (pageAddr t p) pageSize
              (u.tile t).mem.repairBuf = cellWrite [] 0
                (data ++ padTo 128 (((kvFind x.mem.raw p).map Prod.fst).getD (checkArea (x.region (regionOf p)) data))))
          ∧ (free → x.mem.hold ≠ none →
            (∀ p, x.pageAt l b row = some p → ∃ u, exec (.rawWrite t) s = .next u ∧ (u.tile t).mem.repairResult = 0
                ∧ cellRead u.mem (pageAddr t p) pageSize = cellRead x.mem.repairBuf 0 pageSize
                ∧ (kvFind (u.tile t).mem.raw p).map Prod.fst = some (cellRead x.mem.repairBuf pageSize 128)
                ∧ (u.tile t).mem.poison = x.mem.poison
                ∧ ∀ a, a < pageAddr t p ∨ pageAddr t p + pageSize ≤ a → cellGet u.mem a = cellGet s.mem a)
              ∧ (∀ op n isCol fuse c, (op, n, isCol, fuse, c) ∈ [(3, row, false, false, Instr.softRow t),
                  (4, col, true, false, Instr.softCol t), (5, row, false, true, Instr.fuseRow t),
                  (6, col, true, true, Instr.fuseCol t)] →
                let ofBank := x.mem.repairs.filter fun r => r.1 = l && r.2.1 = b && r.2.2.2.1 = isCol
                let fuses := (x.mem.repairs.filter fun r => r.1 = l && r.2.2.2.2).length
                let spare := ofBank.length < (if isCol then 4 else 32) ∧ (fuse = true → fuses < 128)
                (isCol = true → 543 < n → ended op 3 c)
                  ∧ ((isCol = true → n ≤ 543) → (∀ r ∈ ofBank, r.2.2.1 ≠ n) →
                    (spare → ∃ u, exec c s = .next u ∧ (u.tile t).mem.repairs = x.mem.repairs ++ [(l, b, n, isCol, fuse)]
                        ∧ (u.tile t).mem.repairCmd = w64 op ∧ (u.tile t).mem.repairResult = 0 ∧ OnlyTiles s u)
                      ∧ (¬ spare → ended op 1 c)))
              ∧ (∃ u, exec (.clearSoft t) s = .next u ∧ (u.tile t).mem.repairResult = 0 ∧ OnlyTiles s u
                ∧ ∀ r, r ∈ (u.tile t).mem.repairs ↔ r ∈ x.mem.repairs ∧ ¬ (r.1 = l ∧ r.2.1 = b ∧ r.2.2.2.2 = false))
              ∧ (∃ u, exec (.march t) s = .next u ∧ (u.tile t).mem.repairBusy = true ∧ OnlyTiles s u
                ∧ ∀ r p, r < 4096 → x.pageAt l b r = some p → p ∈ (u.tile t).mem.marched)))
      ∧ (∀ errs, s.clocksRun = true → x.mem.repairBusy = true → exec (.marchComplete t errs) s = .next (s.modTile t fun x =>
        { x with mem := { x.mem with repairBusy := false, repairResult := 0, marchErrs := errs } }))

/-- CNS_ASSIGNMENT_WRITE (R310, R312), PORT_TRAIN_END (R311), FLIT_RECEIVE (R314 to R317, R340), CREDIT_STALL_DISCARD (R324);
log entries 39 and 40. -/
def Obligations.PortsTrainAndTakeFlitsInOrder : Prop :=
  ∀ (s : State),
    (∀ (off : Nat) (w : Word), s.barOpen = true →
        (s.cornis.trained = false →
          (∀ g < 16, off = 0x40 + 8 * g → exec (.cnsAssignmentWrite off w) s = .next { s with cornis := { s.cornis with
              groups := s.cornis.groups.modify g fun x =>
                { x with role := BitVec.ofNat 2 (bitsOf w 1 0), port := BitVec.ofNat 3 (bitsOf w 4 2) } } })
            ∧ (∀ p < 9, off = 0x100 + 8 * p →
              exec (.cnsAssignmentWrite off w) s = .next (s.modPort p fun x => { x with width := BitVec.ofNat 1 (bitsOf w 0 0) })))
          ∧ (s.cornis.trained = true → ∀ p < 9, (∃ g ∈ s.portGroups p, g ∉ (s.setAssignment off w).portGroups p) →
            ∃ u, exec (.cnsAssignmentWrite off w) s = .next u ∧ (u.port p).up = false))
      ∧ (∀ p r, s.clocksRun = true → (s.port p).state = .training →
        let gs := s.portGroups p
        let agrees := r.peerWidth = (s.port p).width.toNat ∧ r.peerVersion = 1 ∧ r.peer ≠ s.self
        (∀ g ∈ gs, (s.cornis.groups[g]?).map (·.state) = some .training) →
          (r.identity = false → ∃ u, exec (.portTrainEnd p r) s = .next u ∧ (u.port p).state = .down)
            ∧ ((∀ g ∈ gs, g ∈ r.failedGroups) → ∃ u, exec (.portTrainEnd p r) s = .next u ∧ (u.port p).state = .down)
            ∧ (r.identity = true → ¬ agrees → ∃ u, exec (.portTrainEnd p r) s = .next u ∧ (u.port p).state = .down)
            ∧ (r.identity = true → agrees → (∃ g ∈ gs, g ∉ r.failedGroups) → ∃ u, exec (.portTrainEnd p r) s = .next u
              ∧ (u.port p).peer = r.peer ∧ ((∀ g ∈ gs, g ∉ r.failedGroups) → (u.port p).state = .up)
              ∧ ((∃ g ∈ gs, g ∈ r.failedGroups) → (u.port p).state = .narrow)))
      ∧ (∀ p (hdr : Word) (n : Nat), s.clocksRun = true → (s.port p).up = true →
        let x := s.port p
        let vc := bitsOf hdr 1 0
        let seq := BitVec.ofNat 16 (bitsOf hdr 23 8)
        let first := (s.portGroups p).find? fun g => (s.cornis.groups[g]?).map (·.state) = some .inService
        (∃ u, exec (.flitReceive p hdr false n) s = .next u ∧ (u.port p).nak = true ∧ (u.port p).rxSeq = x.rxSeq
            ∧ ∀ g, first = some g → (u.cornis.groups[g]?).map (·.corrected) = (s.cornis.groups[g]?).map (·.corrected + n))
          ∧ ((bitsOf hdr 7 6 ≠ 0 ∨ bitsOf hdr 63 52 ≠ 0) → ∃ u, exec (.flitReceive p hdr true n) s = .next u
            ∧ u.cornis.violLink = s.cornis.violLink + 1)
          ∧ (bitsOf hdr 7 6 = 0 → bitsOf hdr 63 52 = 0 → bitAt hdr 5 = false → bitAt hdr 4 = false → x.naks < 8 →
            (seq = x.rxSeq + 1 → x.early = [] → (x.rxHeld[vc]?).getD 0 < creditLimit vc → bitAt hdr 2 ≠ (x.rxOpen[vc]?).getD false →
                ∃ u, exec (.flitReceive p hdr true n) s = .next u ∧ (u.port p).rxSeq = seq ∧ (u.port p).nak = false
                  ∧ (u.port p).rxHeld = x.rxHeld.modify vc (· + 1) ∧ (u.port p).rxOpen = x.rxOpen.set vc (!bitAt hdr 3))
              ∧ (1 < (seq - x.rxSeq).toNat → (seq - x.rxSeq).toNat ≤ 16384 → x.early = [] →
                let both := ((s.portGroups p).filter fun g => (s.cornis.groups[g]?).map (·.state) = some .inService).length = 2
                let overtook := (seq - x.rxSeq).toNat % 2 = 0 ∧ x.nak = false ∧ both
                ∃ u, exec (.flitReceive p hdr true n) s = .next u ∧ (u.port p).rxSeq = x.rxSeq ∧ (u.port p).rxHeld = x.rxHeld
                  ∧ (overtook → (u.port p).early = [hdr] ∧ (u.port p).nak = false) ∧ (¬ overtook → (u.port p).nak = true))))
      ∧ (∀ i e, s.clocksRun = true → s.stalled[i]? = some e → ∃ u, exec (.creditStallDiscard i) s = .next u
        ∧ u.cornis.stalled = s.cornis.stalled + 1 ∧ u.time.now = max s.time.now (e.2 + ms 1)
        ∧ (isRequest e.1 = false → u.cornis.held = s.cornis.held.erase e))

/-- READ (R329), WRITE (R328, R354, R363), ATOMIC (R331), APPEND_FWD (R333), SHARE and CONTROL (R334) and what they meet first (R320,
R340, R341, R415); log entry 38. -/
def Obligations.RequestsOfOtherPackagesAreChecked : Prop :=
  ∀ (m : Msg) (s : State), Arrives m s →
    let s1 := taken s m
    (∀ op c, (op, c) ∈ [(Op.read, Instr.read m), (Op.write, Instr.write m), (Op.atomic, Instr.atomic m),
        (Op.appendFwd, Instr.appendFwd m), (Op.share, Instr.share m), (Op.control, Instr.control m)] → m.op = op →
        (m.crcOk = false → ∃ u, exec c s = .next u ∧ u.cornis.violMsg = s.cornis.violMsg + 1)
          ∧ (m.crcOk = true → s.ready = false → exec c s = .next (s1.respond (reply m St.notReady Rs.notStarted)))
          ∧ (m.crcOk = true → s.ready = true → s.cornis.suspects.contains m.src = true →
            exec c s = .next (s1.respond (reply m St.peerViolation Rs.suspect)))
          ∧ (m.crcOk = true → s.ready = true → s.cornis.suspects.contains m.src = false → s.badRequest m = true →
            ∃ u, exec c s = .next u ∧ u.cornis.violMsg = s.cornis.violMsg + 1)
          ∧ (m.crcOk = true → s.ready = true → s.cornis.suspects.contains m.src = false → s.badRequest m = false →
            unitValid m.srcUnit = false → exec c s = .next (s1.respond (reply m St.rejected Rs.badUnit))))
      ∧ (Sound m s →
        (m.op = Op.read →
            (∀ b bad q, (readAsked m).result s1 = (.ok (b, bad), q) →
                exec (.read m) s = .next (q.respond (reply m (if bad = true then St.poisoned else St.ok) 0 0 b)))
              ∧ (∀ e q, (readAsked m).result s1 = (.error e, q) → exec (.read m) s = .next (q.stopMsg m e)))
          ∧ (m.op = Op.write →
            (∀ q, m.operand.toNat % 4 = 0 → m.arrEn = false → (writeOrdinary m).result s1 = (.ok {}, q) →
                exec (.write m) s = .next (q.respond (reply m St.ok 0)))
              ∧ (∀ q w, m.operand.toNat % 4 = 0 → m.arrEn = true → (s1.tile (msgTile m)).canTrack m = true →
                (writeOrdinary m).result s1 = (.ok w, q) → exec (.write m) s = .next ((q.track m).ackWrite m w))
              ∧ (m.operand.toNat % 4 = 0 → m.arrEn = true → (s1.tile (msgTile m)).canTrack m = false →
                exec (.write m) s = .next (s1.respond (reply m St.notReady Rs.arrBusy)))
              ∧ (m.operand.toNat % 4 = 1 → mirrorGen m ≠ s.twin.gen →
                exec (.write m) s = .next (s1.respond (reply m St.notReady Rs.twinStaleGen)))
              ∧ (m.operand.toNat % 4 = 1 → mirrorGen m = s.twin.gen → s.twin.state = .stale →
                exec (.write m) s = .next (s1.respond (reply m St.notReady Rs.twinResync)))
              ∧ (∀ q, m.operand.toNat % 4 = 1 → mirrorGen m = s.twin.gen → s.twin.state ≠ .stale →
                (writeMirror m).result s1 = (.ok (), q) → exec (.write m) s = .next (q.respond (reply m St.ok 0)))
              ∧ (m.operand.toNat % 4 = 2 → s.twin.state ≠ .target →
                ∃ u, exec (.write m) s = .next u ∧ u.cornis.violMsg = s.cornis.violMsg + 1)
              ∧ (∀ q, m.operand.toNat % 4 = 2 → s.twin.state = .target → mirrorGen m = s.twin.gen →
                (writeCopy m).result s1 = (.ok (), q) → exec (.write m) s =
                  .next (State.respond { q with twin := q.twin.passed (msgCtx m) m.dva.toNat } (reply m St.ok 0))))
          ∧ (m.op = Op.atomic →
            (∀ old q, (applyAtomic m).result s1 = (.ok old, q) →
                exec (.atomic m) s = .next (q.respond (reply m St.ok 0 (w64 old))))
              ∧ (∀ e q, (applyAtomic m).result s1 = (.error e, q) → exec (.atomic m) s = .next (q.stopMsg m e)))
          ∧ (m.op = Op.appendFwd → bitAt m.operand2 57 = false →
            let held := (s.fragmentsOf m).getD []
            let whole := held ++ m.data
            let kept := fun (u : State) => { u with cornis := { u.cornis with
              fragments := u.cornis.fragments ++ [((m.src, m.txn), whole)] } }
            let s2 : State := { s1 with cornis := { s1.cornis with
              fragments := s1.cornis.fragments.filter fun f => f.1 ≠ (m.src, m.txn) } }
            let done := fun (b : List Byte) => tokensIn false (bitAt m.operand2 58) (bitsOf m.operand2 31 0) b
            bitsOf m.operand 31 0 = held.length → (held = [] → 32 ≤ m.data.length) →
              (whole.length < bitsOf m.operand2 31 0 → done whole ≤ done held → exec (.appendFwd m) s = .next (kept s2))
                ∧ (whole.length < bitsOf m.operand2 31 0 → done held < done whole →
                  let u := s2.ordinaryAppend m whole (done held) (some (done whole))
                  (u.mesh ≠ s2.mesh → exec (.appendFwd m) s = .next (kept u)) ∧ (u.mesh = s2.mesh → exec (.appendFwd m) s = .next u))
                ∧ (whole.length = bitsOf m.operand2 31 0 →
                  exec (.appendFwd m) s = .next (s2.ordinaryAppend m whole (done held) none)))
          ∧ (m.op = Op.share → m.data.length = 64 →
            (s1.tilesUp = [] → exec (.share m) s = .next (s1.respond (reply m St.notReady 0)))
              ∧ (∀ t r, s1.tilesUp = t :: r → exec (.share m) s = .next (s1.meshSend t 0 (.share (shareOfMsg m t)))))
          ∧ (m.op = Op.control → 64 ≤ m.data.length → bitsOf m.operand2 31 0 ≤ m.data.length →
            (∀ e, s.cmdRefusal (controlCmd m) = some e →
                exec (.control m) s = .next (s1.respond (reply m e.1 e.2 0 (List.replicate 16 0))))
              ∧ (s.cmdRefusal (controlCmd m) = none → ∃ u, exec (.control m) s = .next u ∧ u.host.slots = s.host.slots ++ [
                { cmd := controlCmd m, ph := .started, startAt := s.time.invar
                  param := if (m.data.drop 64).isEmpty then none else some (.good (m.data.drop 64)) }])))

/-- READ_DATA, WRITE_ACK, ATOMIC_ACK, APPEND_ACK, SHARE_DONE and CONTROL_REPLY (R328 to R334), REQUEST_TIMEOUT (R330), ARR_RESEND and
TRACKER_TIMEOUT (R337); log entry 38. -/
def Obligations.ResponsesEndTheirRequests : Prop :=
  ∀ (s : State), s.clocksRun = true →
    (∀ (op : BitVec 8) (m : Msg) (c : Instr), (op, c) ∈ [(0x81, Instr.readData m), (0x82, Instr.writeAck m), (0x83, Instr.atomicAck m),
        (0x84, Instr.appendAck m), (0x85, Instr.shareDone m), (0x86, Instr.controlReply m)] → m.op = op → Arrives m s →
      let s1 := taken s m
      let sound := m.crcOk = true ∧ m.vc = 1 ∧ m.reservedZero = true ∧ m.lengthOk = true ∧ m.length ≤ 8192
      (¬ sound → ∃ u, exec c s = .next u ∧ u.cornis.violMsg = s.cornis.violMsg + 1)
        ∧ (sound → op = 0x86 → m.data.length < bitsOf m.operand2 31 0 → (∀ e ∈ s.cornis.parts, e.1 ≠ (m.src, m.txn, m.op)) →
          exec c s = .next { s1 with cornis := { s1.cornis with parts := s1.cornis.parts ++ [((m.src, m.txn, m.op), m.data)] } })
        ∧ (sound → (op = 0x86 → bitsOf m.operand2 31 0 ≤ m.data.length) → (∀ x ∈ s.cornis.txns, x.txn ≠ m.txn) →
          ((s.cornis.expired.any fun e => e.1 = m.txn) = true → ∃ u, exec c s = .next u ∧ u.cornis.late = s.cornis.late + 1
              ∧ ∀ e ∈ u.cornis.expired, e.1 ≠ m.txn)
            ∧ ((s.cornis.expired.any fun e => e.1 = m.txn) = false → ∃ u, exec c s = .next u
              ∧ u.cornis.violMsg = s.cornis.violMsg + 1))
        ∧ (∀ x, sound → (op = 0x86 → bitsOf m.operand2 31 0 ≤ m.data.length) → (s.cornis.txns.find? fun t => t.txn = m.txn) = some x → m.op = x.msg.op + 0x80 → s.time.now < x.sentAt + ms 10 →
          let s2 : State := { s1 with cornis := { s1.cornis with txns := s1.cornis.txns.filter fun k => k.txn ≠ m.txn } }
          let busy := m.status = St.notReady ∧ m.reason = Rs.arrBusy ∧ x.msg.arrEn = true ∧ x.resends < 16
          (unitValid m.srcUnit = false → exec c s = .next ((s2.txnFails x St.rejected Rs.badUnit).retryHeld.afterLeave))
            ∧ (unitValid m.srcUnit = true → (busy → exec c s = .next { s2 with cornis := { s2.cornis with
              txns := s2.cornis.txns ++ [{ x with again := true, sentAt := s.time.now }] } })
            ∧ (¬ busy → exec c s = .next ((s2.txnDone x m).retryHeld.afterLeave)))
            ∧ (∀ t i d, ¬ busy → op = 0x81 → x.user = .slot t i → x.msg.op = Op.read → (s.tile t).slot i = some d →
              unitValid m.srcUnit = true → ¬ (dOpcode d.desc = 0x31 ∧ d.split = true) → s.therm.haltDue = false → ∃ u, exec c s = .next u ∧ (u.tile t).slot i = some (if m.status = St.ok
                then { d with waits := d.waits.filter (· ≠ m.txn)
                              fetched := d.fetched ++ [(x.msg.gaddr, padTo x.msg.length m.data)] }
                else { d with waits := d.waits.filter (· ≠ m.txn)
                              readFails := d.readFails ++ [(x.msg.gaddr, x.msg.length, m.status, m.reason)] }))))
      ∧ (∀ n x, (s.cornis.txns.find? fun t => t.txn = n) = some x →
        (x.again = true → exec (.requestTimeout n) s = .next s)
          ∧ (x.again = false → ∃ u, exec (.requestTimeout n) s = .next u ∧ u.time.now = max s.time.now (x.sentAt + ms 10)
            ∧ u.cornis.expired = s.cornis.expired ++ [(n, x.dst)]))
      ∧ (∀ n x, (s.cornis.txns.find? fun x => x.txn = n && x.again) = some x → s.pathStop x.msg.dst = none →
        ∃ u, exec (.arrResend n) s = .next u
        ∧ u.time.now = max s.time.now (x.sentAt + us 10)
        ∧ u.cornis.txns = s.cornis.txns.map fun k =>
          if k.txn = n then { k with again := false, resends := k.resends + 1, sentAt := u.time.now } else k)
      ∧ (∀ t srcUnit arrId step k,
        let same := fun (k : Tracker) => k.srcUnit = srcUnit && k.arrId = arrId && k.arrStep = step
        (s.tile t).trackers.find? same = some k → ∃ u, exec (.trackerTimeout t srcUnit arrId step) s = .next u
          ∧ u.time.now = max s.time.now (k.lastAt + ms 10)
          ∧ (u.tile t).trackers = (s.tile t).trackers.filter fun j => !same j)

/-- HELLO (R350, R351, R371, R373), HELLO_RETRY (R349), TWIN_LOSS_TIMEOUT (R360), LEAVE_WAIT_TIMEOUT (R361, R370), TAIL_FORWARD (R358) and
RESYNC_PAGE_COPY (R364, R366, R367); log entries 29 and 30. -/
def Obligations.HellosResolveThePair : Prop :=
  ∀ (s : State), s.therm.haltDue = false → s.therm.leaving = false → s.clocksRun = true →
    let w := s.twin
    let alone : PairSt → Prop := fun p => p = .detached ∨ p = .conflict
    (∀ h : Hello, s.helloOn = true → s.therm.halted = false → w.suspect = false → h.reservedZero = true →
        let peer := pairOf h.state
        let heard := (s.hearTwin h.package).hearFresh h
        let becomes := fun (st : PairSt) (gen : BitVec 32) => ∃ u, exec (.hello h) s = .next u ∧ u.twin.state = st ∧ u.twin.gen = gen
        (∀ r, heard.helloRefusal h = some r → r ≠ Rs.badTwin → becomes (if alone w.state then w.state else .solo) w.gen)
          ∧ (heard.helloRefusal h = none → w.barred = true → becomes w.state w.gen)
          ∧ (heard.helloRefusal h = none → w.barred = false →
            (h.leaving = true → w.state ∈ [.paired, .source, .target, .stale] → becomes .solo (w.gen + 1))
              ∧ (h.leaving = false →
                ((alone w.state ∨ alone peer) → becomes w.state w.gen)
                  ∧ (h.gen = w.gen →
                    ((w.state, peer) ∈ [(.paired, .paired), (.solo, .stale), (.stale, .solo), (.source, .target), (.target, .source),
                        (.source, .stale), (.paired, .target)] → becomes w.state w.gen)
                      ∧ (w.state = .stale → peer = .source → becomes .target w.gen)
                      ∧ (w.state = .target → peer = .paired → becomes .paired w.gen))
                  ∧ (¬ alone w.state → ¬ alone peer → (s.beat h).isNone = true →
                    (w.state ≠ .paired → w.fresh = true → h.fresh = true →
                        becomes .paired (if peer = .paired ∧ w.gen < h.gen then h.gen else (if w.gen < h.gen then h.gen else w.gen) + 1))
                      ∧ (w.fresh = true → h.fresh = false → (peer = .solo ∨ peer = .paired) → becomes .stale (h.gen + 1))
                      ∧ (w.fresh = false → h.fresh = true → w.state = .solo → becomes .solo (if w.risen = true ∧ peer = .unpaired then w.gen else w.gen + 1))
                      ∧ (w.fresh = false → h.fresh = false → w.state = .solo → peer = .solo → becomes .conflict w.gen)))))
      ∧ (((s.port 8).up = true → exec .helloRetry s = .next s)
        ∧ ((s.port 8).up = false → s.helloOn = true → s.pathStop s.twinPkg = none →
          exec .helloRetry s = .next
            (({ s with out := { s.out with hello := s.out.hello ++ [s.ownHello false] } } : State).request (s.helloMsg false) .hello)))
      ∧ (w.state ∈ [.paired, .source, .target, .stale] → ∃ u, exec .twinLossTimeout s = .next u ∧ u.twin.state = .solo
        ∧ u.twin.gen = w.gen + 1 ∧ u.time.now = max s.time.now (w.heardAt + ms (max 2 (min 1000 w.lossMs.toNat))))
      ∧ (∀ a, w.leaving = some a → ∃ u, exec .leaveWaitTimeout s = .next u ∧ u.twin.leaving = none
        ∧ u.time.now = max s.time.now (a + ms 50) ∧ u.twin.state = if w.leaveDetach = true then .detached else w.state)
      ∧ (w.leaving = none → exec .leaveWaitTimeout s = .next s)
      ∧ (∀ t, tileOk t = true →
        ((s.tile t).tailDue = false → exec (.tailForward t) s = .next s)
          ∧ ((s.tile t).tailDue = true →
            exec (.tailForward t) s = .next ((s.modTile t fun x => { x with tailDue := false }).forwardTails t)))
      ∧ (w.state = .source → w.phase = 1 → s.pathStop s.twinPkg = none →
        (∀ dva e b q, s.nextMirrored w.context w.mark = some (dva, e) →
            let go := s.advanceTo w.copyAt
            let s1 : State := { go with twin := { w with copyAt := go.time.now + go.copyTime } }
            (readStack (localOf (e.global (w64 dva))) pageSize 9).result s1 = (.ok b, q) → q.twin = s1.twin → w.invalid w.context (w64 dva) = false →
            ∃ u, exec .resyncPageCopy s = .next u ∧ u.twin.copyAt = go.time.now + go.copyTime ∧ u.twin.mark = dva + pageSize ∧ u.twin.bytes = w.bytes + b.length
              ∧ u.twin.state = .source)
          ∧ (∀ c rest, s.nextMirrored w.context w.mark = none → w.contexts = c :: rest → ∃ u, exec .resyncPageCopy s = .next u
            ∧ u.twin = { w with context := c, contexts := rest, mark := 0, doneContexts := w.doneContexts ++ [w.context] })
          ∧ (s.nextMirrored w.context w.mark = none → w.contexts = [] → s.tailTiles = [] → ∃ u, exec .resyncPageCopy s = .next u
            ∧ u.twin.state = .paired ∧ u.twin.gen = w.gen))

/-- REGISTER_WRITE (R379, R380, R383), APERTURE_READ, APERTURE_WRITE (R381, R382), SQ_TAIL_WRITE, CQ_HEAD_WRITE, EQ_HEAD_WRITE
(R385, R386), RING_RESET, EQ_RESET, RING_RUN (R386) and HOST_VIOL_SUSPECT_CLEAR (R411), with the violations of R410. -/
def Obligations.TheHostReachesThePackageThroughItsBars : Prop :=
  ∀ (s : State), s.host.rings.length = 16 → s.host.wins.length = 8 →
    (s.barOpen = false → ∀ c, (c ∈ [.eqReset] ∨ (∃ b o l, c = .registerWrite b o l) ∨ (∃ o n, c = .apertureRead o n)
        ∨ (∃ o l e, c = .apertureWrite o l e) ∨ (∃ r w, c = .sqTailWrite r w ∨ c = .cqHeadWrite r w) ∨ (∃ w, c = .eqHeadWrite w)
        ∨ (∃ r, c = .ringReset r) ∨ (∃ r b, c = .ringRun r b) ∨ ∃ w, c = .hostViolSuspectClear w) → exec c s = .next s)
      ∧ (s.barOpen = true →
        let violates := fun (c : Instr) => ∃ u, exec c s = .next u ∧ u.host.viol = s.host.viol + 1 ∧ u.mem = s.mem
          ∧ u.host.slots = s.host.slots
        (∀ off bytes, off < 2 ^ 26 →
            ((bytes.length ≠ 4 ∧ bytes.length ≠ 8) ∨ off % bytes.length ≠ 0 ∨ (bytes.length = 4 ∧ wtRegister (off / 8 * 8) = true)) →
            violates (.registerWrite 0 off bytes))
          ∧ (∀ off bytes, ∃ u, exec (.registerWrite 0 off bytes) s = .next u ∧ u.mem = s.mem ∧ u.host.slots = s.host.slots)
          ∧ (∀ k < 8, ∀ w : Word, ∃ u, exec (.registerWrite 0 (0x100040 + 8 * k) (bytesLE 8 w.toNat)) s = .next u
            ∧ u.regRead (0x100040 + 8 * k) = w &&& BitVec.ofNat 64 (2 ^ 56 - 2 ^ 21 + 1))
          ∧ (∀ k < 8, ∀ v < 2 ^ 32, ∃ u, exec (.registerWrite 0 (0x100044 + 8 * k) (bytesLE 4 v)) s = .next u
            ∧ (u.regRead (0x100040 + 8 * k)).toNat = (s.regRead (0x100040 + 8 * k)).toNat % 2 ^ 32 + v % 2 ^ 24 * 2 ^ 32)
          ∧ (∀ r < 16, ∀ k < 4096, ∀ bytes : List Byte, bytes.length = 64 →
            ∃ u, exec (.registerWrite 2 (0x40000 * r + 64 * k) bytes) s = .next u
              ∧ kvGet (u.ring r).sq k 0 = BitVec.ofNat 512 (natLE bytes)
              ∧ u.host.viol = s.host.viol + (if (s.ring r).held k then 1 else 0))
          ∧ (∀ off bytes, 0x400000 ≤ off → off < 0x680000 → violates (.registerWrite 2 off bytes))
          ∧ (∀ bar off n, ((n ≠ 4 ∧ n ≠ 8) ∨ off % n ≠ 0) →
            (s.barRead bar off n).1 = none ∧ (s.barRead bar off n).2.host.viol = s.host.viol + 1)
          ∧ (∀ r < 16, ∀ k < 4096, (∀ j < 8, s.barRead 2 (0x40000 * r + 64 * k + 8 * j) 8 =
                (some (((bytesLE 64 (kvGet (s.ring r).sq k 0).toNat).drop (8 * j)).take 8), s))
              ∧ (∀ j < 8, s.barRead 2 (0x400000 + 0x20000 * r + 32 * k + 4 * j) 4 =
                (some (((bytesLE 32 (kvGet (s.ring r).cq k 0).toNat).drop (4 * j)).take 4), s))
              ∧ (∀ j < 16, ∀ e p, kvFind s.host.eq.ring k = some (e, p) → s.barRead 2 (0x600000 + 128 * k + 8 * j) 8 =
                (some (((eventBytes e p).drop (8 * j)).take 8), s))
              ∧ s.barRead 2 (0x700000 + 8 * r) 8 = (some (bytesLE 8 (s.ring r).sqTail.toNat), s)
              ∧ s.barRead 2 (0x700080 + 8 * r) 8 = (some (bytesLE 8 (s.ring r).cqHead.toNat), s))
          ∧ s.barRead 2 0x700100 8 = (some (bytesLE 8 s.host.eq.head.toNat), s)
          ∧ s.barRead 2 0x801000 8 = (some (bytesLE 8 s.host.pba.toNat), s)
          ∧ (∀ v < 64, ∀ j < 2, s.barRead 2 (0x800000 + 16 * v + 8 * j) 8 =
            (some (((bytesLE 16 (s.msixEntry v).toNat).drop (8 * j)).take 8), s))
          ∧ (∀ o < 2 ^ 23, s.barRead 0 (8 * o) 8 = (some (bytesLE 8 (s.regRead (8 * o)).toNat), s))
          ∧ (∀ off len, s.apertureAt off len = none →
            ∃ u, exec (.apertureRead off len) s = .next u ∧ u.out.apert = s.out.apert ++ [(none, false)] ∧ u.host.viol = s.host.viol + 1)
          ∧ (∀ off bytes ep, s.host.suspect = false → s.apertureAt off bytes.length = none → violates (.apertureWrite off bytes ep))
          ∧ (∀ off bytes ep, s.host.suspect = true → exec (.apertureWrite off bytes ep) s = .next s)
          ∧ (∀ off bytes g, s.host.suspect = false → s.apertureAt off bytes.length = some g →
            ∃ u, exec (.apertureWrite off bytes true) s = .next u ∧ u.host.faults = s.host.faults + 1 ∧ u.mem = s.mem)
          ∧ (∀ off len g, s.apertureAt off len = some g →
            (pkgOf g = s.self → ∀ q,
                (∀ b, (readOwn (localOf g) len 8).result s = (.ok b, q) →
                  exec (.apertureRead off len) s = .next { q with out := { q.out with apert := q.out.apert ++ [(some (padTo len b), false)] } })
                  ∧ ∀ e, (readOwn (localOf g) len 8).result s = (.error e, q) → e.status = St.poisoned →
                  exec (.apertureRead off len) s =
                    .next { q with out := { q.out with apert := q.out.apert ++ [(some (List.replicate len 0xFF), true)] } })
              ∧ (pkgOf g ≠ s.self → s.pathStop (pkgOf g) = none →
                exec (.apertureRead off len) s = .next (s.request (physRead s g len) (.aperture false off))))
          ∧ (∀ off bytes g, s.host.suspect = false → s.apertureAt off bytes.length = some g →
            (pkgOf g = s.self → ∀ q,
                let write := (pageParts (localOf g) bytes.length).forM fun p =>
                  aperturePart p.1 ((bytes.drop (p.1 - localOf g)).take p.2)
                (write.result s = (.ok (), q) → exec (.apertureWrite off bytes false) s = .next q)
                  ∧ ∀ e, write.result s = (.error e, q) → e.status = St.poisoned →
                  ∃ u, exec (.apertureWrite off bytes false) s = .next u ∧ u.host.faults = q.host.faults + 1 ∧ u.mem = q.mem)
              ∧ (pkgOf g ≠ s.self → s.pathStop (pkgOf g) = none →
                exec (.apertureWrite off bytes false) s = .next (s.request (physWrite s g bytes) (.aperture true off))))
          ∧ (∀ r < 16, ∀ w : Word,
            let x := s.ring r
            let n := bits 12 w 0
            let drops := x.run = false ∧ n = x.sqHead
            let fits := (n - x.sqTail).toNat ≤ 4095 - (x.sqTail - x.sqHead).toNat
            let consumed := (n - x.cqHead).toNat ≤ (x.cqTail - x.cqHead).toNat
            (w.toNat < 4096 → s.ringGuest r = none → (drops ∨ fits) →
                exec (.sqTailWrite r w) s = .next (s.modRing r fun x => { x with sqTail := n }))
              ∧ ((4096 ≤ w.toNat ∨ s.ringGuest r ≠ none ∨ (¬ drops ∧ ¬ fits)) → violates (.sqTailWrite r w))
              ∧ (consumed → exec (.cqHeadWrite r w) s = .next (s.modRing r fun x => { x with cqHead := n }))
              ∧ (¬ consumed → violates (.cqHeadWrite r w)))
          ∧ (∀ w : Word,
            let q := s.host.eq
            let n := bits 12 w 0
            let consumed := (n - q.head).toNat ≤ (q.tail - q.head).toNat
            (consumed → ∃ u, exec (.eqHeadWrite w) s = .next u ∧ u.host.eq.head = n
                ∧ (q.missed = none → u = { s with host := { s.host with eq := { q with head := n } } }))
              ∧ (¬ consumed → violates (.eqHeadWrite w)))
          ∧ (∀ r < 16,
            (((s.ring r).run = true ∨ s.outstanding (some r) ≠ 0) →
                exec (.ringReset r) s = .next (s.modRing r fun x => { x with resetBit := true }))
              ∧ ((s.ring r).run = false → s.outstanding (some r) = 0 → exec (.ringReset r) s = .next (s.modRing r fun x => { x with
                  resetBit := true, sqHead := 0, cqTail := 0, sqTail := 0, cqHead := 0, cqPhase := true, cq := [], unsignalled := 0, unsignalledAt := none }))
              ∧ exec (.ringRun r false) s = .next (s.modRing r fun x => { x with run := false })
              ∧ ((s.host.ringsOpen = false ∨ (s.host.suspect = true ∧ r ≠ 0)) → exec (.ringRun r true) s = .next s)
              ∧ (s.host.ringsOpen = true → (s.host.suspect = false ∨ r = 0) →
                exec (.ringRun r true) s = .next (s.modRing r fun x => { x with run := true, halted := false })))
          ∧ (s.host.eq.run = true → exec .eqReset s =
            .next { s with host := { s.host with eq := { s.host.eq with resetBit := true } } })
          ∧ (s.host.eq.run = false → exec .eqReset s = .next { s with host := { s.host with eq := { s.host.eq with
              resetBit := true, tail := 0, phase := true, head := 0, ring := [], unsignalled := 0, unsignalledAt := none } } })
          ∧ (∀ w, (bitAt w 32 = false → exec (.hostViolSuspectClear w) s = .next s)
            ∧ (bitAt w 32 = true → ∃ u, exec (.hostViolSuspectClear w) s = .next u ∧ u.host.suspect = false ∧ u.host.viol = 0
              ∧ u = { s with host := { s.host with suspect := false, viol := 0, violWin := u.host.violWin } })))

/-- COMMAND_FETCH (R387, R388, R393), COMPLETION_POST (R391, R392, R394), INTERRUPT_COALESCE_TIMER (R395) and
HOST_MEMORY_COMPLETION (R391, R425, R426); log entry 33. -/
def Obligations.CommandsAreFetchedStartedAndPosted : Prop :=
  ∀ (s : State), s.host.rings.length = 16 → s.brassRuns = true →
    (∀ r < 16, s.host.ringsOpen = true → s.host.round < 16 →
        let places := fun (k : Nat) => (k + 16 - s.host.round) % 16
        ((s.ring r).run = false → exec (.commandFetch r) s = .next s)
          ∧ (∀ k < 16, s.fetchable k = true → places k < places r → exec (.commandFetch r) s = .next s)
          ∧ ((s.ring r).run = true → s.slotFree r = true → s.ringGuest r = none →
            let x := s.ring r
            let v := s.advanceTo s.host.fetchAt
            let c := decodeCmd r (kvGet x.sq x.sqHead.toNat 0)
            let z : CmdSlot := { cmd := c, ph := .held }
            let starts := ∀ k ∈ s.host.slots, sameRing k z = true → k.cmd.order = false ∧ c.order = false
            (x.sqHead = x.sqTail → exec (.commandFetch r) s = .next s)
              ∧ (x.sqHead ≠ x.sqTail → (∀ k < 16, s.fetchable k = true → places r ≤ places k) →
                ∃ u, exec (.commandFetch r) s = .next u ∧ (u.ring r).sqHead = x.sqHead + 1
                ∧ u.host.slots.length = s.host.slots.length + 1
                ∧ u.time = v.time ∧ u.host.round = (r + 1) % 16 ∧ u.host.fetchAt = v.time.now + ns 125
                ∧ (s.tagTaken c = true → Ends u c { status := St.rejected, reason := Rs.tagInUse, dupTag := true })
                ∧ (s.tagTaken c = false →
                  (starts → v.startRefusal c = none → { z with ph := .started, startAt := v.time.invar } ∈ u.host.slots)
                    ∧ (∀ st rs, starts → v.startRefusal c = some (st, rs) → Ends u c { status := st, reason := rs })
                    ∧ (¬ starts → z ∈ u.host.slots)))))
      ∧ (∀ r tag, (s.host.slots.find? fun k => k.cmd.ring = r && k.cmd.tag = tag && k.ph = .finished) = none →
        exec (.completionPost r tag) s = .next s)
      ∧ (∀ r tag z, (s.host.slots.find? fun k => k.cmd.ring = r && k.cmd.tag = tag && k.ph = .finished) = some z →
        z.retSent = none →
        let post := exec (.completionPost r tag) s
        let x := s.ring r
        let entry := complBytes x r z.cmd z.compl
        let index := x.cqAddr.toNat * 4096 + 32 * x.cqTail.toNat
        let image := if x.cqEnable = true ∧ s.hostReach = true then [(w64 index, entry)] else []
        let posted := fun (u : State) => (u.ring r).cq = kvPut x.cq x.cqTail.toNat (BitVec.ofNat 256 (natLE entry))
          ∧ (u.ring r).cqTail = x.cqTail + 1 ∧ (u.ring r).cqPhase = (if x.cqTail + 1 = 0 then !x.cqPhase else x.cqPhase)
          ∧ u.host.slots.length + 1 = s.host.slots.length
        (r < 16 → z.cmd.origin = none → z.cmd.guest = none →
            (x.full = true → post = .next s)
              ∧ (x.full = false → z.ret = [] → ∃ u, post = .next u ∧ posted u ∧ u.mem = s.mem
                ∧ ((x.cqEnable = false ∨ s.hostReach = true) → u.out.host = s.out.host ++ image))
              ∧ (x.full = false → z.ret ≠ [] → z.cmd.devAddr = false → s.hostReach = true → ∃ u, post = .next u ∧ posted u
                ∧ u.mem = s.mem ∧ u.out.host = s.out.host ++ [(z.cmd.ret, z.ret)] ++ image)
              ∧ (x.full = false → z.ret ≠ [] → z.cmd.devAddr = true → z.cmd.ret.toNat + z.ret.length ≤ 2 ^ 56 →
                pkgOf z.cmd.ret.toNat = s.self → ∀ q, (writeOwn (localOf z.cmd.ret.toNat) 9 z.ret).result s = (.ok (), q) →
                ∃ u, post = .next u ∧ u.mem = q.mem))
          ∧ (∀ pkg txn, z.cmd.origin = some (pkg, txn) →
            post = .next ((s.respond { replyOf z.cmd z with dst := pkg, txn := txn }).freeSlot z))
          ∧ (∀ g, z.cmd.origin = none → z.cmd.guest = some g → z.ret = [] → post = .next ((s.replyGuest g z).freeSlot z)))
      ∧ (∀ r < 16,
        let x := s.ring r
        ((x.unsignalledAt = none ∨ x.irqEn = false ∨ x.coalUs = 0) → exec (.interruptCoalesceTimer r) s = .next s)
          ∧ (∀ a, x.unsignalledAt = some a → x.irqEn = true → x.coalUs ≠ 0 → ∃ u, exec (.interruptCoalesceTimer r) s = .next u
            ∧ u.time.now = max s.time.now (a + us x.coalUs.toNat) ∧ (u.ring r).unsignalled = 0 ∧ (u.ring r).unsignalledAt = none
            ∧ (s.host.msixOn = true → bitAt (s.msixEntry x.vector.toNat) 96 = false → u.out.irq = s.out.irq ++ [x.vector])
            ∧ (s.host.msixOn = true → bitAt (s.msixEntry x.vector.toNat) 96 = true →
              u.host.pba = s.host.pba ||| w64 (2 ^ x.vector.toNat) ∧ u.out.irq = s.out.irq)))
      ∧ (let q := s.host.eq
        ∀ a, q.unsignalledAt = some a → q.irqEn = true → q.coalUs ≠ 0 → ∃ u, exec (.interruptCoalesceTimer 16) s = .next u
          ∧ u.time.now = max s.time.now (a + us q.coalUs.toNat) ∧ u.host.eq = { q with unsignalled := 0, unsignalledAt := none }
          ∧ (s.host.msixOn = true → bitAt (s.msixEntry q.vector.toNat) 96 = false → u.out.irq = s.out.irq ++ [q.vector]))
      ∧ (∀ id d, let found := s.host.outReads.find? fun e => e.id = id
        let left := s.host.reads.filter fun e => e.id ≠ id
        (found = none → exec (.hostMemoryCompletion id d) s = .next s)
          ∧ (∀ e, found = some e → ∃ u, exec (.hostMemoryCompletion id d) s = .next u ∧ u.host.reads = left
            ∧ (∀ r tag, e.use = .parameter r tag → ∀ k ∈ s.host.slots, k.cmd.ring = r → k.cmd.tag = tag → k.ph = .started →
              { k with param := some d } ∈ u.host.slots)
            ∧ (∀ r tag t, e.use = .planSource r tag t → ∀ k ∈ s.host.slots, k.cmd.ring = r → k.cmd.tag = tag → k.ph = .started →
              { k with hostGot := kvPut k.hostGot t d } ∈ u.host.slots)
            ∧ (e.use = .bundle → s.bu.busy = true → s.bu.running = 7 → s.bu.out = none →
              let refused := fun (rs : Code) (kib : Nat) => u.bu.out = some { step := 7, outc := outc St.rejected rs, count := kib }
                ∧ u.sec.bundleOk = false ∧ u.sec.seRun = false ∧ u.sec.cobaltRun = false ∧ u.sec.images = [] ∧ u.sec.tileImage = []
                ∧ u.sec.cornisImage = [] ∧ u.host.reads = left
              ((d = .failed ∨ d = .poisoned) → refused Rs.bundleAbort s.bu.kib)
                ∧ ∀ b, d = .good b →
                  let parts := s.bu.fetched ++ [b.take e.len]
                  let kib := ceilDiv (parts.map List.length).sum 1024
                  (b.length < e.len → refused Rs.bundleAbort s.bu.kib)
                    ∧ (e.len ≤ b.length → ∀ rs k, s.partStop parts s.bu.fwLen.toNat = some (rs, k) → refused rs kib)
                    ∧ (e.len ≤ b.length → s.partStop parts s.bu.fwLen.toNat = none → u.bu.fetched = parts
                      ∧ (parts.length = 4 → u.sec.seRun = true) ∧ (parts.length = 5 → u.sec.cobaltRun = true)
                      ∧ (parts.length = 6 → u.sec.tileImage = b.take e.len)
                      ∧ (parts.length < 7 → u.bu.out = none ∧ u.sec.bundleOk = s.sec.bundleOk ∧ ∃ r, u.host.reads = left ++ [r]
                        ∧ r.use = .bundle ∧ r.len = (nextPart parts).2
                        ∧ r.addr = w64 (s.bu.fwAddr.toNat / 4096 * 4096 + (nextPart parts).1))
                      ∧ (parts.length = 7 → u.bu.out = some { step := 7, outc := {}, count := kib } ∧ u.sec.bundleOk = true
                        ∧ u.sec.cornisImage = b.take e.len ∧ u.sec.svnRunning = bnum (bundlePart parts 1) 4 1)))))

/-- FUNCTION_LEVEL_RESET, HOT_RESET, LINK_DOWN (R412), PERST_ASSERT (R412, R497), PERST_DEASSERT (R496), HOST_LINK_UP (R376, R495,
R496) and ENDPOINT_READY (R412); log entry 43. -/
def Obligations.EndpointResetsKeepThePackage : Prop :=
  ∀ (s : State), s.brassRuns = true → s.bu.s0 = true →
    let resets := fun (kind : Nat) (c : Instr) => ∃ u, exec c s = .next u
      ∧ u.host.configReady = false ∧ u.host.barsOn = false ∧ u.host.busMaster = false ∧ u.host.msixOn = false
      ∧ u.host.resetAt = some s.time.now ∧ u.host.linkUp = (s.host.linkUp && decide (kind < 3))
      ∧ u.host.wins = s.host.wins.map (fun w => (false, w.2))
      ∧ u.host.rings = s.host.rings.map (fun x => { x with run := false, cqEnable := false })
      ∧ u.host.eq = { s.host.eq with run := false, enable := false } ∧ u.host.viol = s.host.viol ∧ u.host.suspect = s.host.suspect
      ∧ u.host.reads = [] ∧ (u.events.log.getLast?.map fun e => (e.code, e.items)) = some (Ev.hostReset, [w64 kind])
      ∧ u.mem = s.mem ∧ u.tiles = s.tiles ∧ u.tick = s.tick ∧ u.cornis = s.cornis ∧ u.twin = s.twin ∧ u.time = s.time
      ∧ (∀ e ∈ s.host.reads, ∀ r tag, e.use = .parameter r tag → ∀ k ∈ u.host.slots, k.cmd.ring = r → k.cmd.tag = tag →
          k.ph = .started → k.param = some .failed)
    (s.host.linkUp = true →
        (s.host.configReady = true → resets 1 .functionLevelReset) ∧ resets 2 .hotReset ∧ resets 3 .linkDown)
      ∧ (s.host.linkUp = false → exec .functionLevelReset s = .next s ∧ exec .hotReset s = .next s ∧ exec .linkDown s = .next s)
      ∧ (s.host.perst = false → resets 4 .perstAssert ∧ exec .perstDeassert s = .next s
        ∧ ∃ u, exec .perstAssert s = .next u ∧ u.host.perst = true)
      ∧ (s.host.perst = true → exec .perstAssert s = .next s
        ∧ exec .perstDeassert s = .next { s with host := { s.host with perst := false, resetAt := some s.time.now } }
        ∧ (∀ g w, exec (.hostLinkUp g w) s = .next s) ∧ exec .endpointReady s = .next s)
      ∧ (∀ g w, g ∉ [5, 6, 7] ∨ w ∉ [1, 2, 4] → exec (.hostLinkUp g w) s = .next s)
      ∧ (s.host.perst = false → s.host.linkUp = false → s.bu.refOk = true → ∀ g ∈ [5, 6, 7], ∀ w ∈ [1, 2, 4],
        ∃ u, exec (.hostLinkUp g w) s = .next u
        ∧ u.host = { s.host with linkUp := true, linkGen := BitVec.ofNat 3 g, linkWidth := BitVec.ofNat 3 w }
        ∧ u.time.now = if Config.separateRef = true then s.time.now else max s.time.now (s.bu.refAt + ms 1))
      ∧ (s.host.perst = false → s.host.linkUp = true →
        (s.host.configReady = true → exec .endpointReady s = .next s)
          ∧ (s.host.configReady = false → ∃ u, exec .endpointReady s = .next u
            ∧ u.host = { s.host with configReady := true, barsOn := true, busMaster := true, msixOn := true, resetAt := none }
            ∧ u.time.now = max s.time.now (s.host.resetAt.getD s.time.now + ms 100)))

/-- DOE_DISCOVERY, GET_VERSION, GET_CAPABILITIES, NEGOTIATE_ALGORITHMS, GET_DIGESTS, GET_CERTIFICATE, CHALLENGE (R433) and
GET_MEASUREMENTS (R433, R434); log entry 44. -/
def Obligations.TheMailboxServesSpdm : Prop :=
  ∀ (s : State),
    let spdm : Instr → Nat → Prop := fun c need => (c = .getVersion ∧ need = 0) ∨ (c = .getCapabilities ∧ need = 1)
      ∨ ((∃ p h, c = .negotiateAlgorithms p h) ∧ need = 2)
      ∨ ((c = .getDigests ∨ (∃ k o l, c = .getCertificate k o l) ∨ (∃ k n, c = .challenge k n) ∨ ∃ i g n, c = .getMeasurements i g n) ∧ need = 3)
    let frame := fun (u : State) => u = { s with sec := u.sec, free := u.free, out := { s.out with doe := u.out.doe } }
    let tells := fun (c : Instr) (type : Nat) (payload : List Byte) => ∃ u, exec c s = .next u ∧ frame u
      ∧ u.out.doe = s.out.doe ++ (({} : State).doe type payload).out.doe
    let errs := fun (c : Instr) (code : Nat) => ∃ u, exec c s = .next u ∧ frame u ∧ u.sec.errors = s.sec.errors + 1
      ∧ u.sec.requests = s.sec.requests ∧ u.out.doe = s.out.doe ++ (({} : State).doe 1 ([0x13, 0x7F] ++ bytesLE 1 code ++ [0])).out.doe
    let serves := fun (c : Instr) (payload : State → List Byte) => ∃ u, exec c s = .next u ∧ frame u ∧ u.sec.errors = s.sec.errors
      ∧ u.sec.requests = s.sec.requests + 1 ∧ u.out.doe = s.out.doe ++ (({} : State).doe 1 (payload u)).out.doe
    let size := s.chain.length
    let blocks := fun i : Nat => if i = 0 then [] else if i = 0xFF then s.measureBlocks else s.measureBlock i
    let measured := fun i : Nat => [0x13, 0x60] ++ bytesLE 1 (if i = 0 then 8 else 0) ++ [0]
      ++ bytesLE 1 (if i = 0 then 0 else if i = 0xFF then 8 else 1) ++ bytesLE 3 (blocks i).length ++ blocks i ++ s.nonce.1
      ++ [0, 0] ++ List.replicate 8 0
    (s.mailbox = false → (∀ i, exec (.doeDiscovery i) s = .next s) ∧ ∀ c n, spdm c n → exec c s = .next s)
      ∧ (s.mailbox = true →
        (tells (.doeDiscovery 0) 0 [1, 0, 0, 1] ∧ tells (.doeDiscovery 1) 0 [1, 0, 1, 0]
            ∧ ∀ i, i ≠ 0 → i ≠ 1 → tells (.doeDiscovery i) 0 [0xFF, 0xFF, 0, 0])
          ∧ (s.sec.seRun = false → ∀ c n, spdm c n → errs c 3)
          ∧ (s.sec.seRun = true →
            (∀ c n, spdm c n → s.sec.negotiated < n → errs c 4)
              ∧ serves .getVersion (fun _ => [0x10, 0x04, 0, 0, 0, 1, 0x00, 0x13])
              ∧ (1 ≤ s.sec.negotiated → ∃ b : List Byte, serves .getCapabilities
                  (fun _ => [0x13, 0x61, 0, 0, 0] ++ b.take 1 ++ [0, 0] ++ bytesLE 4 0x16 ++ b.drop 1))
              ∧ (2 ≤ s.sec.negotiated →
                serves (.negotiateAlgorithms true true) (fun _ => [0x13, 0x63, 0, 0] ++ bytesLE 2 36 ++ [1, 0] ++ bytesLE 4 0x4
                    ++ bytesLE 4 0x80 ++ bytesLE 4 0x2 ++ List.replicate 16 0)
                  ∧ ∀ p h, (p && h) = false → errs (.negotiateAlgorithms p h) 1)
              ∧ (3 ≤ s.sec.negotiated →
                serves .getDigests (fun _ => [0x13, 0x01, 1, 1] ++ digestBytes (sha384 s.chain))
                  ∧ (∀ off len, if off < size then serves (.getCertificate 0 off len) (fun _ =>
                      [0x13, 0x02, 0, 0] ++ bytesLE 2 (min len (size - off)) ++ bytesLE 2 (size - off - min len (size - off))
                        ++ (s.chain.drop off).take len)
                    else errs (.getCertificate 0 off len) 1)
                  ∧ (∀ k off len, k ≠ 0 → errs (.getCertificate k off len) 1) ∧ (∀ k n, k ≠ 0 → errs (.challenge k n) 1)
                  ∧ (∀ n, let bytes := [0x13, 0x03, 0, 1] ++ digestBytes (sha384 s.chain) ++ s.nonce.1 ++ [0, 0] ++ List.replicate 8 0
                    serves (.challenge 0 n) (fun _ => bytes ++ ecdsaSign s.aliasKey
                      (sha384 (s.sec.transcript ++ ([0x13, 0x83, 0, 0] ++ bytesLE 32 n.toNat) ++ bytes))))
                  ∧ (∀ i g n, 8 < i → i ≠ 0xFF → errs (.getMeasurements i g n) 1)
                  ∧ (∀ i n, i ≤ 8 ∨ i = 0xFF → serves (.getMeasurements i false n) (fun _ => measured i)
                    ∧ serves (.getMeasurements i true n) (fun _ => measured i ++ ecdsaSign s.aliasKey
                      (sha384 (s.sec.transcript ++ ([0x13, 0xE0, 1] ++ bytesLE 1 i ++ bytesLE 32 n.toNat) ++ measured i)))))))

/-- POWER_STAGE_START, INPUT_FAULT_STOP (R437), POWER_GOOD, REFERENCE_VALID (R496), REFERENCE_LOSS (R494, R495), BRASS_FAULT (R25)
and THERMTRIP_RELEASE (R498); log entries 4 and 51. -/
def Obligations.PowerAndReferenceStartAndStopThePackage : Prop :=
  ∀ (s : State),
    let inS0 := fun (u : State) => u.bu.s0 = true ∧ kvGet u.bu.results 0 (1, 1, 1, 1) = (St.ok, 0, 0, 0)
      ∧ (s.host.eq.enable = false → (u.events.log.getLast?.map fun e => e.code) = some Ev.bringupStep) ∧ u.mem = s.mem ∧ u.tiles = s.tiles
    let off := fun (u : State) => u.bu = { ({} : BringUp) with refOk := s.bu.refOk, refAt := s.bu.refAt } ∧ u.brassRuns = false
      ∧ u.mem = [] ∧ u.host.linkUp = false ∧ u.host.perst = s.host.perst ∧ u.time.now = s.time.now ∧ u.sec.svnBlown = s.sec.svnBlown
      ∧ u.pending = s.pending
      ∧ (∀ t r, r ∈ (u.tile t).mem.repairs → r.2.2.2.2 = true)
      ∧ ∀ e ∈ s.tiles, (∃ r ∈ e.2.mem.repairs, r.2.2.2.2 = true) → (e.1, e.2.fusedOnly) ∈ u.tiles
    (s.bu.powered = true → exec .powerStageStart s = .next s)
      ∧ (s.bu.powered = false → ∃ u, exec .powerStageStart s = .next u ∧ u.bu = { s.bu with powered := true }
        ∧ u.time.now = s.time.now + ms 10 ∧ exec .inputFaultStop s = .next s)
      ∧ (s.brassRuns = true →
        (s.bu.good = true → exec .powerGood s = .next s)
          ∧ (s.bu.good = false →
            (s.bu.refOk = true → ∃ u, exec .powerGood s = .next u ∧ u.bu.good = true ∧ inS0 u)
              ∧ (s.bu.refOk = false → exec .powerGood s = .next { s with bu := { s.bu with good := true } })))
      ∧ (s.bu.refOk = true → exec .referenceValid s = .next s)
      ∧ (s.bu.refOk = false → exec .referenceLoss s = .next s
        ∧ (s.brassRuns = true → s.bu.good = true → s.bu.s0 = false →
          ∃ u, exec .referenceValid s = .next u ∧ u.bu.refOk = true ∧ u.bu.refAt = s.time.now ∧ inS0 u)
        ∧ (s.bu.good = false → exec .referenceValid s = .next { s with bu := { s.bu with refOk := true, refAt := s.time.now } }))
      ∧ (s.bu.refOk = true → s.brassRuns = true → s.bu.s0 = true → ∃ u, exec .referenceLoss s = .next u
        ∧ u.bu.refOk = false ∧ u.bu.refLost = true ∧ u.bu.done = s.bu.done ∧ u.clocksRun = false
        ∧ (∀ t < 1536, (s.tile t).unit ≠ .absent → (u.tile t).unit = .halted)
        ∧ (∀ st < 24, s.stackState st ≠ .absent → u.stackState st = .halted) ∧ u.units.package = .halted
        ∧ (∀ p < 9, (u.port p).up = false) ∧ (∀ g < 2, (s.guest g).state ≠ .absent → (u.guest g).state = .reset)
        ∧ u.host.linkUp = (s.host.linkUp && Config.separateRef)
        ∧ (s.host.linkUp = false → s.host.eq.enable = false →
          (u.events.log.getLast?.map fun e => (e.code, e.items)) = some (Ev.refclkLost, [s.time.invar])))
      ∧ (exec .brassFault s = .next { s with bu := { s.bu with brassOk := false } }
        ∧ ({ s with bu := { s.bu with brassOk := false } } : State).clocksRun = false)
      ∧ (s.bu.powered = true → (∃ u, exec .inputFaultStop s = .next u ∧ off u ∧ u.therm = { ({} : ThermState) with trip := s.therm.trip, tripHw := s.therm.tripHw })
        ∧ ∃ u, exec .thermtripRelease s = .next u ∧ off u ∧ u.therm = {})
      ∧ (s.bu.powered = false → exec .thermtripRelease s = .next { s with therm := { s.therm with trip := false, tripHw := false } })

/-- BRINGUP_S1 to BRINGUP_S13 (R418, R421): what starts a step and what each does; log entries 48 and 49. -/
def Obligations.BringUpStepsRunInOrderAndDoTheirWork : Prop :=
  ∀ (s : State), s.barOpen = true →
    let step : Nat → Instr → Prop := fun k c => (k = 1 ∧ ∃ p b g, c = .bringupS1 p b g) ∨ (k = 2 ∧ ∃ b l, c = .bringupS2 b l)
      ∨ (k = 3 ∧ ∃ f, c = .bringupS3 f) ∨ (k = 4 ∧ ∃ l, c = .bringupS4 l) ∨ (k = 5 ∧ ∃ l, c = .bringupS5 l)
      ∨ (k = 6 ∧ c = .bringupS6) ∨ (k = 7 ∧ c = .bringupS7) ∨ (k = 8 ∧ ∃ l, c = .bringupS8 l)
      ∨ (k = 9 ∧ ∃ a b d e, c = .bringupS9 a b d e) ∨ (k = 10 ∧ c = .bringupS10) ∨ (k = 11 ∧ c = .bringupS11)
      ∨ (k = 12 ∧ c = .bringupS12) ∨ (k = 13 ∧ c = .bringupS13)
    let refuse := fun (r : Code) => { s with bu := { s.bu with refusal := r } }
    (∀ k c, step k c →
        (k ≠ s.bu.done + 1 → exec c s = .next (refuse Rs.outOfOrder))
          ∧ (k = s.bu.done + 1 → s.bu.busy = true → exec c s = .next (refuse Rs.stepBusy))
          ∧ (k = s.bu.done + 1 → s.bu.busy = false → s.bu.failed = true → exec c s = .next (refuse Rs.outOfOrder)))
      ∧ (s.bu.busy = false → s.bu.failed = false →
        let next := fun (k : Nat) (c : Instr) (p : State → Prop) => s.bu.done + 1 = k → ∃ u, exec c s = .next u ∧ p u
        let ends := fun (u : State) (o : Outc) => u.bu.out.map (·.outc) = some o
        let lastUp := fun (u : State) => u.tilesUp = [] → ends u (outc St.aborted Rs.noTiles)
        (∀ k c, step k c → next k c fun u => u.bu.busy = true ∧ u.bu.running = k ∧ u.bu.done = s.bu.done ∧ u.bu.go = w64 k
            ∧ u.bu.startAt = s.time.now ∧ u.time.now = s.time.now
            ∧ (k ≠ 1 → s.bu.refLost = true → ends u (outc St.aborted Rs.refLock)))
          ∧ (∀ lock bad g, next 1 (.bringupS1 lock bad g) fun u =>
            ((lock = false ∨ s.bu.refOk = false) → ends u (outc St.aborted Rs.refLock) ∧ u.time = s.time)
              ∧ (lock = true → s.bu.refOk = true → s.rearmed = false → ends u (outc St.rejected Rs.notRearmed) ∧ u.time = s.time)
              ∧ (lock = true → s.bu.refOk = true → s.rearmed = true → u.time.invar = s.bu.seed
                ∧ u.bu.out = some { step := 1, outc := { status := if s.badClocks bad = [] then St.ok else St.partial },
                                    count := bad.dedup.length }
                ∧ ∀ st ∈ s.badClocks bad, u.stackState st = .removed))
          ∧ (s.bu.refLost = false → s.therm.halted = false →
            (∀ bad links, next 2 (.bringupS2 bad links) fun u => ∀ st ∈ s.aliveOf bad, u.stackState st = .removed)
              ∧ (∀ f, next 3 (.bringupS3 f) fun u =>
                (f.brassOk = false → ends u (outc St.aborted Rs.fuseCheck))
                  ∧ (f.brassOk = true → (∀ t ∈ f.tilesOff, t < 1536 → (u.tile t).unit = .absent)
                    ∧ (∀ st ∈ f.stacksOff, st < 24 → u.stackState st = .absent)
                    ∧ u.sec.svnFused = max f.svnMin s.sec.svnBlown ∧ u.bu.fuses = f))
              ∧ (∀ t < 1536, ∀ l < 16, ∀ conns : List Nat, conns.Nodup → (∀ x ∈ conns, x < 70) → s.bu.fuses.connsFailed = [] →
                s.stackAlive (t / 64) = true → ((s.tile t).channel l).state = 0 →
                next 4 (.bringupS4 [(t, l, conns)]) fun u =>
                  let c := (u.tile t).channel l
                  (∀ a, conns = [a] → c.spare68.toNat = a ∧ c.failed = 1 ∧ c.state = 0)
                    ∧ (∀ a b, conns = [a, b] → a < b → c.spare68.toNat = a ∧ c.spare69.toNat = b ∧ c.failed = 2 ∧ c.state = 0)
                    ∧ (2 < conns.length → c.state = 1 ∧ c.cause = 2 ∧ ends u { status := St.partial }))
              ∧ (∀ rows, next 5 (.bringupS5 rows) fun u => u.mem = [] ∧ (∀ e ∈ u.tiles, e.2.mem.poison = [] ∧ e.2.mem.regions = []))
              ∧ (next 6 .bringupS6 fun u => lastUp u ∧ ∀ t < 1536, s.stackAlive (t / 64) = true → (s.tile t).unit = .starting →
                if (s.tile t).mappedOut.length = 16 then (u.tile t).unit = .removed
                else (u.tile t).unit = .ready ∨ (u.tile t).unit = .degraded)
              ∧ (next 7 .bringupS7 fun u =>
                let r : HostRead := ⟨s.host.nextRead, w64 (s.bu.fwAddr.toNat / 4096 * 4096), 64, .bundle⟩
                (s.hostReach = false → ends u (outc St.rejected Rs.bundleAbort))
                  ∧ (s.hostReach = true → s.bu.fwLen.toNat < 64 → ends u (outc St.rejected Rs.fwFormat))
                  ∧ (s.hostReach = true → 64 ≤ s.bu.fwLen.toNat → u.bu.fetched = [] ∧ u.host.reads = s.host.reads ++ [r]))
              ∧ (∀ bad, next 8 (.bringupS8 bad) fun u => lastUp u ∧ (∀ t ∈ bad, s.tileUp t = true → (u.tile t).unit = .removed)
                ∧ ∀ t, s.tilesUp = [t] → u.mem = cellWrite s.mem ((s.tile t).reservedAt t) s.sec.tileImage)
              ∧ (∀ bad us cs gs, next 9 (.bringupS9 bad us cs gs) fun u => lastUp u
                ∧ ∀ t ∈ bad, s.tileUp t = true → s.stackUp (t / 64) = true → (u.tile t).unit = .removed)
              ∧ (next 10 .bringupS10 fun u => (s.bu.pkgValid = false → ends u (outc St.rejected Rs.noPackageNum))
                ∧ (s.bu.pkgValid = true → u.cornis.self = s.bu.pkg.toNat ∧ u.bu.pkgLocked = true ∧ u.cornis.trained = true
                  ∧ (s.sec.linkImageOk = true → u.cornis.image = s.sec.cornisImage)))
              ∧ (next 11 .bringupS11 fun u => u.twin.waiting = true)
              ∧ (next 13 .bringupS13 fun u => u.bu.ready = true ∧ u.host.ringsOpen = true
                ∧ (s.twin.state = .unpaired → u.twin.state = .solo)
                ∧ (∀ t, s.tileUp t = true → s.stackUp (t / 64) = true → (u.tile t).pewter.hint = 0x888))))

/-- BRINGUP_STEP_END, BRINGUP_STEP_LIMIT (R419, R421), PACKAGE_RESET (R417, R420, R431) and PACKAGE_RESET_END (R431); log entries
43 and 48. -/
def Obligations.BringUpStepsEndAndThePackageIsReset : Prop :=
  ∀ (s : State),
    let b := s.bu
    let k := b.running
    let soFar := if k = 7 then b.kib else if k = 10 then s.portsUp else 0
    let ended := fun (u : State) (o : Outc) (count at_ : Nat) =>
      kvGet u.bu.results k (0, 0, 0, 0) = (o.status, o.reason, count % 65536, usBetween b.startAt at_)
        ∧ u.bu.busy = false ∧ u.bu.out = none ∧ u.bu.done = (if o.status = St.ok ∨ o.status = St.partial then k else b.done)
        ∧ u.bu.failed = (b.failed || decide (o.status = St.aborted)) ∧ u.mem = s.mem ∧ u.tiles = s.tiles
    (s.brassRuns = true → b.busy = true → b.resetting = false →
        (∀ o, b.out = some o → o.step = k → ∃ u, exec .bringupStepEnd s = .next u ∧ ended u o.outc o.count s.time.now)
          ∧ (b.out = none → b.refLost = true → ∃ u, exec .bringupStepEnd s = .next u ∧ ended u (outc St.aborted Rs.refLock) soFar s.time.now)
          ∧ (b.out = none → b.refLost = false → s.therm.halted = false →
            (k ∉ [10, 11, 12] → exec .bringupStepEnd s = .next s)
              ∧ (k = 12 → (s.time.locked = false → exec .bringupStepEnd s = .next s)
                ∧ (s.time.locked = true → ∃ u, exec .bringupStepEnd s = .next u ∧ ended u {} s.time.hops s.time.now))
              ∧ (k = 11 → (s.twin.waiting = true → exec .bringupStepEnd s = .next s)
                ∧ (s.twin.waiting = false → ∃ u, exec .bringupStepEnd s = .next u
                  ∧ ended u {} (if s.twin.state = .paired then 1 else 0) s.time.now))
              ∧ (k = 10 → ((∃ p < 9, (s.port p).state = .training) → exec .bringupStepEnd s = .next s)
                ∧ ((∀ p < 9, (s.port p).state ≠ .training) → ∃ u o, exec .bringupStepEnd s = .next u ∧ ended u o s.portsUp s.time.now
                  ∧ (o.status = St.ok ∨ o.status = St.partial) ∧ u.time.treeOn = true ∧ u.time.root = s.self
                  ∧ ((∀ p < 9, (s.port p).up = true) → (∀ g < 16, (s.cornis.groups[g]?).map (·.state) = some .out → g ∈ b.outBefore) → o.status = St.ok)
                  ∧ ((∃ g < 16, (s.cornis.groups[g]?).map (·.state) = some .out ∧ g ∉ b.outBefore) → o.status = St.partial)
                  ∧ ((∃ p < 9, s.portGroups p ≠ [] ∧ (s.port p).up = false) → o.status = St.partial))))
          ∧ (b.out = none →
            let limit := b.startAt + ms (([0, 10, 50, 5, 20, 500, 1, 2000, 100, 2000, 500, 2000, 5000, 10][k]?).getD 0)
            let last := max s.time.now limit
            let limited := fun (o : Outc) (n : Nat) => ∃ u, exec .bringupStepLimit s = .next u ∧ ended u o n last ∧ u.time.now = last
              ∧ u.twin.waiting = false
            (k = 11 → s.twin.waiting = true → limited (outc St.partial Rs.twinAbsent) 0)
              ∧ (k = 12 → s.time.locked = false → limited (outc St.partial Rs.notLocked) s.time.hops)
              ∧ (k ≠ 11 → k ≠ 12 → ∃ r, limited (outc St.aborted r) soFar)))
      ∧ (b.busy = false → exec .bringupStepEnd s = .next s ∧ exec .bringupStepLimit s = .next s)
      ∧ (∀ w, (s.barOpen = false → exec (.packageReset w) s = .next s)
        ∧ (s.barOpen = true → bitsOf w 7 0 ≠ 0x5A →
          exec (.packageReset w) s = .next { s with bu := { s.bu with resetKey := w64 (bitsOf w 7 0) } })
        ∧ (s.barOpen = true → bitsOf w 7 0 = 0x5A → ∃ u, exec (.packageReset w) s = .next u
          ∧ u.mem = [] ∧ u.units = {} ∧ u.events = {} ∧ u.host.rings = ({} : HostState).rings ∧ u.host.slots = []
          ∧ u.host.linkUp = s.host.linkUp ∧ u.host.configReady = s.host.configReady ∧ u.host.barsOn = s.host.barsOn
          ∧ u.cornis = {} ∧ u.twin = {} ∧ u.time.now = s.time.now
          ∧ u.bu.pkg = b.pkg ∧ u.bu.pkgValid = b.pkgValid ∧ u.bu.fwAddr = b.fwAddr ∧ u.bu.fwLen = b.fwLen ∧ u.bu.seed = b.seed
          ∧ u.bu.done = 0 ∧ u.bu.busy = true ∧ u.bu.ready = false ∧ u.bu.failed = false ∧ u.bu.resetting = true
          ∧ (∀ t r, r ∈ (u.tile t).mem.repairs → r.2.2.2.2 = true)
          ∧ (∀ i, (kvGet u.therm.diodes i {}).tripped = true → ∃ e ∈ s.therm.diodes, e.1 = i ∧ e.2.tripped = true)))
      ∧ (b.resetting = false → exec .packageResetEnd s = .next s)
      ∧ (s.brassRuns = true → b.resetting = true → ∃ u, exec .packageResetEnd s = .next u ∧ u.bu.busy = false
        ∧ u.bu.resetting = false ∧ u.bu.done = b.done ∧ u.mem = s.mem ∧ u.tiles = s.tiles)

/-- POWER_SAMPLE (R437, R438), PWR_STAGE_FAULT, STAGE_RETRY (R439), POWER_RATIO_COMPUTE (R442), LIMITER_SAMPLE (R443), DROOP_ENTRY,
DROOP_EXIT (R449), MARGIN_READING (R450), FILL_ZERO (R451) and FILL_CUTOFF (R452); log entry 46. -/
def Obligations.PowerIsMeasuredCappedAndLimited : Prop :=
  ∀ (s : State),
    let p := s.power
    let runs := fun x : PwrStage => decide (x.state = 0)
    let left := fun (u : State) => min (min (if u.power.band = 1 then u.power.vinSum * 80 / 120000 else 360)
      (min 360 (((List.range 12).filter u.stageCounts).length * 330000 / 9390))) u.fac.limit
    (∀ l : List StageReport, l.length = 12 → s.telemetry = true → p.stages.length = 12 →
        let uw := (l.map fun r => r.vin * r.iin).sum
        let mv := (l.map (·.vin)).sum
        let samples := (uw / 1000000 :: p.samples).take 10
        ∃ u, exec (.powerSample l) s = .next u ∧ u.power.watts = samples.sum / samples.length ∧ u.power.samples = samples
          ∧ u.power.energyIn = (p.energyIn + (p.energyFrac + 10 * uw) / 1000000) % 2 ^ 64
          ∧ u.power.band = (if mv < 12 * 45000 then 1 else if 12 * 56000 < mv then 2 else 0) ∧ u.power.ceiling = left u
          ∧ u.mem = s.mem ∧ u.tiles = s.tiles)
      ∧ (∀ k < 12, ∀ cause x, s.bu.powered = true → p.stages[k]? = some x → x.state = 0 →
        let again := ∃ a, x.faultAt = some a ∧ s.time.now < a + ms 10000
        (4 < (p.stages.filter runs).length → ∃ u, exec (.pwrStageFault k cause) s = .next u
            ∧ (u.power.stages[k]?).map (·.state) = some (if again then 2 else 1) ∧ u.power.ceiling = left u ∧ u.bu.powered = true)
          ∧ ((p.stages.filter runs).length ≤ 4 → ∃ u, exec (.pwrStageFault k cause) s = .next u ∧ u.bu.powered = false ∧ u.mem = []))
      ∧ (∀ k < 12, ∀ x, p.stages[k]? = some x →
        (x.state ≠ 1 → exec (.stageRetry k) s = .next s)
          ∧ (s.bu.powered = true → x.state = 1 → ∃ u, exec (.stageRetry k) s = .next u
            ∧ (u.power.stages[k]?).map (·.state) = some 0 ∧ u.time.now = max s.time.now (x.faultAt.getD 0 + ms 100)
            ∧ u.power.ceiling = left u))
      ∧ (s.clocksRun = true → s.ready = true → s.tick.running = true → s.therm.halted = false →
        let f := 10 * (s.tick.forecast[1]?).getD 42
        let f := if p.useMeasured = true then max f p.lastStepW else f
        let c := s.effCap
        ∃ u, exec .powerRatioCompute s = .next u
          ∧ u.power.ratio = (if f ≤ c then 0 else min 900 ((1000 * (f - c) + (f - 420) - 1) / (f - 420)))
          ∧ u.tick.paceRatio = max u.power.ratio s.therm.ratio
          ∧ u = { s with power := u.power, tick := u.tick })
      ∧ (s.telemetry = true →
        let c := s.effCap
        let x := min (c * (100 + min 20 p.pct.toNat) / 100) 3960
        ∃ u, exec .limiterSample s = .next u
          ∧ (x < p.watts → c ≤ x → u.power.stretch = min 16 (p.stretch + 1) ∧ u.power.underUs = 0)
          ∧ (c < p.watts → p.watts ≤ x → u.power.stretch = p.stretch)
          ∧ (p.watts ≤ c → c ≤ x → u.power.underUs = p.underUs + 10
            ∧ u.power.stretch = if 1000 ≤ u.power.underUs ∧ (u.power.underUs - 1000) % 100 = 0 then p.stretch - 1 else p.stretch)
          ∧ u.power.usLimited = (if u.power.stretch = 0 then p.usLimited else p.usLimited + 10)
          ∧ u.tiles = (if u.power.stretch = 0 ∧ p.stretch = 0 then s.tiles else s.tiles.map fun e => (e.1, s.rebase e.2))
          ∧ (∀ y : Tile, s.slow y = 16 → (s.rebase y).activity = y.activity)
          ∧ (∀ y : Tile, s.slow y ≠ 16 → y.unit.inService = true →
            kvGet (s.rebase y).activity 23 0 = kvGet y.activity 23 0 + w64 (s.coreNow y / 10 - y.core / 10))
          ∧ u.mem = s.mem)
      ∧ (∀ t, s.tileUp t = true → ∃ u, exec (.droopEntry t) s = .next u ∧ (u.tile t).droopEvents = (s.tile t).droopEvents + 1
        ∧ (u.tile t).droopSince = some ((s.tile t).droopSince.getD s.time.now) ∧ u.mem = s.mem)
      ∧ (∀ t, s.tileUp t = true →
        ((s.tile t).droopSince = none → exec (.droopExit t) s = .next s)
          ∧ ((s.tile t).droopSince ≠ none → exec (.droopExit t) s =
            .next (s.modTile t fun x => { s.rebase x with droopSince := none })))
      ∧ (∀ l : List Nat, s.clocksRun = true → s.ready = true → s.therm.halted = false →
        ∃ u, exec (.marginReading l) s = .next u ∧ u.mem = s.mem ∧ u.tiles = s.tiles
          ∧ ∀ st < 24, ∀ slack r, l[st]? = some slack → p.rails[st]? = some r → s.stackUp st = true →
            ∃ q, u.power.rails[st]? = some q ∧ q.slack = slack ∧ q.mv = r.mv
              ∧ (slack < 50 → r.mv < r.maxMv → q.move = 5) ∧ (slack < 50 → r.maxMv ≤ r.mv → q.exhausted = true)
              ∧ (80 < slack → 3599 ≤ r.above → r.minMv < r.mv → q.move = -5)
              ∧ (50 ≤ slack → slack ≤ 80 → q.move = r.move ∧ q.above = 0))
      ∧ (∀ t, s.tileUp t = true →
        ((s.tile t).fill = none → exec (.fillZero t) s = .next s)
          ∧ ((s.tile t).fill ≠ none → ∃ u, exec (.fillZero t) s = .next u ∧ (u.tile t).fill = none))
      ∧ (s.clocksRun = true → ∃ u, exec .fillCutoff s = .next u ∧ (∀ t, (u.tile t).fill = none) ∧ u.mem = s.mem
        ∧ ∀ a, s.nextTickAt = some a → a < 2 ^ 64 → u.time.invar.toNat = max s.time.invar.toNat (a - 1000))

/-- DIODE_SAMPLE (R295, R457 to R460, R463, R465, R469 to R473), GRACE_DEADLINE (R466), THROTTLE_REVIEW (R467, R469) and
SHUTDOWN_DEADLINE (R471); log entry 50. -/
def Obligations.DiodesThrottleAndShutDown : Prop :=
  ∀ (s : State),
    let x := s.therm
    (s.facOpen = true → x.decided = false → x.halted = false → ∀ r : DiodeReading, r.index < 421 →
        let i := r.index
        let k := s.threshFor (dieType i)
        let calm := fun d : Diode => d.failed = false ∧ d.disagree = false ∧ d.state = .normal ∧ d.warm = false ∧ d.recent = []
        let sample := exec (.diodeSample [r]) s
        ((∀ e ∈ x.diodes, calm e.2 ∧ e.2.sdRun = 0 ∧ e.2.hwRun = 0) → x.stage = 0 → x.flowCause = false → x.inletCause = false →
            ((r.ok = false ∨ r.temp < -320 ∨ 2400 < r.temp) → ∃ u, sample = .next u ∧ (u.diode i).failed = true
                ∧ (u.diode i).estimated = true ∧ u.mem = s.mem)
              ∧ (r.ok = true → -320 ≤ r.temp → r.temp ≤ 2400 → ∃ u, sample = .next u
                ∧ (u.diode i).temp = r.temp ∧ (u.diode i).failed = false ∧ u.mem = s.mem
                ∧ (u.diode i).state = (if deg k.thr ≤ r.temp then .throttle else if deg k.warn ≤ r.temp then .warning else .normal)
                ∧ (24 ≤ i → i < 408 → kvGet x.bands (i - 24) 0 = 0 → kvGet u.therm.bands (i - 24) 0 =
                    if 1520 < r.temp then 2 else if 1360 < r.temp then 1 else 0)
                ∧ ((r.temp < deg k.thr ∨ 408 < i) → u.therm.stage = 0)
                ∧ (i ≤ 408 → deg k.thr ≤ r.temp → s.cobaltActs = true →
                  let p := if x.means.isEmpty then s.power.watts else x.means.sum / x.means.length
                  u.therm.stage = 1 ∧ u.therm.fraction = 100 ∧ u.therm.pRef = p ∧ u.therm.targetW = p * 900 / 1000
                    ∧ u.therm.cause = 1 ∧ u.therm.die = i ∧ u.therm.deadline = s.time.invar.toNat + x.graceMs.toNat * 1000000)))
          ∧ ((∀ e ∈ x.diodes, calm e.2 ∧ (e.1 = i → e.2.sdRun = 1) ∧ e.2.hwRun = 0) → (kvFind x.diodes i).isSome = true → i ≤ 408 →
            r.ok = true → deg k.sd ≤ r.temp → r.temp ≤ 2400 → s.cobaltActs = true → ∃ u, sample = .next u
              ∧ u.therm.decided = true ∧ u.therm.immediate = true ∧ u.therm.halted = true ∧ u.therm.trip = true
              ∧ u.units.package = .halted ∧ u.bu.powered = s.bu.powered)
          ∧ ((∀ e ∈ x.diodes, calm e.2 ∧ (e.1 = i → e.2.hwRun = 1)) → (kvFind x.diodes i).isSome = true → i ≤ 408 → r.ok = true →
            deg k.sd + 80 ≤ r.temp → r.temp ≤ 2400 → s.cobaltActs = false → s.bu.powered = true → ∃ u, sample = .next u
              ∧ u.therm.tripHw = true ∧ u.bu.powered = false ∧ u.mem = []))
      ∧ (s.cobaltActs = true → x.decided = false →
        (x.stage = 1 → let p := s.gracePower
          let r := min 900 ((x.fraction * (if x.gain = 0 then 16 else x.gain.toNat) + 15) / 16)
          ∃ u, exec .graceDeadline s = .next u ∧ u.mem = s.mem
            ∧ (x.deadline < 2 ^ 64 → u.time.invar.toNat = max s.time.invar.toNat x.deadline)
            ∧ (p * 100000 ≤ x.pRef * (1000 - x.fraction) * 101 → u.therm = x)
            ∧ (x.pRef * (1000 - x.fraction) * 101 < p * 100000 → u.therm.stage = 2 ∧ u.therm.ratio = r
              ∧ u.tick.paceRatio = max s.power.ratio r))
          ∧ (x.stage ≠ 1 → exec .graceDeadline s = .next s)
          ∧ (x.stage = 0 → exec .throttleReview s = .next s)
          ∧ (x.stage = 2 → x.halted = false → (x.fraction = 500 ∨ (s.persists = true ∧ x.fraction = 400)) →
            let q := (s.advanceTo x.reviewAt).review
            ∃ u, exec .throttleReview s = .next u
              ∧ (u.therm.decided = true ↔ ∃ e, q.leastTime q.free = some e ∧ e.1 < x.horizonMs.toNat))
          ∧ (x.stage ≠ 0 → (x.stage ≠ 2 ∨ (x.fraction ≠ 500 ∧ ¬ (s.persists = true ∧ x.fraction = 400))) →
            ∃ u, exec .throttleReview s = .next u ∧ u.time.now = max s.time.now x.reviewAt
            ∧ u.therm.reviewAt = x.reviewAt + ms 1000 ∧ u.therm.stage = x.stage ∧ u.therm.decided = false
            ∧ ((s.persists = true → x.fraction < 500 → u.therm.fraction = x.fraction + 100
                ∧ u.therm.targetW = x.pRef * (1000 - u.therm.fraction) / 1000)
              ∧ ((s.persists = false ∨ 500 ≤ x.fraction) → u.therm.fraction = x.fraction ∧ u.therm.targetW = x.targetW))))
      ∧ (s.cobaltActs = true → x.decided = true → x.immediate = false → x.halted = false → x.leaving = false →
        s.twin.leaving = none → s.twin.state.forwards = false → ∃ u, exec .shutdownDeadline s = .next u ∧ u.therm.halted = true
          ∧ u.therm.trip = true ∧ u.units.package = .halted
          ∧ (∀ t < 1536, (s.tile t).unit ≠ .absent → (u.tile t).unit = .halted)
          ∧ (s.allDone = true → u.time = s.time))
      ∧ (x.decided = false → exec .shutdownDeadline s = .next s)

/-- THERMISTOR_SAMPLE (R475, R476, R478), FLOW_TREND_UPDATE (R476, R477), VALVE_REQUEST, REPLY_WINDOW_CLOSE (R481), FLOW_REPORT,
INLET_TEMP_FRAME, PUMP_STATE, ALARM (R479, R482 to R485), FAC_SILENT (R484) and FAC_VIOL_SUSPECT_CLEAR (R487); log entry 52. -/
def Obligations.CoolantFlowAndTheFacilityPortAreFollowed : Prop :=
  ∀ (s : State), s.facOpen = true →
    let f := s.fac
    let coolant := fun (u : State) => u.fac.limit = max 120 (min u.fac.flowLimit u.fac.inletLimit / 10)
    (∀ inlet outlet : Int,
        let rise := outlet - inlet
        let est := 600000 * s.power.watts / ((if f.pg25 = true then 3930 else 4150) * rise.toNat)
        let ests := (est :: f.ests).take 100
        let c := exec (.thermistorSample inlet outlet) s
        (600 ≤ s.power.watts → 100 ≤ rise → ∃ u, c = .next u ∧ u.fac.estValid = true ∧ u.fac.estimated = ests.sum / ests.length)
          ∧ ((s.power.watts < 600 ∨ rise < 100) → ∃ u, c = .next u ∧ u.fac.estValid = false)
          ∧ (∃ u, c = .next u ∧ u.fac.inlet = inlet ∧ u.fac.outlet = outlet ∧ coolant u
            ∧ u.fac.inletLimit = (if 5000 < inlet ∨ 4500 < inlet ∨ (3 ≤ f.inletBand ∧ 4400 < inlet) then 2400
                else if 4000 < inlet then ((360000 - 240 * (inlet - 4000)) / 100).toNat else 3600)
            ∧ u.therm.inletCause = decide (4500 < inlet ∨ (3 ≤ f.inletBand ∧ 4400 < inlet))))
      ∧ (let used := match f.repValid, f.estValid with
            | true, true => some (min f.reported f.estimated)
            | true, false => some f.reported
            | false, true => some f.estimated
            | false, false => none
        let flows := (used :: f.flows).take 100
        let valid := flows.filterMap id
        ∃ u, exec .flowTrendUpdate s = .next u ∧ u.fac.flows = flows ∧ u.fac.trendValid = !valid.isEmpty ∧ coolant u
          ∧ (valid ≠ [] → u.fac.trend = valid.sum / valid.length
            ∧ u.fac.low = decide (u.fac.trend < 500 ∨ (f.low = true ∧ u.fac.trend < 520))
            ∧ u.fac.flowLimit = (if u.fac.low = true then 720 * u.fac.trend / 100 else 3600)
            ∧ u.therm.flowCause = decide (u.fac.trend < 450 ∨ (s.therm.flowCause = true ∧ u.fac.trend < 470)))
          ∧ u.fac.disagree = if f.repValid = true ∧ f.estValid = true ∧ f.reported < 5 * ((f.reported : Int) - f.estimated).natAbs
            then f.disagree + 1 else 0)
      ∧ (f.waiting ≠ [] → exec .valveRequest s = .next s)
      ∧ (f.waiting = [] → ∃ u, exec .valveRequest s = .next u ∧ u.out.fac = s.out.fac ++ [s.facFrame 0x81 s.valvePayload]
        ∧ u.fac.tx = f.tx + 1 ∧ ∀ a, f.txAt = some a → u.time.now = max s.time.now (a + ms 5))
      ∧ (∀ a, f.txAt = some a → ∃ u, exec .replyWindowClose s = .next u ∧ u.time.now = max s.time.now (a + us 2020)
        ∧ (f.waiting = [] → u.out.fac = s.out.fac)
        ∧ ∀ ty p r, f.waiting = (ty, p) :: r → u.out.fac = s.out.fac ++ [s.facFrame ty p] ∧ u.fac.waiting = r)
      ∧ (f.txAt = none → exec .replyWindowClose s = .next s)
      ∧ (∀ l : List Byte, ∀ k c, (k = 1 ∧ c = .flowReport l) ∨ (k = 2 ∧ c = .inletTempFrame l) ∨ (k = 3 ∧ c = .pumpState l)
          ∨ (k = 4 ∧ c = .alarm l) →
        (f.suspect = true → exec c s = .next s)
          ∧ (f.suspect = false → ∀ r, s.facWrong l s.windowOpen = some r → ∃ u, exec c s = .next u ∧ u.fac.viol = f.viol + 1
            ∧ u.fac.rx = f.rx ∧ u.fac.reported = f.reported ∧ u.fac.pump = f.pump)
          ∧ (f.suspect = false → s.facWrong l s.windowOpen = none → bnum l 2 1 = k → ∃ u, exec c s = .next u
            ∧ u.fac.rx = f.rx + 1 ∧ u.fac.active = true ∧ u.fac.viol = f.viol
            ∧ (k = 1 → u.fac.reported = bnum l 6 (bnum l 3 1) % 2 ^ 16 ∧ u.fac.repValid = true)
            ∧ (k = 2 → u.fac.repInlet = signedOf 16 (bnum l 6 (bnum l 3 1)))
            ∧ (k = 3 → u.fac.pump.toNat = bnum l 6 (bnum l 3 1) % 4)
            ∧ (((k = 1 ∧ bnum l 6 (bnum l 3 1) % 2 ^ 16 < 100) ∨ (k = 3 ∧ bnum l 6 (bnum l 3 1) % 4 = 2)) → s.cobaltActs = true →
              s.therm.halted = false → u.therm.flowLost = true ∧ (s.therm.flowLost = false → u.therm.decided = true))
            ∧ ((k = 2 ∨ k = 4) → u.therm = s.therm)))
      ∧ (∀ l : List Byte, l.length < 8 → ∀ w, s.facWrong l w = some Rs.facBadCrc)
      ∧ (∀ l : List Byte, s.facWrong l false ≠ none)
      ∧ (f.active = false → exec .facSilent s = .next s)
      ∧ (f.active = true → ∃ u, exec .facSilent s = .next u ∧ u.fac.active = false ∧ u.fac.repValid = false
        ∧ u.time.now = max s.time.now (f.rxAt.getD s.time.now + ms 1000))
      ∧ (∀ w, (bitAt w 32 = false → exec (.facViolSuspectClear w) s = .next s)
        ∧ (s.barOpen = true → bitAt w 32 = true → ∃ u, exec (.facViolSuspectClear w) s = .next u ∧ u.fac.suspect = false
          ∧ u.fac.viol = 0 ∧ u = { s with fac := { f with
            suspect := false, viol := 0, violWin := u.fac.violWin, repValid := f.active && (kvFind f.frames 1).isSome } }))

/-- GST_CTL_WRITE, GUEST_LINK_TRAIN_END, GUEST_LINK_LOSS (R507), GST_RING_WRITE (R506), GST_VIOL_SUSPECT_CLEAR (R510, R511),
GUEST_SILENCE, GUEST_POWER_CHECK (R508), BYPASS, IDCODE, SAMPLE_PRELOAD and EXTEST (R500); log entries 54 and 60. -/
def Obligations.GuestSitesRunStopAndFault : Prop :=
  ∀ (s : State), (∀ g < 2,
      let x := s.guest g
      let faults := fun (c : Instr) (cause : Code) => ∃ u, exec c s = .next u ∧ (u.guest g).state = .faulted
        ∧ (u.guest g).cause = cause ∧ (u.guest g).waiting = [] ∧ (u.guest g).cmdQueue = [] ∧ u.guest (1 - g) = s.guest (1 - g)
        ∧ u.mem = s.mem ∧ u.tiles = s.tiles
      (s.barOpen = true → ∀ w,
          (bitAt w 0 = true → ∃ u, exec (.gstCtlWrite g w) s = .next u ∧ (u.guest g).reset = true
              ∧ (u.guest g).state = if x.state = .absent then .absent else .reset)
            ∧ (bitAt w 0 = false → x.state = .reset → s.clocksRun = true → s.ready = true → s.therm.halted = false → exec (.gstCtlWrite g w) s =
              .next (s.setGuest g { x with reset := false, state := .training, trainAt := some (s.time.now + ms 100) }))
            ∧ (bitAt w 0 = false → (x.state ≠ .reset ∨ s.clocksRun = false ∨ s.ready = false ∨ s.therm.halted = true) →
              exec (.gstCtlWrite g w) s = .next (s.setGuest g { x with reset := false }))
            ∧ (∃ u, exec (.gstRingWrite g w) s = .next u ∧ (u.guest g).grant = bitAt w 0 ∧ (u.guest g).ring.toNat = bitsOf w 4 1
              ∧ ((u.guest g).cmdQueue = x.cmdQueue ∨ (u.guest g).cmdQueue = [])
              ∧ ((x.grant = bitAt w 0 ∧ x.ring.toNat = bitsOf w 4 1) → u = s))
            ∧ (bitAt w 32 = false → exec (.gstViolSuspectClear g w) s = .next s)
            ∧ (bitAt w 32 = true → ∃ u, exec (.gstViolSuspectClear g w) s = .next u ∧ (u.guest g).suspect = false ∧ (u.guest g).viol = 0
              ∧ (u.guest g).state = x.state))
        ∧ ((x.state ≠ .training ∨ s.clocksRun = false) → ∀ n, exec (.guestLinkTrainEnd g n) s = .next s)
        ∧ (x.state = .training → s.clocksRun = true → ∀ n, let last := x.trainAt.getD s.time.now
          ((n = 8 ∨ n = 16) → s.time.now ≤ last → ∃ u, exec (.guestLinkTrainEnd g n) s = .next u ∧ (u.guest g).state = .up
              ∧ (u.guest g).width.toNat = n ∧ (u.guest g).tempAt = s.time.now)
            ∧ (((n ≠ 8 ∧ n ≠ 16) ∨ last < s.time.now) → faults (.guestLinkTrainEnd g n) Rs.guestLink))
        ∧ ((x.state ≠ .up ∨ s.clocksRun = false) → exec (.guestLinkLoss g) s = .next s ∧ exec (.guestSilence g) s = .next s)
        ∧ (x.state = .up → s.clocksRun = true → faults (.guestSilence g) Rs.guestSilent
          ∧ (∃ u, exec (.guestSilence g) s = .next u ∧ u.time.now = max s.time.now (x.tempAt + ms 100))
          ∧ ∃ u, exec (.guestLinkLoss g) s = .next u ∧ (u.guest g).state = .training ∧ (u.guest g).trainAt = some (s.time.now + ms 100)
            ∧ (u.guest g).waiting = [] ∧ (u.guest g).cmdQueue = [])
        ∧ (s.facOpen = true → x.state ≠ .absent → ∀ watts, let cap := min 40 x.capW.toNat
          ((watts ≤ cap ∨ x.state ≠ .up) → exec (.guestPowerCheck g watts) s =
              .next (s.setGuest g { x with measW := BitVec.ofNat 8 (min 255 watts), throttleAt := none }))
            ∧ (cap < watts → x.state = .up → x.throttleAt = none → ∃ u, exec (.guestPowerCheck g watts) s = .next u
              ∧ u.time.now = s.time.now + ms 10 ∧ (u.guest g).throttleAt = some u.time.now ∧ (u.guest g).state = .up
              ∧ u.out.guest.map (fun e => (e.1, e.2.op, e.2.operand)) =
                s.out.guest.map (fun e => (e.1, e.2.op, e.2.operand)) ++ [(g, 0x23, w64 cap)])
            ∧ (∀ a, cap < watts → x.state = .up → x.throttleAt = some a → faults (.guestPowerCheck g watts) Rs.guestPower)))
    ∧ (s.bu.powered = false → exec .bypass s = .next s ∧ exec .idcode s = .next s
      ∧ ∀ b, exec (.samplePreload b) s = .next s ∧ exec (.extest b) s = .next s)
    ∧ (s.bu.powered = true →
      let only := fun (u : State) => u = { s with tap := u.tap, free := u.free }
      (∃ u, exec .bypass s = .next u ∧ only u ∧ u.tap.ir = .bypass ∧ u.tap.dr = 0 ∧ u.tap.driving = false)
        ∧ (∃ u, exec .idcode s = .next u ∧ only u ∧ u.tap.ir = .idcode ∧ u.tap.dr = 0x1E2439E7 ∧ u.tap.driving = false)
        ∧ ∀ b, (∃ u, exec (.samplePreload b) s = .next u ∧ only u ∧ u.tap.ir = .samplePreload ∧ u.tap.boundary = b
            ∧ u.tap.driving = false)
          ∧ (s.beforeS1 = true → ∃ u, exec (.extest b) s = .next u ∧ only u ∧ u.tap.ir = .extest ∧ u.tap.boundary = b
            ∧ u.tap.driving = true)
          ∧ (s.beforeS1 = false → ∃ u, exec (.extest b) s = .next u ∧ only u ∧ u.tap.ir = .extest ∧ u.tap.dr = 0
            ∧ u.tap.driving = false))

/-- GUEST_READ, GUEST_WRITE, GUEST_ATOMIC (R502 to R505), GUEST_CONTROL (R506), GUEST_EVENT (R503) and GUEST_TEMP (R457, R508), with
the violations of R509; log entry 53. -/
def Obligations.GuestMessagesPassTheFirewall : Prop :=
  ∀ (s : State) (m : Msg), ∀ g < 2,
    let x := (s.guest g).refill s.time.now
    let row : Instr → BitVec 8 → Option Nat → Bool → Prop := fun c op cls form =>
      (c = .guestRead g m ∧ op = 1 ∧ cls = some 0 ∧ form = (m.length ≠ 0 && m.data.isEmpty))
        ∨ (c = .guestWrite g m ∧ op = 2 ∧ cls = some 1
          ∧ form = (m.length ≠ 0 && m.length = m.data.length && m.operand = 0 && m.operand2 = 0))
        ∨ (c = .guestAtomic g m ∧ op = 3 ∧ cls = some 2 ∧ form = (m.length = 0 && m.aop ≠ 3 && m.atype ≠ 3))
        ∨ (c = .guestControl g m ∧ op = 6 ∧ cls = some 3 ∧ form = (m.length = 64 && m.data.length = 64))
        ∨ (c = .guestEvent g m ∧ op = 0x20 ∧ cls = some 4 ∧ form = (m.length = 32 && m.data.length = 32))
        ∨ (c = .guestTemp g m ∧ op = 0x21 ∧ cls = none ∧ form = (m.length = 0 && m.data.isEmpty))
    let answer := fun (st rs : Code) (v : BitVec 64) (data : List Byte) =>
      [(g, { reply m st rs v data with src := s.self, dst := s.self, hops := 0 })]
    let refused := fun (c : Instr) (st rs : Code) => ∃ u, exec c s = .next u ∧ u.out.guest = s.out.guest ++ answer st rs 0 []
      ∧ (u.guest g).viol = x.viol + 1 ∧ u.mem = s.mem
    (((s.guest g).state ≠ .up ∨ s.clocksRun = false) → ∀ c op cls form, row c op cls form → exec c s = .next s)
      ∧ ((s.guest g).state = .up → s.clocksRun = true → (s.guest g).waiting = [] →
        (∀ c op cls form, row c op cls form →
            (m.crcOk = false → refused c St.peerViolation Rs.badCrc)
              ∧ (m.crcOk = true → 0x80 ≤ m.op.toNat → ∃ u, exec c s = .next u ∧ u.out.guest = s.out.guest
                ∧ (u.guest g).viol = x.viol + 1)
              ∧ (m.crcOk = true → m.op = op → (s.guestBad m = true ∨ form = false) → refused c St.peerViolation Rs.badMessage)
              ∧ (∀ b, m.crcOk = true → m.op = op → s.guestBad m = false → form = true → cls = some b → bitAt x.allow b = false →
                refused c St.peerViolation Rs.guestClass))
          ∧ (∀ c op cls form, row c op cls form → m.crcOk = true → m.op = op → s.guestBad m = false → form = true →
            (∀ b, cls = some b → bitAt x.allow b = true) →
            let wins := x.windows.filter fun k => k.covers m.gaddr (guestBytes m) m.op
            (op.toNat ≤ 3 →
              (x.passes m = false → ∃ u, exec c s = .next u ∧ (u.guest g).waiting = [m] ∧ u.out = s.out ∧ u.mem = s.mem)
                ∧ (x.passes m = true →
                  let q := (s.setGuest g (Guest.spend { x with waiting := [m] } m)).useWindows g
                  let p := s.guestPhys m
                  let ends := fun (k : State) (st rs : Code) (v : BitVec 64) (data : List Byte) => ∃ u, exec c s = .next u
                    ∧ u.out.guest = k.out.guest ++ answer st rs v data ∧ u.mem = k.mem
                  ((wins = [] ∨ s.guestAddr m.gaddr (guestBytes m) = false) → refused c St.range Rs.guestWindow)
                    ∧ (wins ≠ [] → s.guestAddr m.gaddr (guestBytes m) = true →
                      ((∀ k ∈ wins, k.agree = false) → ends q St.configMismatch 0 0 [])
                        ∧ ((∃ k ∈ wins, k.agree = true) → pkgOf m.gaddr = s.self →
                          (op = 1 → ∀ b bad k, (readAsked p).result q = (.ok (b, bad), k) →
                              ends k (if bad = true then St.poisoned else St.ok) 0 0 b)
                            ∧ (op = 1 → ∀ e k, (readAsked p).result q = (.error e, k) → ends k e.status e.reason 0 [])
                            ∧ (op = 2 → ∀ w k, (writeOrdinary p).result q = (.ok w, k) → ends k St.ok 0 0 [])
                            ∧ (op = 2 → ∀ e k, (writeOrdinary p).result q = (.error e, k) → ends k e.status e.reason 0 [])
                            ∧ (op = 3 → ∀ old k, (applyAtomic p).result q = (.ok old, k) → ends k St.ok 0 (w64 old) [])
                            ∧ (op = 3 → ∀ e k, (applyAtomic p).result q = (.error e, k) → ends k e.status e.reason 0 []))
                        ∧ ((∃ k ∈ wins, k.agree = true) → pkgOf m.gaddr ≠ s.self → s.pathStop (pkgOf m.gaddr) = none →
                          ∃ u, exec c s = .next u ∧ u.cornis.txns.length = s.cornis.txns.length + 1 ∧ u.out.guest = s.out.guest))))
              ∧ (op = 6 →
                (x.has x.ring.toNat = false → refused c St.peerViolation Rs.guestClass)
                  ∧ (x.has x.ring.toNat = true → ∃ u, exec c s = .next u
                    ∧ (u.guest g).cmdQueue = x.cmdQueue ++
                      [({ decodeCmd (16 * (g + 1) + x.ring.toNat) (descOf m.data) with guest := some g }, m.txn)]))
              ∧ (op = 0x20 → ∃ u, exec c s = .next u ∧ (s.host.eq.enable = false →
                (u.events.log.getLast?.map fun e => (e.code, e.items)) = some (Ev.guestMessage,
                  w64 g :: (List.range 4).map fun i => w64 (natLE ((m.data.drop (8 * i)).take 8)))))
              ∧ (op = 0x21 → ∃ u, exec c s = .next u ∧ (u.diode (421 + g)).temp = m.operand.toInt ∧ (u.guest g).tempAt = s.time.now
                ∧ (deg x.sdC ≤ m.operand.toInt → (u.guest g).state = .faulted ∧ (u.guest g).cause = Rs.guestHot)
                ∧ (m.operand.toInt < deg x.sdC → (u.guest g).state = .up))))

/-- The commands of the block come from outside and are taken first in, first out: no meaning reads or changes the queue (log
entries 1 and 2). -/
def Obligations.ACommandLeavesTheQueueAlone : Prop :=
  (∀ (c : Instr) (s t : State), exec c s = .next t → t.pending = s.pending)
    ∧ (∀ (s t : State) (c : Instr) (rest : List Instr), s.pending = c :: rest → step s = .next t → t.pending = rest)
    ∧ (∀ s t : State, s.pending = [] → step s = .next t → t.pending = [])

/-- The canonical form of the stacks' memory is kept by every step, from every state that has it; log entry 3. -/
def Obligations.EveryStepKeepsTheMemoryCanonical : Prop :=
  ∀ s t : State, MemoryCanonical s → step s = .next t → MemoryCanonical t

/-- The memory after reset; that an unlisted byte reads as zero is the model's choice (log entry 3). -/
def Obligations.TheMemoryAfterResetIsCanonical : Prop :=
  MemoryCanonical State.reset ∧ State.reset.mem = [] ∧ (∀ a n, cellRead State.reset.mem a n = List.replicate n 0)
    ∧ ∀ t, (State.reset.tile t).mem = {} ∧ ({} : TileMem).poison = [] ∧ ({} : TileMem).regions = [] ∧ ({} : TileMem).repairs = []
      ∧ ({} : TileMem).narrow = []

/-- Reset values of the registers of BAR0 (R38, R312, R348, R384, R417, R453, R458, R486, R487, R511); those the spec does not give
are log entry 4. -/
def Obligations.RegistersHoldTheirResetValues : Prop :=
  let s := State.reset
  let fields := fun (l : List (Nat × Nat)) => (l.map fun e => e.2 * 2 ^ e.1).sum
  let reads := fun (o : Nat) (l : List (Nat × Nat)) => (s.regRead o).toNat = fields l
  reads 0x000 [(0, 0xB0), (8, 1), (16, 0xE243)] ∧ (∀ o ∈ [0x008, 0x010, 0x018, 0x020, 0x028, 0x030, 0x038, 0x200], reads o [])
    ∧ reads 0x100000 [(16, 0x0204)] ∧ reads 0x100008 [] ∧ reads 0x100010 [(0, 0x10), (8, 0x3E8)] ∧ reads 0x100018 []
    ∧ (∀ k < 8, reads (0x100040 + 8 * k) [])
    ∧ (∀ r < 16, reads (0x100100 + 0x20 * r) [(8, r), (16, 1)] ∧ reads (0x100108 + 0x20 * r) [(28, 1)] ∧ reads (0x100110 + 0x20 * r) [])
    ∧ reads 0x100300 [(8, 0x3F), (16, 1)] ∧ reads 0x100308 [(12, 1)] ∧ reads 0x100318 []
    ∧ reads 0x101018 [(0, 0x4E20)] ∧ reads 0x101058 [(0, 4)] ∧ (∀ o ∈ [0x101000, 0x101008, 0x101010, 0x101020, 0x101048], reads o [])
    ∧ reads 0x102000 [(0, 1)] ∧ reads 0x102180 [(0, 0x10), (8, 0x3E8)] ∧ reads 0x102188 [] ∧ (∀ p < 9, s.port p = { ({} : Port) with width := 1 })
    ∧ reads 0x103008 [(0, 0x78)] ∧ reads 0x103010 [(0, 0x4B)] ∧ reads 0x103000 []
    ∧ reads 0x104000 [] ∧ reads 0x104008 [(0, 0x168), (9, 0x168)] ∧ reads 0x104010 [(0, 0xA)] ∧ reads 0x104018 [(0, 1), (4, 0x48)]
    ∧ reads 0x104020 [(0, 0x3F800000), (32, 0x3F800000)] ∧ reads 0x104028 [] ∧ reads 0x104030 []
    ∧ reads 0x105000 [(48, 0xFFFF)] ∧ reads 0x105008 [(0, 0x1F4), (16, 0x18), (32, 0xC8), (48, 0x7D0)]
    ∧ reads 0x105020 [(0, 98), (8, 93), (16, 105), (24, 100), (32, 115), (40, 100)]
    ∧ reads 0x105028 [(0, 92), (8, 88), (16, 98), (24, 94), (32, 105), (40, 95)]
    ∧ reads 0x105030 [(0, 100), (8, 95), (16, 108), (24, 103), (32, 118), (40, 105)]
    ∧ reads 0x105038 [(0, 110), (8, 105), (16, 120), (24, 115), (32, 130), (40, 115)]
    ∧ reads 0x106000 [] ∧ reads 0x106020 [(0, 0x168)] ∧ reads 0x106028 [(0, 0x10), (8, 0x3E8)] ∧ reads 0x106030 []
    ∧ (∀ b ∈ [0x108000, 0x109000], reads b [(0, 1)] ∧ reads (b + 8) [(0, 1)] ∧ reads (b + 0x10) []
      ∧ reads (b + 0x18) [(0, 0x20), (8, 0x20), (16, 0x10)] ∧ reads (b + 0x20) [] ∧ reads (b + 0x28) [(0, 0x28), (16, 0x69)]
      ∧ reads (b + 0x30) [(0, 0x10), (8, 0x3E8)] ∧ reads (b + 0x38) [] ∧ ∀ w < 16, reads (b + 0x100 + 8 * w) [])
    ∧ s.pending = [] ∧ s.bu.powered = false ∧ s.host.slots = [] ∧ s.tiles = [] ∧ s.time.now = 0 ∧ s.events.log = []
end

