-- ==== Sys2Proof/Laws/Memory.lean ====
section
/-! SUPPORT. Sys2Proof/Laws/Memory.lean: what the operations on byte stores and sparse tables do: they keep the canonical form,
and a read after a write gives what was written there and what stood elsewhere. -/

namespace Sys2Proof.Laws

open Sys2Proof.Machine

/-! ### The canonical form -/

/-- The canonical form, said of the whole list. -/
theorem wf_iff (m : List Host.Cell) :
    Memory.wf m = true ↔ m.Pairwise (fun x y => x.1 < y.1) ∧ ∀ e ∈ m, e.2 ≠ 0 := by
  induction m with
  | nil => simp [Memory.wf]
  | cons x r ih =>
    obtain ⟨a, b⟩ := x
    cases r with
    | nil => simp [Memory.wf]
    | cons y r =>
      obtain ⟨c, d⟩ := y
      simp only [Memory.wf, Bool.and_eq_true, decide_eq_true_eq, ih]
      constructor
      · rintro ⟨⟨hb, hac⟩, hp, hn⟩
        refine ⟨List.pairwise_cons.2 ⟨?_, hp⟩, ?_⟩
        · intro e he
          rcases List.mem_cons.1 he with rfl | he
          · exact hac
          · exact Nat.lt_trans hac ((List.pairwise_cons.1 hp).1 e he)
        · intro e he
          rcases List.mem_cons.1 he with rfl | he
          · simpa using hb
          · exact hn e he
      · rintro ⟨hp, hn⟩
        exact ⟨⟨by simpa using hn (a, b) (by simp), (List.pairwise_cons.1 hp).1 (c, d) (by simp)⟩,
          (List.pairwise_cons.1 hp).2, fun e he => hn e (List.mem_cons_of_mem _ he)⟩

/-- Dropping entries keeps the form. -/
theorem wf_filter {m : List Host.Cell} (h : Memory.wf m = true) (p : Host.Cell → Bool) : Memory.wf (m.filter p) = true := by
  rw [wf_iff] at h ⊢
  exact ⟨h.1.filter p, fun e he => h.2 e (List.mem_of_mem_filter he)⟩

/-- Every key of the list after `cellPut` is the written address or an old key. -/
theorem mem_cellPut {m : List Host.Cell} {a : Nat} {b : Byte} {e : Host.Cell} (h : e ∈ cellPut m a b) : e = (a, b) ∨ e ∈ m := by
  induction m with
  | nil => simpa [cellPut] using h
  | cons x r ih =>
    obtain ⟨k, v⟩ := x
    simp only [cellPut] at h
    split at h
    · simpa using h
    · split at h
      · rcases List.mem_cons.1 h with h | h
        · exact .inl h
        · exact .inr (List.mem_cons_of_mem _ h)
      · rcases List.mem_cons.1 h with h | h
        · exact .inr (by simp [h])
        · exact (ih h).imp id (List.mem_cons_of_mem _)

/-- Putting a byte that is not zero keeps the form. -/
theorem wf_cellPut {m : List Host.Cell} (h : Memory.wf m = true) (a : Nat) {b : Byte} (hb : b ≠ 0) :
    Memory.wf (cellPut m a b) = true := by
  rw [wf_iff] at h ⊢
  obtain ⟨hp, hn⟩ := h
  refine ⟨?_, fun e he => (mem_cellPut he).elim (fun h => h ▸ hb) (hn e)⟩
  clear hn
  induction m with
  | nil => simp [cellPut]
  | cons x r ih =>
    obtain ⟨k, v⟩ := x
    have hk := List.pairwise_cons.1 hp
    simp only [cellPut]
    split
    · rename_i hak
      refine List.pairwise_cons.2 ⟨?_, hp⟩
      intro e he
      rcases List.mem_cons.1 he with rfl | he
      · exact hak
      · exact Nat.lt_trans hak (hk.1 e he)
    · split
      · rename_i h1 h2
        subst h2
        exact List.pairwise_cons.2 ⟨hk.1, hk.2⟩
      · refine List.pairwise_cons.2 ⟨?_, ih hk.2⟩
        intro e he
        rcases mem_cellPut he with rfl | he
        · dsimp only
          omega
        · exact hk.1 e he

/-- Writing one byte keeps the form. -/
theorem wf_cellSet {m : List Host.Cell} (h : Memory.wf m = true) (a : Nat) (b : Byte) : Memory.wf (cellSet m a b) = true := by
  unfold cellSet
  split
  · exact wf_filter h _
  · exact wf_cellPut h a ‹_›

/-- Writing bytes keeps the form. -/
theorem wf_cellWrite (bs : List Byte) : ∀ {m : List Host.Cell}, Memory.wf m = true → ∀ a, Memory.wf (cellWrite m a bs) = true := by
  induction bs with
  | nil => exact fun h _ => h
  | cons b bs ih => exact fun h a => ih (wf_cellSet h a b) (a + 1)

/-- Zeroing a range keeps the form. -/
theorem wf_cellZero {m : List Host.Cell} (h : Memory.wf m = true) (a n : Nat) : Memory.wf (cellZero m a n) = true :=
  wf_filter h _

/-- Setting listed bytes one by one keeps the form. -/
theorem wf_foldl_cellSet (ws : List (Nat × Byte)) (f : Nat → Nat) :
    ∀ {m : List Host.Cell}, Memory.wf m = true → Memory.wf (ws.foldl (fun m w => cellSet m (f w.1) w.2) m) = true := by
  induction ws with
  | nil => exact fun h => h
  | cons w ws ih => exact fun h => ih (wf_cellSet h (f w.1) w.2)

/-- Reset memory has the form. -/
theorem wf_reset : Memory.wf State.reset.mem = true := rfl

/-! ### Reading after writing -/

/-- An address below every key reads as zero. -/
theorem cellGet_below {m : List Host.Cell} {a : Nat} (h : ∀ e ∈ m, a < e.1) : cellGet m a = 0 := by
  induction m with
  | nil => rfl
  | cons x r ih =>
    obtain ⟨k, v⟩ := x
    have hk : a < k := h (k, v) (by simp)
    simp only [cellGet, if_neg (by omega : ¬k = a)]
    exact ih fun e he => h e (List.mem_cons_of_mem _ he)

theorem cellGet_cellPut {m : List Host.Cell} (h : Memory.wf m = true) (a c : Nat) (b : Byte) :
    cellGet (cellPut m a b) c = if c = a then b else cellGet m c := by
  rw [wf_iff] at h
  replace h := h.1
  induction m with
  | nil =>
    simp only [cellPut, cellGet]
    by_cases hc : c = a
    · simp [hc]
    · rw [if_neg (fun h => hc h.symm), if_neg hc]
  | cons x r ih =>
    obtain ⟨k, v⟩ := x
    have hk := List.pairwise_cons.1 h
    simp only [cellPut]
    split
    · simp only [cellGet]
      by_cases hc : c = a
      · simp [hc]
      · rw [if_neg (fun h => hc h.symm), if_neg hc]
    · split
      · rename_i h1 h2
        subst h2
        simp only [cellGet]
        by_cases hc : c = a
        · simp [hc]
        · rw [if_neg (fun h => hc h.symm), if_neg hc, if_neg (fun h => hc h.symm)]
      · rename_i h1 h2
        simp only [cellGet, ih hk.2]
        by_cases hk' : k = c
        · subst hk'
          rw [if_pos rfl, if_pos rfl, if_neg (fun h => h2 h.symm)]
        · rw [if_neg hk', if_neg hk']

theorem cellGet_filter_ne (m : List Host.Cell) (a c : Nat) :
    cellGet (m.filter fun e => e.1 ≠ a) c = if c = a then 0 else cellGet m c := by
  induction m with
  | nil => simp [cellGet]
  | cons x r ih =>
    obtain ⟨k, v⟩ := x
    by_cases hk : k = a
    · subst hk
      simp only [List.filter_cons, ne_eq, not_true_eq_false, decide_false, Bool.false_eq_true, if_false, cellGet] at ih ⊢
      rw [ih]
      by_cases hc : c = k
      · simp [hc]
      · rw [if_neg hc, if_neg hc, if_neg (fun h => hc h.symm)]
    · have hk2 : (decide ((k, v).1 ≠ a)) = true := by simpa using hk
      rw [List.filter_cons, if_pos hk2]
      simp only [cellGet]
      rw [ih]
      by_cases hkc : k = c
      · subst hkc
        simp [hk]
      · rw [if_neg hkc, if_neg hkc]

/-- A byte read after one byte is written. -/
theorem cellGet_cellSet {m : List Host.Cell} (h : Memory.wf m = true) (a c : Nat) (b : Byte) :
    cellGet (cellSet m a b) c = if c = a then b else cellGet m c := by
  unfold cellSet
  split
  · rename_i hb
    rw [cellGet_filter_ne, hb]
  · exact cellGet_cellPut h a c b

/-- A byte outside the bytes written reads as before. -/
theorem cellGet_cellWrite_other (bs : List Byte) : ∀ {m : List Host.Cell}, Memory.wf m = true → ∀ (a c : Nat),
    c < a ∨ a + bs.length ≤ c → cellGet (cellWrite m a bs) c = cellGet m c := by
  induction bs with
  | nil => intro m _ a c _; rfl
  | cons b bs ih =>
    intro m h a c hc
    simp only [List.length_cons] at hc
    simp only [cellWrite]
    rw [ih (wf_cellSet h a b) (a + 1) c (by omega), cellGet_cellSet h, if_neg (by omega)]

/-- A byte within the bytes written reads as written. -/
theorem cellGet_cellWrite_at (bs : List Byte) : ∀ {m : List Host.Cell}, Memory.wf m = true → ∀ (a i : Nat) (hi : i < bs.length),
    cellGet (cellWrite m a bs) (a + i) = bs[i] := by
  induction bs with
  | nil => intro m _ a i hi; simp at hi
  | cons b bs ih =>
    intro m h a i hi
    simp only [cellWrite]
    cases i with
    | zero =>
      rw [cellGet_cellWrite_other bs (wf_cellSet h a b) (a + 1) (a + 0) (by omega), cellGet_cellSet h]
      simp
    | succ i =>
      have := ih (wf_cellSet h a b) (a + 1) i (by simpa using hi)
      rw [show a + (i + 1) = a + 1 + i by omega, this]
      simp

/-! ### Sparse tables -/

/-- The entry just put is found, whatever the table. -/
theorem kvFind_kvPut_same {α : Type} (l : KV α) (a : Nat) (v : α) : kvFind (kvPut l a v) a = some v := by
  induction l with
  | nil => simp [kvPut, kvFind]
  | cons x r ih =>
    obtain ⟨k, w⟩ := x
    simp only [kvPut]
    split
    · simp [kvFind]
    · split
      · simp [kvFind]
      · rename_i h1 h2
        simp only [kvFind]
        rw [if_neg (fun h => h2 h.symm)]
        exact ih

/-- Putting an entry leaves what other keys find. -/
theorem kvFind_kvPut_other {α : Type} (l : KV α) {a c : Nat} (v : α) (hc : c ≠ a) : kvFind (kvPut l a v) c = kvFind l c := by
  induction l with
  | nil => simp [kvPut, kvFind, Ne.symm hc]
  | cons x r ih =>
    obtain ⟨k, w⟩ := x
    simp only [kvPut]
    split
    · simp only [kvFind, if_neg (Ne.symm hc)]
    · split
      · rename_i h1 h2
        subst h2
        simp only [kvFind, if_neg (Ne.symm hc)]
      · simp only [kvFind, ih]

@[simp] theorem kvGet_kvPut_same {α : Type} (l : KV α) (a : Nat) (v d : α) : kvGet (kvPut l a v) a d = v := by
  simp [kvGet, kvFind_kvPut_same]

theorem kvGet_kvPut_other {α : Type} (l : KV α) {a c : Nat} (v d : α) (hc : c ≠ a) : kvGet (kvPut l a v) c d = kvGet l c d := by
  simp [kvGet, kvFind_kvPut_other l v hc]

end Sys2Proof.Laws
end

