-- ==== Sys2Proof/Laws/Blend.lean ====
section
/-! SUPPORT. Sys2Proof/Laws/Blend.lean: the operations of a stop and of a plan's start on byte stores keep the canonical form, and
what they leave of each byte (R128, R514). -/

namespace Sys2Proof.Laws

open Sys2Proof.Machine

/-- Putting bytes that are not zero keeps the form. -/
theorem wf_foldl_cellPut (l : List Host.Cell) : ∀ {m : List Host.Cell}, Memory.wf m = true → (∀ e ∈ l, e.2 ≠ 0) →
    Memory.wf (l.foldl (fun m e => cellPut m e.1 e.2) m) = true := by
  induction l with
  | nil => exact fun h _ => h
  | cons e l ih => exact fun h hl => ih (wf_cellPut h e.1 (hl e (by simp))) fun x hx => hl x (List.mem_cons_of_mem _ hx)

/-- A store between two in the form has it. -/
theorem wf_blendCells {old new : List Host.Cell} (ho : Memory.wf old = true) (hn : Memory.wf new = true) (keep : Nat → Bool) :
    Memory.wf (blendCells keep old new) = true :=
  wf_foldl_cellPut _ (wf_filter ho _) fun e he => ((wf_iff new).1 hn).2 e (List.mem_of_mem_filter he)

/-- A byte that is listed reads as listed. -/
theorem cellGet_mem {m : List Host.Cell} (h : Memory.wf m = true) {a : Nat} {b : Byte} (hm : (a, b) ∈ m) : cellGet m a = b := by
  rw [wf_iff] at h
  replace h := h.1
  induction m with
  | nil => simp at hm
  | cons x r ih =>
    obtain ⟨k, v⟩ := x
    have hk := List.pairwise_cons.1 h
    rcases List.mem_cons.1 hm with he | he
    · obtain ⟨rfl, rfl⟩ := Prod.mk.inj he
      simp [cellGet]
    · have := hk.1 (a, b) he
      simp only [cellGet, if_neg (by omega : ¬k = a)]
      exact ih he hk.2

/-- A byte that is not listed reads as zero. -/
theorem cellGet_not_mem {m : List Host.Cell} {a : Nat} (h : ∀ e ∈ m, e.1 ≠ a) : cellGet m a = 0 := by
  induction m with
  | nil => rfl
  | cons x r ih =>
    obtain ⟨k, v⟩ := x
    simp only [cellGet, if_neg (h (k, v) (by simp))]
    exact ih fun e he => h e (List.mem_cons_of_mem _ he)

/-- Putting bytes leaves every other address. -/
theorem cellGet_foldl_cellPut_other (l : List Host.Cell) : ∀ {m : List Host.Cell}, Memory.wf m = true → (∀ e ∈ l, e.2 ≠ 0) →
    ∀ a : Nat, (∀ e ∈ l, e.1 ≠ a) → cellGet (l.foldl (fun m e => cellPut m e.1 e.2) m) a = cellGet m a := by
  induction l with
  | nil => exact fun _ _ _ _ => rfl
  | cons e l ih =>
    intro m h hl a ha
    simp only [List.foldl_cons]
    rw [ih (wf_cellPut h e.1 (hl e (by simp))) (fun x hx => hl x (List.mem_cons_of_mem _ hx)) a
      (fun x hx => ha x (List.mem_cons_of_mem _ hx)), cellGet_cellPut h, if_neg (fun h => ha e (by simp) h.symm)]

/-- Where a stop keeps nothing, a blended store reads as the old one (R514). -/
theorem cellGet_blendCells_old {old new : List Host.Cell} (ho : Memory.wf old = true) (hn : Memory.wf new = true) (keep : Nat → Bool)
    {a : Nat} (h : keep a = false) : cellGet (blendCells keep old new) a = cellGet old a := by
  have hl : ∀ e ∈ new.filter fun e => keep e.1, e.2 ≠ 0 := fun e he => ((wf_iff new).1 hn).2 e (List.mem_of_mem_filter he)
  have hx : ∀ e ∈ new.filter fun e => keep e.1, e.1 ≠ a := by
    rintro e he rfl
    simp [h] at he
  unfold blendCells
  rw [cellGet_foldl_cellPut_other _ (wf_filter ho _) hl a hx]
  by_cases hm : ∃ b, (a, b) ∈ old
  · obtain ⟨b, hb⟩ := hm
    rw [cellGet_mem ho hb, cellGet_mem (wf_filter ho _) (List.mem_filter.2 ⟨hb, by simp [h]⟩)]
  · have hn' : ∀ e ∈ old, e.1 ≠ a := fun e he hc => hm ⟨e.2, hc ▸ he⟩
    rw [cellGet_not_mem hn', cellGet_not_mem fun e he => hn' e (List.mem_of_mem_filter he)]

/-- Clearing the `DONE` bits of log entries keeps the form (R128). -/
theorem wf_clearDone {m : List Host.Cell} (h : Memory.wf m = true) (base n : Nat) : Memory.wf (clearDone m base n) = true := by
  have key : ∀ e b : Host.Cell, (if base ≤ e.1 && e.1 < base + 16 * n && (e.1 - base) % 16 = 2 then
      (if e.2 &&& 0xFE = 0 then none else some (e.1, e.2 &&& 0xFE)) else some e) = some b → b.1 = e.1 ∧ (e.2 ≠ 0 → b.2 ≠ 0) := by
    intro e b hb
    split at hb
    · split at hb
      · cases hb
      · cases hb
        exact ⟨rfl, fun _ => ‹_›⟩
    · cases hb
      exact ⟨rfl, id⟩
  rw [wf_iff] at h ⊢
  refine ⟨h.1.filterMap _ fun x y hxy b hb c hc => ?_, fun e he => ?_⟩
  · rw [(key x b hb).1, (key y c hc).1]
    exact hxy
  · obtain ⟨x, hx, hb⟩ := List.mem_filterMap.1 he
    exact (key x e hb).2 (h.2 x hx)

end Sys2Proof.Laws
end

