-- ==== Sys2Proof/Laws/State.lean ====
section
/-! SUPPORT. Sys2Proof/Laws/State.lean: what each named update leaves of each field of the state, and how the tile, slot and
command it changes read afterwards. -/

namespace Sys2Proof.Laws

open Sys2Proof.Machine

/-! ### Fields that an update leaves -/

@[simp] theorem setTile_pending (s : State) (t : TileRef) (x : Tile) : (s.setTile t x).pending = s.pending := rfl
@[simp] theorem setTile_free (s : State) (t : TileRef) (x : Tile) : (s.setTile t x).free = s.free := rfl
@[simp] theorem setTile_time (s : State) (t : TileRef) (x : Tile) : (s.setTile t x).time = s.time := rfl
@[simp] theorem setTile_tick (s : State) (t : TileRef) (x : Tile) : (s.setTile t x).tick = s.tick := rfl
@[simp] theorem setTile_units (s : State) (t : TileRef) (x : Tile) : (s.setTile t x).units = s.units := rfl
@[simp] theorem setTile_mem (s : State) (t : TileRef) (x : Tile) : (s.setTile t x).mem = s.mem := rfl
@[simp] theorem setTile_mesh (s : State) (t : TileRef) (x : Tile) : (s.setTile t x).mesh = s.mesh := rfl
@[simp] theorem setTile_cornis (s : State) (t : TileRef) (x : Tile) : (s.setTile t x).cornis = s.cornis := rfl
@[simp] theorem setTile_twin (s : State) (t : TileRef) (x : Tile) : (s.setTile t x).twin = s.twin := rfl
@[simp] theorem setTile_host (s : State) (t : TileRef) (x : Tile) : (s.setTile t x).host = s.host := rfl
@[simp] theorem setTile_events (s : State) (t : TileRef) (x : Tile) : (s.setTile t x).events = s.events := rfl
@[simp] theorem setTile_bu (s : State) (t : TileRef) (x : Tile) : (s.setTile t x).bu = s.bu := rfl
@[simp] theorem setTile_sec (s : State) (t : TileRef) (x : Tile) : (s.setTile t x).sec = s.sec := rfl
@[simp] theorem setTile_power (s : State) (t : TileRef) (x : Tile) : (s.setTile t x).power = s.power := rfl
@[simp] theorem setTile_therm (s : State) (t : TileRef) (x : Tile) : (s.setTile t x).therm = s.therm := rfl
@[simp] theorem setTile_fac (s : State) (t : TileRef) (x : Tile) : (s.setTile t x).fac = s.fac := rfl
@[simp] theorem setTile_guest0 (s : State) (t : TileRef) (x : Tile) : (s.setTile t x).guest0 = s.guest0 := rfl
@[simp] theorem setTile_guest1 (s : State) (t : TileRef) (x : Tile) : (s.setTile t x).guest1 = s.guest1 := rfl
@[simp] theorem setTile_tap (s : State) (t : TileRef) (x : Tile) : (s.setTile t x).tap = s.tap := rfl
@[simp] theorem setTile_out (s : State) (t : TileRef) (x : Tile) : (s.setTile t x).out = s.out := rfl

@[simp] theorem modTile_pending (s : State) (t : TileRef) (f : Tile → Tile) : (s.modTile t f).pending = s.pending := rfl
@[simp] theorem modTile_free (s : State) (t : TileRef) (f : Tile → Tile) : (s.modTile t f).free = s.free := rfl
@[simp] theorem modTile_time (s : State) (t : TileRef) (f : Tile → Tile) : (s.modTile t f).time = s.time := rfl
@[simp] theorem modTile_tick (s : State) (t : TileRef) (f : Tile → Tile) : (s.modTile t f).tick = s.tick := rfl
@[simp] theorem modTile_units (s : State) (t : TileRef) (f : Tile → Tile) : (s.modTile t f).units = s.units := rfl
@[simp] theorem modTile_mem (s : State) (t : TileRef) (f : Tile → Tile) : (s.modTile t f).mem = s.mem := rfl
@[simp] theorem modTile_mesh (s : State) (t : TileRef) (f : Tile → Tile) : (s.modTile t f).mesh = s.mesh := rfl
@[simp] theorem modTile_cornis (s : State) (t : TileRef) (f : Tile → Tile) : (s.modTile t f).cornis = s.cornis := rfl
@[simp] theorem modTile_twin (s : State) (t : TileRef) (f : Tile → Tile) : (s.modTile t f).twin = s.twin := rfl
@[simp] theorem modTile_host (s : State) (t : TileRef) (f : Tile → Tile) : (s.modTile t f).host = s.host := rfl
@[simp] theorem modTile_events (s : State) (t : TileRef) (f : Tile → Tile) : (s.modTile t f).events = s.events := rfl
@[simp] theorem modTile_bu (s : State) (t : TileRef) (f : Tile → Tile) : (s.modTile t f).bu = s.bu := rfl
@[simp] theorem modTile_sec (s : State) (t : TileRef) (f : Tile → Tile) : (s.modTile t f).sec = s.sec := rfl
@[simp] theorem modTile_power (s : State) (t : TileRef) (f : Tile → Tile) : (s.modTile t f).power = s.power := rfl
@[simp] theorem modTile_therm (s : State) (t : TileRef) (f : Tile → Tile) : (s.modTile t f).therm = s.therm := rfl
@[simp] theorem modTile_fac (s : State) (t : TileRef) (f : Tile → Tile) : (s.modTile t f).fac = s.fac := rfl
@[simp] theorem modTile_guest0 (s : State) (t : TileRef) (f : Tile → Tile) : (s.modTile t f).guest0 = s.guest0 := rfl
@[simp] theorem modTile_guest1 (s : State) (t : TileRef) (f : Tile → Tile) : (s.modTile t f).guest1 = s.guest1 := rfl
@[simp] theorem modTile_tap (s : State) (t : TileRef) (f : Tile → Tile) : (s.modTile t f).tap = s.tap := rfl
@[simp] theorem modTile_out (s : State) (t : TileRef) (f : Tile → Tile) : (s.modTile t f).out = s.out := rfl

@[simp] theorem modSlot_pending (s : State) (t : TileRef) (i : Nat) (f : DescSlot → DescSlot) : (s.modSlot t i f).pending = s.pending := rfl
@[simp] theorem modSlot_free (s : State) (t : TileRef) (i : Nat) (f : DescSlot → DescSlot) : (s.modSlot t i f).free = s.free := rfl
@[simp] theorem modSlot_time (s : State) (t : TileRef) (i : Nat) (f : DescSlot → DescSlot) : (s.modSlot t i f).time = s.time := rfl
@[simp] theorem modSlot_tick (s : State) (t : TileRef) (i : Nat) (f : DescSlot → DescSlot) : (s.modSlot t i f).tick = s.tick := rfl
@[simp] theorem modSlot_units (s : State) (t : TileRef) (i : Nat) (f : DescSlot → DescSlot) : (s.modSlot t i f).units = s.units := rfl
@[simp] theorem modSlot_mem (s : State) (t : TileRef) (i : Nat) (f : DescSlot → DescSlot) : (s.modSlot t i f).mem = s.mem := rfl
@[simp] theorem modSlot_mesh (s : State) (t : TileRef) (i : Nat) (f : DescSlot → DescSlot) : (s.modSlot t i f).mesh = s.mesh := rfl
@[simp] theorem modSlot_cornis (s : State) (t : TileRef) (i : Nat) (f : DescSlot → DescSlot) : (s.modSlot t i f).cornis = s.cornis := rfl
@[simp] theorem modSlot_twin (s : State) (t : TileRef) (i : Nat) (f : DescSlot → DescSlot) : (s.modSlot t i f).twin = s.twin := rfl
@[simp] theorem modSlot_host (s : State) (t : TileRef) (i : Nat) (f : DescSlot → DescSlot) : (s.modSlot t i f).host = s.host := rfl
@[simp] theorem modSlot_events (s : State) (t : TileRef) (i : Nat) (f : DescSlot → DescSlot) : (s.modSlot t i f).events = s.events := rfl
@[simp] theorem modSlot_bu (s : State) (t : TileRef) (i : Nat) (f : DescSlot → DescSlot) : (s.modSlot t i f).bu = s.bu := rfl
@[simp] theorem modSlot_sec (s : State) (t : TileRef) (i : Nat) (f : DescSlot → DescSlot) : (s.modSlot t i f).sec = s.sec := rfl
@[simp] theorem modSlot_power (s : State) (t : TileRef) (i : Nat) (f : DescSlot → DescSlot) : (s.modSlot t i f).power = s.power := rfl
@[simp] theorem modSlot_therm (s : State) (t : TileRef) (i : Nat) (f : DescSlot → DescSlot) : (s.modSlot t i f).therm = s.therm := rfl
@[simp] theorem modSlot_fac (s : State) (t : TileRef) (i : Nat) (f : DescSlot → DescSlot) : (s.modSlot t i f).fac = s.fac := rfl
@[simp] theorem modSlot_guest0 (s : State) (t : TileRef) (i : Nat) (f : DescSlot → DescSlot) : (s.modSlot t i f).guest0 = s.guest0 := rfl
@[simp] theorem modSlot_guest1 (s : State) (t : TileRef) (i : Nat) (f : DescSlot → DescSlot) : (s.modSlot t i f).guest1 = s.guest1 := rfl
@[simp] theorem modSlot_tap (s : State) (t : TileRef) (i : Nat) (f : DescSlot → DescSlot) : (s.modSlot t i f).tap = s.tap := rfl
@[simp] theorem modSlot_out (s : State) (t : TileRef) (i : Nat) (f : DescSlot → DescSlot) : (s.modSlot t i f).out = s.out := rfl

@[simp] theorem finishSlot_pending (s : State) (t : TileRef) (i : Nat) (o : Outc) : (s.finishSlot t i o).pending = s.pending := rfl
@[simp] theorem finishSlot_free (s : State) (t : TileRef) (i : Nat) (o : Outc) : (s.finishSlot t i o).free = s.free := rfl
@[simp] theorem finishSlot_time (s : State) (t : TileRef) (i : Nat) (o : Outc) : (s.finishSlot t i o).time = s.time := rfl
@[simp] theorem finishSlot_tick (s : State) (t : TileRef) (i : Nat) (o : Outc) : (s.finishSlot t i o).tick = s.tick := rfl
@[simp] theorem finishSlot_units (s : State) (t : TileRef) (i : Nat) (o : Outc) : (s.finishSlot t i o).units = s.units := rfl
@[simp] theorem finishSlot_mem (s : State) (t : TileRef) (i : Nat) (o : Outc) : (s.finishSlot t i o).mem = s.mem := rfl
@[simp] theorem finishSlot_mesh (s : State) (t : TileRef) (i : Nat) (o : Outc) : (s.finishSlot t i o).mesh = s.mesh := rfl
@[simp] theorem finishSlot_cornis (s : State) (t : TileRef) (i : Nat) (o : Outc) : (s.finishSlot t i o).cornis = s.cornis := rfl
@[simp] theorem finishSlot_twin (s : State) (t : TileRef) (i : Nat) (o : Outc) : (s.finishSlot t i o).twin = s.twin := rfl
@[simp] theorem finishSlot_host (s : State) (t : TileRef) (i : Nat) (o : Outc) : (s.finishSlot t i o).host = s.host := rfl
@[simp] theorem finishSlot_events (s : State) (t : TileRef) (i : Nat) (o : Outc) : (s.finishSlot t i o).events = s.events := rfl
@[simp] theorem finishSlot_bu (s : State) (t : TileRef) (i : Nat) (o : Outc) : (s.finishSlot t i o).bu = s.bu := rfl
@[simp] theorem finishSlot_sec (s : State) (t : TileRef) (i : Nat) (o : Outc) : (s.finishSlot t i o).sec = s.sec := rfl
@[simp] theorem finishSlot_power (s : State) (t : TileRef) (i : Nat) (o : Outc) : (s.finishSlot t i o).power = s.power := rfl
@[simp] theorem finishSlot_therm (s : State) (t : TileRef) (i : Nat) (o : Outc) : (s.finishSlot t i o).therm = s.therm := rfl
@[simp] theorem finishSlot_fac (s : State) (t : TileRef) (i : Nat) (o : Outc) : (s.finishSlot t i o).fac = s.fac := rfl
@[simp] theorem finishSlot_guest0 (s : State) (t : TileRef) (i : Nat) (o : Outc) : (s.finishSlot t i o).guest0 = s.guest0 := rfl
@[simp] theorem finishSlot_guest1 (s : State) (t : TileRef) (i : Nat) (o : Outc) : (s.finishSlot t i o).guest1 = s.guest1 := rfl
@[simp] theorem finishSlot_tap (s : State) (t : TileRef) (i : Nat) (o : Outc) : (s.finishSlot t i o).tap = s.tap := rfl
@[simp] theorem finishSlot_out (s : State) (t : TileRef) (i : Nat) (o : Outc) : (s.finishSlot t i o).out = s.out := rfl

@[simp] theorem meshSend_pending (s : State) (t : TileRef) (n : Nat) (b : MeshBody) : (s.meshSend t n b).pending = s.pending := rfl
@[simp] theorem meshSend_free (s : State) (t : TileRef) (n : Nat) (b : MeshBody) : (s.meshSend t n b).free = s.free := rfl
@[simp] theorem meshSend_time (s : State) (t : TileRef) (n : Nat) (b : MeshBody) : (s.meshSend t n b).time = s.time := rfl
@[simp] theorem meshSend_tick (s : State) (t : TileRef) (n : Nat) (b : MeshBody) : (s.meshSend t n b).tick = s.tick := rfl
@[simp] theorem meshSend_units (s : State) (t : TileRef) (n : Nat) (b : MeshBody) : (s.meshSend t n b).units = s.units := rfl
@[simp] theorem meshSend_tiles (s : State) (t : TileRef) (n : Nat) (b : MeshBody) : (s.meshSend t n b).tiles = s.tiles := rfl
@[simp] theorem meshSend_mem (s : State) (t : TileRef) (n : Nat) (b : MeshBody) : (s.meshSend t n b).mem = s.mem := rfl
@[simp] theorem meshSend_cornis (s : State) (t : TileRef) (n : Nat) (b : MeshBody) : (s.meshSend t n b).cornis = s.cornis := rfl
@[simp] theorem meshSend_twin (s : State) (t : TileRef) (n : Nat) (b : MeshBody) : (s.meshSend t n b).twin = s.twin := rfl
@[simp] theorem meshSend_host (s : State) (t : TileRef) (n : Nat) (b : MeshBody) : (s.meshSend t n b).host = s.host := rfl
@[simp] theorem meshSend_events (s : State) (t : TileRef) (n : Nat) (b : MeshBody) : (s.meshSend t n b).events = s.events := rfl
@[simp] theorem meshSend_bu (s : State) (t : TileRef) (n : Nat) (b : MeshBody) : (s.meshSend t n b).bu = s.bu := rfl
@[simp] theorem meshSend_sec (s : State) (t : TileRef) (n : Nat) (b : MeshBody) : (s.meshSend t n b).sec = s.sec := rfl
@[simp] theorem meshSend_power (s : State) (t : TileRef) (n : Nat) (b : MeshBody) : (s.meshSend t n b).power = s.power := rfl
@[simp] theorem meshSend_therm (s : State) (t : TileRef) (n : Nat) (b : MeshBody) : (s.meshSend t n b).therm = s.therm := rfl
@[simp] theorem meshSend_fac (s : State) (t : TileRef) (n : Nat) (b : MeshBody) : (s.meshSend t n b).fac = s.fac := rfl
@[simp] theorem meshSend_guest0 (s : State) (t : TileRef) (n : Nat) (b : MeshBody) : (s.meshSend t n b).guest0 = s.guest0 := rfl
@[simp] theorem meshSend_guest1 (s : State) (t : TileRef) (n : Nat) (b : MeshBody) : (s.meshSend t n b).guest1 = s.guest1 := rfl
@[simp] theorem meshSend_tap (s : State) (t : TileRef) (n : Nat) (b : MeshBody) : (s.meshSend t n b).tap = s.tap := rfl
@[simp] theorem meshSend_out (s : State) (t : TileRef) (n : Nat) (b : MeshBody) : (s.meshSend t n b).out = s.out := rfl

@[simp] theorem modCmd_pending (s : State) (c : Cmd) (f : CmdSlot → CmdSlot) : (s.modCmd c f).pending = s.pending := rfl
@[simp] theorem modCmd_free (s : State) (c : Cmd) (f : CmdSlot → CmdSlot) : (s.modCmd c f).free = s.free := rfl
@[simp] theorem modCmd_time (s : State) (c : Cmd) (f : CmdSlot → CmdSlot) : (s.modCmd c f).time = s.time := rfl
@[simp] theorem modCmd_tick (s : State) (c : Cmd) (f : CmdSlot → CmdSlot) : (s.modCmd c f).tick = s.tick := rfl
@[simp] theorem modCmd_units (s : State) (c : Cmd) (f : CmdSlot → CmdSlot) : (s.modCmd c f).units = s.units := rfl
@[simp] theorem modCmd_tiles (s : State) (c : Cmd) (f : CmdSlot → CmdSlot) : (s.modCmd c f).tiles = s.tiles := rfl
@[simp] theorem modCmd_mem (s : State) (c : Cmd) (f : CmdSlot → CmdSlot) : (s.modCmd c f).mem = s.mem := rfl
@[simp] theorem modCmd_mesh (s : State) (c : Cmd) (f : CmdSlot → CmdSlot) : (s.modCmd c f).mesh = s.mesh := rfl
@[simp] theorem modCmd_cornis (s : State) (c : Cmd) (f : CmdSlot → CmdSlot) : (s.modCmd c f).cornis = s.cornis := rfl
@[simp] theorem modCmd_twin (s : State) (c : Cmd) (f : CmdSlot → CmdSlot) : (s.modCmd c f).twin = s.twin := rfl
@[simp] theorem modCmd_events (s : State) (c : Cmd) (f : CmdSlot → CmdSlot) : (s.modCmd c f).events = s.events := rfl
@[simp] theorem modCmd_bu (s : State) (c : Cmd) (f : CmdSlot → CmdSlot) : (s.modCmd c f).bu = s.bu := rfl
@[simp] theorem modCmd_sec (s : State) (c : Cmd) (f : CmdSlot → CmdSlot) : (s.modCmd c f).sec = s.sec := rfl
@[simp] theorem modCmd_power (s : State) (c : Cmd) (f : CmdSlot → CmdSlot) : (s.modCmd c f).power = s.power := rfl
@[simp] theorem modCmd_therm (s : State) (c : Cmd) (f : CmdSlot → CmdSlot) : (s.modCmd c f).therm = s.therm := rfl
@[simp] theorem modCmd_fac (s : State) (c : Cmd) (f : CmdSlot → CmdSlot) : (s.modCmd c f).fac = s.fac := rfl
@[simp] theorem modCmd_guest0 (s : State) (c : Cmd) (f : CmdSlot → CmdSlot) : (s.modCmd c f).guest0 = s.guest0 := rfl
@[simp] theorem modCmd_guest1 (s : State) (c : Cmd) (f : CmdSlot → CmdSlot) : (s.modCmd c f).guest1 = s.guest1 := rfl
@[simp] theorem modCmd_tap (s : State) (c : Cmd) (f : CmdSlot → CmdSlot) : (s.modCmd c f).tap = s.tap := rfl
@[simp] theorem modCmd_out (s : State) (c : Cmd) (f : CmdSlot → CmdSlot) : (s.modCmd c f).out = s.out := rfl

@[simp] theorem finish_pending (s : State) (c : Cmd) (k : Compl) : (s.finish c k).pending = s.pending := rfl
@[simp] theorem finish_free (s : State) (c : Cmd) (k : Compl) : (s.finish c k).free = s.free := rfl
@[simp] theorem finish_time (s : State) (c : Cmd) (k : Compl) : (s.finish c k).time = s.time := rfl
@[simp] theorem finish_tick (s : State) (c : Cmd) (k : Compl) : (s.finish c k).tick = s.tick := rfl
@[simp] theorem finish_units (s : State) (c : Cmd) (k : Compl) : (s.finish c k).units = s.units := rfl
@[simp] theorem finish_tiles (s : State) (c : Cmd) (k : Compl) : (s.finish c k).tiles = s.tiles := rfl
@[simp] theorem finish_mem (s : State) (c : Cmd) (k : Compl) : (s.finish c k).mem = s.mem := rfl
@[simp] theorem finish_mesh (s : State) (c : Cmd) (k : Compl) : (s.finish c k).mesh = s.mesh := rfl
@[simp] theorem finish_cornis (s : State) (c : Cmd) (k : Compl) : (s.finish c k).cornis = s.cornis := rfl
@[simp] theorem finish_twin (s : State) (c : Cmd) (k : Compl) : (s.finish c k).twin = s.twin := rfl
@[simp] theorem finish_events (s : State) (c : Cmd) (k : Compl) : (s.finish c k).events = s.events := rfl
@[simp] theorem finish_bu (s : State) (c : Cmd) (k : Compl) : (s.finish c k).bu = s.bu := rfl
@[simp] theorem finish_sec (s : State) (c : Cmd) (k : Compl) : (s.finish c k).sec = s.sec := rfl
@[simp] theorem finish_power (s : State) (c : Cmd) (k : Compl) : (s.finish c k).power = s.power := rfl
@[simp] theorem finish_therm (s : State) (c : Cmd) (k : Compl) : (s.finish c k).therm = s.therm := rfl
@[simp] theorem finish_fac (s : State) (c : Cmd) (k : Compl) : (s.finish c k).fac = s.fac := rfl
@[simp] theorem finish_guest0 (s : State) (c : Cmd) (k : Compl) : (s.finish c k).guest0 = s.guest0 := rfl
@[simp] theorem finish_guest1 (s : State) (c : Cmd) (k : Compl) : (s.finish c k).guest1 = s.guest1 := rfl
@[simp] theorem finish_tap (s : State) (c : Cmd) (k : Compl) : (s.finish c k).tap = s.tap := rfl
@[simp] theorem finish_out (s : State) (c : Cmd) (k : Compl) : (s.finish c k).out = s.out := rfl

@[simp] theorem finishWith_pending (s : State) (c : Cmd) (st rs : Code) : (s.finishWith c st rs).pending = s.pending := rfl
@[simp] theorem finishWith_free (s : State) (c : Cmd) (st rs : Code) : (s.finishWith c st rs).free = s.free := rfl
@[simp] theorem finishWith_time (s : State) (c : Cmd) (st rs : Code) : (s.finishWith c st rs).time = s.time := rfl
@[simp] theorem finishWith_tick (s : State) (c : Cmd) (st rs : Code) : (s.finishWith c st rs).tick = s.tick := rfl
@[simp] theorem finishWith_units (s : State) (c : Cmd) (st rs : Code) : (s.finishWith c st rs).units = s.units := rfl
@[simp] theorem finishWith_tiles (s : State) (c : Cmd) (st rs : Code) : (s.finishWith c st rs).tiles = s.tiles := rfl
@[simp] theorem finishWith_mem (s : State) (c : Cmd) (st rs : Code) : (s.finishWith c st rs).mem = s.mem := rfl
@[simp] theorem finishWith_mesh (s : State) (c : Cmd) (st rs : Code) : (s.finishWith c st rs).mesh = s.mesh := rfl
@[simp] theorem finishWith_cornis (s : State) (c : Cmd) (st rs : Code) : (s.finishWith c st rs).cornis = s.cornis := rfl
@[simp] theorem finishWith_twin (s : State) (c : Cmd) (st rs : Code) : (s.finishWith c st rs).twin = s.twin := rfl
@[simp] theorem finishWith_events (s : State) (c : Cmd) (st rs : Code) : (s.finishWith c st rs).events = s.events := rfl
@[simp] theorem finishWith_bu (s : State) (c : Cmd) (st rs : Code) : (s.finishWith c st rs).bu = s.bu := rfl
@[simp] theorem finishWith_sec (s : State) (c : Cmd) (st rs : Code) : (s.finishWith c st rs).sec = s.sec := rfl
@[simp] theorem finishWith_power (s : State) (c : Cmd) (st rs : Code) : (s.finishWith c st rs).power = s.power := rfl
@[simp] theorem finishWith_therm (s : State) (c : Cmd) (st rs : Code) : (s.finishWith c st rs).therm = s.therm := rfl
@[simp] theorem finishWith_fac (s : State) (c : Cmd) (st rs : Code) : (s.finishWith c st rs).fac = s.fac := rfl
@[simp] theorem finishWith_guest0 (s : State) (c : Cmd) (st rs : Code) : (s.finishWith c st rs).guest0 = s.guest0 := rfl
@[simp] theorem finishWith_guest1 (s : State) (c : Cmd) (st rs : Code) : (s.finishWith c st rs).guest1 = s.guest1 := rfl
@[simp] theorem finishWith_tap (s : State) (c : Cmd) (st rs : Code) : (s.finishWith c st rs).tap = s.tap := rfl
@[simp] theorem finishWith_out (s : State) (c : Cmd) (st rs : Code) : (s.finishWith c st rs).out = s.out := rfl

@[simp] theorem finishOk_pending (s : State) (c : Cmd) (a b : Word) : (s.finishOk c a b).pending = s.pending := rfl
@[simp] theorem finishOk_free (s : State) (c : Cmd) (a b : Word) : (s.finishOk c a b).free = s.free := rfl
@[simp] theorem finishOk_time (s : State) (c : Cmd) (a b : Word) : (s.finishOk c a b).time = s.time := rfl
@[simp] theorem finishOk_tick (s : State) (c : Cmd) (a b : Word) : (s.finishOk c a b).tick = s.tick := rfl
@[simp] theorem finishOk_units (s : State) (c : Cmd) (a b : Word) : (s.finishOk c a b).units = s.units := rfl
@[simp] theorem finishOk_tiles (s : State) (c : Cmd) (a b : Word) : (s.finishOk c a b).tiles = s.tiles := rfl
@[simp] theorem finishOk_mem (s : State) (c : Cmd) (a b : Word) : (s.finishOk c a b).mem = s.mem := rfl
@[simp] theorem finishOk_mesh (s : State) (c : Cmd) (a b : Word) : (s.finishOk c a b).mesh = s.mesh := rfl
@[simp] theorem finishOk_cornis (s : State) (c : Cmd) (a b : Word) : (s.finishOk c a b).cornis = s.cornis := rfl
@[simp] theorem finishOk_twin (s : State) (c : Cmd) (a b : Word) : (s.finishOk c a b).twin = s.twin := rfl
@[simp] theorem finishOk_events (s : State) (c : Cmd) (a b : Word) : (s.finishOk c a b).events = s.events := rfl
@[simp] theorem finishOk_bu (s : State) (c : Cmd) (a b : Word) : (s.finishOk c a b).bu = s.bu := rfl
@[simp] theorem finishOk_sec (s : State) (c : Cmd) (a b : Word) : (s.finishOk c a b).sec = s.sec := rfl
@[simp] theorem finishOk_power (s : State) (c : Cmd) (a b : Word) : (s.finishOk c a b).power = s.power := rfl
@[simp] theorem finishOk_therm (s : State) (c : Cmd) (a b : Word) : (s.finishOk c a b).therm = s.therm := rfl
@[simp] theorem finishOk_fac (s : State) (c : Cmd) (a b : Word) : (s.finishOk c a b).fac = s.fac := rfl
@[simp] theorem finishOk_guest0 (s : State) (c : Cmd) (a b : Word) : (s.finishOk c a b).guest0 = s.guest0 := rfl
@[simp] theorem finishOk_guest1 (s : State) (c : Cmd) (a b : Word) : (s.finishOk c a b).guest1 = s.guest1 := rfl
@[simp] theorem finishOk_tap (s : State) (c : Cmd) (a b : Word) : (s.finishOk c a b).tap = s.tap := rfl
@[simp] theorem finishOk_out (s : State) (c : Cmd) (a b : Word) : (s.finishOk c a b).out = s.out := rfl

@[simp] theorem modRing_pending (s : State) (r : Nat) (f : Ring → Ring) : (s.modRing r f).pending = s.pending := rfl
@[simp] theorem modRing_free (s : State) (r : Nat) (f : Ring → Ring) : (s.modRing r f).free = s.free := rfl
@[simp] theorem modRing_time (s : State) (r : Nat) (f : Ring → Ring) : (s.modRing r f).time = s.time := rfl
@[simp] theorem modRing_tick (s : State) (r : Nat) (f : Ring → Ring) : (s.modRing r f).tick = s.tick := rfl
@[simp] theorem modRing_units (s : State) (r : Nat) (f : Ring → Ring) : (s.modRing r f).units = s.units := rfl
@[simp] theorem modRing_tiles (s : State) (r : Nat) (f : Ring → Ring) : (s.modRing r f).tiles = s.tiles := rfl
@[simp] theorem modRing_mem (s : State) (r : Nat) (f : Ring → Ring) : (s.modRing r f).mem = s.mem := rfl
@[simp] theorem modRing_mesh (s : State) (r : Nat) (f : Ring → Ring) : (s.modRing r f).mesh = s.mesh := rfl
@[simp] theorem modRing_cornis (s : State) (r : Nat) (f : Ring → Ring) : (s.modRing r f).cornis = s.cornis := rfl
@[simp] theorem modRing_twin (s : State) (r : Nat) (f : Ring → Ring) : (s.modRing r f).twin = s.twin := rfl
@[simp] theorem modRing_events (s : State) (r : Nat) (f : Ring → Ring) : (s.modRing r f).events = s.events := rfl
@[simp] theorem modRing_bu (s : State) (r : Nat) (f : Ring → Ring) : (s.modRing r f).bu = s.bu := rfl
@[simp] theorem modRing_sec (s : State) (r : Nat) (f : Ring → Ring) : (s.modRing r f).sec = s.sec := rfl
@[simp] theorem modRing_power (s : State) (r : Nat) (f : Ring → Ring) : (s.modRing r f).power = s.power := rfl
@[simp] theorem modRing_therm (s : State) (r : Nat) (f : Ring → Ring) : (s.modRing r f).therm = s.therm := rfl
@[simp] theorem modRing_fac (s : State) (r : Nat) (f : Ring → Ring) : (s.modRing r f).fac = s.fac := rfl
@[simp] theorem modRing_guest0 (s : State) (r : Nat) (f : Ring → Ring) : (s.modRing r f).guest0 = s.guest0 := rfl
@[simp] theorem modRing_guest1 (s : State) (r : Nat) (f : Ring → Ring) : (s.modRing r f).guest1 = s.guest1 := rfl
@[simp] theorem modRing_tap (s : State) (r : Nat) (f : Ring → Ring) : (s.modRing r f).tap = s.tap := rfl
@[simp] theorem modRing_out (s : State) (r : Nat) (f : Ring → Ring) : (s.modRing r f).out = s.out := rfl

@[simp] theorem modPort_pending (s : State) (p : Nat) (f : Port → Port) : (s.modPort p f).pending = s.pending := rfl
@[simp] theorem modPort_free (s : State) (p : Nat) (f : Port → Port) : (s.modPort p f).free = s.free := rfl
@[simp] theorem modPort_time (s : State) (p : Nat) (f : Port → Port) : (s.modPort p f).time = s.time := rfl
@[simp] theorem modPort_tick (s : State) (p : Nat) (f : Port → Port) : (s.modPort p f).tick = s.tick := rfl
@[simp] theorem modPort_units (s : State) (p : Nat) (f : Port → Port) : (s.modPort p f).units = s.units := rfl
@[simp] theorem modPort_tiles (s : State) (p : Nat) (f : Port → Port) : (s.modPort p f).tiles = s.tiles := rfl
@[simp] theorem modPort_mem (s : State) (p : Nat) (f : Port → Port) : (s.modPort p f).mem = s.mem := rfl
@[simp] theorem modPort_mesh (s : State) (p : Nat) (f : Port → Port) : (s.modPort p f).mesh = s.mesh := rfl
@[simp] theorem modPort_twin (s : State) (p : Nat) (f : Port → Port) : (s.modPort p f).twin = s.twin := rfl
@[simp] theorem modPort_host (s : State) (p : Nat) (f : Port → Port) : (s.modPort p f).host = s.host := rfl
@[simp] theorem modPort_events (s : State) (p : Nat) (f : Port → Port) : (s.modPort p f).events = s.events := rfl
@[simp] theorem modPort_bu (s : State) (p : Nat) (f : Port → Port) : (s.modPort p f).bu = s.bu := rfl
@[simp] theorem modPort_sec (s : State) (p : Nat) (f : Port → Port) : (s.modPort p f).sec = s.sec := rfl
@[simp] theorem modPort_power (s : State) (p : Nat) (f : Port → Port) : (s.modPort p f).power = s.power := rfl
@[simp] theorem modPort_therm (s : State) (p : Nat) (f : Port → Port) : (s.modPort p f).therm = s.therm := rfl
@[simp] theorem modPort_fac (s : State) (p : Nat) (f : Port → Port) : (s.modPort p f).fac = s.fac := rfl
@[simp] theorem modPort_guest0 (s : State) (p : Nat) (f : Port → Port) : (s.modPort p f).guest0 = s.guest0 := rfl
@[simp] theorem modPort_guest1 (s : State) (p : Nat) (f : Port → Port) : (s.modPort p f).guest1 = s.guest1 := rfl
@[simp] theorem modPort_tap (s : State) (p : Nat) (f : Port → Port) : (s.modPort p f).tap = s.tap := rfl
@[simp] theorem modPort_out (s : State) (p : Nat) (f : Port → Port) : (s.modPort p f).out = s.out := rfl

@[simp] theorem bump_pending (s : State) (l : List Nat) : (s.bump l).pending = s.pending := rfl
@[simp] theorem bump_free (s : State) (l : List Nat) : (s.bump l).free = s.free := rfl
@[simp] theorem bump_time (s : State) (l : List Nat) : (s.bump l).time = s.time := rfl
@[simp] theorem bump_tick (s : State) (l : List Nat) : (s.bump l).tick = s.tick := rfl
@[simp] theorem bump_tiles (s : State) (l : List Nat) : (s.bump l).tiles = s.tiles := rfl
@[simp] theorem bump_mem (s : State) (l : List Nat) : (s.bump l).mem = s.mem := rfl
@[simp] theorem bump_mesh (s : State) (l : List Nat) : (s.bump l).mesh = s.mesh := rfl
@[simp] theorem bump_cornis (s : State) (l : List Nat) : (s.bump l).cornis = s.cornis := rfl
@[simp] theorem bump_twin (s : State) (l : List Nat) : (s.bump l).twin = s.twin := rfl
@[simp] theorem bump_host (s : State) (l : List Nat) : (s.bump l).host = s.host := rfl
@[simp] theorem bump_events (s : State) (l : List Nat) : (s.bump l).events = s.events := rfl
@[simp] theorem bump_bu (s : State) (l : List Nat) : (s.bump l).bu = s.bu := rfl
@[simp] theorem bump_sec (s : State) (l : List Nat) : (s.bump l).sec = s.sec := rfl
@[simp] theorem bump_power (s : State) (l : List Nat) : (s.bump l).power = s.power := rfl
@[simp] theorem bump_therm (s : State) (l : List Nat) : (s.bump l).therm = s.therm := rfl
@[simp] theorem bump_fac (s : State) (l : List Nat) : (s.bump l).fac = s.fac := rfl
@[simp] theorem bump_guest0 (s : State) (l : List Nat) : (s.bump l).guest0 = s.guest0 := rfl
@[simp] theorem bump_guest1 (s : State) (l : List Nat) : (s.bump l).guest1 = s.guest1 := rfl
@[simp] theorem bump_tap (s : State) (l : List Nat) : (s.bump l).tap = s.tap := rfl
@[simp] theorem bump_out (s : State) (l : List Nat) : (s.bump l).out = s.out := rfl

@[simp] theorem logEvent_pending (s : State) (e : Event) : (s.logEvent e).pending = s.pending := rfl
@[simp] theorem logEvent_free (s : State) (e : Event) : (s.logEvent e).free = s.free := rfl
@[simp] theorem logEvent_time (s : State) (e : Event) : (s.logEvent e).time = s.time := rfl
@[simp] theorem logEvent_tick (s : State) (e : Event) : (s.logEvent e).tick = s.tick := rfl
@[simp] theorem logEvent_units (s : State) (e : Event) : (s.logEvent e).units = s.units := rfl
@[simp] theorem logEvent_tiles (s : State) (e : Event) : (s.logEvent e).tiles = s.tiles := rfl
@[simp] theorem logEvent_mem (s : State) (e : Event) : (s.logEvent e).mem = s.mem := rfl
@[simp] theorem logEvent_mesh (s : State) (e : Event) : (s.logEvent e).mesh = s.mesh := rfl
@[simp] theorem logEvent_cornis (s : State) (e : Event) : (s.logEvent e).cornis = s.cornis := rfl
@[simp] theorem logEvent_twin (s : State) (e : Event) : (s.logEvent e).twin = s.twin := rfl
@[simp] theorem logEvent_host (s : State) (e : Event) : (s.logEvent e).host = s.host := rfl
@[simp] theorem logEvent_bu (s : State) (e : Event) : (s.logEvent e).bu = s.bu := rfl
@[simp] theorem logEvent_sec (s : State) (e : Event) : (s.logEvent e).sec = s.sec := rfl
@[simp] theorem logEvent_power (s : State) (e : Event) : (s.logEvent e).power = s.power := rfl
@[simp] theorem logEvent_therm (s : State) (e : Event) : (s.logEvent e).therm = s.therm := rfl
@[simp] theorem logEvent_fac (s : State) (e : Event) : (s.logEvent e).fac = s.fac := rfl
@[simp] theorem logEvent_guest0 (s : State) (e : Event) : (s.logEvent e).guest0 = s.guest0 := rfl
@[simp] theorem logEvent_guest1 (s : State) (e : Event) : (s.logEvent e).guest1 = s.guest1 := rfl
@[simp] theorem logEvent_tap (s : State) (e : Event) : (s.logEvent e).tap = s.tap := rfl
@[simp] theorem logEvent_out (s : State) (e : Event) : (s.logEvent e).out = s.out := rfl

/-! ### Tiles -/

/-- A tile just replaced reads as given. -/
@[simp] theorem tile_setTile_same (s : State) (t : TileRef) (x : Tile) : (s.setTile t x).tile t = x := by
  simp [State.setTile, State.tile]

/-- Replacing a tile leaves the others. -/
theorem tile_setTile_other (s : State) {t u : TileRef} (x : Tile) (h : u ≠ t) : (s.setTile t x).tile u = s.tile u := by
  simp [State.setTile, State.tile, kvGet_kvPut_other _ _ _ h]

/-- A tile just changed reads as changed. -/
@[simp] theorem tile_modTile_same (s : State) (t : TileRef) (f : Tile → Tile) : (s.modTile t f).tile t = f (s.tile t) := by
  simp [State.modTile]

/-- Changing a tile leaves the others. -/
theorem tile_modTile_other (s : State) {t u : TileRef} (f : Tile → Tile) (h : u ≠ t) : (s.modTile t f).tile u = s.tile u := by
  simp [State.modTile, tile_setTile_other _ _ h]

/-- A descriptor slot just set is found. -/
@[simp] theorem slot_setSlot_same (x : Tile) (i : Nat) (d : DescSlot) : (x.setSlot i d).slot i = some d := by
  simp [Tile.setSlot, Tile.slot, kvFind_kvPut_same]

/-- Setting a descriptor slot leaves the others. -/
theorem slot_setSlot_other (x : Tile) {i j : Nat} (d : DescSlot) (h : j ≠ i) : (x.setSlot i d).slot j = x.slot j := by
  simp [Tile.setSlot, Tile.slot, kvFind_kvPut_other _ _ h]

/-! ### Commands -/

/-- Ending a command leaves every slot but its own started one (R392). -/
theorem finish_slots (s : State) (c : Cmd) (k : Compl) :
    (s.finish c k).host.slots = s.host.slots.map fun z => if z.cmd = c && z.ph = .started then { z with ph := .finished, compl := k } else z := rfl

/-- Ending a command with a status and a reason ends it with that completion. -/
theorem finishWith_eq (s : State) (c : Cmd) (st rs : Code) : s.finishWith c st rs = s.finish c { status := st, reason := rs } := rfl

/-- Ending a command OK ends it with two results. -/
theorem finishOk_eq (s : State) (c : Cmd) (a b : Word) : s.finishOk c a b = s.finish c { result0 := a, result1 := b } := rfl

/-- What a started command does is the effect of its row. -/
theorem onCmd_started {s : State} {c : Cmd} {op : Nat} (h : s.started c = true) (ho : c.opcode.toNat = op) (hb : s.brassRuns = true)
    (f : State → State) : s.onCmd op c f = f s := by
  simp [State.onCmd, h, ho, hb]

/-- A command that is not started, or another opcode's, or one that Brass no longer runs, changes nothing (R25, R388). -/
theorem onCmd_idle {s : State} {c : Cmd} {op : Nat} (h : ¬(c.opcode.toNat = op ∧ s.started c = true ∧ s.brassRuns = true))
    (f : State → State) : s.onCmd op c f = s := by
  unfold State.onCmd
  rw [if_neg]
  simpa [and_assoc] using h

/-- Return data of 16 bytes or fewer ends the command with it in the results (R391). -/
theorem finishData_short {bytes : List Byte} (h : bytes.length ≤ 16) (s : State) (c : Cmd) (k : Compl) :
    s.finishData c bytes k = s.finish c { k with result0 := w64 (natLE (bytes.take 8)), result1 := w64 (natLE (bytes.drop 8)) } := by
  simp [State.finishData, h]

/-- Return data with room at `RET` ends the command with the data to be written there (R391). -/
theorem finishData_long {bytes : List Byte} {c : Cmd} (h : 16 < bytes.length) (hr : bytes.length ≤ c.retLen.toNat) (h0 : c.ret ≠ 0)
    (s : State) (k : Compl) :
    s.finishData c bytes k = s.modCmd c fun z => { z with ph := .finished, ret := bytes, compl := k } := by
  have h1 : ¬bytes.length ≤ 16 := by omega
  have h2 : ¬c.retLen.toNat < bytes.length := by omega
  rw [State.finishData, if_neg h1, if_neg]
  simp [h2]
  exact h0

end Sys2Proof.Laws
end

