-- ==== Sys2Proof/Laws/Commands.lean ====
section
/-! SUPPORT. Sys2Proof/Laws/Commands.lean: what a started Normor command does, by the shape of the command: on the package, on one
named unit, or replicated over own units. -/

namespace Sys2Proof.Laws

open Sys2Proof.Machine Sys2Proof.Safety

/-- A started command does its work. -/
theorem onCmd_of {c : Cmd} {op : Nat} {s : State} (h : Started c op s) (f : State → State) : s.onCmd op c f = f s := by
  simp [State.onCmd, h.1, h.2.1, h.2.2]

/-- A command for a named own unit does its work here. -/
theorem runAt_here {c : Cmd} {s : State} (h : Here c s) (f : State → State) : s.runAt c f = f s := by
  simp only [Here] at h
  simp [State.runAt, h]

/-- A replicated command on an own unit completes with what that unit gives. -/
theorem runReplicatedOver_own {c : Cmd} {s : State} (h : Own c s) (l : List (BitVec 32 × Path))
    (leaf : State → BitVec 32 → State × LeafOut) :
    s.runReplicatedOver c l leaf = answeredBy (leaf s c.unit).1 c (leaf s c.unit).2 := by
  have h1 : ¬((decide (unitLevel c.unit ≤ 3) || decide (unitLevel c.unit = 7)) && decide (unitPkg c.unit ≠ s.self)) = true := by
    simp [h.2]
  have h2 : (decide (unitLevel c.unit ≤ 3) || (decide (unitLevel c.unit = 7) && s.ownOnly c.unit)) = true := by
    simpa using h.1
  simp only [State.runReplicatedOver, answeredBy, if_neg h1, if_pos h2]

/-- A replicated command on an own unit completes with what that unit gives. -/
theorem runReplicated_own {c : Cmd} {s : State} (h : Own c s) (leaf : State → BitVec 32 → State × LeafOut) :
    s.runReplicated c leaf = answeredBy (leaf s c.unit).1 c (leaf s c.unit).2 := runReplicatedOver_own h _ _

/-- A command over packages on an own unit completes with what the package does. -/
theorem runPackages_own {c : Cmd} {s : State} (h : Own c s) (leaf : State → State × Outc × List Byte) :
    s.runPackages c leaf = answered (leaf s).1 c (leaf s).2.1 (leaf s).2.2 := runReplicatedOver_own h _ _

/-- A command over tiles on an own unit completes with the combined outcome of its tiles (R81, R84, R86). -/
theorem runTiles_own {c : Cmd} {s : State} (h : Own c s) (leaf : State → TileRef → State × Outc) :
    let r := State.replicate leaf (s.depth + 2) s c.unit
    s.runTiles c leaf = answeredBy r.1 c { o := r.2.1, parts := r.2.2 } := runReplicated_own h _

/-- Without data an answer finishes the command. -/
@[simp] theorem answered_nil (s : State) (c : Cmd) (o : Outc) :
    answered s c o [] = (s.setDetail c [([(0, 1, c.unit)], o)]).finish c
      { status := o.status, reason := o.reason, map := o.map, detail := true } := rfl

end Sys2Proof.Laws
end

