-- ==== Sys2Proof/Tests/Slice0.lean ====
section
/-! SUPPORT. Sys2Proof/Tests/Slice0.lean: the checks of WellFormed on ill-formed commands, and states that meet the hypotheses of
the statements. -/

namespace Sys2Proof.Tests

set_option Elab.async false

open Sys2Proof Sys2Proof.Machine Sys2Proof.Safety

/-- A package that has come up, its host attached, with no tile in service. -/
def lit : State :=
  { State.reset with
    bu := { State.reset.bu with powered := true, good := true, s0 := true, done := 13, ready := true }
    host := { State.reset.host with
      linkUp := true, configReady := true, barsOn := true, busMaster := true, msixOn := true, perst := false, ringsOpen := true } }

/-- The same with tile 0, in stack 0, as given. -/
def litTile (x : Tile) : State :=
  { lit with tiles := [(0, x)], units := { lit.units with stackSt := [(0, (.ready, 0))], package := .ready } }

/-- A command for the package, with room for its return data. -/
def cmdOf (op : Nat) : Cmd := { opcode := BitVec.ofNat 16 op, unit := pkgUnit 0, ret := 0x1000, retLen := 0xFFFFFF }

/-- A state in which a command has started. -/
def withCmd (s : State) (c : Cmd) : State := { s with host := { s.host with slots := [{ cmd := c, ph := .started }] } }

/-- A translation of DVAs 0 to 2^30 - 1 to the first GiB of the package, readable, writable and computable. -/
def flatEntry (ctx : Nat) : XEntry := { ctx := ctx, dva := 0, size := 30, base := 0, prot := 0xB, leaf := 4096 }

/-- Tile 0 with translations of context 0 held. -/
def flatTile : Tile := { ({} : Tile) with unit := .ready, xlt := [flatEntry 0] }

/-- A package with tile 0 as given and context 0 enabled. -/
def mapped (x : Tile) : State :=
  { litTile x with units := { (litTile x).units with contexts := [(0, { root := 4096, pos := 256 })] } }

/-- Put bytes at an address of the stacks. -/
def poke (s : State) (a : Nat) (b : List Byte) : State := { s with mem := cellWrite s.mem a b }

/-- A sequence header at DVA 0: one plane, one head of 64, one block of 16 tokens, the directory at 64, the entries at 128;
its plane's home is tile 0. -/
def kvHead (s : State) : State :=
  poke (poke s 0 (bytesLE 8 5 ++ bytesLE 4 7 ++ bytesLE 4 (1 + 256) ++ bytesLE 8 1 ++ bytesLE 8 128 ++ bytesLE 8 64))
    (64 + 16) (bytesLE 4 (tileUnit 0 0).toNat)

/-- A command fetched and started on a package that has come up: it is started, and its unit is the package. -/
theorem test_started (op : Nat) (h : op < 2 ^ 16) :
    Started (cmdOf op) op (withCmd lit (cmdOf op)) ∧ Own (cmdOf op) (withCmd lit (cmdOf op))
      ∧ Here (cmdOf op) (withCmd lit (cmdOf op)) := by
  have h1 : unitLevel (pkgUnit 0) = 3 ∧ unitPkg (pkgUnit 0) = lit.self := by decide
  refine ⟨⟨?_, ?_, by show lit.brassRuns = true; decide +kernel⟩, ⟨Or.inl (by simp [cmdOf, h1.1]), h1.2⟩, h1.2⟩
  · simp only [cmdOf, BitVec.toNat_ofNat]
    omega
  · simp [State.started, withCmd]

/-- The work answers, and the answer and state are as asked. -/
def okIs {ε α : Type} (r : Except ε α × State) (p : α → State → Bool) : Bool :=
  match r with
  | (.ok a, s) => p a s
  | (.error _, _) => false

/-- The work fails as asked. -/
def errIs {ε α : Type} (r : Except ε α × State) (p : ε → Bool) : Bool :=
  match r with
  | (.ok _, _) => false
  | (.error e, _) => p e

/-- A time root with its tree on, with or without a schedule. -/
def rootPkg (sched : Bool) : State :=
  { lit with time := { lit.time with treeOn := true, root := lit.self }, tick := { lit.tick with hasSchedule := sched } }

/-- A command on tile 0. -/
def tileCmd (op : Nat) : Cmd := { cmdOf op with unit := tileUnit 0 0 }

/-- A descriptor of an opcode with fields: byte, low bit and value of each. -/
def descWith (op : Nat) (l : List (Nat × Nat × Nat)) : BitVec 512 :=
  BitVec.ofNat 512 (op + (l.map fun f => f.2.2 * 2 ^ (8 * f.1 + f.2.1)).sum)

/-- A vector tensor of `n` elements of a format at a DVA. -/
def vecTensor (base fmt n : Nat) : BitVec 512 := descWith 0 [(0, 0, base), (16, 0, fmt), (17, 0, 1), (24, 0, n), (44, 0, 1)]

/-- A NOP. -/
def nopDesc : BitVec 512 := descWith 1 []

/-- A tile that runs a plan of one descriptor. -/
def runTile (d : BitVec 512) : Tile :=
  { ({} : Tile) with unit := .ready, running := some { step := 1, job := 0, descs := [d], energyUj := 0 }, planStep := 1 }

/-- A slot of that plan's descriptor in a phase. -/
def slotOf (d : BitVec 512) (ph : SlotPh) : DescSlot := { desc := d, index := some 0, job := 0, step := 1, wall := 1, ph := ph }

/-- The next state of an answer. -/
def nextOf (o : Host.Outcome State Fault Refusal) : State :=
  match o with
  | .next t => t
  | _ => State.reset

/-- Slot 0 of a tile that runs a plan, queued. -/
def queuedPkg (d : BitVec 512) : State := litTile { runTile d with slots := [(0, slotOf d .queued)] }

/-- A slot as it is dispatched is quiet. -/
theorem test_quiet (d : BitVec 512) (ph : SlotPh) : Quiet (slotOf d ph) := ⟨rfl, rfl, rfl, rfl⟩

/-- The port to the twin is up. -/
def withTwin (s : State) : State :=
  { s with cornis := { s.cornis with ports := s.cornis.ports.set 8 { ((s.cornis.ports[8]?).getD {}) with state := .up } } }

/-- Port 0 of a package that has come up, in a state, its groups too. -/
def portPkg (st : PortSt) (gst : GroupSt) : State :=
  { lit with cornis := { lit.cornis with
      ports := lit.cornis.ports.set 0 { ((lit.cornis.ports[0]?).getD {}) with state := st }
      groups := lit.cornis.groups.map fun g => { g with state := gst } } }

/-- Tables at 4096 on that map DVAs 0 to 2^30 - 1 to the first GiB of the package: readable, writable, remote and mirrored. -/
def tables (s : State) : State := poke (poke (poke s 4096 (bytesLE 8 8193)) 8192 (bytesLE 8 12289)) 12288 (bytesLE 8 207)

/-- The twin in a state, its port up, one page mapped here by the tables at 4096 on, remote, writable and mirrored. -/
def pairPkg (st : PairSt) : State :=
  let s := tables (withTwin (mapped { ({} : Tile) with unit := .ready }))
  { s with twin := { s.twin with state := st } }

/-- Time roots with tile 0 as given and a schedule whose base is 1 s ahead. -/
def tickPkg (x : Tile) (done : Bool) : State :=
  { litTile x with
    time := (rootPkg true).time
    tick := { (rootPkg true).tick with sched := { baseStep := 0, baseTime := 1000000000, periodUs := 20000 }, sampled := true, sampleDone := done } }

/-- A package with a tile whose first aperture window is open on its own memory and whose second on package 1, its twin. -/
def windowed : State :=
  let s := withTwin (litTile { ({} : Tile) with unit := .ready })
  { s with host := { s.host with wins := (s.host.wins.set 0 (true, 0)).set 1 (true, BitVec.ofNat 35 (2 ^ 25)) } }

/-! ### Well-formedness: each check refuses an ill-formed term -/

/-- Every command of a list is well-formed. -/
def wellFormed (l : List Instr) : Bool := l.all Instr.wf

/-- Every command of a list is ill-formed. -/
def illFormed (l : List Instr) : Bool := l.all fun i => !i.wf

/-- Numbers of tiles, slots, pages, regions, layers, banks, connections and sequence tags beyond their ranges. -/
theorem test_wf_tiles :
    wellFormed [.nop 1535 255, .pageVerdict 0 (2 ^ 20 - 1) 0 .clean, .reinitialisationEnd 0 31, .refresh 0 15 15, .pewterSlice 0 255 {}] = true
      ∧ illFormed [.nop 1536 0, .nop 0 256, .pageVerdict 0 (2 ^ 20) 0 .clean, .reinitialisationEnd 0 32, .refresh 0 16 0, .refresh 0 0 16,
        .pewterSlice 0 256 {}, .pewterSequenceComplete 0 256, .connectionSpareSwitch 0 0 128] = true := by decide +kernel

/-- Rings, BARs, sites, ports, stages, stacks, lane groups and links beyond theirs. -/
theorem test_wf_package :
    wellFormed [.commandFetch 15, .completionPost 1279 0, .registerWrite 2 0 [], .guestSilence 1, .stageRetry 11] = true
      ∧ illFormed [.commandFetch 16, .completionPost 48 0, .completionPost 1280 0, .registerWrite 1 0 [], .guestSilence 2, .stageRetry 12,
        .flitReceive 9 0 true 0, .bringupS1 true [422] [], .bringupS2 [] [38], .bringupS9 [] [] [] [16]] = true := by decide +kernel

/-- A command under another row's code, or from no ring; a message and a time frame that no package sends. -/
theorem test_wf_terms :
    wellFormed [.tickGet (cmdOf 0x0301), .read { op := 1, src := 1, dst := 0, txn := 0 }] = true
      ∧ illFormed [.tickGet (cmdOf 0x0302), .tickGet { cmdOf 0x0301 with ring := 16 }, .time { port := 9 }, .time { root := 1024 },
        .time { rootHops := 2 ^ 11 }, .read { op := 1, src := 1024, dst := 0, txn := 0 },
        .read { op := 1, src := 0, dst := 0, txn := 0, vc := 4 }] = true := by decide +kernel
/-- A queue with a command in front, and an empty one. -/
theorem test_step_front : ({ lit with pending := [.tick] } : State).pending = .tick :: [] ∧ lit.pending = [] := ⟨rfl, rfl⟩

/-- A command with every field set meets the hypotheses, and its slot reads back. -/
theorem test_slot_roundtrip :
    let c : Cmd := { ring := 3, opcode := 0x0310, tag := 0xBEEF, unit := 0x60080000, notify := true, order := true, devAddr := true,
                     reserved := 0x1FFFFFFF, retLen := 0xFEDCBA98, ret := 0x0123456789ABCDEF, p0 := 1, p1 := 0x8000000000000000,
                     p2 := 0xFFFFFFFFFFFFFFFF, p3 := 0x1122334455667788, p4 := 5 }
    c.reserved.toNat < 2 ^ 29 ∧ decodeCmd c.ring (BitVec.ofNat 512 (natLE (encodeCmd c))) = c := by decide +kernel

/-- A slot written out by the places of R389: opcode 0x0902 at byte 0, tag 0x0102 at 2, flags ORDER at byte 8 bit 1, P1 = 1 at byte 32. -/
theorem test_slot_fields :
    let c := decodeCmd 0 (BitVec.ofNat 512 (0x0902 + 0x0102 * 2 ^ 16 + 2 * 2 ^ 64 + 1 * 2 ^ 256))
    c.opcode = 0x0902 ∧ c.tag = 0x0102 ∧ c.order = true ∧ c.notify = false ∧ c.p0 = 0 ∧ c.p1 = 1 := by decide +kernel

/-- The boundary values of each range. -/
theorem test_units_bounds :
    (unitPkg (tileUnit 1023 1535) = 1023 ∧ unitTileRef (tileUnit 1023 1535) = 1535) ∧ unitStack (stackUnit 1 23) = 23
      ∧ unitPair (pairUnit 511) = 511 ∧ unitGroup (groupUnit 1023 4095) = 4095 ∧ unitLevel 0 = 0 ∧ unitLevel 0xC0000000 = 6 := by
  decide
/-- A tile of package 3, stack 2, tile 5, written out bit by bit (R12): level 1, pair 1, member 1, stack 2, tile 5. -/
theorem test_unit_word : tileUnit 3 (64 * 2 + 5) = 0b00100000000110001000010100000000 := by decide

/-- Two bytes of 0x1234. -/
theorem test_bytes_le : bytesLE 2 0x1234 = [0x34, 0x12] ∧ natLE [0x34, 0x12] = 0x1234 := by decide

/-- A canonical store, and one that is not. -/
theorem test_memory_wf : Memory.wf [(3, 1), (5, 2)] = true ∧ Memory.wf [(5, 1), (3, 2)] = false ∧ Memory.wf [(3, 0)] = false := by decide
/-- A zero byte written leaves the list; reads at and beside the written bytes. -/
theorem test_memory_write : cellWrite [(5, 7)] 4 [1, 0] = [(4, 1)] ∧ cellGet [(4, 1)] 4 = 1 ∧ cellGet [(4, 1)] 5 = 0 := by decide

/-- 10 granules over weights 1, 0, 2: 3, 0, 6 and the remaining one to the first. -/
theorem test_shares : shareLens 10 [1, 0, 2] = [4, 0, 6] ∧ shareStarts 0 [4, 0, 6] = [0, 4, 4] ∧ 0 < [1, 0, 2].sum ∧ [0, 0].sum = 0 := by
  decide

/-- Members of each row of the table. -/
theorem test_combine :
    (combine 2 []).status = St.notReady ∧ (combine 2 [(0, {}), (1, outc St.throttled 0)]).status = St.throttled
      ∧ (combine 2 [(0, outc St.range 3), (1, outc St.poisoned 0)]).status = St.range
      ∧ (combine 2 [(0, {}), (1, outc St.poisoned 0)]).status = St.partial
      ∧ (combine 2 [(0, outc St.partial 0)]).status = St.partial ∧ (combine 2 [(0, {})]).status = St.ok := by decide

/-- 4,096 members: position 4095 is covered by bit 63; 64 members: by its own. -/
theorem test_member_map :
    (combine 4096 [(4095, outc St.range 0), (0, {})]).map = 0x8000000000000000 ∧ (combine 64 [(63, outc St.range 0)]).map = 0x8000000000000000
      ∧ (combine 65 [(2, outc St.range 0)]).map = 2 := by decide

/-- One address of each kind. -/
theorem test_canonical : canonical 0xFF00000000000000 = true ∧ canonical 0x0100000000000000 = false ∧ canonical 0x00FFFFFFFFFFFFFF = true := by
  decide

/-- A subnormal, an infinity and the largest value of their formats. -/
theorem test_format_codes :
    convert 2 false (decodeNum 2 0x0001) = (0x0001, {}) ∧ convert 0 false (decodeNum 0 0xFF800000) = (0xFF800000, {})
      ∧ convert 3 false (decodeNum 3 0x7E) = (0x7E, {}) ∧ convert 8 false (decodeNum 8 0x8) = (0x8, {}) ∧ (decodeNum 4 0x7D).isNan = true := by
  decide +kernel

/-- Data for each clause: 16 bytes, 17 with no room, 17 with the room. -/
theorem test_ret : (List.replicate 16 (1 : Byte)).length ≤ 16 ∧ 16 < (List.replicate 17 (1 : Byte)).length
    ∧ ({} : Cmd).ret = 0 ∧ (cmdOf 0x0301).ret ≠ 0 ∧ 17 ≤ (cmdOf 0x0301).retLen.toNat := by decide

/-- Each of these commands started, its unit the own package. -/
theorem test_regreads (op : Nat) (h : op ∈ [0x0301, 0x0501, 0x0601, 0x0701, 0x0720, 0x0320, 0x0723]) :
    Started (cmdOf op) op (withCmd lit (cmdOf op)) ∧ Own (cmdOf op) (withCmd lit (cmdOf op)) ∧ Here (cmdOf op) (withCmd lit (cmdOf op)) :=
  test_started op (by fin_cases h <;> decide)

/-- Each of these commands started, its unit the own package. -/
theorem test_recreads (op : Nat) (h : op ∈ [0x0801, 0x0810, 0x0811, 0x0705, 0x0706, 0x0722, 0x0503, 0x0507, 0x0204]) :
    Started (cmdOf op) op (withCmd lit (cmdOf op)) ∧ Here (cmdOf op) (withCmd lit (cmdOf op)) :=
  ⟨(test_started op (by fin_cases h <;> decide)).1, (test_started op (by fin_cases h <;> decide)).2.2⟩

/-- Each of these commands started, its unit the own package. -/
theorem test_listreads (op : Nat) (h : op ∈ [0x0112, 0x0103, 0x0903, 0x0901, 0x0703]) :
    Started (cmdOf op) op (withCmd lit (cmdOf op)) ∧ Own (cmdOf op) (withCmd lit (cmdOf op)) :=
  ⟨(test_started op (by fin_cases h <;> decide)).1, (test_started op (by fin_cases h <;> decide)).2.1⟩

/-- A state with a group, a detail, a record and an account, and one with none. -/
theorem test_listreads_state :
    let s : State := { lit with
      units := { lit.units with groups := [(0, [7])] }
      host := { lit.host with details := [{ ring := 0, tag := 0, members := [] }] }
      events := { lit.events with log := [{ seq := 5, code := 1, severity := 3, unit := 0, invar := 0, items := [] }], next := 6 }
      power := { lit.power with jobs := [{ tag := 0, steps := 1, uj := 9 }] } }
    kvFind s.units.groups (cmdOf 0).p0.toNat = some [7] ∧ kvFind lit.units.groups 0 = none ∧ lit.host.details = []
      ∧ (s.host.details.find? fun d => d.ring = ringKey (cmdOf 0) (cmdOf 0).p0.toNat && d.tag.toNat = (cmdOf 0).p1.toNat).isSome = true
      ∧ ({ cmdOf 0 with p1 := 65536 } : Cmd).p1.toNat = 65536
      ∧ (cmdOf 0).p0.toNat < (s.events.log.head?.map (·.seq)).getD s.events.next
      ∧ (s.events.log.filter fun e => 5 ≤ e.seq).take 1 ≠ [] ∧ (s.events.log.filter fun e => 6 ≤ e.seq).take 1 = []
      ∧ (s.power.account 0).isSome = true ∧ lit.power.account 0 = none ∧ bitAt (0x10000 : Word) 16 = true := by decide +kernel

/-- Each of these commands started, its unit the own package. -/
theorem test_tilereads (op : Nat) (h : op ∈ [0x0222, 0x0225, 0x0210, 0x0A03, 0x0404, 0x0312, 0x0224]) :
    Started (cmdOf op) op (withCmd lit (cmdOf op)) ∧ Own (cmdOf op) (withCmd lit (cmdOf op)) :=
  ⟨(test_started op (by fin_cases h <;> decide)).1, (test_started op (by fin_cases h <;> decide)).2.1⟩

/-- A tile in service, and one with a page poisoned; a step kept, one no longer kept, one outside 48 bits. -/
theorem test_tilereads_state :
    (litTile { ({} : Tile) with unit := .ready }).tileUp (unitTileRef (tileUnit 0 0)) = true
      ∧ unitLevel (tileUnit 0 0) = 1 ∧ stepOk 0 = true ∧ stepOk (2 ^ 48) = false ∧ lit.tick.latched = none
      ∧ ({ lit with tick := { lit.tick with latched := some 16 } } : State).tick.latched = some 16 ∧ 0 + 16 ≤ 16 := by decide +kernel

/-- A state and a command on its own package. -/
theorem test_readframe : Own (cmdOf 0x0301) (withCmd lit (cmdOf 0x0301)) := (test_started 0x0301 (by decide)).2.1

/-- UNIT_READ and STATE_DUMP started on the own package. -/
theorem test_records (op : Nat) (h : op ∈ [0x0101, 0x0102, 0x0403]) :
    Started (cmdOf op) op (withCmd lit (cmdOf op)) ∧ Own (cmdOf op) (withCmd lit (cmdOf op)) :=
  ⟨(test_started op (by fin_cases h <;> decide)).1, (test_started op (by fin_cases h <;> decide)).2.1⟩

/-- A header, directory and plane that KV_TAIL_READ can read, and memory that holds no header. -/
theorem test_records_tail : okIs ((tailData 0 0 ((kvHead (mapped flatTile)).kvAgent (cmdOf 0x0403))).result (kvHead (mapped flatTile))) (fun l _ => l.length = 32)
    ∧ errIs ((tailData 0 0 ((mapped flatTile).kvAgent (cmdOf 0x0403))).result (mapped flatTile)) (fun e => e.need.isNone) := by decide +kernel

/-- The table of a KV command lies here, in the twin, or nowhere; its planes are flushed one after another. -/
theorem test_kv_table :
    let here := kvHead (mapped flatTile)
    let far := withTwin (mapped { flatTile with xlt := [{ flatEntry 0 with base := 2 ^ 46 }] })
    let none_ := mapped { ({} : Tile) with unit := .ready }
    let c := cmdOf 0x0401
    okIs ((tablePkg (here.kvAgent c) c.p0).result here) (fun p _ => p = here.self) = true
      ∧ okIs ((tablePkg (far.kvAgent c) c.p0).result far) (fun p _ => p ≠ far.self) = true
      ∧ errIs ((tablePkg (none_.kvAgent c) c.p0).result none_) (fun e => e.need.isNone) = true
      ∧ okIs ((readHeader (here.kvAgent c) c.p0).result here) (fun h q =>
        match planePass (fun k => flushPlane h.1 c.p0 k (here.kvAgent c)) (planesOf h.1 255) q [] with
        | (.ok l, _) => l.map (·.1) = [0]
        | _ => false) = true := by decide +kernel

/-- A command over the domain is spread; the twin is a member of it that can be reached. -/
theorem test_spread (op : Nat) (h : op ∈ [0x0501, 0x0601, 0x0701, 0x0320]) :
    let c := { cmdOf op with unit := domainUnit }
    Started c op (withCmd (withTwin lit) c) ∧ Spread c (withCmd (withTwin lit) c) := by
  have hu : unitLevel domainUnit = 5 := by decide
  refine ⟨⟨by fin_cases h <;> rfl, by simp [State.started, withCmd], ?_⟩, Or.inr (Or.inl hu)⟩
  show (withTwin lit).brassRuns = true
  decide +kernel

theorem test_spread_pair : (withTwin lit).pathStop 1 = none ∧ unitLevel (pairUnit 0) = 4
    ∧ ((withTwin lit).members (pairUnit 0)).map unitPkg = [0, 1] := by decide +kernel

/-- The root with and without a schedule; the periods are free. -/
theorem test_period (op : Nat) (h : op ∈ [0x0302, 0x0303]) (b : Bool) (p0 p1 p2 : Word) :
    let c := { cmdOf op with p0 := p0, p1 := p1, p2 := p2 }
    Started c op (withCmd (rootPkg b) c) ∧ (withCmd (rootPkg b) c).isRoot = true
      ∧ (withCmd (rootPkg b) c).tick.hasSchedule = b ∧ (withCmd (rootPkg b) c).tick.sched.change = none := by
  refine ⟨⟨?_, ?_, by show lit.brassRuns = true; decide +kernel⟩, ?_, ?_, ?_⟩
  · fin_cases h <;> rfl
  · simp [State.started, withCmd]
  · show (rootPkg b).isRoot = true; cases b <;> decide +kernel
  · rfl
  · rfl

/-- A step 16 ahead whose tick time is 320 ms away, and 200 ms ahead of a count of 0. -/
theorem test_period_times : (rootPkg true).tick.wall + 16 ≤ 16 ∧ (rootPkg true).tick.sched.baseStep ≤ 16
    ∧ (rootPkg true).time.invar.toNat + 200000000 ≤ ((rootPkg true).tick.sched.tickTime 16).toNat := by decide +kernel

/-- A root with a change pending 320 ms and 20 ms ahead; a count of 0 on a package without lag, and one of 1. -/
theorem test_tickcmds :
    let r : Schedule := { (rootPkg true).tick.sched with change := some (500, 16) }
    (rootPkg true).time.invar.toNat + 100000000 ≤ (r.tickTime 16).toNat
      ∧ (({ r with change := some (500, 1) } : Schedule).tickTime 1).toNat < (rootPkg true).time.invar.toNat + 100000000
      ∧ periodOk 500 = true ∧ stepOk 16 = true ∧ 0 ≤ lit.tick.lag - lit.tick.realign ∧ lit.tick.lag - lit.tick.realign < 1 := by
  decide +kernel

theorem test_tickcmds_started (op : Nat) (h : op ∈ [0x0304, 0x0305]) :
    Started (cmdOf op) op (withCmd (rootPkg true) (cmdOf op)) ∧ Own (cmdOf op) (withCmd (rootPkg true) (cmdOf op)) := by
  have h2 := test_started op (by fin_cases h <;> decide)
  exact ⟨⟨h2.1.1, h2.1.2.1, by show lit.brassRuns = true; decide +kernel⟩, h2.2.1⟩

/-- Each of these commands started on tile 0 of a package with that tile as given. -/
theorem test_tilecmds (op : Nat) (h : op ∈ [0x0311, 0x0203, 0x0220, 0x0221, 0x0223, 0x0A01]) (x : Tile) :
    Started (tileCmd op) op (withCmd (litTile x) (tileCmd op)) ∧ OwnTile (tileCmd op) (withCmd (litTile x) (tileCmd op)) 0
      ∧ (withCmd (litTile x) (tileCmd op)).noMembers (tileCmd op) = true := by
  have hu : unitLevel (tileUnit 0 0) = 1 ∧ unitPkg (tileUnit 0 0) = lit.self ∧ unitTileRef (tileUnit 0 0) = 0 := by decide
  refine ⟨⟨by fin_cases h <;> rfl, by simp [State.started, withCmd], by show lit.brassRuns = true; decide +kernel⟩, hu, ?_⟩
  simp [State.noMembers, State.cmdSlot, withCmd]

/-- Tiles with a plan queued, running and none, in and out of service; masks with and without the top region. -/
theorem test_tilecmds_state :
    let p : Plan := { step := 3, job := 0, descs := [], energyUj := 0 }
    (({ queue := [p] } : Tile).planFor 3).isSome = true ∧ (({} : Tile).planFor 3).isSome = false ∧ stepOk 3 = true
      ∧ (({} : Tile).running.map fun r => r.step) ≠ some 3 ∧ ({} : Tile).inFlight 0 none = false ∧ (({} : Tile).topRegion ∈ maskRegions 0xFFFFFFFF)
      ∧ (({} : Tile).topRegion ∉ maskRegions 1) ∧ ({} : Tile).degraded = false ∧ (∀ r ∈ maskRegions 1, r % 16 ≠ 15)
      ∧ (maskRegions 0).filter ({} : Tile).regionPresent = [] ∧ (maskRegions 1).filter ({} : Tile).regionPresent ≠ []
      ∧ ({ ({} : Tile) with unit := .removed } : Tile).unit = .removed ∧ ({ ({} : Tile) with unit := .ready } : Tile).unit ≠ .removed := by
  decide +kernel

/-- A step that has started; a command's translations in use. -/
theorem test_tilecmds_busy : 3 ∈ ({ started := [3] } : Tile).started
    ∧ ({ runTile nopDesc with slots := [(1, { slotOf nopDesc .running with waits := [1] })] } : Tile).inFlight 0 (some (0, 0)) = true := by
  decide +kernel

/-- Each of these commands started on tile 0, or on the package. -/
theorem test_unitcmds (op : Nat) (h : op ∈ [0x0120, 0x0121, 0x0205]) (x : Tile) :
    Started (tileCmd op) op (withCmd (litTile x) (tileCmd op)) ∧ OwnTile (tileCmd op) (withCmd (litTile x) (tileCmd op)) 0 := by
  have hu : unitLevel (tileUnit 0 0) = 1 ∧ unitPkg (tileUnit 0 0) = lit.self ∧ unitTileRef (tileUnit 0 0) = 0 := by decide
  exact ⟨⟨by fin_cases h <;> rfl, by simp [State.started, withCmd], by show lit.brassRuns = true; decide +kernel⟩, hu⟩

theorem test_unitcmds_pkg (op : Nat) (h : op ∈ [0x0110, 0x0111, 0x0201, 0x0202]) :
    Started (cmdOf op) op (withCmd lit (cmdOf op)) ∧ Own (cmdOf op) (withCmd lit (cmdOf op)) :=
  ⟨(test_started op (by fin_cases h <;> decide)).1, (test_started op (by fin_cases h <;> decide)).2.1⟩

/-- Tiles and stacks in and out of service; groups present, listed and absent; nodes in and out of protected memory; limits at
256 and 257; a probe that hits and one that fails. -/
theorem test_unitcmds_state :
    (litTile { ({} : Tile) with unit := .ready }).stackUp 0 = true ∧ lit.stackUp 0 = false
      ∧ UnitSt.ready.inService = true ∧ restoreRefusal UnitSt.removed = none
      ∧ (lit.groupCheck [(groupUnit 0 0, [stackUnit 0 0])] 0 1 [stackUnit 0 0]) = none
      ∧ (lit.groupCheck [(groupUnit 0 0, [])] 0 0 []).isSome = true
      ∧ unitPkg (stackUnit 0 0) = lit.self ∧ unitLevel (stackUnit 0 0) ≤ 2
      ∧ (kvFind [(0, [groupUnit 0 1]), (1, ([] : List (BitVec 32)))] 0).isSome = true ∧ groupUnit 0 0 ∉ [groupUnit 0 1]
      ∧ groupUnit 0 1 ∈ [groupUnit 0 1] ∧ (lit.nodeLocal 4096).isSome = true ∧ lit.nodeLocal (2 ^ 46) = none
      ∧ okIs ((probe 0 0 64).result (mapped flatTile)) (fun a _ => a.2 = true ∧ a.1.global 64 = 64)
      ∧ errIs ((probe 0 0 (2 ^ 60)).result (mapped flatTile)) (fun e => e.reason = Rs.nonCanonical) := by decide +kernel

/-- A started GROUP_WRITE with its list at hand. -/
theorem test_unitcmds_param :
    let c := { cmdOf 0x0110 with p1 := 1 }
    let z : CmdSlot := { cmd := c, ph := .started, param := some (.good (bytesLE 4 (stackUnit 0 0).toNat)) }
    ({ lit with host := { lit.host with slots := [z] } } : State).cmdSlot c = some z ∧ z.members = []
      ∧ 4 * min 4096 c.p1.toNat ≤ (bytesLE 4 (stackUnit 0 0).toNat).length := by decide +kernel

/-- Each of these commands started on the package. -/
theorem test_hostcmds (op : Nat) (h : op ∈ [0x0902, 0x0910, 0x0A04, 0x0502, 0x0504, 0x0505, 0x0506]) :
    Started (cmdOf op) op (withCmd lit (cmdOf op)) ∧ Own (cmdOf op) (withCmd lit (cmdOf op)) ∧ Here (cmdOf op) (withCmd lit (cmdOf op)) :=
  test_started op (by fin_cases h <;> decide)

/-- A REMOVED tile with a descriptor of one EXP at DVA 0 and the tensor it is compared with at 64. -/
def kaState : State :=
  poke (poke (mapped { flatTile with unit := .removed }) 0
    (bytesLE 64 (descWith 0x18 [(16, 0, 1), (28, 0, 64), (36, 0, 1), (40, 0, 1)]).toNat)) 64 (bytesLE 64 (vecTensor 256 2 1).toNat)

/-- KA_VECTOR of that descriptor. -/
def kaCmd : Cmd := { tileCmd 0x0A02 with p2 := 64, p3 := 64 }

theorem test_hostcmds_ka : okIs ((kaVectorTile ((withCmd kaState kaCmd).cmdEnv kaCmd 0 0) kaCmd).result (withCmd kaState kaCmd))
    (fun a _ => a.1.status = St.ok) ∧ ((withCmd kaState kaCmd).tile 0).unit = .removed
      ∧ (withCmd kaState kaCmd).noMembers kaCmd = true ∧ (withCmd kaState kaCmd).started kaCmd = true := by decide +kernel

/-- Two routing entries of one and two ports are good. -/
theorem test_routes_good : ∀ e ∈ routeEntries [1, 0, 3, 0], routeOk e = true := by
  have h : routeEntries [1, 0, 3, 0] = [1, 3] := by decide +kernel
  rw [h]
  intro e he
  simp only [List.mem_cons, List.not_mem_nil, or_false] at he
  rcases he with rfl | rfl
  · decide +kernel
  · decide +kernel

/-- Codes listed and not; a slot not yet started; routes good and bad; ports that may train and not; an own address. -/
theorem test_hostcmds_state :
    (∃ e ∈ eventTable, e.1 = 0x0101) ∧ (∀ e ∈ eventTable, e.1 ≠ 0xFFFF)
      ∧ CmdSlot.ph { cmd := cmdOf 0x0301, ph := .held } = .held ∧ ringKey (cmdOf 0x0910) 0 = (cmdOf 0x0301).ring
      ∧ routeOk 0x1F = false ∧ 0 + (routeEntries [1, 0, 3, 0]).length ≤ 1024
      ∧ (lit.port 0).trainCmd = none ∧ lit.cornis.trained = false
      ∧ (cmdOf 0x0506).p1 ≠ 3 ∧ pkgOf (cmdOf 0x0506).p0.toNat = lit.self
      ∧ okIs ((applyAtomic (lit.atomicMsg 0 0 0 1 0)).result (mapped flatTile)) (fun old _ => old = 0)
      ∧ errIs ((applyAtomic (lit.atomicMsg 2 0 0 1 0)).result (mapped flatTile)) (fun e => e.reason = Rs.badField)
      ∧ (lit.cornis.groups.length = 16) := by decide +kernel

/-- A package whose ports have trained and whose port 0 has lane groups may train it. -/
theorem test_hostcmds_port :
    let s : State := { lit with cornis := { lit.cornis with trained := true } }
    (s.usePort 0).trainable 0 = true ∧ (s.port 0).trainCmd = none := by decide +kernel

/-- A twin port that is up, the pair state as given. -/
def twinUp (st : PairSt) (peer : Nat) : State :=
  { lit with cornis := { lit.cornis with ports := lit.cornis.ports.set 8 { ((lit.cornis.ports[8]?).getD {}) with state := .up } }
             twin := { lit.twin with state := st, peerState := peer } }

/-- Pairs with and without a path, and a started command of the pair with a list of one context at hand. -/
theorem test_twincmds :
    let c := { cmdOf 0x0602 with unit := pairUnit 0, p1 := 1 }
    let z : CmdSlot := { cmd := c, ph := .started, param := some (.good [5, 0]) }
    let s : State := { twinUp .solo 4 with host := { lit.host with slots := [z] } }
    s.cmdSlot c = some z ∧ unitPair c.unit = s.self / 2 ∧ (chunks 2 2 [5, 0]).map (fun e => natLE e % 4096) = [5]
      ∧ s.pathStop s.twinPkg = none ∧ (lit.pathStop lit.twinPkg).isSome = true ∧ pairOf s.twin.peerState = .stale
      ∧ s.twin.peerGen = s.twin.gen ∧ (twinUp .paired 1).twin.state = .paired ∧ s.twin.leaving = none ∧ s.tailTiles = []
      ∧ s.twin.tailsOut = 0 ∧ s.self % 2 = 0 ∧ s.self % 2 ≠ 1 % 2
      ∧ okIs ((translatePlain 0 (w64 0) 0).result (poke (mapped flatTile) 4096 [])) (fun _ _ => true) = false := by decide +kernel

/-- A forwarded command, and one of the host; the twin's commands started. -/
theorem test_twincmds_started (op : Nat) (h : op ∈ [0x0603, 0x0604, 0x0605]) :
    Started (cmdOf op) op (withCmd lit (cmdOf op)) ∧ Here (cmdOf op) (withCmd lit (cmdOf op)) ∧ (cmdOf op).origin = none
      ∧ ({ cmdOf op with origin := some (1, 7) } : Cmd).origin.isSome = true :=
  ⟨(test_started op (by fin_cases h <;> decide)).1, (test_started op (by fin_cases h <;> decide)).2.2, rfl, rfl⟩

/-- A table of one root entry, two nodes and a 1 GiB leaf, all in the first pages of tile 0. -/
theorem test_twincmds_walk :
    let s := poke (poke (poke (mapped flatTile) 4096 (bytesLE 8 (8192 + 1))) 8192 (bytesLE 8 (12288 + 1))) 12288 (bytesLE 8 (3 + 4 * 0xB))
    okIs ((translatePlain 0 0 0).result s) (fun e _ => pkgOf (e.global 0) = s.self && isStack (localOf (e.global 0))) := by decide +kernel

/-- Each of these commands started on the package. -/
theorem test_setcmds (op : Nat) (h : op ∈ [0x0702, 0x0704, 0x0721, 0x0724, 0x0802, 0x0803, 0x0401, 0x0402]) :
    Started (cmdOf op) op (withCmd lit (cmdOf op)) ∧ Own (cmdOf op) (withCmd lit (cmdOf op)) ∧ Here (cmdOf op) (withCmd lit (cmdOf op)) :=
  test_started op (by fin_cases h <;> decide)

/-- A PLAN_LOAD of tile 0, its table at DVA 0, whose entry names one descriptor at 64; and one whose entry is refused. -/
def planCmd : Cmd := { tileCmd 0x0310 with p0 := 1 }
def planState (count : Nat) : State :=
  withCmd (poke (mapped flatTile) 0 (bytesLE 8 64 ++ bytesLE 8 count)) planCmd

theorem test_setcmds_plan :
    let env := (planState 1).cmdEnv planCmd 0 0
    okIs ((readDva env 0 16 1).result (planState 1)) (fun b q =>
      (planEntry b).skip = false && (planEntry b).host = false && (q.planRefusal 0 1 (planEntry b)).isNone
        && okIs ((readDva env (planEntry b).source (64 * (planEntry b).count) 1).result q) fun _ _ => true)
      ∧ okIs ((readDva env 0 16 1).result (planState 0)) (fun b q =>
        (planEntry b).skip = false && (q.planRefusal 0 1 (planEntry b)).isSome)
      ∧ (planState 1).noMembers planCmd = true ∧ (planState 1).started planCmd = true ∧ stepOk 1 = true := by decide +kernel

/-- The plan's descriptors go to the reserved slice; on a poisoned page they do not. -/
theorem test_setcmds_copy :
    okIs (copyPlan (planState 1) 0 [0] (bytesLE 64 nopDesc.toNat)) (fun _ _ => true) = true
      ∧ errIs (copyPlan ((planState 1).modTile 0 fun x => { x with mem := { x.mem with poison := [(x.reservedAt 0 + 5 * 2 ^ 20) / pageSize] } }) 0 [0] (bytesLE 64 nopDesc.toNat)) (fun _ => true) = true := by
  decide +kernel

/-- Values at the ends of each range; a header that reads well and one that does not. -/
theorem test_setcmds_state :
    ((cmdOf 0).p1.toNat ≠ 255) ∧ (∀ i : Nat, i < 6 → (bits 8 (0x969696969696 : Word) (8 * i)).toNat ≤ 150)
      ∧ 150 < (bits 8 (0x97 : Word) (8 * 0)).toNat ∧ lit.sec.svnFused ≤ 0 ∧ 0 ≤ lit.sec.svnRunning ∧ lit.sec.svnRunning < 1
      ∧ lit.power.account 0 = none ∧ kvGet lit.stepShares.1 0 0 - kvGet lit.power.closed 0 0 = 0
      ∧ okIs ((readHeader ((kvHead (mapped flatTile)).kvAgent (cmdOf 0x0401)) 0).result (kvHead (mapped flatTile))) (fun a _ => a.2 = lit.self)
      ∧ errIs ((readHeader ((mapped flatTile).kvAgent (cmdOf 0x0401)) 0).result (mapped flatTile)) (fun e => e.need.isNone) := by decide +kernel

/-- A FW_VERIFY with one byte at hand. -/
theorem test_setcmds_param :
    let c := { cmdOf 0x0802 with p1 := 1 }
    let z : CmdSlot := { cmd := c, ph := .started, param := some (.good [0]) }
    ({ lit with host := { lit.host with slots := [z] } } : State).cmdSlot c = some z ∧ 0 < c.p1.toNat ∧ c.p1.toNat < 2 ^ 28 := by
  decide +kernel

/-- States in which a tick comes. -/
theorem test_tick :
    let p : Plan := { step := 0, job := 0, descs := [], energyUj := 0 }
    let r : DescSlot := { desc := 0, index := none, job := 0, step := 0, wall := 0 }
    let x : Tile := { ({} : Tile) with unit := .ready, queue := [p] }
    let s := tickPkg x true
    let y : Tile := { ({} : Tile) with unit := .ready, running := some { p with descs := [0] }, slots := [(0, r)] }
    s.clocksRun = true ∧ s.nextTickAt = some 1000000000 ∧ s.tick.oldSched = none ∧ s.tick.sched.change = none ∧ s.tick.realign = 0
      ∧ s.therm.decided = false ∧ s.tick.paceAgrees = true ∧ s.tileUp 0 = true ∧ (tickPkg y false).tick.sampleDone = false
      ∧ (tickPkg y false).allDone = false ∧ s.tick.planLimit ≠ 0 ∧ s.tick.planLimit.toNat ≤ 4 := by decide +kernel

/-- A step that has ended and not been reported. -/
theorem test_tick_report :
    let run : StepRun := { logical := 1, wallAtStart := 1, jobs := [], configMismatch := false, throttled := false, energyStart := 0, estimate := 0 }
    ({ lit.tick with reports := [{ run := run, energy := 0, partialSeen := false, stackMap := 0 }] } : TickState).reports ≠ [] := by
  decide +kernel

/-- A package at wall step 5 with a lag of 2. -/
theorem test_lag :
    let s : State := { withCmd lit (cmdOf 0x0305) with tick := { lit.tick with running := true, wall := 5, lag := 2 } }
    s.tick.lag ≤ s.tick.wall ∧ s.tick.running = true ∧ Own (cmdOf 0x0305) s :=
  ⟨by decide, rfl, (test_started 0x0305 (by decide)).2.1⟩

/-- Port 0 up, the tree on; a frame of package 3 naming root 0, one with a Reserved bit, one whose period is 0. -/
def timePkg : State :=
  { lit with
    time := { lit.time with treeOn := true, root := 1, parent := some 0 }
    cornis := { lit.cornis with ports := lit.cornis.ports.set 0 { ((lit.cornis.ports[0]?).getD {}) with state := .up, peer := 3 } } }

theorem test_time :
    let f : TimeFrame := { port := 0, peer := 3, root := 0, rootHops := 0, locked := true, version := 1, periodUs := 20000 }
    timePkg.clocksRun = true ∧ (timePkg.port f.port).up = true ∧ f.peer ≠ timePkg.self ∧ f.peer ∉ timePkg.cornis.suspects
      ∧ f.reservedZero = true ∧ (timePkg.hearTwin 3).badTime f = false
      ∧ (timePkg.hearTwin 3).badTime { f with periodUs := 0 } = true ∧ ({ f with reservedZero := false } : TimeFrame).reservedZero = false
      ∧ timePkg.tick.running = false ∧ timePkg.tick.sched.version.toNat < f.version.toNat
      ∧ timePkg.time.parent ≠ none ∧ timePkg.time.holdover = false ∧ timePkg.time.root ≠ timePkg.self := by decide +kernel

/-- A package with its clocks running and its BARs open; its twin's record. -/
theorem test_records_rows : lit.clocksRun = true ∧ lit.barOpen = true ∧ tileOk 0 = true ∧ 1 ≠ lit.self ∧ lit.inDomain 1 = true
    ∧ 1 ∉ lit.cornis.suspects ∧ 1 = lit.twinPkg ∧ 2 ≠ lit.twinPkg := by decide +kernel

/-- Plans of a NOP and of a descriptor of no opcode; slots in each phase; a full queue. -/
theorem test_admit :
    let sh : Share := { desc := nopDesc, range := none, unit := tileUnit 0 0, lead := 1, leadSlot := 0, job := 0, step := 1, wall := 1 }
    let w := slotOf (descWith 0x18 []) .waiting
    let s := litTile (runTile nopDesc)
    s.tileUp 0 = true ∧ (runTile nopDesc).freeSlot = some 0 ∧ admitCheck nopDesc 1 = none ∧ (admitCheck 0 1).isSome = true
      ∧ dSigEn 0 = false ∧ dSigEn nopDesc = false ∧ dBarrier nopDesc = false ∧ dWaitEn nopDesc = false
      ∧ ({ runTile nopDesc with shares := [sh] } : Tile).shares = [sh]
      ∧ (runTile nopDesc).waitMet w = true ∧ s.ownWork 0 w = true ∧ (runTile nopDesc).channelDown (queueOf w) = false
      ∧ (queueOf w).key ≠ 8 ∧ (runTile nopDesc).room (queueOf w).key = true
      ∧ ({ runTile nopDesc with queues := [((queueOf w).key, List.range 16)] } : Tile).room (queueOf w).key = false
      ∧ (queueOf (slotOf nopDesc .waiting)).key = 8 := by decide +kernel

/-- The statement's choice of a signal, a share and a report. -/
def sigOf (b : MeshBody) : Option (BitVec 16 × Nat × Bool × TileRef × Nat) :=
  match b with
  | .signal sem amount fail src slot => some (sem, amount, fail, src, slot)
  | _ => none

/-- A share, or none. -/
def shrOf (b : MeshBody) : Option Share :=
  match b with
  | .share sh => some sh
  | _ => none

/-- A report, or none. -/
def repOf (b : MeshBody) : Bool :=
  match b with
  | .report _ _ _ => true
  | _ => false

/-- A share of tile 0 led by tile 1. -/
def meshShare : Share :=
  { desc := nopDesc, range := none, unit := tileUnit 0 0, lead := 1, leadSlot := 0, job := 0, step := 1, wall := 1 }

/-- Tile 0 with a split slot and a held share. -/
def meshPkg : State :=
  litTile { runTile nopDesc with slots := [(2, { slotOf nopDesc .running with split := true })], retry := [(1, meshShare)] }

/-- Messages of each kind for tile 0. -/
theorem test_mesh :
    (sigOf (.signal 3 1 false 0 2)).isSome = true ∧ (sigOf (.signal 3 1 true 0 2)).isSome = true
      ∧ (meshTake 0 shrOf [⟨0, 5, .share meshShare⟩]).isSome = true ∧ repOf (.report 2 (tileUnit 0 0) {}) = true
      ∧ (meshTake 0 sigOf [⟨0, 5, .signal 3 1 false 0 2⟩]).isSome = true
      ∧ meshPkg.tileUp 0 = true ∧ lit.tileUp 0 = false ∧ (meshPkg.tile 0).holdsTwin meshShare = false
      ∧ (meshPkg.tile 0).shares.length < 32 ∧ meshShare.leadMsg = none ∧ (meshPkg.tile 0).retry ≠ []
      ∧ ((meshPkg.tile 0).slot 2).isSome = true := by decide +kernel

/-- A fence of class 0 for step 1 with a count of 2 and a deadline. -/
def fenceDesc (us10 : Nat) : BitVec 512 := descWith 2 [(20, 0, 2), (24, 0, 1), (32, 0, us10)]

/-- Each descriptor may run; a fence with its arrivals, and without; a share's fence; accesses in flight. -/
theorem test_seq :
    let f := fenceDesc 5
    let met := litTile { runTile f with slots := [(0, slotOf f .queued)], arr := [(1, (1, 2))] }
    let inv := descWith 3 [(24, 0, 4096)]
    let sh : Share := { desc := f, range := none, unit := tileUnit 0 0, lead := 1, leadSlot := 0, job := 0, step := 1, wall := 1 }
    (queuedPkg nopDesc).runnable 0 0 1 = some (slotOf nopDesc .queued)
      ∧ (queuedPkg f).runnable 0 0 2 = some (slotOf f .queued) ∧ met.runnable 0 0 2 = some (slotOf f .queued)
      ∧ (queuedPkg (fenceDesc 0)).runnable 0 0 2 = some (slotOf (fenceDesc 0) .queued)
      ∧ fenceStep f 1 = some 1 ∧ fld f 32 31 0 = 5 ∧ fld f 20 31 0 = 2 ∧ kvGet (met.tile 0).arr 1 (0, 0) = (1, 2)
      ∧ (litTile { runTile f with slots := [(0, { slotOf f .queued with share := some sh })] }).runnable 0 0 2
        = some { slotOf f .queued with share := some sh }
      ∧ (queuedPkg inv).runnable 0 0 3 = some (slotOf inv .queued) ∧ ((queuedPkg inv).tile 0).inFlight 0 (some (0, 4096)) = false
      ∧ ({ runTile inv with slots := [(1, { slotOf nopDesc .running with waits := [1] })] } : Tile).inFlight 0 none = true
      ∧ (queuedPkg inv).tileUp 0 = true ∧ (queuedPkg inv).clocksRun = true := by decide +kernel

/-- A NOP ends as stated, and a fence at its deadline. -/
theorem test_nop_ends :
    ((nextOf (exec (.nop 0 0) (queuedPkg nopDesc))).tile 0).slot 0
        = some { slotOf nopDesc .queued with ph := .finished, applied := true, readyAt := (queuedPkg nopDesc).time.now }
      ∧ (((nextOf (exec (.receiveFenceDeadline 0 0) (queuedPkg (fenceDesc 5)))).tile 0).slot 0).map (fun d => (d.ph, d.result.status, d.readyAt))
        = some (.finished, St.notReady, us 5) := by decide +kernel

/-- A MATMUL of BF16 operands, one row, one block, two chunks, held 4 cc after it. -/
def matDesc : BitVec 512 := descWith 0x10
  [(16, 0, 0), (20, 0, 4096), (32, 0, 1), (32, 4, 1), (36, 0, 1), (38, 0, 1), (40, 0, 2), (42, 0, 3), (44, 0, 2), (46, 0, 4)]

/-- It stands first in the matrix queue, on an idle engine and on a busy one. -/
theorem test_matmul :
    let s := litTile { runTile matDesc with slots := [(0, slotOf matDesc .queued)], queues := [(0, [0])] }
    let b := litTile { runTile matDesc with slots := [(0, slotOf matDesc .queued)], queues := [(0, [0])], mxEnd := 100 }
    s.runnable 0 0 0x10 = some (slotOf matDesc .queued) ∧ b.runnable 0 0 0x10 = some (slotOf matDesc .queued)
      ∧ (matArgs matDesc).nLast = 2 ∧ (matArgs matDesc).hold = 4 ∧ (s.tile 0).drains = [] ∧ (s.tile 0).mxPause ≤ (slotOf matDesc .queued).dispatchCore
      ∧ (s.tile 0).mxEnd ≤ (slotOf matDesc .queued).dispatchCore ∧ ((b.tile 0).queue_ 0).length ≤ 1
      ∧ admitCheck matDesc 1 = none := by decide +kernel

/-- With operands of ones the first column holds the sum of the 64 + 3 products. -/
theorem test_matmul_value :
    let ws := [0, 128, 4096, 4096 + 32 * 128].flatMap fun b => (List.range 128).map fun k => (b + k, if k % 2 = 0 then (0x80 : Byte) else 0x3F)
    let s := litTile { runTile matDesc with slots := [(0, slotOf matDesc .queued)], queues := [(0, [0])], ws := ws }
    (((nextOf (exec (.matmul 0 0 {}) s)).tile 0).accAt 0 0, ((nextOf (exec (.matmul 0 0 {}) s)).tile 0).accAt 0 1) = (0x42860000, 0) := by
  decide +kernel

/-- An error in A's slot of the first row spoils the one row; one in B's slot of block 0 too; an address elsewhere none. -/
theorem test_matmul_rows :
    ((matArgs matDesc).rowsFrom 5, (matArgs matDesc).rowsFrom (4096 + 31 * 128), (matArgs matDesc).rowsFrom 3000) = ([0], [0], []) := by
  decide +kernel

/-- A drain of one row of two values as FP32, cleared. -/
def drainDesc : BitVec 512 := descWith 0x11 [(18, 0, 1), (20, 0, 2), (21, 7, 1), (24, 0, 0x3F800000), (28, 0, 256), (36, 0, 8)]

/-- A VECTOR of an operation on two rows of three FP32 values; `b` an immediate of 2. -/
def vecDesc (op : Nat) : BitVec 512 :=
  descWith 0x18 [(16, 0, op), (18, 0, if op < 0x10 then 1 else 0), (28, 0, 256), (32, 0, if op < 0x10 then 0x40000000 else 0),
    (36, 0, 3), (40, 0, 2)]

/-- Each stands at the head of its queue. -/
theorem test_drain_vector :
    let s := litTile { runTile drainDesc with slots := [(0, slotOf drainDesc .queued)], queues := [(0, [0])] }
    let v := fun op => litTile { runTile (vecDesc op) with
      slots := [(0, slotOf (vecDesc op) .queued)], queues := [((queueOf (slotOf (vecDesc op) .queued)).key, [0])] }
    s.runnable 0 0 0x11 = some (slotOf drainDesc .queued) ∧ admitCheck drainDesc 1 = none
      ∧ (s.tile 0).mxRuns = [] ∧ runBytes 0 2 ≤ 8
      ∧ (∀ op ∈ [1, 0x10, 0x11], (v op).runnable 0 0 0x18 = some (slotOf (vecDesc op) .queued)
        ∧ admitCheck (vecDesc op) 1 = none ∧ vecClash (vecArgs (vecDesc op)) = false)
      ∧ vopReduces 1 = false ∧ 8 ≤ fmtBits 0 := by decide +kernel

/-- 1.0 + 2.0 is 3.0 in each element. -/
theorem test_vector_add :
    let v := litTile { runTile (vecDesc 1) with
      slots := [(0, slotOf (vecDesc 1) .queued)], queues := [((queueOf (slotOf (vecDesc 1) .queued)).key, [0])]
      ws := cellWrite [] 0 ((List.replicate 6 (bytesLE 4 0x3F800000)).flatten) }
    cellRead ((nextOf (exec (.vector 0 0 {}) v)).tile 0).ws 268 12 = (List.replicate 3 (bytesLE 4 0x40400000)).flatten := by
  decide +kernel

/-- A tensor of two dimensions, row-major, of a format. -/
def matTensor (base fmt n m : Nat) : BitVec 512 :=
  descWith 0 [(0, 0, base), (16, 0, fmt), (17, 0, 2), (24, 0, n), (28, 0, m), (44, 0, 1), (48, 0, n)]

/-- A descriptor of each opcode on small tensors whose descriptors stand at 4096 on. -/
def moveDesc : Nat → BitVec 512
  | 0x12 => descWith 0x12 [(16, 0, 4096), (24, 0, 4160), (32, 0, 4224), (44, 0, 8192), (50, 0, 32), (53, 0, 1)]
  | 0x19 => descWith 0x19 [(16, 0, 8192), (24, 0, 16384), (32, 0, 2048), (36, 0, 2048), (40, 0, 1)]
  | 0x22 => descWith 0x22 [(16, 0, 4288), (24, 0, 4352)]
  | 0x23 => descWith 0x23 [(16, 0, 4288), (24, 0, 4416), (40, 0, 1), (44, 0, 64)]
  | 0x24 => descWith 0x24 [(16, 0, 4352), (24, 0, 4416), (40, 0, 1), (44, 0, 64)]
  | op => descWith op [(16, 0, 4288), (32, 0, 1), (36, 0, 64)]

/-- A tile whose slot 0 holds such a descriptor at the head of its queue, the tensors in memory; `far` puts them in another package. -/
def movePkg (op : Nat) (far bad : Bool) : State :=
  let d := moveDesc op
  let e := { flatEntry 0 with base := if far then 2 ^ 46 else 0 }
  let s := withTwin (mapped { runTile d with
    slots := [(0, slotOf d .queued)], queues := [((queueOf (slotOf d .queued)).key, [0])], xlt := if bad then [] else [e] })
  [(4096, matTensor 65536 1 64 1), (4160, matTensor 65792 1 64 1), (4224, matTensor 66048 0 1 1), (4288, vecTensor 66304 1 4),
    (4352, vecTensor 66560 1 4), (4416, vecTensor 66816 9 4)].foldl (fun (q : State) p => poke q p.1 (bytesLE 64 p.2.toNat)) s

/-- The body of an opcode. -/
def moveBody : Nat → DescSlot → Env → M Done
  | 0x12 => gemmBody
  | 0x19 => mergeBody
  | 0x20 => loadBody
  | 0x21 => storeBody
  | 0x22 => copyBody
  | 0x23 => gatherBody
  | _ => scatterBody

/-- The run of slot 0. -/
def moveRun (op : Nat) (far bad : Bool) : Except Stop Done × State :=
  (moveBody op (slotOf (moveDesc op) .queued) ((slotOf (moveDesc op) .queued).env 0 0)).result (movePkg op far bad)

/-- Each passes admission and may run. -/
theorem test_moves_runnable : ∀ op ∈ [0x12, 0x19, 0x20, 0x21, 0x22, 0x23, 0x24],
    admitCheck (moveDesc op) 1 = none ∧ (movePkg op false false).runnable 0 0 op = some (slotOf (moveDesc op) .queued) := by
  decide +kernel

/-- Each run answers, with nothing to send. -/
theorem test_moves_answer : ∀ op ∈ [0x12, 0x19, 0x20, 0x21, 0x22, 0x23, 0x24],
    okIs (moveRun op false false) (fun r q => r.arr.isNone && r.outc.status = St.ok &&
      (match (q.tile 0).slot 0 with
      | some z => z.toSend.isEmpty && z.waits.isEmpty && z.entries.isEmpty
      | none => false)) = true := by decide +kernel

/-- Without translations, at a table that is all zero, each stops; in another package each asks. -/
theorem test_moves_stop : ∀ op ∈ [0x12, 0x19, 0x20, 0x21, 0x22, 0x23, 0x24],
    errIs (moveRun op false true) (fun e => e.need.isNone) = true ∧ errIs (moveRun op true false) (fun e => e.need.isSome) = true := by
  decide +kernel

/-- COPY brings the bytes over. -/
theorem test_copy_bytes :
    let s := poke (movePkg 0x22 false false) 66304 [1, 2, 3, 4, 5, 6, 7, 8]
    cellRead (nextOf (exec (.copy 0 0) s)).mem 66560 9 = [1, 2, 3, 4, 5, 6, 7, 8, 0] := by decide +kernel

/-- A KV_APPEND of one entry, in a mode; the entry names plane 0 of a sequence at 0, one token whose rows stand at the work store's start. -/
def appendDesc (mode : Nat) : BitVec 512 := descWith 0x30 [(16, 0, 16384), (24, 0, 24576), (32, 0, 1), (34, 0, mode)]

/-- An entry of `n` tokens. -/
def appendEntryBits (n : Nat) : BitVec 256 :=
  BitVec.ofNat 256 (n * 2 ^ 80)

/-- A tile with the slot at the head of the attention queue, the sequence and the entry in memory. -/
def appendPkg (mode : Nat) (bad : Bool) : State :=
  let d := appendDesc mode
  let s := kvHead (mapped { runTile d with
    slots := [(0, slotOf d .queued)], queues := [((queueOf (slotOf d .queued)).key, [0])]
    xlt := if bad then [] else [flatEntry 0] })
  poke s 16384 (bytesLE 32 (appendEntryBits 1).toNat)

/-- The rows of that entry. -/
def appendRow (mode : Nat) : AppendRows :=
  { entry := appendEntryBits 1, entryNo := 0, mode := mode, issuer := 0, slot := 0, job := 0, step := 1
    rows := List.replicate 256 0, aux := [] }

/-- The statement's choice. -/
def rowsOf (b : MeshBody) : Option AppendRows :=
  match b with
  | .rows r => some r
  | _ => none

/-- Each mode may run and issues; it stops where nothing is mapped. -/
theorem test_append : ∀ mode ∈ [0, 1, 2],
    let d := slotOf (appendDesc mode) .queued
    (appendPkg mode false).runnable 0 0 0x30 = some d ∧ fld d.desc 34 1 0 = mode
      ∧ okIs ((issueAll d (d.env 0 0) mode).result (appendPkg mode false)) (fun l q => l.length = 1 && q.self = 0) = true
      ∧ errIs ((issueAll d (d.env 0 0) mode).result (appendPkg mode true)) (fun e => e.need.isNone) = true := by decide +kernel

/-- What the issue gave for the one entry goes to an own tile. -/
def goesHome (l : List (BitVec 256 × Except Outc AppendGo)) : Bool :=
  match l with
  | [(_, .ok g)] => unitPkg g.home = 0
  | _ => false

/-- In modes 0 and 1 it goes. -/
theorem test_append_home : ∀ mode ∈ [0, 1],
    let d := slotOf (appendDesc mode) .queued
    okIs ((issueAll d (d.env 0 0) mode).result (appendPkg mode false)) (fun l _ => goesHome l) = true := by decide +kernel

/-- Rows that arrive: at a tile out of service, and at one in service with and without the sequence's pages. -/
theorem test_rows :
    let r := appendRow 0
    let s := appendPkg 0 false
    (meshTake 0 rowsOf [⟨0, 5, .rows r⟩]).isSome = true ∧ lit.tileUp 0 = false ∧ s.tileUp 0 = true ∧ s.clocksRun = true
      ∧ (s.tile 0).frontWaits = []
      ∧ okIs ((applyRows false (s.frontEnv 0 0 1 true) r).result s) (fun a _ => a.send.isNone) = true
      ∧ errIs ((applyRows false ((appendPkg 0 true).frontEnv 0 0 1 true) r).result (appendPkg 0 true)) (fun e => e.need.isNone) = true := by
  decide +kernel

/-- A front end whose pages lie in the twin asks for their bytes. -/
theorem test_rows_far :
    let s := withTwin ((appendPkg 0 false).modTile 0 fun x => { x with xlt := [{ flatEntry 0 with base := 2 ^ 46 }] })
    errIs ((applyRows false (s.frontEnv 0 0 1 true) (appendRow 0)).result s) (fun e => e.need.isSome) = true := by decide +kernel

/-- An ATTENTION of one sequence, one query row and head. -/
def attnDesc (target : Nat) : BitVec 512 :=
  descWith 0x31 [(12, 0, target), (16, 0, 16384), (24, 0, 65536), (32, 0, 14336), (36, 0, 1), (38, 0, 2), (40, 0, 1)]

/-- A tile with it at the head of its queue; the sequence, of blocks of 128 tokens, holds `len` tokens, one of this step. -/
def attnPkg (target len : Nat) (x : Tile) : State :=
  let d := attnDesc target
  let s := kvHead (mapped { x with
    running := (runTile d).running, planStep := 1, slots := [(0, slotOf d .queued)]
    queues := [((queueOf (slotOf d .queued)).key, [0])], xlt := [flatEntry 0] })
  poke (poke (poke (poke s 8 (bytesLE 4 (7 + 3 * 2 ^ 20))) 16 (bytesLE 4 1024)) 64 (bytesLE 4 len ++ bytesLE 4 (len - 1) ++ bytesLE 8 1))
    16384 (bytesLE 32 (2 ^ 80))

/-- Its slot. -/
def attnSlot : DescSlot := slotOf (attnDesc 0) .queued

/-- It may run, with its own tile as target and no sequence in hand; one for stack 5, which is absent, has no target. -/
theorem test_attention :
    let s := attnPkg 0 2 {}
    let away := attnPkg (stackUnit 0 5).toNat 2 { ({} : Tile) with unit := .ready }
    (attnPkg 0 2 { ({} : Tile) with unit := .ready }).runnable 0 0 0x31 = some attnSlot ∧ (s.tile 0).leadsOf 0 = []
      ∧ s.noGroup (s.slotUnitId 0 attnSlot) = false
      ∧ (((attnPkg 0 2 { ({} : Tile) with unit := .ready }).attnTargets 0 attnSlot).map Prod.fst).eraseDups = [tileUnit 0 0]
      ∧ away.attnTargets 0 (slotOf (attnDesc (stackUnit 0 5).toNat) .queued) = [] := by decide +kernel

/-- A target group that does not exist. -/
theorem test_attention_group : lit.noGroup (groupUnit 0 3) = true := by decide +kernel

/-- The lead's reading of a short sequence deals no placement, of a long one it does. -/
theorem test_attention_lead :
    let env := (attnSlot.env 0 0).attn
    okIs ((leadAttention env attnSlot [tileUnit 0 0]).result (attnPkg 0 2 { ({} : Tile) with unit := .ready }))
        (fun l _ => l.length = 1 && l.all fun q => q.refused.isNone && q.bucket < 3) = true
      ∧ okIs ((leadAttention env attnSlot [tileUnit 0 0]).result (attnPkg 0 65600 { ({} : Tile) with unit := .ready }))
        (fun l _ => l.any fun q => q.refused.isNone && 3 ≤ q.bucket) = true := by decide +kernel

/-- An item of that sequence at its own tile. -/
def attnItem (started : Bool) (todo : List Nat) : AttnItem :=
  { lead := 0, leadSlot := 0, seq := 0, slotNo := 0, kind := .bucket0, lo := 0, hi := 2, desc := attnDesc 0, batch := BitVec.ofNat 256 (2 ^ 80)
    header := descOf (cellRead (attnPkg 0 2 {}).mem 0 64), g0 := 5, lb := 1, ctx := 0, job := 0, step := 1, started := started, todo := todo }

/-- The statement's choice of an item and of a report. -/
def itemOf (b : MeshBody) : Option AttnItem :=
  match b with
  | .item k => some k
  | _ => none

/-- A report. -/
def itemRepOf (b : MeshBody) : Bool :=
  match b with
  | .itemReport _ _ _ _ _ _ => true
  | _ => false

/-- Items that arrive, start, take a block and end; the sequence's run is read again. -/
theorem test_items :
    let s := attnPkg 0 2 { ({} : Tile) with unit := .ready, items := [attnItem true [0, 1]] }
    let q := attnPkg 0 2 { ({} : Tile) with unit := .ready, items := [attnItem false []] }
    let k : SeqRun := { slot := 0, seq := 0, slots := 1 }
    (meshTake 0 itemOf [⟨0, 5, .item (attnItem false [])⟩]).isSome = true ∧ itemRepOf (.itemReport 0 0 0 {} true 0) = true
      ∧ s.tileUp 0 = true ∧ lit.tileUp 0 = false ∧ s.clocksRun = true
      ∧ okIs ((startItem ((attnItem false []).env 0) (attnItem false [])).result q) (fun it u =>
          it.started && (u.tile 0).items = [attnItem false []]) = true
      ∧ okIs ((recheckGen ((attnSlot.env 0 0).attn) [k]).result s) (fun l _ => l.length = 1) = true := by decide +kernel

/-- A block of it, poked as block 0 at 2^21, is read. -/
theorem test_block :
    let s := poke (attnPkg 0 2 { ({} : Tile) with unit := .ready, items := [attnItem true [0, 1]] }) 128 (bytesLE 8 (2 ^ 21))
    okIs ((blockTokens false ((attnItem true [0, 1]).env 0) (attnItem true [0, 1]) 0).result s) (fun l u =>
      l.length = 2 && (u.tile 0).items = [attnItem true [0, 1]]) = true := by decide +kernel

/-- An item whose blocks have all come reads GEN again and writes its slot. -/
theorem test_item_ends :
    let s := attnPkg 0 2 { ({} : Tile) with unit := .ready, items := [attnItem true []] }
    okIs ((do
      let k ← checkGen ((attnItem true []).env 0) (attnItem true [])
      writeDva ((attnItem true []).env 0) k.slotAt k.slot 2
      pure k : M AttnItem).result s) (fun k _ => !k.stale) = true := by decide +kernel

/-- Its first block stands in the tail slot of its plane, and its flagged slot can be written. -/
theorem test_block_held :
    let k : KvSlot := { pt := 0, plane := 0, seqId := 7, block := 0, dva := 2 ^ 21, job := 0, staging := false, bytes := 2048, image := [] }
    let it := attnItem true [0, 1]
    let s := attnPkg 0 2 { ({} : Tile) with unit := .ready, items := [it], kv := [k] }
    ((s.tile it.tailTile).tailSlot it.ctx_.b.pt it.ctx_.b.plane it.ctx_.h.seqId).filter (fun k => k.block = 0) = some k
      ∧ it.kind ≠ .listed ∧ it.kind ≠ .span ∧ 0 ≠ candBlock
      ∧ okIs ((do
        let l ← poisonSlot it
        writeDva (it.env 0) it.slotAt l 2
        pure l : M (List Byte)).result s) (fun l _ => l.length % 64 = 0) = true := by decide +kernel

/-- A PEWTER_MV of one row, one page of FP8 weights at 0 and one vector loaded from the work store, results to the work store. -/
def pewDesc : BitVec 512 :=
  descWith 0x40 [(16, 0, 0), (24, 0, 8192), (32, 0, 3), (33, 0, 1), (33, 4, 1), (34, 5, 1), (34, 6, 1), (36, 0, 1), (38, 0, 1),
    (42, 0, 1), (44, 0, 0), (48, 0, 0x3F800000), (52, 0, 128)]

/-- Its sequence once started. -/
def pewSeq (todo : List (Nat × Nat × Nat)) (done : Bool) : PewSeq :=
  { slot := 0, tag := 0, half := some 0, vslot := 0, desc := pewDesc, job := 0, order := 0, outs := [], todo := todo, done := done }

/-- A tile with the sequence, and its vectors. -/
def pewPkg (q : PewSeq) (f : Tile → Tile) : State :=
  litTile (f { runTile pewDesc with
    slots := [(0, slotOf pewDesc .running)]
    pewter := { seqs := [q], vslots := [(0, { v := 1, fmt := 1, k0 := 0, k1 := 2048, data := [List.replicate 2048 0] })] } })

/-- A fence of tag 0, dispatched after it. -/
def fenceSlot : DescSlot := { slotOf (descWith 0x41 [(16, 0, 1)]) .queued with order := 1 }

/-- The descriptor waits, with room in its queue; it heads the queue, and may start or not. -/
theorem test_pewter_start :
    let w := litTile { runTile pewDesc with slots := [(0, slotOf pewDesc .waiting)] }
    let h := mapped { runTile pewDesc with slots := [(0, slotOf pewDesc .queued)], queues := [(7, [0])], xlt := [flatEntry 0] }
    (w.tile 0).waitMet (slotOf pewDesc .waiting) = true ∧ w.ownWork 0 (slotOf pewDesc .waiting) = true
      ∧ (queueOf (slotOf pewDesc .waiting)).key = 7 ∧ (w.tile 0).room 7 = true ∧ admitCheck pewDesc 1 = none
      ∧ (w.tile 0).channelDown (queueOf (slotOf pewDesc .waiting)) = false
      ∧ (h.tile 0).pewterHead = some (0, slotOf pewDesc .queued) ∧ (h.tile 0).pewter.mayStart pewDesc = true
      ∧ ({ seqs := [pewSeq [] false, { pewSeq [] false with half := some 1 }] } : Pewter).mayStart pewDesc = false
      ∧ errIs ((startChecks pewDesc ((slotOf pewDesc .queued).env 0 0)).result h) (fun _ => true) = true
      ∧ okIs ((startChecks pewDesc ((slotOf pewDesc .queued).env 0 0)).result
          (h.modTile 0 fun x => { x with mem := { x.mem with regions := [(0, { computable := true })] } }))
        (fun r q => r.1.length = 1 && (q.tile 0).slot 0 = some (slotOf pewDesc .queued)) = true := by decide +kernel

/-- A page to read, poisoned or not; a busy bank; a sequence read through. -/
theorem test_pewter_slice :
    let s := pewPkg (pewSeq [(0, 0, 5)] false) id
    let b := pewPkg (pewSeq [] false) fun x => { x with pewter := { x.pewter with busy := [(5, (0, 7, 0))] } }
    let e := pewPkg (pewSeq [] false) id
    kvFind (s.tile 0).pewter.busy 5 = none ∧ (s.tile 0).pewter.nextPage 5 = some (pewSeq [(0, 0, 5)] false, 0, 0)
      ∧ (s.tile 0).poisoned 0 = false ∧ (s.tile 0).pageFailing 0 = false ∧ (kvFind (s.tile 0).pewter.vslots 0).isSome = true
      ∧ (kvFind (b.tile 0).pewter.busy 5).isSome = true ∧ b.clocksRun = true
      ∧ ((e.tile 0).pewter.seqs.find? fun q => q.tag = 0 && !q.done && (e.tile 0).pewter.readThrough q).isSome = true
      ∧ ((e.tile 0).slot 0).isSome = true := by decide +kernel

/-- The premises of a slice: its bank up, its pair in agreement, no reinitialisation, no hold, no march. -/
theorem test_pewter_premises :
    let x := (pewPkg (pewSeq [(0, 0, 5)] false) id).tile 0
    x.bankUp 5 = true ∧ x.ilvAgrees (regionOf 0) = true ∧ (x.region (regionOf 0)).init = false ∧ x.mem.hold ≠ some 0
      ∧ x.mem.marched.contains 0 = false ∧ ({ x with mem := { x.mem with regions := [(0, { ilv := 1 })] } } : Tile).ilvAgrees 0 = false
      ∧ (({ x with mem := { x.mem with regions := [(0, { init := true })] } } : Tile).region 0).init = true
      ∧ ({ x with mem := { x.mem with hold := some 0 } } : Tile).mem.hold = some 0 := by decide +kernel

/-- A fence with nothing to cover, with a sequence that runs, and with one that is done. -/
theorem test_pewter_fence :
    let d := fenceSlot
    let f := fun (x : Tile) => { x with slots := [(0, d)], queues := [(7, [0])] }
    let covers := fun (q : PewSeq) => q.half.isSome && q.order < d.order && (fld d.desc 16 15 0).testBit q.tag
    let s := pewPkg (pewSeq [] true) f
    dOpcode d.desc = 0x41 ∧ admitCheck d.desc 1 = none ∧ covers (pewSeq [] true) = true ∧ (s.tile 0).queue_ 7 = [0]
      ∧ ((litTile (f (runTile nopDesc))).tile 0).coveredWaiting 1 1 = false
      ∧ okIs ((putResults (d.env 0 0) (pewSeq [] true)).result s) (fun _ r => r.tile 0 = { s.tile 0 with
        ws := (r.tile 0).ws, activity := (r.tile 0).activity, xlt := (r.tile 0).xlt, counters := (r.tile 0).counters }) = true := by
  decide +kernel

/-- An error in the word of the work store that a fence adds to ends it POISONED; elsewhere it does not. -/
theorem test_pewter_fence_error :
    let d := fenceSlot
    let q := { pewSeq [] true with desc := pewDesc ||| BitVec.ofNat 512 (2 ^ (8 * 34 + 7)) }
    let s := pewPkg q fun x => { x with slots := [(0, d)], queues := [(7, [0])] }
    let run := fun (a : Nat) => (nextOf (exec (.fence 0 0 ⟨2, some a⟩) s)).tile 0
    pvOutWs q.desc = true ∧ pvAdd q.desc = true ∧ fld q.desc 24 63 0 + pvOut q.desc 0 0 = 8192
      ∧ [8192, 0].map (fun a => (((run a).slot 0).map fun z => z.result.status, (run a).eccCorrected, (run a).eccUncorrected))
        = [(some St.poisoned, 2, 1), (some St.ok, 2, 0)] := by decide +kernel

/-- Tile 0 in service with its memory as given. -/
def memPkg (f : Tile → Tile) : State := litTile (f { ({} : Tile) with unit := .ready })

/-- A readable page, in a protected and in a computable region; a busy bank; passes; a region under reinitialisation; spares. -/
theorem test_pages :
    let s := memPkg id
    let comp := memPkg fun x => { x with mem := { x.mem with regions := [(0, { computable := true })] } }
    let busy := memPkg fun x => { x with pewter := { x.pewter with busy := [(5, (0, 7, 0))] } }
    let pass := memPkg fun x => { x with mem := { x.mem with demand := [(cmdOf 0x0223, [0])] } }
    let full := memPkg fun x => { x with mem := { x.mem with channels := [(1, { spare68 := 3, spare69 := 4 })] } }
    tileOk 0 = true ∧ s.clocksRun = true ∧ s.pageStop 0 5 = none ∧ (s.tile 0).poisoned 5 = false ∧ (s.tile 0).pageFailing 5 = false
      ∧ (s.tile 0).mem.marched.contains 5 = false ∧ kvFind (s.tile 0).mem.raw 5 = none ∧ kvFind (s.tile 0).mem.narrow 5 = none
      ∧ ((s.tile 0).region 0).computable = false ∧ 1 ≤ strength ((s.tile 0).region 0).t ∧ comp.pageStop 0 5 = none
      ∧ ((comp.tile 0).region 0).computable = true
      ∧ kvFind (busy.tile 0).pewter.busy 5 ≠ none ∧ kvFind (s.tile 0).pewter.busy 5 = none
      ∧ s.stackUp 0 = true ∧ (s.tile 0).mem.demand = [] ∧ (s.tile 0).scrubNext (2 ^ 20) (s.tile 0).scrubFuel 0 = some 0
      ∧ (s.tile 0).scrubNext (2 ^ 20) (s.tile 0).scrubFuel (2 ^ 20) = none
      ∧ (pass.tile 0).scrubNext 32768 (pass.tile 0).scrubFuel 0 = some 0
      ∧ (((memPkg fun x => { x with mem := { x.mem with regions := [(2, { init := true })] } }).tile 0).region 2).init = true
      ∧ ((s.tile 0).channel 1).state = 0 ∧ ((s.tile 0).channel 1).spare68 = 0x7F ∧ ((full.tile 0).channel 1).spare69 = 4 := by
  decide +kernel

/-- An uncorrectable verdict poisons the page; one corrected bit is counted. -/
theorem test_verdicts :
    (((nextOf (exec (.pageVerdict 0 5 1 .uncorrectable) (memPkg id))).tile 0).poisoned 5,
      ((nextOf (exec (.pageVerdict 0 5 1 (.corrected 1)) (memPkg id))).tile 0).mem.corrected) = (true, 1) := by decide +kernel

/-- A page of the code area fills the instruction cache; the passes take turns. -/
theorem test_pages_more :
    let x := (memPkg id).tile 0
    let p := (x.topRegion + 1) * 32768 - 4096
    x.codePage p = true ∧ p < 2 ^ 20 ∧ x.codePage 5 = false ∧ (memPkg id).pageStop 0 p = none ∧ x.mem.scrubPeriod ≠ 0
      ∧ x.mem.scrubTurn = false ∧ kvFind x.mem.narrow p = none
      ∧ ({ x with mem := { x.mem with demand := [(cmdOf 0x0223, [0])], scrubTurn := true } } : Tile).mem.scrubTurn = true
      ∧ ((nextOf (exec (.pageVerdict 0 p 9 .uncorrectable) (memPkg id))).tile 0).trap = 1 := by decide +kernel

/-- Tile 0 removed and held, the first row of layer 0 bank 0 or column 600 selected. -/
def repairPkg (f : TileMem → TileMem) : State :=
  litTile { ({} : Tile) with unit := .removed, mem := f { ({} : Tile).mem with hold := some 0 } }

/-- The selected row is page 0; with spares free, used up, and a column out of range; a march in progress; a layer mapped out. -/
theorem test_repair :
    let s := repairPkg id
    let x := s.tile 0
    let used := repairPkg fun m => { m with repairs := (List.range 32).map fun n => (0, 0, n + 1, false, false) }
    s.barOpen = true ∧ s.clocksRun = true ∧ x.mem.repairBusy = false ∧ x.selected = (0, 0, 0, 0) ∧ x.pageAt 0 0 0 = some 0
      ∧ (x.channel 0).state ≠ 1 ∧ x.mem.hold ≠ none ∧ x.mem.marched.contains 0 = false ∧ x.mem.repairs = []
      ∧ (((repairPkg fun m => { m with channels := [(0, { state := 1 })] }).tile 0).channel 0).state = 1
      ∧ ((used.tile 0).mem.repairs.filter fun r => r.1 = 0 && r.2.1 = 0 && r.2.2.2.1 = false).length = 32
      ∧ ((repairPkg fun m => { m with repairSel := 600 * 2 ^ 20 }).tile 0).selected.2.2.2 = 600
      ∧ (repairPkg fun m => { m with repairBusy := true }).clocksRun = true
      ∧ ((litTile { ({} : Tile) with unit := .ready }).tile 0).mem.hold = none ∧ bitAt (1 : Word) 0 = true ∧ bitAt (0 : Word) 0 = false := by
  decide +kernel

/-- A repair takes a spare. -/
theorem test_soft_row : ((nextOf (exec (.softRow 0) (repairPkg id))).tile 0).mem.repairs = [(0, 0, 0, false, false)] := by
  decide +kernel

/-- A port in training with two groups, one up, a held message of another package, and an assignment that takes a group away. -/
theorem test_links :
    let s := portPkg .training .training
    let u := portPkg .up .inService
    let m : Msg := { op := 0x81, src := 5, dst := 6, txn := 0 }
    let h : State := { u with cornis := { u.cornis with held := [(m, 3)] } }
    s.barOpen = true ∧ s.cornis.trained = false ∧ s.clocksRun = true ∧ (s.port 0).state = .training ∧ s.portGroups 0 ≠ []
      ∧ (∀ g ∈ s.portGroups 0, (s.cornis.groups[g]?).map (·.state) = some .training) ∧ 2 ≤ (s.portGroups 0).length
      ∧ (s.port 0).width.toNat = 1 ∧ s.self = 0
      ∧ (∃ g ∈ s.portGroups 0, g ∉ (s.setAssignment (0x40 + 8 * ((s.portGroups 0)[0]?).getD 0) 0).portGroups 0)
      ∧ (u.port 0).up = true ∧ (u.port 0).rxSeq = 0xFFFF ∧ (u.port 0).naks < 8 ∧ ((u.port 0).rxHeld[0]?).getD 0 < creditLimit 0
      ∧ ((u.port 0).rxOpen[0]?).getD false = false ∧ bitAt (4 : Word) 2 = true ∧ bitsOf (4 : Word) 23 8 = 0
      ∧ h.stalled[0]? = some (m, 3) ∧ isRequest m = false := by decide +kernel

/-- A wide port with both groups in service, on which a flit overtakes; a narrow one. -/
theorem test_flit_order :
    let u := portPkg .up .inService
    ((u.portGroups 0).filter fun g => (u.cornis.groups[g]?).map (·.state) = some .inService).length = 2 ∧ (u.port 0).early = []
      ∧ (u.port 0).nak = false ∧ ((1 : BitVec 16) - (u.port 0).rxSeq).toNat = 2 := by decide +kernel

/-- A flit in order is counted; a training with one group failed ends narrow. -/
theorem test_flit :
    let u := nextOf (exec (.flitReceive 0 4 true 0) (portPkg .up .inService))
    let n := nextOf (exec (.portTrainEnd 0 { peer := 3, failedGroups := [((lit.portGroups 0)[0]?).getD 0] }) (portPkg .training .training))
    ((u.port 0).rxSeq, (u.port 0).rxHeld, (n.port 0).state, (n.port 0).peer) = (0, [1, 0, 0, 0], .narrow, 3) := by decide +kernel

/-- A request of package 3, which arrives on port 0; physical for the first three. -/
def reqMsg (op : BitVec 8) : Msg :=
  { op := op, src := 3, srcUnit := pkgUnit 3, phys := op.toNat ≤ 3, length := if op.toNat ≤ 2 then 4 else 0
    data := if op = Op.write then [1, 2, 3, 4] else [], gaddr := 0 }

/-- Messages with data. -/
def bigMsg (op : BitVec 8) (n : Nat) : Msg :=
  let d := if op = Op.control then encodeCmd (cmdOf 0x0101) else List.replicate n 0
  { reqMsg op with length := d.length, data := d, ordered := true, vc := if op = Op.control then 3 else 0, operand2 := w64 64 }

/-- A package with a port up and a tile in service. -/
def meshUp : State := { portPkg .up .inService with tiles := (litTile { ({} : Tile) with unit := .ready }).tiles, units := (litTile {}).units }

/-- Port 8, by which the twin's messages come. -/
def twinMsg (kind : Nat) : Msg := { reqMsg Op.write with
  src := 1, port := 8, phys := false, operand := w64 kind, dva := 0 }

/-- Each request arrives and is sound; one that is not in each way. -/
theorem test_requests : ∀ k ∈ [1, 2, 3],
    let op := BitVec.ofNat 8 k
    let m := reqMsg op
    m.port = 0 ∧ meshUp.clocksRun = true ∧ (meshUp.port 0).up = true ∧ m.src ≠ meshUp.self ∧ m.dst = meshUp.self ∧ m.crcOk = true
      ∧ meshUp.ready = true ∧ meshUp.cornis.suspects.contains 3 = false ∧ meshUp.badRequest m = false
      ∧ meshUp.badRequest { m with reservedZero := false } = true := by decide +kernel

/-- So are the others. -/
theorem test_requests_more : ∀ k ∈ [4, 5, 6], meshUp.badRequest { bigMsg (BitVec.ofNat 8 k) 64 with phys := false, operand2 := 0 } = false
    ∧ meshUp.badRequest { bigMsg Op.appendFwd 40 with phys := false } = false := by decide +kernel

/-- Their accesses answer or stop; a share with and without a tile; a command refused and one that starts. -/
theorem test_request_work :
    okIs ((readAsked (reqMsg Op.read)).result (taken meshUp (reqMsg Op.read))) (fun r _ => !r.2) = true
      ∧ errIs ((readAsked { reqMsg Op.read with gaddr := 2 ^ 46 }).result meshUp) (fun _ => true) = true
      ∧ okIs ((writeOrdinary (reqMsg Op.write)).result (taken meshUp (reqMsg Op.write))) (fun w _ => w = {}) = true
      ∧ okIs ((applyAtomic (reqMsg Op.atomic)).result (taken meshUp (reqMsg Op.atomic))) (fun n _ => n = 0) = true
      ∧ errIs ((applyAtomic { reqMsg Op.atomic with gaddr := 2 }).result meshUp) (fun _ => true) = true
      ∧ (meshUp.tile 0).canTrack (reqMsg Op.write) = true
      ∧ ({ trackers := (List.range 256).map fun k => { srcUnit := 0, arrId := BitVec.ofNat 16 k, arrStep := 1, ctr := 0, count := 0, total := none, lastAt := 0 } } : Tile).canTrack
        { reqMsg Op.write with arrStep := 2 } = false
      ∧ meshUp.tilesUp = [0] ∧ (portPkg .up .inService).tilesUp = []
      ∧ meshUp.cmdRefusal (controlCmd (bigMsg Op.control 64)) = none
      ∧ (meshUp.cmdRefusal (controlCmd { bigMsg Op.control 64 with data := List.replicate 64 0xFF })).isSome = true
      ∧ meshUp.fragmentsOf (bigMsg Op.appendFwd 40) = none ∧ bitsOf (bigMsg Op.appendFwd 40).operand2 31 0 = 64 := by decide +kernel

/-- A source unit that is none, and the part of a forwarded commit that completes a token. -/
theorem test_request_parts :
    unitValid (reqMsg Op.read).srcUnit = true ∧ unitValid ({ reqMsg Op.read with srcUnit := 0 } : Msg).srcUnit = false
      ∧ (let part := bytesLE 32 (appendEntryBits 1).toNat ++ List.replicate 4 0
        tokensIn false false 36 (part.take 33) = 0 ∧ tokensIn false false 36 part = 1 ∧ 32 ≤ part.length) := by decide +kernel

/-- The twin's messages meet each state. -/
theorem test_twin_writes :
    (withTwin lit).badRequest { twinMsg 1 with phys := false } = false ∧ ((withTwin lit).port 8).up = true ∧ (withTwin lit).twinPkg = 1
      ∧ mirrorGen (twinMsg 1) = (withTwin lit).twin.gen ∧ mirrorGen { twinMsg 1 with operand := w64 (1 + 2 ^ 32) } = 1 := by decide +kernel

/-- A mirror write and a resync copy of it are applied where the page is mirrored. -/
theorem test_twin_pages :
    okIs ((writeMirror (twinMsg 1)).result (taken (pairPkg .paired) (twinMsg 1))) (fun _ q => cellRead q.mem 0 4 = [1, 2, 3, 4]) = true
      ∧ okIs ((writeCopy (twinMsg 2)).result (taken (pairPkg .target) (twinMsg 2))) (fun _ q => cellRead q.mem 0 4 = [1, 2, 3, 4]) = true := by
  decide +kernel

/-- A write of four bytes lands and an atomic adds. -/
theorem test_request_bytes :
    let u := nextOf (exec (.write (reqMsg Op.write)) meshUp)
    let v := nextOf (exec (.atomic { reqMsg Op.atomic with operand := 1 }) u)
    cellRead u.mem 0 5 = [1, 2, 3, 4, 0] ∧ cellRead v.mem 0 5 = [2, 2, 3, 4, 0] := by decide +kernel

/-- A response of package 3 on port 0. -/
def respMsg (op : BitVec 8) : Msg := { op := op, src := 3, srcUnit := pkgUnit 0, txn := 7, vc := 1 }

/-- An outstanding request of an operation. -/
def txnOf (op : BitVec 8) (again : Bool) : Txn :=
  { txn := 7, dst := 3, sentAt := 0, user := .slot 0 0, msg := { op := op, dst := 3, txn := 7, length := 4, arrEn := op = Op.write }, again := again }

/-- A package that waits for it. -/
def waiting (op : BitVec 8) (again : Bool) : State :=
  let s := portPkg .up .inService
  { s with tiles := [(0, { runTile nopDesc with slots := [(0, { slotOf nopDesc .running with waits := [7] })] })]
           cornis := { s.cornis with txns := [txnOf op again] } }

/-- Responses that answer, that are late, and that answer nothing. -/
theorem test_responses : ∀ k ∈ [1, 2, 3, 4, 5, 6],
    let op := BitVec.ofNat 8 k
    let s := waiting op false
    let m := respMsg (op + 0x80)
    s.clocksRun = true ∧ (s.port m.port).up = true ∧ m.port ≠ 8 ∧ m.src ≠ s.self ∧ m.dst = s.self ∧ m.crcOk = true
      ∧ m.vc = 1 ∧ m.reservedZero = true ∧ m.lengthOk = true ∧ unitValid m.srcUnit = true ∧ unitValid (0 : BitVec 32) = false
      ∧ (s.cornis.txns.find? fun t => t.txn = m.txn) = some (txnOf op false)
      ∧ s.time.now < (txnOf op false).sentAt + ms 10 ∧ (portPkg .up .inService).cornis.txns = [] ∧ s.cornis.expired = []
      ∧ s.therm.haltDue = false ∧ ((s.tile 0).slot 0).isSome = true := by decide +kernel

/-- An ARR_BUSY to a tagged message, a resend that is due, and a tracker. -/
theorem test_resend :
    let s := waiting Op.write true
    let k : Tracker := { srcUnit := 9, arrId := 1, arrStep := 2, ctr := 0, count := 1, total := none, lastAt := 4 }
    (txnOf Op.write false).msg.arrEn = true ∧ (txnOf Op.write false).resends < 16
      ∧ (s.cornis.txns.find? fun x => x.txn = 7 && x.again) = some (txnOf Op.write true)
      ∧ ({ trackers := [k] } : Tile).trackers.find? (fun k => k.srcUnit = 9 && k.arrId = 1 && k.arrStep = 2) = some k := by
  decide +kernel

/-- A READ_DATA gives its bytes to the slot. -/
theorem test_read_data :
    let u := nextOf (exec (.readData { respMsg 0x81 with data := [1, 2, 3, 4], length := 4 }) (waiting Op.read false))
    ((u.tile 0).slot 0).map (fun d => (d.waits, d.fetched)) = some ([], [(0, [1, 2, 3, 4])]) := by decide +kernel

/-- A pair state, freshness and generation, with the twin port up. -/
def pairAt (st : PairSt) (fresh : Bool) (gen : Nat) : State :=
  let s := pairPkg st
  { s with twin := { s.twin with fresh := fresh, gen := BitVec.ofNat 32 gen } }

/-- The twin's hello of a state. -/
def helloOf (st : Nat) (fresh leaving : Bool) (gen : Nat) : Hello :=
  { package := 1, state := st, fresh := fresh, leaving := leaving, gen := BitVec.ofNat 32 gen, orderCode := orderCode
    fwVersion := lit.tileFw, tiles := [] }

/-- Each case of the statement has a hello and a state. -/
theorem test_hello :
    let s := pairAt .solo false 3
    s.helloOn = true ∧ s.therm.halted = false ∧ s.therm.haltDue = false ∧ s.therm.leaving = false ∧ s.clocksRun = true
      ∧ s.twin.suspect = false ∧ (helloOf 2 false false 3).reservedZero = true ∧ s.helloRefusal (helloOf 2 false false 3) = none
      ∧ s.helloRefusal { helloOf 2 false false 3 with stepping := 1 } = some Rs.twinModel
      ∧ (pairAt .solo false 3).twin.state = .solo ∧ pairOf 2 = .solo ∧ pairOf 4 = .stale ∧ pairOf 3 = .source ∧ pairOf 1 = .paired
      ∧ ((pairAt .unpaired true 0).beat (helloOf 0 true false 0)).isNone = true
      ∧ ((pairAt .unpaired true 0).beat (helloOf 2 false false 3)).isNone = true
      ∧ (s.beat (helloOf 0 true false 0)).isNone = true ∧ (s.beat (helloOf 2 false false 3)).isNone = true
      ∧ lit.helloOn = true ∧ (lit.port 8).up = false ∧ (s.port 8).up = true
      ∧ { lit.cornis with routes := [(1, (1 : BitVec 16))] }.routes = [(1, 1)] := by decide +kernel

/-- The twin's hello as it is heard, a barred twin, and a pace of copies. -/
theorem test_hello_heard :
    let s := pairAt .solo false 3
    let h := helloOf 2 false false 3
    ((s.hearTwin h.package).hearFresh h).helloRefusal h = none ∧ s.twin.barred = false
      ∧ ((s.hearTwin h.package).hearFresh h).helloRefusal { h with stepping := 1 } = some Rs.twinModel
      ∧ ({ s.twin with barred := true } : TwinState).barred = true ∧ 0 < s.copyTime := by decide +kernel

/-- The twin is reached by a route while its own port is down; a leave, a tail and a resync under way. -/
theorem test_twin_moves :
    let r := { lit with cornis := { (portPkg .up .inService).cornis with routes := [(1, (1 : BitVec 16))] } }
    let s := pairAt .source false 3
    let copy := { s with twin := { s.twin with phase := 1, contexts := [5] } }
    (r.port 8).up = false ∧ r.pathStop r.twinPkg = none
      ∧ ({ s.twin with leaving := some 4 } : TwinState).leaving = some 4 ∧ copy.pathStop copy.twinPkg = none
      ∧ (copy.nextMirrored 0 0).isSome = true ∧ copy.nextMirrored 5 0 = none ∧ copy.tailTiles = []
      ∧ ({ s.tile 0 with tailDue := true } : Tile).tailDue = true ∧ tileOk 0 = true := by decide +kernel

/-- The page at the watermark is read. -/
theorem test_resync_page :
    let s := pairAt .source false 3
    okIs ((readStack 0 pageSize 9).result s) (fun _ q => q.twin = s.twin) = true := by decide +kernel

/-- Two fresh members pair; SOLO facing SOLO is CONFLICT. -/
theorem test_hello_ends :
    let u := nextOf (exec (.hello (helloOf 0 true false 0)) (pairAt .unpaired true 0))
    let v := nextOf (exec (.hello (helloOf 2 false false 3)) (pairAt .solo false 3))
    (u.twin.state, u.twin.gen, v.twin.state) = (.paired, 1, .conflict) := by decide +kernel

/-- A ring in which Cobalt holds one slot. -/
def heldRing : State := windowed.modRing 0 fun x => { x with sqTail := 1, run := true, cqTail := 1 }

/-- The cases of registers, slots and rings. -/
theorem test_host :
    let s := windowed
    let g := s.setGuest 0 { s.guest0 with grant := true, ring := 2 }
    s.host.rings.length = 16 ∧ s.host.wins.length = 8 ∧ s.barOpen = true ∧ State.reset.barOpen = false ∧ wtRegister 8 = true
      ∧ (heldRing.ring 0).held 0 = true ∧ (s.ring 0).held 0 = false ∧ s.host.suspect = false
      ∧ s.apertureAt 0 4 = some 0 ∧ s.apertureAt (2 ^ 33 * 2) 4 = none ∧ s.apertureAt (2 ^ 33) 4 = some (2 ^ 46)
      ∧ pkgOf (2 ^ 46) = 1 ∧ s.self = 0 ∧ s.pathStop 1 = none
      ∧ s.ringGuest 0 = none ∧ g.ringGuest 2 = some 0 ∧ s.outstanding (some 0) = 0 ∧ (s.ring 0).run = false
      ∧ (withCmd s (cmdOf 0)).outstanding (some 0) ≠ 0 ∧ s.host.ringsOpen = true ∧ s.host.eq.run = false ∧ s.host.eq.missed = none
      ∧ ¬ (3 - (heldRing.ring 0).cqHead).toNat ≤ ((heldRing.ring 0).cqTail - (heldRing.ring 0).cqHead).toNat
      ∧ ¬ (5 - (heldRing.ring 1).sqTail).toNat ≤ 4095 - (0xFFE - (heldRing.ring 1).sqHead).toNat := by decide +kernel

/-- Accesses of the memory behind a window, clean and poisoned. -/
theorem test_aperture :
    let s := windowed
    let p := poke s 0 [7]
    let bad := s.modTile 0 fun x => { x with mem := { x.mem with poison := [0] } }
    okIs ((readOwn 0 4 8).result p) (fun b _ => b = [7, 0, 0, 0]) = true
      ∧ okIs ((writeOwn 0 8 [1, 2]).result p) (fun _ q => cellRead q.mem 0 2 = [1, 2]) = true
      ∧ errIs ((readOwn 0 4 8).result bad) (fun e => e.status = St.poisoned) = true
      ∧ errIs ((writeOwn 0 8 [1, 2]).result bad) (fun e => e.status = St.poisoned) = true := by decide +kernel

/-- A write through a window leaves its narrow parts waiting; on poisoned memory a whole page does not end the write's part. -/
theorem test_aperture_parts :
    let s := windowed
    pageParts 2040 16 = [(2040, 8), (2048, 8)]
      ∧ okIs (((pageParts 0 2).forM fun p => aperturePart p.1 (([1, 2] : List Byte).take p.2)).result s)
        (fun _ q => ((kvFind (q.tile 0).mem.narrow 0).isSome && q.mem = [])) = true
      ∧ errIs ((aperturePart 0 [1, 2]).result (s.modTile 0 fun x => { x with mem := { x.mem with poison := [0] } }))
        (fun e => e.status = St.poisoned) = true := by decide +kernel

/-- A ring with one NOP in it, and the command slots as given. -/
def fetchPkg (l : List CmdSlot) : State :=
  let s := lit.modRing 0 fun x => { x with run := true, sqTail := 1, sq := [(0, 0x01)], irqEn := true, coalUs := 5, unsignalledAt := some 3 }
  { s with host := { s.host with slots := l, msix := [(0, 0)], eq := { s.host.eq with unsignalledAt := some 3, irqEn := true, coalUs := 5 } } }

/-- A finished command of ring 0. -/
def doneSlot (ret : List Byte) (dev : Bool) : CmdSlot := { cmd := { cmdOf 1 with devAddr := dev, tag := 4 }, ph := .finished, ret := ret }

/-- Fetching: a free tag, one taken, a command held. -/
theorem test_fetch :
    let s := fetchPkg []
    let c := decodeCmd 0 0x01
    let o : CmdSlot := { cmd := { cmdOf 2 with order := true, tag := 9 }, ph := .started }
    s.host.rings.length = 16 ∧ s.brassRuns = true ∧ s.host.ringsOpen = true ∧ (s.ring 1).run = false ∧ (s.ring 0).run = true
      ∧ s.slotFree 0 = true ∧ s.ringGuest 0 = none ∧ (s.ring 0).sqHead ≠ (s.ring 0).sqTail ∧ s.tagTaken c = false
      ∧ (List.range 16).filter s.fetchable = [0] ∧ s.host.round < 16 ∧ s.fetchTurn = some 0
      ∧ (fetchPkg [{ cmd := { cmdOf 2 with tag := c.tag }, ph := .started }]).tagTaken c = true
      ∧ sameRing o { cmd := c, ph := .held } = true ∧ (fetchPkg [o]).tagTaken c = false
      ∧ (s.startRefusal c).isSome = true ∧ s.startRefusal { cmdOf 0x0901 with unit := 0 } = none
      ∧ (s.ring 0).unsignalledAt = some 3 ∧ bitAt (s.msixEntry 0) 96 = false ∧ bitAt (lit.msixEntry 0) 96 = true
      ∧ s.host.msixOn = true := by decide +kernel

/-- Posting: with and without return data, on a full ring, for another package and for a guest. -/
theorem test_post :
    let z := doneSlot [] false
    let s := fetchPkg [z]
    let full := s.modRing 0 fun x => { x with cqHead := 1 }
    (s.host.slots.find? fun k => k.cmd.ring = 0 && k.cmd.tag = 4 && k.ph = .finished) = some z ∧ (s.ring 0).full = false
      ∧ (full.ring 0).full = true ∧ s.hostReach = true ∧ (doneSlot [1] false).ret ≠ []
      ∧ okIs ((writeOwn 0x1000 9 [1, 2]).result (mapped { ({} : Tile) with unit := .ready })) (fun _ _ => true) = true
      ∧ pkgOf 0x1000 = s.self ∧ ((cmdOf 1).origin, (cmdOf 1).guest, z.retSent) = (none, none, none) := by decide +kernel

/-- What is posted reads back from the ring; reads of host memory of each use, a bundle among them. -/
theorem test_posted :
    let u := nextOf (exec (.completionPost 0 4) (fetchPkg [doneSlot [] false]))
    let r : HostRead := { id := 7, addr := 0, len := 64, use := .bundle }
    let s := fetchPkg []
    let b : State := { s with host := { s.host with reads := [r] }, bu := { s.bu with busy := true, running := 7, out := none } }
    u.host.slots = [] ∧ (u.ring 0).cqTail = 1 ∧ (kvGet (u.ring 0).cq 0 0).toNat % 2 ^ 16 = 4
      ∧ (b.host.outReads.find? fun e => e.id = 7) = some r ∧ b.partStop [List.replicate 64 0] 64 = some (Rs.fwFormat, 0)
      ∧ (b.bundleStop (List.replicate 64 0) 64).isSome = true
      ∧ b.bu.running = 7 ∧ (s.host.outReads.find? fun e => e.id = 7) = none := by decide +kernel

/-- The first part of a bundle of 1 KiB, its manifest at 64 and its signature block at 336: a good header, after which the manifest is
read (R424, R425). -/
theorem test_header :
    let h := [0x4F, 0x56, 0x46, 0x57, 1, 0, 0, 0] ++ bytesLE 4 1024 ++ bytesLE 4 64 ++ bytesLE 4 272 ++ bytesLE 4 336 ++ bytesLE 4 688
      ++ List.replicate 36 0
    lit.partStop [h] 1024 = none ∧ nextPart [h] = (64, 272) ∧ nextPart [h, []] = (336, 688)
      ∧ (lit.partStop [h] 1025).isSome = true := by decide +kernel

/-- SHA-384 of "abc", as FIPS 180-4 gives it (R424). -/
theorem test_sha384 :
    beWord (shaBytes [0x61, 0x62, 0x63])
      = 0xCB00753F45A35E8BB5A03D699AC65007272C32AB0EDED1631A8B605A43FF5BED8086072BA1E7CC2358BAECA134C825A7 := by decide +kernel

/-- Reads of BAR2 and BAR0: a doorbell, a completion's tag, and one of a size that is none (R380, R383, R385). -/
theorem test_bar_read :
    let s := lit.modRing 3 fun x => { x with sqTail := 5, cq := [(2, 0xABCD)] }
    (s.barRead 2 0x700018 8).1 = some (bytesLE 8 5) ∧ (s.barRead 2 0x460040 4).1 = some [0xCD, 0xAB, 0, 0]
      ∧ (s.barRead 2 0x700018 2).1 = none ∧ (s.barRead 0 0 4).1 = some (bytesLE 4 0xE24301B0) := by decide +kernel

/-- Energy of a step goes to the jobs by their engines' time in each interval (R447). -/
theorem test_interval :
    let p : JobSpan := { job := some 7, queue := 0, start := 0, stop := 7000, act := [] }
    let q : JobSpan := { job := some 9, queue := 1, start := 3500, stop := 21000, act := [] }
    p.part 0 7000 = 7000 ∧ q.part 0 7000 = 3500 ∧ q.intervals 0 21000 = [0, 1, 2] ∧ p.intervals 0 21000 = [0]
      ∧ (lit.intervalJobs 0 [p, q] 0 7000).map Prod.fst = [7, 9] := by decide +kernel

/-- The endpoint of a package that has come up, its pin, link and function as given. -/
def endpointAt (perst link cfg : Bool) : State :=
  { lit with host := { lit.host with perst := perst, linkUp := link, configReady := cfg, resetAt := some 0 }
             bu := { lit.bu with refOk := true } }

theorem test_endpoint :
    lit.brassRuns = true ∧ lit.bu.s0 = true ∧ lit.host.linkUp = true ∧ lit.host.configReady = true ∧ lit.host.perst = false
      ∧ (endpointAt true false false).host.perst = true ∧ (endpointAt false true false).host.configReady = false
      ∧ (endpointAt false false false).bu.refOk = true ∧ (endpointAt false false false).host.linkUp = false
      ∧ (nextOf (exec .endpointReady (endpointAt false true false))).time.now = 700000000
      ∧ (nextOf (exec .hotReset lit)).host.barsOn = false := by decide +kernel

/-- A reset while a read of a parameter is outstanding. -/
theorem test_lost_read :
    let r : HostRead := { id := 7, addr := 0, len := 64, use := .parameter 0 0 }
    let s := withCmd lit (cmdOf 0x0310)
    let t : State := { s with host := { s.host with reads := [r] } }
    ((nextOf (exec .linkDown t)).host.slots.map fun k => k.param) = [some .failed] := by decide +kernel

/-- A package that has come up, the security engine running or not, its negotiation at a point. -/
def spdmPkg (run : Bool) (n : Nat) : State := { lit with sec := { lit.sec with seRun := run, negotiated := n } }

theorem test_mailbox :
    (spdmPkg true 3).mailbox = true ∧ State.reset.mailbox = false ∧ (spdmPkg false 0).sec.seRun = false
      ∧ (spdmPkg true 0).sec.negotiated < 1 ∧ (spdmPkg true 0).sec.seRun = true := by decide +kernel

/-- Before S7 a request is answered Busy; then the version is served. -/
theorem test_spdm :
    (nextOf (exec .getDigests (spdmPkg false 0))).out.doe = [[1, 0, 1, 0, 3, 0, 0, 0, 0x13, 0x7F, 3, 0]]
      ∧ (nextOf (exec .getVersion (spdmPkg true 0))).out.doe = [[1, 0, 1, 0, 4, 0, 0, 0, 0x10, 0x04, 0, 0, 0, 1, 0x00, 0x13]]
      ∧ (nextOf (exec .getVersion (spdmPkg true 0))).sec.requests = 1 := by decide +kernel

/-- A package with its input up, power good or not, the reference valid or not. -/
def startPkg (good ref : Bool) : State :=
  { State.reset with bu := { State.reset.bu with powered := true, good := good, refOk := ref } }

theorem test_powerup :
    State.reset.bu.powered = false ∧ (startPkg false true).brassRuns = true ∧ (startPkg true false).bu.s0 = false
      ∧ (startPkg false false).bu.good = false ∧ (startPkg true true).bu.refOk = true
      ∧ ({ lit with bu := { lit.bu with refOk := true } } : State).brassRuns = true ∧ lit.bu.s0 = true
      ∧ (nextOf (exec .powerGood (startPkg false true))).bu.s0 = true
      ∧ (nextOf (exec .referenceValid (startPkg true false))).bu.s0 = true
      ∧ (nextOf (exec .powerGood (startPkg false false))).bu.s0 = false := by decide +kernel

/-- A package in bring-up, before a step, with tile 0 as given in stack 0. -/
def risingPkg (k : Nat) (x : Tile) : State :=
  { lit with
    tiles := [(0, x)], bu := { lit.bu with done := k - 1, ready := false, refOk := true, fwLen := 64 }
    twin := { lit.twin with state := .unpaired } }

theorem test_bringup :
    let s := risingPkg 6 {}
    let up := { risingPkg 8 { ({} : Tile) with unit := .ready } with units := (litTile {}).units }
    s.barOpen = true ∧ s.bu.busy = false ∧ s.bu.failed = false ∧ s.bu.refLost = false ∧ s.therm.halted = false ∧ s.rearmed = true
      ∧ s.stackAlive 0 = true ∧ (s.tile 0).unit = .starting ∧ (s.tile 0).mappedOut.length = 0 ∧ ((s.tile 0).channel 0).state = 0
      ∧ s.bu.fuses.connsFailed = [] ∧ s.hostReach = true ∧ s.bu.fwLen ≠ 0 ∧ s.bu.pkgValid = false ∧ s.twin.state = .unpaired
      ∧ up.tilesUp = [0] ∧ up.tileUp 0 = true ∧ up.stackUp 0 = true ∧ s.aliveOf [3] = [3] := by decide +kernel

/-- Dies that are not rearmed; a refused step; a channel mapped out. -/
theorem test_bringup_ends :
    let hot := { risingPkg 1 {} with therm := { lit.therm with diodes := [(0, { temp := 2000, tripped := true })] } }
    let u := nextOf (exec (.bringupS4 [(0, 2, [1, 5, 9])]) (risingPkg 4 {}))
    hot.rearmed = false ∧ (nextOf (exec .bringupS6 (risingPkg 2 {}))).bu.refusal = Rs.outOfOrder
      ∧ ((u.tile 0).channel 2).state = 1 ∧ u.bu.busy = true := by decide +kernel

/-- S13 opens the rings. -/
theorem test_bringup_ready : (nextOf (exec .bringupS13 (risingPkg 13 {}))).host.ringsOpen = true := by decide +kernel

/-- A package whose step runs, with an outcome or without. -/
def inStep (k : Nat) (o : Option StepOut) : State :=
  { lit with bu := { lit.bu with done := k - 1, running := k, busy := true, out := o } }

theorem test_step_ends :
    let s := inStep 12 none
    let w := inStep 11 none
    let p := portPkg .training .training
    s.brassRuns = true ∧ s.bu.resetting = false ∧ s.bu.refLost = false ∧ s.therm.halted = false
      ∧ ({ s.time with locked := true } : TimeState).locked = true ∧ ({ w.twin with waiting := true } : TwinState).waiting = true
      ∧ (p.port 0).state = .training ∧ p.portGroups 0 ≠ [] ∧ (∀ q ∈ List.range 9, (lit.port q).state ≠ .training)
      ∧ (lit.port 0).up = false ∧ lit.portGroups 0 ≠ [] ∧ bitsOf (0x5A : Word) 7 0 = 0x5A ∧ lit.barOpen = true := by decide +kernel

/-- A step that ends OK, one at its limit, and a reset. -/
theorem test_step_results :
    let u := nextOf (exec .bringupStepEnd (inStep 2 (some { step := 2, outc := {}, count := 0 })))
    let v := nextOf (exec .bringupStepLimit (inStep 11 none))
    let r := nextOf (exec (.packageReset 0x5A) lit)
    (u.bu.done, u.bu.busy, v.bu.done, r.bu.busy, (nextOf (exec .packageResetEnd r)).bu.busy) = (2, false, 11, true, false) := by
  decide +kernel

/-- A package under telemetry with a schedule and a tile as given. -/
def wattPkg (x : Tile) : State :=
  let s := tickPkg x true
  { s with tick := { s.tick with running := true }, power := { s.power with rails := s.power.rails.map fun r => { r with minMv := 700, maxMv := 800, mv := 750 } } }

theorem test_power :
    let s := wattPkg { ({} : Tile) with unit := .ready, droopSince := some 0, fill := some (10, 0) }
    let l : List StageReport := List.replicate 12 { vin := 50000, iin := 5000, vout := 6000, iout := 40000 }
    s.telemetry = true ∧ l.length = 12 ∧ s.power.stages.length = 12 ∧ s.bu.powered = true
      ∧ 4 < (s.power.stages.filter fun x => decide (x.state = 0)).length ∧ s.clocksRun = true ∧ s.ready = true
      ∧ s.therm.halted = false ∧ s.tileUp 0 = true ∧ s.stackUp 0 = true ∧ s.effCap ≤ min (s.effCap * (100 + 10) / 100) 3960
      ∧ (nextOf (exec (.powerSample l) s)).power.watts = 3000
      ∧ ((nextOf (exec (.pwrStageFault 3 1) s)).power.stages[3]?).map (·.state) = some 1
      ∧ (nextOf (exec (.pwrStageFault 3 1) s)).power.ceiling = 360
      ∧ ((nextOf (exec (.marginReading (List.replicate 24 40)) s)).power.rails[0]?).map (·.move) = some 5
      ∧ ((nextOf (exec (.fillZero 0) s)).tile 0).fill = none ∧ ((nextOf (exec (.droopEntry 0) s)).tile 0).droopEvents = 1 := by
  decide +kernel

/-- Above the excursion limit; four stages left. -/
theorem test_power_ends :
    let s := wattPkg {}
    let hot : State := { s with power := { s.power with watts := 4000 } }
    let few : State := { s with power := { s.power with stages := (s.power.stages.take 4) ++ List.replicate 8 { state := 2 } } }
    (nextOf (exec .limiterSample hot)).power.stretch = 1 ∧ (few.power.stages.filter fun x => decide (x.state = 0)).length = 4
      ∧ (few.power.stages[0]?).map (·.state) = some 0 ∧ (nextOf (exec (.pwrStageFault 0 1) few)).bu.powered = false := by decide +kernel

/-- A package whose Cobalt firmware runs, with a diode as given. -/
def warmPkg (d : Diode) : State :=
  { lit with sec := { lit.sec with cobaltRun := true }, therm := { lit.therm with diodes := [(24, d)] } }

/-- A throttle at a stage and fraction. -/
def slowPkg (stage f : Nat) : State :=
  let s := warmPkg {}
  { s with therm := { s.therm with stage := stage, fraction := f, pRef := 3000, deadline := 5, flowCause := stage = 2 }
           power := { s.power with watts := 2900 } }

theorem test_thermal :
    let s := warmPkg {}
    let off : State := { s with sec := { s.sec with cobaltRun := false } }
    s.facOpen = true ∧ off.facOpen = true ∧ s.therm.decided = false ∧ s.therm.halted = false ∧ s.therm.stage = 0
      ∧ s.cobaltActs = true ∧ off.cobaltActs = false ∧ s.threshFor (dieType 24) = ⟨92, 88, 98, 94, 105, 95⟩
      ∧ (kvFind s.therm.diodes 24).isSome = true ∧ (kvGet s.therm.bands 0 0) = 0 ∧ off.bu.powered = true
      ∧ (slowPkg 1 100).gracePower = 2900 ∧ (slowPkg 2 100).persists = true ∧ (slowPkg 1 100).persists = false
      ∧ s.twin.leaving = none ∧ PairSt.forwards .solo = false ∧ s.allDone = true := by decide +kernel

/-- A layer at 99 °C is in throttle and its band is 2; a throttle above its target is enforced. -/
theorem test_heat :
    let off : State := { warmPkg {} with sec := lit.sec }
    let u := nextOf (exec (.diodeSample [{ index := 24, temp := 1584, ok := true }]) off)
    let v := nextOf (exec .graceDeadline (slowPkg 1 100))
    let w := (slowPkg 2 100).review
    ((u.diode 24).state, kvGet u.therm.bands 0 0, v.therm.stage, v.therm.ratio, w.therm.fraction) = (.throttle, 2, 2, 150, 200) := by
  decide +kernel

/-- A frame of the controller for any package. -/
def ctrlFrame (ty : Nat) (payload : List Byte) : List Byte :=
  let body := bytesLE 1 ty ++ bytesLE 1 payload.length ++ bytesLE 2 1024 ++ payload
  [0xA5, 0x5A] ++ body ++ bytesLE 2 (crc16 body)

/-- A package in a reply window, its input power 3 kW. -/
def windowPkg : State :=
  { lit with fac := { lit.fac with txAt := some 0 }, power := { lit.power with watts := 3000 } }

theorem test_facility :
    let s := windowPkg
    s.facOpen = true ∧ s.windowOpen = true ∧ s.fac.suspect = false ∧ s.fac.waiting = [] ∧ s.barOpen = true
      ∧ s.facWrong (ctrlFrame 1 [88, 2, 50, 0]) true = none ∧ s.facWrong (ctrlFrame 1 [88, 2, 50, 0]) false = some Rs.facWindow
      ∧ s.facWrong (ctrlFrame 2 [0, 8, 0, 0]) true = none ∧ s.facWrong (ctrlFrame 3 [0, 2]) true = none
      ∧ s.facWrong (ctrlFrame 4 [1, 0, 2, 0]) true = none ∧ s.facWrong (ctrlFrame 3 [3, 2]) true = some Rs.facRange
      ∧ s.facWrong (ctrlFrame 9 [3, 2]) true = some Rs.facBadFrame ∧ ({ s with sec := { s.sec with cobaltRun := true } } : State).cobaltActs = true := by decide +kernel

/-- A rise of 8.67 K at 3 kW is 5 L/min; a report is shown. -/
theorem test_flow :
    let u := nextOf (exec (.thermistorSample 3000 3867) windowPkg)
    let v := nextOf (exec (.flowReport (ctrlFrame 1 [88, 2, 50, 0])) windowPkg)
    (u.fac.estimated, u.fac.estValid, v.fac.reported, v.fac.repValid, (nextOf (exec .facSilent v)).fac.active)
      = (500, true, 600, true, false) := by decide +kernel

/-- A package that has come up, guest site 0 in a state. -/
def guestPkg (st : GuestSt) : State := lit.modGuest 0 fun x => { x with state := st, capW := 30 }

theorem test_guest_states :
    let s := guestPkg .reset
    let t := nextOf (exec (.gstCtlWrite 0 0) s)
    let u := nextOf (exec (.guestLinkTrainEnd 0 8) t)
    let v := nextOf (exec (.guestPowerCheck 0 35) u)
    let w := nextOf (exec (.guestPowerCheck 0 35) v)
    s.barOpen = true ∧ s.clocksRun = true ∧ s.therm.halted = false ∧ s.facOpen = true
      ∧ [t, u, v, w].map (fun k => (k.guest 0).state) = [.training, .up, .up, .faulted]
      ∧ (w.guest 0).cause = Rs.guestPower ∧ (v.guest 0).throttleAt = some (ms 10)
      ∧ bitsOf (5 : Word) 4 1 = 2 := by decide +kernel

/-- The test access port, before S1 and after. -/
theorem test_tap :
    let s : State := { State.reset with bu := { State.reset.bu with powered := true, good := true } }
    s.beforeS1 = true ∧ s.bu.powered = true ∧ lit.beforeS1 = false ∧ State.reset.bu.powered = false
      ∧ (nextOf (exec .idcode s)).tap.dr = 0x1E2439E7 := by decide +kernel

/-- A site that is UP, all classes allowed, with credit and a window on the first 2 MiB, its memory that of tile 0. -/
def openGuest : State :=
  (litTile { ({} : Tile) with unit := .ready }).modGuest 0 fun x => { x with
    state := .up, allow := 63, rdGbps := 8, wrGbps := 8, rdCredit := 4096, wrCredit := 4096, wins := x.wins.set 0 (3, 0), grant := true
    ring := 1, sdC := 100 }

/-- A guest's message of an opcode, a length and data. -/
def guestMsg (op : BitVec 8) (n : Nat) (data : List Byte) : Msg :=
  { op := op, src := 0, dst := 0, txn := 3, hops := 0, srcUnit := 0, phys := op.toNat ≤ 3, length := n, data := data, gaddr := 64 }

theorem test_guest_messages :
    let s := openGuest
    let x := s.guest 0
    let r := guestMsg 1 4 []
    (s.guest 0).state = .up ∧ (s.guest 0).waiting = [] ∧ (s.guest 1).state ≠ .up ∧ r.crcOk = true ∧ s.self = 0
      ∧ [guestMsg 1 4 [], guestMsg 2 2 [1, 2], guestMsg 3 0 [], guestMsg 6 64 (List.replicate 64 0), guestMsg 0x20 32 (List.replicate 32 0),
          guestMsg 0x21 0 []].all (fun m => !s.guestBad m) = true
      ∧ s.guestBad { r with hops := 1 } = true ∧ (List.range 5).all (bitAt x.allow) = true ∧ x.has x.ring.toNat = true
      ∧ x.passes r = true ∧ x.passes (guestMsg 2 5000 (List.replicate 5000 0)) = false
      ∧ ((x.wins.map guestWin).filter fun k => k.covers 64 4 1).map (·.agree) = [true]
      ∧ ((x.wins.map guestWin).filter fun k => k.covers (2 ^ 22) 4 1) = [] ∧ s.guestAddr 64 4 = true ∧ pkgOf 64 = 0
      ∧ s.guestAddr (2 ^ 56) 4 = false := by decide +kernel

/-- What is read, written and reported. -/
theorem test_guest_work :
    let s := openGuest
    let w := nextOf (exec (.guestWrite 0 (guestMsg 2 2 [1, 2])) s)
    let r := nextOf (exec (.guestRead 0 (guestMsg 1 4 [])) (poke s 64 [7]))
    let e := nextOf (exec (.guestEvent 0 (guestMsg 0x20 32 (List.replicate 32 0))) s)
    (cellRead w.mem 64 2, w.out.guest.length, r.out.guest.map (·.2.data), e.events.log.map (·.code))
      = ([1, 2], 1, [[7, 0, 0, 0]], [Ev.guestMessage]) := by decide +kernel

/-- A queue of two commands, taken one by one. -/
theorem test_queue :
    let s : State := { lit with pending := [.idcode, .bypass] }
    let t := nextOf (step s)
    (t.pending, (nextOf (step t)).pending, (nextOf (step lit)).pending) = ([.bypass], [], []) := by decide +kernel

/-- A write of another package to a state that has the form, and one that clears what it wrote. -/
theorem test_memory_canonical :
    let s : State := { meshUp with pending := [.write (reqMsg Op.write), .write { reqMsg Op.write with data := [0, 0, 0, 0] }] }
    let t := nextOf (step s)
    Memory.wf s.mem = true ∧ t.mem = [(0, 1), (1, 2), (2, 3), (3, 4)] ∧ Memory.wf t.mem = true ∧ (nextOf (step t)).mem = [] := by
  decide +kernel

/-- The reset values of some of the registers, in each block. -/
theorem test_reset :
    [0x000, 0x100010, 0x100300, 0x101018, 0x103008, 0x104020, 0x105008, 0x106020, 0x108028].map State.reset.regRead
      = [0xE24301B0, 0x3E810, 0x13F00, 0x4E20, 0x78, 0x3F8000003F800000, 0x7D000C8001801F4, 0x168, 0x690028] := by decide +kernel

end Sys2Proof.Tests
end

section
/-! Unit identifiers, little-endian bytes and the step: the statements of `spec/00_scope.md` (R4, R6, R12 to R15). -/

namespace Sys2Proof.Proofs

open Sys2Proof Sys2Proof.Machine

/-! ### The step -/

theorem step_of_pending_cons {c : Instr} {l : List Instr} {s : State} (h : s.pending = c :: l) :
    step s = exec c { s with pending := l } := by
  simp only [step, h]

theorem step_of_pending_nil {s : State} (h : s.pending = []) : step s = .next s.passCycle := by
  simp only [step, h]

/-- Settles O1: the two branches of `step` on the queue. -/
theorem stepTakesTheFrontCommand : Obligations.StepTakesTheFrontCommand :=
  ⟨fun _ _ _ => step_of_pending_cons, fun _ => step_of_pending_nil⟩

/-! ### Bytes and the numbers they spell (R4) -/

@[simp] theorem length_bytesLE (n v : Nat) : (bytesLE n v).length = n := by
  induction n generalizing v with
  | zero => rfl
  | succ n ih => simp [bytesLE, ih]

theorem natLE_bytesLE (n v : Nat) : natLE (bytesLE n v) = v % 256 ^ n := by
  induction n generalizing v with
  | zero => simp [bytesLE, natLE, Nat.mod_one]
  | succ n ih =>
    calc natLE (bytesLE (n + 1) v) = v % 256 + 256 * (v / 256 % 256 ^ n) := by simp [bytesLE, natLE, ih]
      _ = v % 256 ^ (n + 1) := by rw [Nat.pow_succ', Nat.mod_mul]

theorem getElem?_bytesLE {n i : Nat} (v : Nat) (h : i < n) : (bytesLE n v)[i]? = some (BitVec.ofNat 8 (v / 256 ^ i)) := by
  induction n generalizing v i with
  | zero => omega
  | succ n ih =>
    cases i with
    | zero => simp [bytesLE]
    | succ i =>
      have hdiv : v / 256 / 256 ^ i = v / 256 ^ (i + 1) := by rw [Nat.div_div_eq_div_mul, ← Nat.pow_succ']
      simpa [bytesLE, hdiv] using ih (v / 256) (Nat.lt_of_succ_lt_succ h)

/-- The lowest byte of a number is its first byte: the byte sits in the residue modulo 256, the rest in the quotient. -/
theorem bytesLE_natLE (l : List Byte) : bytesLE l.length (natLE l) = l := by
  induction l with
  | nil => rfl
  | cons b bs ih =>
    have hlow : BitVec.ofNat 8 (b.toNat + 256 * natLE bs) = b := by
      apply BitVec.eq_of_toNat_eq
      rw [BitVec.toNat_ofNat]
      omega
    have hrest : (b.toNat + 256 * natLE bs) / 256 = natLE bs := by omega
    simp only [List.length_cons, bytesLE, natLE, hlow, hrest, ih]

/-- Settles O5, by induction on the number of bytes. -/
theorem bytesAreLittleEndian : Obligations.BytesAreLittleEndian :=
  ⟨fun n v => ⟨length_bytesLE n v, natLE_bytesLE n v⟩, fun _ v _ => getElem?_bytesLE v, bytesLE_natLE⟩

/-! ### Unit identifiers (R12 to R15) -/

theorem bitsOf_ofNat {w hi : Nat} (n lo : Nat) (h : hi < w) (hlo : lo ≤ hi) :
    bitsOf (BitVec.ofNat w n) hi lo = n / 2 ^ lo % 2 ^ (hi + 1 - lo) := by
  have hw : 2 ^ w = 2 ^ lo * 2 ^ (w - lo) := by rw [← Nat.pow_add]; congr 1; omega
  rw [bitsOf, BitVec.toNat_ofNat, Nat.shiftRight_eq_div_pow, hw, Nat.mod_mul_right_div_self,
    Nat.mod_mod_of_dvd _ (Nat.pow_dvd_pow 2 (by omega))]

/-- The identifier of level `lv` that carries package `p` in its Pair and Member fields, and `low` in bits 18 to 0 (R12). -/
def unitWord (lv p low : Nat) : BitVec 32 := BitVec.ofNat 32 (lv * 2 ^ 29 + p / 2 * 2 ^ 20 + p % 2 * 2 ^ 19 + low)

theorem tileUnit_eq (p t : Nat) : tileUnit p t = unitWord 1 p (t / 64 * 2 ^ 14 + t % 64 * 2 ^ 8) := by
  simp only [tileUnit, unitWord, Nat.one_mul, Nat.add_assoc]

theorem stackUnit_eq (p st : Nat) : stackUnit p st = unitWord 2 p (st * 2 ^ 14) := rfl

theorem pkgUnit_eq (p : Nat) : pkgUnit p = unitWord 3 p 0 := by
  simp only [pkgUnit, unitWord, Nat.add_zero]

/-- A pair is named as its member 0. -/
theorem pairUnit_eq (k : Nat) : pairUnit k = unitWord 4 (2 * k) 0 := by
  simp [pairUnit, unitWord]

theorem groupUnit_eq (p g : Nat) : groupUnit p g = unitWord 7 p g := rfl

section Fields

variable {lv p low : Nat}

theorem unitLevel_unitWord (hlv : lv < 8) (hp : p < 1024) (hlow : low < 2 ^ 19) : unitLevel (unitWord lv p low) = lv := by
  rw [unitLevel, unitWord, bitsOf_ofNat _ _ (by decide) (by decide)]
  omega

theorem unitPair_unitWord (hp : p < 1024) (hlow : low < 2 ^ 19) : unitPair (unitWord lv p low) = p / 2 := by
  rw [unitPair, unitWord, bitsOf_ofNat _ _ (by decide) (by decide)]
  omega

theorem bitsOf_member_unitWord (hlow : low < 2 ^ 19) : bitsOf (unitWord lv p low) 19 19 = p % 2 := by
  rw [unitWord, bitsOf_ofNat _ _ (by decide) (by decide)]
  omega

theorem unitPkg_unitWord (hp : p < 1024) (hlow : low < 2 ^ 19) : unitPkg (unitWord lv p low) = p := by
  have hpair : bitsOf (unitWord lv p low) 28 20 = p / 2 := unitPair_unitWord hp hlow
  rw [unitPkg, hpair, bitsOf_member_unitWord hlow]
  omega

/-- The fields below Member are read from `low` alone. -/
theorem bitsOf_low_unitWord {hi lo : Nat} (hlo : lo ≤ hi) (hhi : hi ≤ 18) :
    bitsOf (unitWord lv p low) hi lo = low / 2 ^ lo % 2 ^ (hi + 1 - lo) := by
  have hsplit : lv * 2 ^ 29 + p / 2 * 2 ^ 20 + p % 2 * 2 ^ 19 + low
      = low + 2 ^ lo * (2 ^ (hi + 1 - lo) * (2 ^ (18 - hi) * (lv * 2 ^ 10 + p / 2 * 2 + p % 2))) := by
    have hpow : 2 ^ lo * (2 ^ (hi + 1 - lo) * 2 ^ (18 - hi)) = 2 ^ 19 := by
      rw [← Nat.pow_add, ← Nat.pow_add]; congr 1; omega
    rw [← Nat.mul_assoc (2 ^ (hi + 1 - lo)), ← Nat.mul_assoc (2 ^ lo), hpow]
    omega
  rw [unitWord, bitsOf_ofNat _ _ (by omega) hlo, hsplit, Nat.add_mul_div_left _ _ (Nat.two_pow_pos lo), Nat.add_mul_mod_self_left]

end Fields

/-! What validity asks at each level (R13 to R15). -/

section Levels

variable {u : BitVec 32}

theorem unitValid_tile_iff (h : unitLevel u = 1) : unitValid u = true ↔ unitStack u < 24 ∧ bitsOf u 7 0 = 0 := by
  simp [unitValid, h]

theorem unitValid_stack_iff (h : unitLevel u = 2) : unitValid u = true ↔ unitStack u < 24 ∧ bitsOf u 13 0 = 0 := by
  simp [unitValid, h]

theorem unitValid_pkg_iff (h : unitLevel u = 3) : unitValid u = true ↔ bitsOf u 18 0 = 0 := by
  simp [unitValid, h]

theorem unitValid_pair_iff (h : unitLevel u = 4) : unitValid u = true ↔ bitsOf u 19 0 = 0 := by
  simp [unitValid, h]

theorem unitValid_group_iff (h : unitLevel u = 7) : unitValid u = true ↔ bitsOf u 18 12 = 0 := by
  simp [unitValid, h]

theorem unitValid_eq_false (h : unitLevel u = 0 ∨ unitLevel u = 6) : unitValid u = false := by
  obtain h | h := h <;> simp [unitValid, h]

end Levels

/-! The identifier of each kind. -/

theorem tileUnit_reads_back {p t : Nat} (hp : p < 1024) (ht : t < 1536) :
    unitValid (tileUnit p t) = true ∧ unitLevel (tileUnit p t) = 1 ∧ unitPkg (tileUnit p t) = p ∧ unitTileRef (tileUnit p t) = t := by
  have hlow : t / 64 * 2 ^ 14 + t % 64 * 2 ^ 8 < 2 ^ 19 := by omega
  rw [tileUnit_eq]
  have hlevel := unitLevel_unitWord (lv := 1) (by decide) hp hlow
  have hstack : unitStack (unitWord 1 p (t / 64 * 2 ^ 14 + t % 64 * 2 ^ 8)) = t / 64 := by
    rw [unitStack, bitsOf_low_unitWord (by decide) (by decide)]
    omega
  have htile : unitTileNo (unitWord 1 p (t / 64 * 2 ^ 14 + t % 64 * 2 ^ 8)) = t % 64 := by
    rw [unitTileNo, bitsOf_low_unitWord (by decide) (by decide)]
    omega
  have hzero : bitsOf (unitWord 1 p (t / 64 * 2 ^ 14 + t % 64 * 2 ^ 8)) 7 0 = 0 := by
    rw [bitsOf_low_unitWord (by decide) (by decide)]
    omega
  refine ⟨(unitValid_tile_iff hlevel).2 ⟨?_, hzero⟩, hlevel, unitPkg_unitWord hp hlow, ?_⟩
  · omega
  · rw [unitTileRef, hstack, htile]
    exact Nat.div_add_mod t 64

theorem stackUnit_reads_back {p st : Nat} (hp : p < 1024) (hst : st < 24) :
    unitValid (stackUnit p st) = true ∧ unitLevel (stackUnit p st) = 2 ∧ unitPkg (stackUnit p st) = p
      ∧ unitStack (stackUnit p st) = st := by
  have hlow : st * 2 ^ 14 < 2 ^ 19 := by omega
  rw [stackUnit_eq]
  have hlevel := unitLevel_unitWord (lv := 2) (by decide) hp hlow
  have hstack : unitStack (unitWord 2 p (st * 2 ^ 14)) = st := by
    rw [unitStack, bitsOf_low_unitWord (by decide) (by decide)]
    omega
  have hzero : bitsOf (unitWord 2 p (st * 2 ^ 14)) 13 0 = 0 := by
    rw [bitsOf_low_unitWord (by decide) (by decide)]
    omega
  exact ⟨(unitValid_stack_iff hlevel).2 ⟨hstack.symm ▸ hst, hzero⟩, hlevel, unitPkg_unitWord hp hlow, hstack⟩

theorem pkgUnit_reads_back {p : Nat} (hp : p < 1024) :
    unitValid (pkgUnit p) = true ∧ unitLevel (pkgUnit p) = 3 ∧ unitPkg (pkgUnit p) = p := by
  rw [pkgUnit_eq]
  have hlevel := unitLevel_unitWord (lv := 3) (low := 0) (by decide) hp (by decide)
  have hzero : bitsOf (unitWord 3 p 0) 18 0 = 0 := bitsOf_low_unitWord (by decide) (by decide)
  exact ⟨(unitValid_pkg_iff hlevel).2 hzero, hlevel, unitPkg_unitWord hp (by decide)⟩

theorem pairUnit_reads_back {k : Nat} (hk : k < 512) :
    unitValid (pairUnit k) = true ∧ unitLevel (pairUnit k) = 4 ∧ unitPair (pairUnit k) = k := by
  have hp : 2 * k < 1024 := by omega
  rw [pairUnit_eq]
  have hlevel := unitLevel_unitWord (lv := 4) (low := 0) (by decide) hp (by decide)
  have hpair : unitPair (unitWord 4 (2 * k) 0) = k := by
    rw [unitPair_unitWord hp (by decide)]
    omega
  have hzero : bitsOf (unitWord 4 (2 * k) 0) 19 0 = 0 := by
    rw [unitWord, bitsOf_ofNat _ _ (by decide) (by decide)]
    omega
  exact ⟨(unitValid_pair_iff hlevel).2 hzero, hlevel, hpair⟩

theorem groupUnit_reads_back {p g : Nat} (hp : p < 1024) (hg : g < 4096) :
    unitValid (groupUnit p g) = true ∧ unitLevel (groupUnit p g) = 7 ∧ unitPkg (groupUnit p g) = p
      ∧ unitGroup (groupUnit p g) = g := by
  have hlow : g < 2 ^ 19 := by omega
  rw [groupUnit_eq]
  have hlevel := unitLevel_unitWord (lv := 7) (by decide) hp hlow
  have hgroup : unitGroup (unitWord 7 p g) = g := by
    rw [unitGroup, bitsOf_low_unitWord (by decide) (by decide)]
    omega
  have hzero : bitsOf (unitWord 7 p g) 18 12 = 0 := by
    rw [bitsOf_low_unitWord (by decide) (by decide)]
    omega
  exact ⟨(unitValid_group_iff hlevel).2 hzero, hlevel, unitPkg_unitWord hp hlow, hgroup⟩

/-- Settles O4: each identifier is one word of the layout of R12, whose fields are read one by one. -/
theorem unitIdentifiersReadBack : Obligations.UnitIdentifiersReadBack :=
  ⟨fun _ hp _ ht => tileUnit_reads_back hp ht, fun _ hp _ hst => stackUnit_reads_back hp hst,
    fun _ hp => pkgUnit_reads_back hp, fun _ hk => pairUnit_reads_back hk, by decide,
    fun _ hp _ hg => groupUnit_reads_back hp hg, fun _ => unitValid_eq_false⟩

end Sys2Proof.Proofs
end

section
/-! What the stop of the dies leaves alone (R495): a state seen from an earlier one, `OnlyHalts`, and that each operation a halting
die or a port going down calls for keeps it. -/

namespace Sys2Proof.Proofs

open Sys2Proof Sys2Proof.Machine Sys2Proof.Laws

/-! ### Raising an event -/

/-- `s` differs from `v` only in what an event leaves: in the log, the event ring and what goes out; the link stands as it did, and an
event image that was off stays off (R394, R402). -/
structure OnlyLogs (v s : State) : Prop where
  rest : s = { v with host := s.host, events := s.events, out := s.out }
  linkUp : s.host.linkUp = v.host.linkUp
  imageOff : v.host.eq.enable = false → s.host.eq.enable = false

namespace OnlyLogs

variable {v s : State}

theorem refl (s : State) : OnlyLogs s s := ⟨rfl, rfl, id⟩

theorem bu (h : OnlyLogs v s) : s.bu = v.bu := by rw [h.rest]

theorem mem (h : OnlyLogs v s) : s.mem = v.mem := by rw [h.rest]

theorem tiles (h : OnlyLogs v s) : s.tiles = v.tiles := by rw [h.rest]

theorem setHost (h : OnlyLogs v s) {x : HostState} (hx : (x.linkUp, x.eq.enable) = (s.host.linkUp, s.host.eq.enable)) :
    OnlyLogs v { s with host := x } := by
  obtain ⟨hl, he⟩ := Prod.mk.inj hx
  exact ⟨congrArg (fun u : State => { u with host := x }) h.rest, hl.trans h.linkUp, fun hv => he.trans (h.imageOff hv)⟩

theorem disableImage (h : OnlyLogs v s) : OnlyLogs v { s with host := { s.host with eq := { s.host.eq with enable := false } } } :=
  ⟨congrArg (fun u : State => { u with host := { s.host with eq := { s.host.eq with enable := false } } }) h.rest, h.linkUp,
    fun _ => rfl⟩

theorem setEvents (h : OnlyLogs v s) {x : EventState} : OnlyLogs v { s with events := x } :=
  ⟨congrArg (fun u : State => { u with events := x }) h.rest, h.linkUp, h.imageOff⟩

theorem setOut (h : OnlyLogs v s) {x : Outputs} : OnlyLogs v { s with out := x } :=
  ⟨congrArg (fun u : State => { u with out := x }) h.rest, h.linkUp, h.imageOff⟩

theorem branch (c : Prop) {dec : Decidable c} {a b : State} (ha : OnlyLogs v a) (hb : OnlyLogs v b) :
    OnlyLogs v (@ite State c dec a b) := by
  split
  · exact ha
  · exact hb

theorem interrupt (h : OnlyLogs v s) {n : BitVec 6} : OnlyLogs v (s.interrupt n) :=
  branch _ h (branch _ (h.setHost (by rfl)) h.setOut)

theorem logEvent (h : OnlyLogs v s) {e : Event} : OnlyLogs v (s.logEvent e) := h.setEvents

theorem postEvent (h : OnlyLogs v s) {e : Event} : OnlyLogs v (s.postEvent e) :=
  have himage := branch _ (h.setHost (by rfl)).setOut (h.setHost (by rfl))
  branch _ himage.interrupt himage

theorem postOverflow (h : OnlyLogs v s) : OnlyLogs v s.postOverflow := by
  unfold State.postOverflow
  split
  · exact h
  · exact branch _ (branch _ (h.logEvent.setHost (by rfl)).postEvent (h.logEvent.setHost (by rfl))) h

theorem raise0 (h : OnlyLogs v s) {code : BitVec 16} {unit : BitVec 32} {items : List Word} :
    OnlyLogs v (s.raise0 code unit items) :=
  have hlog := h.postOverflow.logEvent
  branch _ hlog (branch _ (hlog.setHost (by rfl)) hlog.postEvent)

theorem hostFault (h : OnlyLogs v s) {status reason : Code} {space addr : Nat} :
    OnlyLogs v (s.hostFault status reason space addr) :=
  branch _ ((h.setHost (by rfl)).raise0.setHost (by rfl)) (h.setHost (by rfl))

theorem raise (h : OnlyLogs v s) {code : BitVec 16} {unit : BitVec 32} {items : List Word} :
    OnlyLogs v (s.raise code unit items) :=
  branch _ h.disableImage.raise0.hostFault h.raise0

theorem raiseP (h : OnlyLogs v s) {code : BitVec 16} {items : List Word} : OnlyLogs v (s.raiseP code items) := h.raise

end OnlyLogs

/-! ### What changes of a port or a tile keep -/

theorem port_modPort (s : State) (p q : Nat) (f : Port → Port) :
    (s.modPort p f).port q = (if p = q ∧ p < s.cornis.ports.length then f (s.port q) else s.port q) := by
  rw [State.port, State.modPort, List.getElem?_modify]
  unfold State.port
  by_cases hq : p = q
  · subst hq
    by_cases hp : p < s.cornis.ports.length <;> simp [hp]
  · simp [hq]

theorem unit_branch (c : Prop) {dec : Decidable c} {x y : Tile} {u : UnitSt} (hx : x.unit = u) (hy : y.unit = u) :
    (@ite Tile c dec x y).unit = u := by
  split
  · exact hx
  · exact hy

theorem unit_endWork (x : Tile) (i k last pause : Nat) : (x.endWork i k last pause).unit = x.unit := by
  unfold Tile.endWork
  dsimp only
  split
  · exact unit_branch _ rfl rfl
  · exact unit_branch _ rfl rfl

theorem unit_note (x : Tile) (job : Option (BitVec 16)) (queue start stop : Nat) : (x.note job queue start stop).unit = x.unit := rfl

theorem unit_kvGet_dropMirrored (l : KV Tile) (t : TileRef) :
    (kvGet (l.map fun e : Nat × Tile => (e.1, e.2.dropMirrored)) t {}).unit = (kvGet l t {}).unit := by
  induction l with
  | nil => rfl
  | cons e l ih =>
    simp only [kvGet, List.map_cons, kvFind] at ih ⊢
    split
    · rfl
    · exact ih

/-! ### Units that halt, and what else stays -/

/-- A unit's `STATE` is as it was, or the unit has halted; one that is ABSENT stays so (R70). -/
def SameOrHalted (was now : UnitSt) : Prop := now = was ∨ was ≠ .absent ∧ now = .halted

/-- Of what a loss of the reference speaks of, `s` differs from `v` only in units that have halted and ports that have gone down; of the
bring-up window, only in the outcome that the running step will end with. -/
structure OnlyHalts (v s : State) : Prop where
  bu : s.bu = { v.bu with out := s.bu.out }
  guest0 : s.guest0 = v.guest0
  guest1 : s.guest1 = v.guest1
  linkUp : s.host.linkUp = v.host.linkUp
  imageOff : v.host.eq.enable = false → s.host.eq.enable = false
  tile : ∀ t, SameOrHalted (v.tile t).unit (s.tile t).unit
  stack : ∀ st, SameOrHalted (v.stackState st) (s.stackState st)
  package : v.units.package = .halted → s.units.package = .halted
  portDown : ∀ p, (v.port p).up = false → (s.port p).up = false

theorem SameOrHalted.refl (a : UnitSt) : SameOrHalted a a := .inl rfl

theorem SameOrHalted.halted_of_halted {b : UnitSt} (h : SameOrHalted .halted b) : b = .halted := by
  rcases h with h | ⟨-, h⟩ <;> exact h

theorem SameOrHalted.ne_absent {a b : UnitSt} (h : SameOrHalted a b) (ha : a ≠ .absent) : b ≠ .absent := by
  rcases h with h | ⟨-, h⟩ <;> subst h
  · exact ha
  · decide

/-- What has come from `a` so far and is not ABSENT may halt. -/
theorem SameOrHalted.halt {a b : UnitSt} (h : SameOrHalted a b) (hb : b ≠ .absent) : SameOrHalted a .halted := by
  rcases h with h | ⟨ha, -⟩
  · exact .inr ⟨h ▸ hb, rfl⟩
  · exact .inr ⟨ha, rfl⟩

namespace OnlyHalts

variable {v s : State}

theorem refl (s : State) : OnlyHalts s s where
  bu := rfl
  guest0 := rfl
  guest1 := rfl
  linkUp := rfl
  imageOff := id
  tile _ := .refl _
  stack _ := .refl _
  package := id
  portDown _ := id

theorem done (h : OnlyHalts v s) : s.bu.done = v.bu.done := by rw [h.bu]

/-! ### Updates of one field -/

theorem setTime (h : OnlyHalts v s) {x : TimeState} : OnlyHalts v { s with time := x } := { h with }

theorem setMem (h : OnlyHalts v s) {x : List Host.Cell} : OnlyHalts v { s with mem := x } := { h with }

theorem setTwin (h : OnlyHalts v s) {x : TwinState} : OnlyHalts v { s with twin := x } := { h with }

theorem setTwinTherm (h : OnlyHalts v s) {x : TwinState} {y : ThermState} : OnlyHalts v { s with twin := x, therm := y } := { h with }

theorem setEvents (h : OnlyHalts v s) {x : EventState} : OnlyHalts v { s with events := x } := { h with }

theorem setOut (h : OnlyHalts v s) {x : Outputs} : OnlyHalts v { s with out := x } := { h with }

theorem setHost (h : OnlyHalts v s) {x : HostState} (hx : (x.linkUp, x.eq) = (s.host.linkUp, s.host.eq)) :
    OnlyHalts v { s with host := x } := by
  obtain ⟨hl, he⟩ := Prod.mk.inj hx
  exact { h with linkUp := hl.trans h.linkUp, imageOff := fun hv => (congrArg EventRing.enable he).trans (h.imageOff hv) }

theorem setCornis (h : OnlyHalts v s) {x : CornisState} (hp : x.ports = s.cornis.ports) :
    OnlyHalts v { s with cornis := x } :=
  { h with portDown := fun p hv => by simpa only [State.port, hp] using h.portDown p hv }

theorem bump (h : OnlyHalts v s) {l : List Nat} : OnlyHalts v (s.bump l) := { h with }

theorem setTile (h : OnlyHalts v s) {t : TileRef} {x : Tile} (hx : x.unit = (s.tile t).unit) :
    OnlyHalts v (s.setTile t x) :=
  { h with
    tile := fun u => by
      by_cases hu : u = t
      · subst hu
        rw [tile_setTile_same, hx]
        exact h.tile u
      · rw [tile_setTile_other s x hu]
        exact h.tile u }

theorem modTile (h : OnlyHalts v s) {t : TileRef} {f : Tile → Tile} (hf : ∀ x, (f x).unit = x.unit) :
    OnlyHalts v (s.modTile t f) :=
  h.setTile (hf _)

theorem modPort (h : OnlyHalts v s) {p : Nat} {f : Port → Port} (hf : ∀ x, x.up = false → (f x).up = false) :
    OnlyHalts v (s.modPort p f) :=
  { h with
    portDown := fun q hv => by
      rw [port_modPort]
      split
      · exact hf _ (h.portDown q hv)
      · exact h.portDown q hv }

/-! ### Control -/

theorem branch (c : Prop) {dec : Decidable c} {a b : State} (ha : OnlyHalts v a) (hb : OnlyHalts v b) :
    OnlyHalts v (@ite State c dec a b) := by
  split
  · exact ha
  · exact hb

theorem foldl {α : Type} {f : State → α → State} (hf : ∀ s a, OnlyHalts v s → OnlyHalts v (f s a)) (l : List α) :
    ∀ {s : State}, OnlyHalts v s → OnlyHalts v (l.foldl f s) := by
  induction l with
  | nil => exact id
  | cons a l ih => exact fun h => ih (hf _ a h)

/-! ### Events (R394, R402) -/

theorem logs (h : OnlyHalts v s) {u : State} (hu : OnlyLogs s u) : OnlyHalts v u := by
  rw [hu.rest]
  exact { h with linkUp := hu.linkUp.trans h.linkUp, imageOff := fun hv => hu.imageOff (h.imageOff hv) }

theorem hostFault (h : OnlyHalts v s) {status reason : Code} {space addr : Nat} :
    OnlyHalts v (s.hostFault status reason space addr) := h.logs (OnlyLogs.refl s).hostFault

theorem raise (h : OnlyHalts v s) {code : BitVec 16} {unit : BitVec 32} {items : List Word} :
    OnlyHalts v (s.raise code unit items) := h.logs (OnlyLogs.refl s).raise

theorem raiseP (h : OnlyHalts v s) {code : BitVec 16} {items : List Word} : OnlyHalts v (s.raiseP code items) := h.raise

theorem coupledUse (h : OnlyHalts v s) {key : Nat} {agree : Bool} {a b : Nat} {unit : BitVec 32} :
    OnlyHalts v (s.coupledUse key agree a b unit) :=
  branch _ h.setEvents (branch _ h h.setEvents.raise)


theorem useRegion (h : OnlyHalts v s) {t : TileRef} {page : Nat} : OnlyHalts v (s.useRegion t page) := h.coupledUse

theorem useContext (h : OnlyHalts v s) {ctx : Nat} : OnlyHalts v (s.useContext ctx) := h.coupledUse

/-! ### Units that halt (R70, R88, R404) -/

theorem noteStates (h : OnlyHalts v s) {old : State} {l : List (BitVec 32)} {cause : Nat} :
    OnlyHalts v (s.noteStates old l cause) :=
  foldl (fun _ _ hq => branch _ hq hq.raise) l h

theorem noteGroups (h : OnlyHalts v s) {old : State} {cause : Nat} : OnlyHalts v (s.noteGroups old cause) := h.noteStates

theorem noteAbove (h : OnlyHalts v s) {old : State} {cause : Nat} : OnlyHalts v (s.noteAbove old cause) := h.noteStates

/-! ### Normor commands (R84, R86, R391, R392) -/

theorem modCmd (h : OnlyHalts v s) {c : Cmd} {f : CmdSlot → CmdSlot} : OnlyHalts v (s.modCmd c f) := h.setHost (by rfl)

theorem finish (h : OnlyHalts v s) {c : Cmd} {k : Compl} : OnlyHalts v (s.finish c k) := h.modCmd

theorem finishWith (h : OnlyHalts v s) {c : Cmd} {st rs : Code} : OnlyHalts v (s.finishWith c st rs) := h.finish

theorem finishOk (h : OnlyHalts v s) {c : Cmd} {a b : Word} : OnlyHalts v (s.finishOk c a b) := h.finish

theorem finishData (h : OnlyHalts v s) {c : Cmd} {bytes : List Byte} {k : Compl} : OnlyHalts v (s.finishData c bytes k) :=
  branch _ h.finish (branch _ h.finish h.modCmd)

theorem setDetail (h : OnlyHalts v s) {c : Cmd} {l : List (Path × Outc)} : OnlyHalts v (s.setDetail c l) := h.setHost (by rfl)

theorem finishEnergy (h : OnlyHalts v s) {c : Cmd} {ms : List Member} {k : Compl} : OnlyHalts v (s.finishEnergy c ms k) :=
  branch _ h.finish (branch _ (branch _ h.finish h.finish) h.modCmd)

theorem finishReturn (h : OnlyHalts v s) {c : Cmd} {ms : List Member} {k : Compl} : OnlyHalts v (s.finishReturn c ms k) :=
  branch _ h.finish (branch _ h.finish h.finishData)

theorem finishMembers (h : OnlyHalts v s) {c : Cmd} {n : Nat} : OnlyHalts v (s.finishMembers c n) := by
  unfold State.finishMembers
  split
  · exact h
  · refine branch _ h.setDetail.finishEnergy ?_
    split
    · exact branch _ h.setDetail.finish h.setDetail.finishData
    · exact h.setDetail.finishReturn

theorem finishTree (h : OnlyHalts v s) {c : Cmd} : OnlyHalts v (s.finishTree c) := by
  unfold State.finishTree
  split
  · exact h
  · exact branch _ h.setDetail.finishEnergy h.setDetail.finishReturn

theorem memberBack (h : OnlyHalts v s) {c : Cmd} {unit : BitVec 32} {o : Outc} {results : BitVec 64 × BitVec 64} {data : List Byte} :
    OnlyHalts v (s.memberBack c unit o results data) := by
  unfold State.memberBack
  dsimp only
  split
  · exact h.modCmd
  · exact branch _ h.modCmd (branch _ h.modCmd.finishWith (branch _ h.modCmd.finishMembers h.modCmd.finishTree))

theorem memberDone (h : OnlyHalts v s) {c : Cmd} {unit : BitVec 32} {o : Outc} {data : List Byte} :
    OnlyHalts v (s.memberDone c unit o data) := h.memberBack

theorem paramAnswer (h : OnlyHalts v s) {ring : Nat} {tag : BitVec 16} {o : Outc} {data : List Byte} :
    OnlyHalts v (s.paramAnswer ring tag o data) := by
  unfold State.paramAnswer
  split
  · exact h
  · exact branch _ h.modCmd h.finishWith

theorem retAnswer (h : OnlyHalts v s) {ring : Nat} {tag : BitVec 16} {o : Outc} : OnlyHalts v (s.retAnswer ring tag o) :=
  h.setHost (by rfl)

theorem cmdReadAnswer (h : OnlyHalts v s) {ring : Nat} {tag : BitVec 16} {x : Txn} {o : Outc} {data : List Byte} :
    OnlyHalts v (s.cmdReadAnswer ring tag x o data) := by
  unfold State.cmdReadAnswer
  split
  · exact h
  · exact h.modCmd

/-! ### Flits and messages (R314 to R323, R330) -/

theorem emitFlit (h : OnlyHalts v s) {p : Nat} {k : FlitKind} {body : List Byte} : OnlyHalts v (s.emitFlit p k body) :=
  (h.modPort (by intro _ h; exact h)).setOut

theorem noteSent (h : OnlyHalts v s) {m : Msg} : OnlyHalts v (s.noteSent m) := h.setCornis (by rfl)

theorem sendFlit (h : OnlyHalts v s) {p vc : Nat} : OnlyHalts v (s.sendFlit p vc) := by
  unfold State.sendFlit
  split
  · exact h
  · exact have hsent := (branch _ (h.setCornis (by rfl)).noteSent h).emitFlit.modPort (by intro _ h; exact h)
      branch _ hsent.setOut hsent

theorem pumpFor (n : Nat) {p : Nat} : ∀ {s : State}, OnlyHalts v s → OnlyHalts v (State.pumpFor n s p) := by
  induction n with
  | zero => exact id
  | succ n ih =>
    intro s h
    unfold State.pumpFor
    split
    · exact ih h.sendFlit
    · exact h

theorem pump (h : OnlyHalts v s) {p : Nat} : OnlyHalts v (s.pump p) := branch _ h (h.pumpFor _)

theorem transmit (h : OnlyHalts v s) {p : Nat} {m : Msg} : OnlyHalts v (s.transmit p m) := (h.setCornis (by rfl)).pump

theorem sendMsg (h : OnlyHalts v s) {m : Msg} : OnlyHalts v (s.sendMsg m) := by
  unfold State.sendMsg
  split
  · exact h.transmit
  · exact h

theorem request (h : OnlyHalts v s) {m : Msg} {user : TxnUser} : OnlyHalts v (s.request m user) := (h.setCornis (by rfl)).sendMsg

theorem respond (h : OnlyHalts v s) {r : Msg} : OnlyHalts v (s.respond r) := branch _ h.sendMsg h

theorem negative (h : OnlyHalts v s) {m : Msg} {st rs : Code} : OnlyHalts v (s.negative m st rs) := branch _ h.respond h

theorem takeTxn {n : BitVec 16} {x : Txn} {s' : State} (h : OnlyHalts v s) (ht : s.takeTxn n = some (x, s')) : OnlyHalts v s' := by
  unfold State.takeTxn at ht
  split at ht
  · cases ht
  · cases ht
    exact h.setCornis (by rfl)

theorem countSent (h : OnlyHalts v s) {t : TileRef} {m : Msg} : OnlyHalts v (s.countSent t m) :=
  branch _ h (h.modTile (by intro; split_ifs <;> rfl))

theorem requestOf (h : OnlyHalts v s) {t : TileRef} {m : Msg} {user : TxnUser} : OnlyHalts v (s.requestOf t m user) :=
  h.countSent.request

theorem modGroups (h : OnlyHalts v s) {p : Nat} {f : Nat → LaneGroup → LaneGroup} : OnlyHalts v (s.modGroups p f) :=
  h.setCornis (by rfl)

theorem idleGroups (h : OnlyHalts v s) {p : Nat} : OnlyHalts v (s.idleGroups p) := h.modGroups

theorem retryHeld (h : OnlyHalts v s) : OnlyHalts v s.retryHeld := by
  refine foldl (fun _ _ h => h.pump) _ (foldl (fun s e h => branch _ h ?_) _ h)
  split
  · exact h.setCornis (by rfl)
  · exact h

/-! ### Pages of stack memory (R279 to R291) -/

theorem advanceTo (h : OnlyHalts v s) {u : Nat} : OnlyHalts v (s.advanceTo u) := branch _ h.setTime h

theorem advanceCore (h : OnlyHalts v s) {t : TileRef} {c : Nat} : OnlyHalts v (s.advanceCore t c) := h.advanceTo

theorem poisonPage (h : OnlyHalts v s) {t : TileRef} {page kind : Nat} : OnlyHalts v (s.poisonPage t page kind) :=
  branch _ h (h.modTile (by intro; rfl)).raise

theorem correctedPage (h : OnlyHalts v s) {t : TileRef} {page bits : Nat} : OnlyHalts v (s.correctedPage t page bits) :=
  branch _ ((h.modTile (by intro; rfl)).modTile (by intro; rfl)).raise (h.modTile (by intro; rfl))

theorem pageMoved (h : OnlyHalts v s) {t : TileRef} {page : Nat} {write : Bool} : OnlyHalts v (s.pageMoved t page write) :=
  h.modTile (by intro; rfl)

theorem putPage (h : OnlyHalts v s) {t : TileRef} {page : Nat} {data : List Byte} : OnlyHalts v (s.putPage t page data) :=
  h.setMem.pageMoved.modTile (by intro; rfl)

theorem rewritePage (h : OnlyHalts v s) {t : TileRef} {page : Nat} {data : List Byte} : OnlyHalts v (s.rewritePage t page data) :=
  h.setMem.pageMoved.modTile (by intro; rfl)

theorem loseNarrow (h : OnlyHalts v s) {t : TileRef} {page : Nat} : OnlyHalts v (s.loseNarrow t page) :=
  (h.modTile (by intro; rfl)).hostFault

theorem mergeNarrow (h : OnlyHalts v s) {t : TileRef} {page : Nat} {counted : Bool} : OnlyHalts v (s.mergeNarrow t page counted) := by
  unfold State.mergeNarrow
  split
  · exact h
  · refine branch _ h (branch _ (h.putPage.modTile (by intro; rfl)) (branch _ h.loseNarrow ?_))
    split
    · exact h.poisonPage.loseNarrow
    · exact (branch _ h.pageMoved h.pageMoved.correctedPage).rewritePage.modTile (by intro; rfl)

theorem awaitSlice (h : OnlyHalts v s) {t : TileRef} {page : Nat} : OnlyHalts v (s.awaitSlice t page) := by
  unfold State.awaitSlice
  split
  · exact h
  · exact branch _ (h.modTile (by intro; rfl)).advanceTo h

theorem meetPage (h : OnlyHalts v s) {t : TileRef} {page : Nat} : OnlyHalts v (s.meetPage t page) := h.useRegion.awaitSlice.mergeNarrow

theorem correctPage (h : OnlyHalts v s) {t : TileRef} {page : Nat} {data : List Byte} {bits : Nat} {always : Bool} :
    OnlyHalts v (s.correctPage t page data bits always) :=
  branch _ h.correctedPage.rewritePage h.correctedPage

theorem holdWrite (h : OnlyHalts v s) {a : Nat} {bytes : List Byte} : OnlyHalts v (s.holdWrite a bytes) := h.setTwin

theorem modSlot (h : OnlyHalts v s) {t : TileRef} {i : Nat} {f : DescSlot → DescSlot} : OnlyHalts v (s.modSlot t i f) :=
  h.modTile (by intro; split <;> rfl)

end OnlyHalts

/-! ### Runs of accesses -/

/-- A run of accesses, however it ends, leaves alone what `OnlyHalts` speaks of. -/
def Steady (v : State) {α : Type} (m : M α) : Prop := ∀ s, OnlyHalts v s → OnlyHalts v (m.result s).2

theorem result_bind {α β : Type} (m : M α) (f : α → M β) (s : State) :
    ((m >>= f).result s).2 = (match (m.result s) with
      | (.ok a, s') => ((f a).result s').2
      | (.error _, s') => s') := by
  simp only [M.result, EStateM.run_bind]
  cases m.run s <;> rfl

namespace Steady

variable {v : State} {α β : Type}

theorem pure {a : α} : Steady v (Pure.pure a : M α) := fun _ => id

theorem throw {e : Stop} : Steady v (MonadExcept.throw e : M α) := fun _ => id

theorem stop {st rs : Code} {kind : Nat} {dva : BitVec 64} : Steady v (M.stop st rs kind dva : M α) := throw

theorem kvRefuse {st rs : Code} : Steady v (kvRefuse st rs : M α) := throw

theorem get : Steady v (MonadState.get : M State) := fun _ => id

theorem upd {f : State → State} (hf : ∀ s, OnlyHalts v s → OnlyHalts v (f s)) : Steady v (M.upd f) := hf

theorem bind {m : M α} {f : α → M β} (hm : Steady v m) (hf : ∀ a, Steady v (f a)) : Steady v (m >>= f) := by
  intro s h
  have hs := hm s h
  rw [result_bind]
  split
  · next a s' heq => exact hf a s' (by simpa only [heq] using hs)
  · next e s' heq => simpa only [heq] using hs

theorem branch (c : Prop) {dec : Decidable c} {m n : M α} (hm : Steady v m) (hn : Steady v n) : Steady v (@ite (M α) c dec m n) := by
  split
  · exact hm
  · exact hn

/-- A check ahead of what follows: the two arms of the condition join again. -/
theorem check (c : Prop) {dec : Decidable c} {m : M Unit} {f : Unit → M α} (hm : Steady v m) (hf : ∀ u, Steady v (f u)) :
    Steady v (@ite (M α) c dec (m >>= f) (f ())) :=
  branch c (hm.bind hf) (hf ())

theorem atDva {dva : BitVec 64} {m : M α} (hm : Steady v m) : Steady v (Machine.atDva dva m) := by
  intro s h
  have hs := hm s h
  unfold M.result EStateM.run at hs ⊢
  unfold Machine.atDva EStateM.adaptExcept
  cases hr : m s <;> simpa only [hr] using hs

theorem mapM {γ : Type} {f : γ → M α} (hf : ∀ c, Steady v (f c)) (l : List γ) : Steady v (l.mapM f) := by
  induction l with
  | nil => rw [List.mapM_nil]; exact pure
  | cons c l ih =>
    rw [List.mapM_cons]
    exact (hf c).bind fun _ => ih.bind fun _ => pure

theorem forM {γ : Type} {f : γ → M PUnit} (hf : ∀ c, Steady v (f c)) (l : List γ) : Steady v (l.forM f) := by
  induction l with
  | nil => exact pure
  | cons c l ih => exact (hf c).bind fun _ => ih

/-! Stack memory (R279 to R288). -/

theorem readPage {t : TileRef} {page off len kind : Nat} : Steady v (readPage t page off len kind) := by
  refine bind (upd fun _ h => h.meetPage) fun _ => bind get fun s => ?_
  split
  · exact stop
  · refine branch _ stop (bind (upd fun _ h => h.pageMoved) fun _ => branch _ pure ?_)
    split
    · exact bind (upd fun _ h => h.poisonPage) fun _ => stop
    · exact check _ (upd fun _ h => h.correctPage) fun _ => pure

theorem writePage {t : TileRef} {page off kind : Nat} {bytes : List Byte} : Steady v (writePage t page off kind bytes) := by
  refine bind (upd fun _ h => h.meetPage) fun _ => bind get fun s => ?_
  split
  · exact stop
  · refine branch _ (upd fun _ h => h.holdWrite) (branch _ stop (branch _ (upd fun _ h => h.putPage) (branch _ stop ?_)))
    split
    · exact bind (upd fun _ h => h.poisonPage) fun _ => stop
    · exact check _ (upd fun _ h => h.correctedPage) fun _ => bind (upd fun _ h => h.setMem) fun _ =>
        upd fun _ h => h.setMem.pageMoved.pageMoved.modTile (by intro; rfl)

theorem readStack {a n kind : Nat} : Steady v (readStack a n kind) := bind (mapM (fun _ => readPage) _) fun _ => pure

theorem writeStack {a kind : Nat} {bytes : List Byte} : Steady v (writeStack a kind bytes) := forM (fun _ => writePage) _

/-! Translation (R97 to R108). -/

theorem walk {dva : BitVec 64} {kind : Nat} (level : Nat) : ∀ node, Steady v (walk dva kind level node) := by
  induction level with
  | zero =>
    intro node
    refine bind get fun s => ?_
    split
    · exact stop
    · refine bind readStack fun b => ?_
      dsimp only
      split
      · exact stop
      · exact stop
      · exact stop
      · exact pure
  | succ level ih =>
    intro node
    refine bind get fun s => ?_
    split
    · exact stop
    · refine bind readStack fun b => ?_
      dsimp only
      split
      · exact stop
      · exact stop
      · exact ih _
      · exact pure

theorem contextCheck {ctx : Nat} {dva : BitVec 64} {kind : Nat} : Steady v (contextCheck ctx dva kind) := by
  unfold Machine.contextCheck
  refine check _ stop fun _ => ?_
  refine bind (upd fun _ h => h.useContext) fun _ => bind get fun _ => ?_
  refine check _ stop fun _ => ?_
  exact check _ stop fun _ => branch _ stop pure

theorem translate {t : TileRef} {ctx : Nat} {dva : BitVec 64} {kind : Nat} : Steady v (translate t ctx dva kind) := by
  refine bind contextCheck fun _ => bind get fun s => ?_
  split
  · exact bind (upd fun _ h => h.modTile (by intro; rfl)) fun _ => pure
  · exact bind (upd fun _ h => h.modTile (by intro; rfl)) fun _ => bind get fun _ => bind (walk _ _) fun _ =>
      bind (upd fun _ h => h.modTile (by intro; rfl)) fun _ => pure

theorem appendMark {e : XEntry} {dva : BitVec 64} {a b kind : Nat} : Steady v (appendMark e dva a b kind) :=
  bind readStack fun _ => check _ stop fun _ => branch _ writeStack pure

/-! Accesses by address (R92, R96, R105, R353 to R356). -/

theorem readLocal {a n kind : Nat} : Steady v (readLocal a n kind) := by
  unfold Machine.readLocal
  split
  · exact readStack
  · exact bind get fun _ => pure
  · exact bind get fun _ => pure
  · exact bind get fun _ => pure
  · exact stop

theorem writeLocal {a kind : Nat} {bytes : List Byte} : Steady v (writeLocal a kind bytes) := by
  unfold Machine.writeLocal
  split
  · exact writeStack
  · exact stop
  · exact stop
  · exact stop
  · exact stop

theorem readAway {env : Env} {g n : Nat} {dva : BitVec 64} {kind : Nat} : Steady v (readAway env g n dva kind) := by
  unfold Machine.readAway
  split
  · exact stop
  · split
    · exact pure
    · refine bind get fun _ => ?_
      split
      · exact stop
      · exact throw

theorem readGlobal {env : Env} {g n : Nat} {dva : BitVec 64} {kind : Nat} : Steady v (readGlobal env g n dva kind) :=
  bind get fun _ => branch _ (bind (mapM (fun _ => atDva readLocal) _) fun _ => pure) (bind (mapM (fun _ => readAway) _) fun _ => pure)

theorem mirrorReadable {ctx : Nat} {dva : BitVec 64} {n kind : Nat} : Steady v (mirrorReadable ctx dva n kind) :=
  bind get fun _ => branch _ stop pure

theorem readParts {env : Env} {perm : Bool} {kind : Nat} (fuel : Nat) : ∀ dva n, Steady v (readParts env perm kind fuel dva n) := by
  induction fuel with
  | zero => exact fun _ _ => pure
  | succ fuel ih =>
    intro dva n
    refine branch _ pure (bind (atDva translate) fun e => ?_)
    refine check _ stop fun _ => ?_
    refine bind get fun _ => ?_
    exact check _ mirrorReadable fun _ => bind readGlobal fun _ => bind (ih _ _) fun _ => pure

theorem readDva {env : Env} {dva : BitVec 64} {n kind : Nat} : Steady v (readDva env dva n kind) := readParts _ _ _

theorem meshBytes {src dst : TileRef} {n : Nat} : Steady v (meshBytes src dst n) :=
  branch _ pure (upd fun _ h => h.modTile (by intro; rfl))

theorem noteLanded {env : Env} {a n : Nat} : Steady v (noteLanded env a n) :=
  branch _ (bind meshBytes fun _ => branch _ (upd fun _ h => h.modSlot) pure) pure

theorem queueMsg {env : Env} {m : Msg} {mirror : Bool} : Steady v (queueMsg env m mirror) :=
  branch _ (upd fun _ h => h.requestOf) (upd fun _ h => h.modSlot)

theorem writeAway {env : Env} {g : Nat} {dva : BitVec 64} {kind : Nat} {bytes : List Byte} : Steady v (writeAway env g dva kind bytes) := by
  unfold Machine.writeAway
  split
  · exact stop
  · exact branch _ pure throw

theorem noteMirror {env : Env} {reason : Code} : Steady v (noteMirror env reason) := branch _ pure (upd fun _ h => h.modSlot)

theorem writeHere {env : Env} {mirrored : Bool} {a : Nat} {dva : BitVec 64} {kind : Nat} {bytes : List Byte} :
    Steady v (writeHere env mirrored a dva kind bytes) := by
  have hput : Steady v (do Machine.atDva dva (Machine.writeLocal a kind bytes); Machine.noteLanded env a bytes.length) :=
    bind (atDva writeLocal) fun _ => noteLanded
  refine branch _ hput (bind get fun s => ?_)
  dsimp only
  split
  · exact bind (bind hput fun _ => upd fun _ h => h.setTwin) fun _ => branch _ noteMirror queueMsg
  · exact bind (bind hput fun _ => upd fun _ h => h.setTwin) fun _ => noteMirror
  · exact branch _ (bind hput fun _ => upd fun _ h => h.setTwin) stop

theorem writeGlobal {env : Env} {mirrored : Bool} {g : Nat} {dva : BitVec 64} {kind : Nat} {bytes : List Byte} :
    Steady v (writeGlobal env mirrored g dva kind bytes) := by
  refine bind get fun s => branch _ (forM (fun _ => writeHere) _) ?_
  split
  · exact stop
  · exact forM (fun _ => branch _ writeAway queueMsg) _

theorem writeParts {env : Env} {kind : Nat} (fuel : Nat) : ∀ dva bytes, Steady v (writeParts env kind fuel dva bytes) := by
  induction fuel with
  | zero => exact fun _ _ => pure
  | succ fuel ih =>
    intro dva bytes
    refine branch _ pure (bind (atDva translate) fun e => ?_)
    refine check _ stop fun _ => ?_
    exact check _ (atDva appendMark) fun _ => bind writeGlobal fun _ => ih _ _

theorem writeDva {env : Env} {dva : BitVec 64} {bytes : List Byte} {kind : Nat} : Steady v (writeDva env dva bytes kind) := writeParts _ _ _

/-! KV sequences (R208, R211). -/

theorem kvPlace {env : Env} {dva : BitVec 64} : Steady v (kvPlace env dva) :=
  bind (atDva translate) fun _ => bind get fun _ => branch _ kvRefuse pure

theorem readHeader {env : Env} {pt : BitVec 64} : Steady v (readHeader env pt) := by
  refine bind readDva fun w => ?_
  refine check _ kvRefuse fun _ => bind kvPlace fun _ => bind kvPlace fun _ => bind kvPlace fun _ => bind get fun _ => ?_
  refine check _ kvRefuse fun _ => ?_
  exact check _ kvRefuse fun _ => pure

theorem readDir {env : Env} {h : KvHeader} {plane : Nat} : Steady v (readDir env h plane) := by
  refine bind readDva fun b => ?_
  exact check _ kvRefuse fun _ => pure

theorem markUnmirrored {env : Env} {pt : BitVec 64} {plane : Nat} : Steady v (markUnmirrored env pt plane) :=
  bind readHeader fun _ => bind readDir fun _ => writeDva

end Steady

namespace OnlyHalts

variable {v s : State}

theorem of_result {α : Type} {m : M α} {r : Except Stop α} {s' : State} (h : OnlyHalts v s) (hm : Steady v m)
    (hr : m.result s = (r, s')) : OnlyHalts v s' := by
  simpa only [hr] using hm s h

/-! ### Descriptors and their answers (R110, R116, R117, R195, R220, R240) -/

theorem finishSlot (h : OnlyHalts v s) {t : TileRef} {i : Nat} {o : Outc} : OnlyHalts v (s.finishSlot t i o) := by
  refine h.modTile fun x => ?_
  split
  · exact unit_branch _ (unit_branch _ rfl rfl) (unit_branch _ rfl rfl)
  · rfl

theorem failChannel (h : OnlyHalts v s) {t : TileRef} {c except : Nat} : OnlyHalts v (s.failChannel t c except) :=
  foldl (fun _ _ h => h.finishSlot) _ h

theorem haltChannel (h : OnlyHalts v s) {t : TileRef} {c slot : Nat} {dva : BitVec 64} : OnlyHalts v (s.haltChannel t c slot dva) :=
  (branch _ h (h.setTile (by rfl)).raise).failChannel

theorem countPartial (h : OnlyHalts v s) : OnlyHalts v s.countPartial := h.setTwin

theorem settleSlot (h : OnlyHalts v s) {t : TileRef} {i : Nat} : OnlyHalts v (s.settleSlot t i) := by
  unfold State.settleSlot
  split
  · exact h
  · exact branch _ (branch _ h.countPartial h).finishSlot h

theorem slotAnswer (h : OnlyHalts v s) {t : TileRef} {i : Nat} {txn : BitVec 16} {o : Outc} {gaddr : Nat} {dva : BitVec 64}
    {mirror : Bool} : OnlyHalts v (s.slotAnswer t i txn o gaddr dva mirror) := by
  refine settleSlot ?_
  split
  · exact branch _ h.modSlot.haltChannel h.modSlot
  · exact h.modSlot

theorem recordFault (h : OnlyHalts v s) {t : TileRef} {e : Stop} {slot ctx step : Nat} :
    OnlyHalts v (s.recordFault t e slot ctx step) := by
  unfold State.recordFault
  split
  · exact h
  · extract_lets +onlyGivenNames x r f x₁ x₂ mark s₁
    have hx : x₂.unit = (s.tile t).unit := unit_branch _ rfl rfl
    have hs : OnlyHalts v s₁ := h.setTile hx
    exact branch _ hs (hs.modTile (by intro; rfl)).raise

theorem arrive (h : OnlyHalts v s) {t : TileRef} {ctr step : Nat} : OnlyHalts v (s.arrive t ctr step) :=
  branch _ (h.setTile (by rfl)) (branch _ (h.setTile (by rfl)) (branch _ (h.setTile (by rfl)) (h.setTile (by rfl)).raise))

theorem sendQueued (h : OnlyHalts v s) {t : TileRef} {slot : Nat} {msgs : List (Msg × Bool)} :
    OnlyHalts v (s.sendQueued t slot msgs) :=
  foldl (fun _ _ h => h.requestOf.modSlot) _ h.modSlot

theorem conclude (h : OnlyHalts v s) {t : TileRef} {i : Nat} {r : Done} : OnlyHalts v (s.conclude t i r) := by
  unfold State.conclude
  split
  · exact h
  · extract_lets +onlyGivenNames no last pause s₁ s₂ msgs s₃
    have h₁ : OnlyHalts v s₁ := h.modTile fun x => (unit_note ..).trans (unit_endWork ..)
    have h₂ : OnlyHalts v s₂ := branch _ h₁ h₁.advanceCore
    have h₃ : OnlyHalts v s₃ := by
      unfold s₃
      split
      · exact branch _ (foldl (fun _ _ h => h.arrive) _ h₂) h₂
      · exact h₂
    exact h₃.modSlot.sendQueued.settleSlot

theorem memberReport (h : OnlyHalts v s) {t : TileRef} {i : Nat} {unit : BitVec 32} {o : Outc} :
    OnlyHalts v (s.memberReport t i unit o) := by
  unfold State.memberReport
  dsimp only
  split
  · exact h.modSlot
  · exact branch _ h.modSlot.finishSlot h.modSlot

theorem finishAppend (h : OnlyHalts v s) {t : TileRef} {i : Nat} : OnlyHalts v (s.finishAppend t i) := by
  unfold State.finishAppend
  split
  · exact h
  · refine branch _ h ?_
    dsimp only
    split
    · next heq => exact (h.of_result Steady.writeDva heq).modSlot.conclude
    · next heq => exact (h.of_result Steady.writeDva heq).recordFault.modSlot.conclude

theorem entryDone (h : OnlyHalts v s) {t : TileRef} {i entry : Nat} {o : Outc} {record : BitVec 64} :
    OnlyHalts v (s.entryDone t i entry o record) := h.modSlot.finishAppend

theorem answerEntry (h : OnlyHalts v s) {r : AppendRows} {o : Outc} {record : BitVec 64} : OnlyHalts v (s.answerEntry r o record) := by
  unfold State.answerEntry
  split
  · exact h.entryDone
  · exact h.respond

theorem writeSeqHeader (h : OnlyHalts v s) {t : TileRef} {i : Nat} {d : DescSlot} {q : SeqRun} :
    OnlyHalts v (s.writeSeqHeader t i d q) := by
  unfold State.writeSeqHeader
  extract_lets +onlyGivenNames env put away
  split
  · next heq =>
    have hput := h.of_result Steady.writeDva heq
    exact branch _ hput.sendQueued hput
  · next heq => exact (h.of_result Steady.writeDva heq).recordFault.modSlot

theorem settleAttention (h : OnlyHalts v s) {t : TileRef} {i : Nat} : OnlyHalts v (s.settleAttention t i) := by
  unfold State.settleAttention
  split
  · exact h
  · exact branch _ h (h.modTile (by intro; rfl)).finishSlot

theorem leadAnswer (h : OnlyHalts v s) {t : TileRef} {i : Nat} {txn : BitVec 16} {o : Outc} : OnlyHalts v (s.leadAnswer t i txn o) :=
  h.modSlot.settleAttention

theorem itemReported (h : OnlyHalts v s) {t : TileRef} {i seq slotNo : Nat} {o : Outc} {wrote : Bool} {poison : BitVec 64} :
    OnlyHalts v (s.itemReported t i seq slotNo o wrote poison) := by
  unfold State.itemReported
  dsimp only
  split
  · exact (branch _ (h.modTile (by intro; rfl)).writeSeqHeader (h.modTile (by intro; rfl))).settleAttention
  · exact h.modTile (by intro; rfl)

theorem readAnswer (h : OnlyHalts v s) {t : TileRef} {i : Nat} {x : Txn} {o : Outc} {data : List Byte} :
    OnlyHalts v (s.readAnswer t i x o data) := h.modSlot

theorem itemAnswer (h : OnlyHalts v s) {t : TileRef} {x : Txn} {o : Outc} {data : List Byte} :
    OnlyHalts v (s.itemAnswer t x o data) := h.modTile (by intro; rfl)

theorem frontAnswer (h : OnlyHalts v s) {t : TileRef} {x : Txn} {o : Outc} {data : List Byte} :
    OnlyHalts v (s.frontAnswer t x o data) :=
  h.modTile (by intro; split_ifs; · rfl
                · dsimp only; split <;> rfl)

theorem shareAnswer (h : OnlyHalts v s) {t : TileRef} {i : Nat} {unit : BitVec 32} {x : Txn} {o : Outc} {r : Msg} :
    OnlyHalts v (s.shareAnswer t i unit x o r) := by
  unfold State.shareAnswer
  split
  · exact h
  · exact branch _ h.itemReported h.memberReport

/-! ### The twin (R349 to R373) -/

theorem sendHello (h : OnlyHalts v s) {leaving : Bool} : OnlyHalts v (s.sendHello leaving) := branch _ h.setOut.request h

theorem setPair (h : OnlyHalts v s) {st : PairSt} {gen : BitVec 32} {cause : Code} : OnlyHalts v (s.setPair st gen cause) :=
  branch _ h (branch _ h.setTwin.bump h.setTwin.bump.sendHello)

theorem enterStale (h : OnlyHalts v s) {gen : BitVec 32} {cause : Code} : OnlyHalts v (s.enterStale gen cause) := by
  have hdrop : OnlyHalts v { s with tiles := s.tiles.map fun e => (e.1, e.2.dropMirrored) } :=
    { h with
      tile := fun t => by
        unfold State.tile
        rw [unit_kvGet_dropMirrored]
        exact h.tile t }
  exact hdrop.setTwin.setPair.raiseP

theorem exempt (h : OnlyHalts v s) {any : Bool} : OnlyHalts v (s.exempt any) := h.setTwin

theorem enterPaired (h : OnlyHalts v s) {gen : BitVec 32} : OnlyHalts v (s.enterPaired gen) := h.setTwin.setPair.raiseP

theorem resyncDone (h : OnlyHalts v s) : OnlyHalts v s.resyncDone := h.enterPaired.raiseP

theorem diverged (h : OnlyHalts v s) {t : TileRef} {job : BitVec 16} {pt : BitVec 64} {plane : Nat} {event : Bool} :
    OnlyHalts v (s.diverged t job pt plane event) :=
  have hmark := Steady.markUnmirrored s h
  branch _ hmark.raise hmark

theorem commitAnswer (h : OnlyHalts v s) {t : TileRef} {r : AppendRows} {record : BitVec 64} {o : Outc} :
    OnlyHalts v (s.commitAnswer t r record o) :=
  branch _ h.answerEntry h.countPartial.diverged.answerEntry

theorem detach (h : OnlyHalts v s) : OnlyHalts v s.detach := by
  unfold State.detach
  extract_lets +onlyGivenNames was w s₁ s₂ s₃
  have h₂ : OnlyHalts v s₂ := h.setTwin.setPair
  have h₃ : OnlyHalts v s₃ := branch _ h₂ h₂.raiseP
  split
  · exact h₃.setTwin.memberDone
  · exact h₃

theorem endLeave (h : OnlyHalts v s) : OnlyHalts v s.endLeave :=
  branch _ h (branch _ h.sendHello.setTwinTherm.detach h.sendHello.setTwinTherm)

theorem tailAnswer (h : OnlyHalts v s) {t : TileRef} {pt : BitVec 64} {plane : Nat} {job : BitVec 16} {o : Outc} :
    OnlyHalts v (s.tailAnswer t pt plane job o) :=
  have hin := (branch _ (h.modTile (by intro; rfl)) (branch _ h.diverged h)).setTwin
  branch _ hin (branch _ hin.endLeave (branch _ hin.resyncDone hin))

theorem thirdAnswer (h : OnlyHalts v s) {src : Nat} {txn : BitVec 16} {unit : BitVec 32} {o : Outc} :
    OnlyHalts v (s.thirdAnswer src txn unit o) :=
  (branch _ h h.countPartial).respond

theorem mirrorAnswer (h : OnlyHalts v s) {x : Txn} {o : Outc} : OnlyHalts v (s.mirrorAnswer x o) := by
  unfold State.mirrorAnswer
  split
  · exact h.slotAnswer
  · exact h.commitAnswer
  · exact h.thirdAnswer
  · exact h.tailAnswer
  · exact h

/-! ### The host (R382, R390, R411) -/

theorem suspectHost (h : OnlyHalts v s) : OnlyHalts v s.suspectHost := branch _ h (h.setHost (by rfl)).raiseP

theorem hostViolation (h : OnlyHalts v s) {reason : Code} {bar off : Nat} : OnlyHalts v (s.hostViolation reason bar off) :=
  (branch _ ((h.setHost (by rfl)).raiseP.setHost (by rfl)) (h.setHost (by rfl))).suspectHost

theorem apertureEnd (h : OnlyHalts v s) {write : Bool} {off g n : Nat} {o : Outc} {data : List Byte} :
    OnlyHalts v (s.apertureEnd write off g n o data) := by
  unfold State.apertureEnd
  extract_lets +onlyGivenNames answer
  have hans : ∀ x, OnlyHalts v (answer s x) := fun _ => branch _ h h.setOut
  exact branch _ (hans _) (branch _ (branch _ h.hostFault (hans _))
    (branch _ (hans _).hostViolation (branch _ h.hostFault (hans _).hostFault)))

theorem commandAnswer (h : OnlyHalts v s) {ring : Nat} {tag : BitVec 16} {unit : BitVec 32} {o : Outc} {data : List Byte} :
    OnlyHalts v (s.commandAnswer ring tag unit o data) := by
  unfold State.commandAnswer
  split
  · exact h
  · exact (branch _ h.enterStale.exempt h).memberBack

theorem landPage (h : OnlyHalts v s) {a : Nat} {o : Outc} {data : List Byte} : OnlyHalts v (s.landPage a o data).1 := by
  unfold State.landPage
  extract_lets +onlyGivenNames held w s₁ lay
  have h₁ : OnlyHalts v s₁ := h.setTwin
  split
  · split
    · next heq => exact h₁.of_result Steady.writeStack heq
    · next heq => exact h₁.of_result Steady.writeStack heq
  · split
    · exact h₁
    · extract_lets +onlyGivenNames whole lands run
      have hrun : Steady v run := .branch _ (.bind .pure fun _ => .writeStack) (.bind .readStack fun _ => .writeStack)
      dsimp only
      exact hrun _ h₁

/-! ### Requests that end without an answer, and ports that go down (R310, R311, R316, R330) -/

theorem txnDone (h : OnlyHalts v s) {x : Txn} {r : Msg} : OnlyHalts v (s.txnDone x r) := by
  unfold State.txnDone
  dsimp only
  split
  case h_1 => exact branch _ h.leadAnswer (branch _ h.readAnswer h.slotAnswer)
  case h_2 => exact h.itemAnswer
  case h_3 => exact h.shareAnswer
  case h_4 => exact h.entryDone
  case h_5 => exact h.frontAnswer
  case h_6 => exact h.commandAnswer
  case h_7 => exact h.paramAnswer
  case h_8 =>
    split
    · exact h
    · exact branch _ h.finishOk h.finishWith
  case h_9 => exact h.retAnswer
  case h_10 => exact h.cmdReadAnswer
  case h_11 => exact h.apertureEnd
  case h_12 => exact branch _ h h.setOut
  case h_13 =>
    split
    · exact h.landPage
    · exact h.landPage.memberDone
  case h_14 => exact branch _ h.setTwin h
  case h_15 => exact h.mirrorAnswer
  case h_16 => exact h.mirrorAnswer
  case h_17 => exact h.mirrorAnswer
  case h_18 => exact h.mirrorAnswer
  case h_19 => exact h

theorem txnFails (h : OnlyHalts v s) {x : Txn} {st rs : Code} : OnlyHalts v (s.txnFails x st rs) := h.txnDone

theorem msgLost (h : OnlyHalts v s) {m : Msg} {st rs : Code} : OnlyHalts v (s.msgLost m st rs) := by
  refine branch _ h.negative (branch _ h ?_)
  split
  · exact h
  · next ht => exact (h.takeTxn ht).txnFails

theorem endStranded (h : OnlyHalts v s) {mismatch : Bool} : OnlyHalts v (s.endStranded mismatch) :=
  foldl (fun _ _ h => h.msgLost) _ (h.setCornis (by rfl))

/-- What follows once the link layer of a port has gone quiet. -/
theorem dropPort_of_quiet {p : Nat} {mismatch : Bool} {why : Code} (h : OnlyHalts v ((s.idleGroups p).modPort p Port.quiet)) :
    OnlyHalts v (s.dropPort p mismatch why) := by
  unfold State.dropPort
  have hlost : OnlyHalts v (((s.port p).inFlight.foldl (fun (s : State) m => s.msgLost m St.notReady Rs.portDown)
      ((s.idleGroups p).modPort p Port.quiet)).endStranded mismatch).retryHeld :=
    (foldl (fun _ _ h => h.msgLost) _ h).endStranded.retryHeld
  dsimp only
  split
  · exact hlost.finishWith
  · exact hlost

theorem dropPort (h : OnlyHalts v s) {p : Nat} {mismatch : Bool} {why : Code} : OnlyHalts v (s.dropPort p mismatch why) :=
  dropPort_of_quiet (h.idleGroups.modPort fun _ _ => rfl)

theorem portGoesDown (h : OnlyHalts v s) {p cause : Nat} : OnlyHalts v (s.portDown p cause) := branch _ h h.raiseP.dropPort

/-! ### The halt of tiles, stacks and the package (R70, R404, R473) -/

/-- A tile that is not ABSENT halts. -/
theorem modTile_halted (h : OnlyHalts v s) {t : TileRef} {f : Tile → Tile} (ht : (s.tile t).unit ≠ .absent)
    (hf : ∀ x, (f x).unit = .halted) : OnlyHalts v (s.modTile t f) :=
  { h with
    tile := fun u => by
      by_cases hu : u = t
      · subst hu
        rw [tile_modTile_same, hf]
        exact (h.tile u).halt ht
      · rw [tile_modTile_other s f hu]
        exact h.tile u }

/-- A stack that is not ABSENT halts. -/
theorem setStackSt_halted (h : OnlyHalts v s) {st cause : Nat} (hst : s.stackState st ≠ .absent) :
    OnlyHalts v { s with units := { s.units with stackSt := kvPut s.units.stackSt st (.halted, cause) } } :=
  { h with
    stack := fun k => by
      by_cases hk : k = st
      · subst hk
        simpa only [State.stackState, kvGet_kvPut_same] using (h.stack k).halt hst
      · simpa only [State.stackState, kvGet_kvPut_other _ _ _ hk] using h.stack k }

theorem setPackage_halted (h : OnlyHalts v s) : OnlyHalts v { s with units := { s.units with package := .halted } } :=
  { h with package := fun _ => rfl }

theorem tile_halted (h : OnlyHalts v s) {t : TileRef} (hv : (v.tile t).unit = .halted) : (s.tile t).unit = .halted :=
  (hv ▸ h.tile t).halted_of_halted

theorem stack_halted (h : OnlyHalts v s) {st : Nat} (hv : v.stackState st = .halted) : s.stackState st = .halted :=
  (hv ▸ h.stack st).halted_of_halted

theorem tileState_halted (h : OnlyHalts v s) {t : TileRef} {cause : Nat} (ht : (s.tile t).unit ≠ .absent) :
    OnlyHalts v (s.tileState t .halted cause) := by
  unfold State.tileState
  dsimp only
  split
  · exact branch _ h (h.setTile (by rfl)).bump
  · exact (h.raise.modTile_halted ((raise (.refl s)).tile t |>.ne_absent ht) fun _ => rfl).bump.noteGroups

theorem endDemand (h : OnlyHalts v s) {t : TileRef} : OnlyHalts v (s.endDemand t) :=
  foldl (fun _ _ h => h.memberDone) _ (h.modTile (by intro; rfl))

theorem haltTile (h : OnlyHalts v s) {t : TileRef} : OnlyHalts v (s.haltTile t) := by
  unfold State.haltTile
  split
  · exact h
  · next ht => exact (h.tileState_halted ht).endDemand

theorem setStackState_halted (h : OnlyHalts v s) {st cause : Nat} (hst : s.stackState st ≠ .absent) :
    OnlyHalts v (s.setStackState st .halted cause) :=
  have hset := h.raise.setStackSt_halted ((raise (.refl s)).stack st |>.ne_absent hst)
  branch _ (branch _ h (h.setStackSt_halted hst).bump) (branch _ hset.bump hset.bump).noteGroups

theorem setPackageState_halted (h : OnlyHalts v s) {cause : Nat} : OnlyHalts v (s.setPackageState .halted cause) :=
  branch _ h h.raise.setPackage_halted.bump.noteAbove

theorem haltStack (h : OnlyHalts v s) {st : Nat} : OnlyHalts v (s.haltStack st) := by
  have htiles : OnlyHalts v ((List.range 64).foldl (fun (s : State) i => s.haltTile (64 * st + i)) s) :=
    foldl (fun _ _ h => h.haltTile) _ h
  unfold State.haltStack
  dsimp only
  split
  · exact htiles
  · next hst => exact htiles.setStackState_halted hst

/-- What follows once the units have halted. -/
theorem stopDies_of_units
    (h : OnlyHalts v (((List.range 24).foldl (fun (s : State) st => s.haltStack st) s).setPackageState .halted 3)) :
    OnlyHalts v s.stopDies :=
  foldl (fun _ _ h => h.portGoesDown) _ h

theorem stopDies (h : OnlyHalts v s) : OnlyHalts v s.stopDies :=
  stopDies_of_units (foldl (fun _ _ h => h.haltStack) _ h).setPackageState_halted

/-- In a run of operations that only halt, the one for `a` brings about what the later ones leave. -/
theorem foldl_reaches {α : Type} {f : State → α → State} {P Q : State → Prop} {a : α}
    (hf : ∀ v s a, OnlyHalts v s → OnlyHalts v (f s a)) (hP : ∀ s u, OnlyHalts s u → P s → P u)
    (hQ : ∀ s u, OnlyHalts s u → Q s → Q u) (ha : ∀ s, P s → Q (f s a)) (l : List α) :
    ∀ s, a ∈ l → P s → Q (l.foldl f s) := by
  induction l with
  | nil => exact fun _ hl => absurd hl (List.not_mem_nil)
  | cons b l ih =>
    intro s hl hs
    rcases List.mem_cons.1 hl with rfl | hl
    · exact hQ _ _ (foldl (hf _) l (.refl _)) (ha s hs)
    · exact ih _ hl (hP _ _ (hf s s b (.refl s)) hs)

theorem tile_foldl_halted {α : Type} {f : State → α → State} {t : TileRef} {a : α}
    (hf : ∀ v s a, OnlyHalts v s → OnlyHalts v (f s a))
    (ha : ∀ s : State, (s.tile t).unit ≠ .absent → ((f s a).tile t).unit = .halted) {l : List α} (hl : a ∈ l)
    (ht : (s.tile t).unit ≠ .absent) : ((l.foldl f s).tile t).unit = .halted :=
  foldl_reaches (P := fun u => (u.tile t).unit ≠ .absent) (Q := fun u => (u.tile t).unit = .halted) hf
    (fun _ _ h => (h.tile t).ne_absent) (fun _ _ h => h.tile_halted) ha l s hl ht

/-! ### Reads of host memory that will not be answered (R391, R412, R426) -/

theorem setBuOutSec (h : OnlyHalts v s) {o : Option StepOut} {x : SecState} :
    OnlyHalts v { s with bu := { s.bu with out := o }, sec := x } :=
  { h with bu := congrArg (fun b : BringUp => { b with out := o }) h.bu }

theorem refuseBundle (h : OnlyHalts v s) {reason : Code} {kind : Nat} : OnlyHalts v (s.refuseBundle reason kind) := h.setBuOutSec.raiseP

theorem lostRead (h : OnlyHalts v s) {x : HostRead} : OnlyHalts v (s.lostRead x) := by
  unfold State.lostRead
  split
  · exact h.setHost (by rfl)
  · exact h.setHost (by rfl)
  · exact h.refuseBundle

theorem loseReads (h : OnlyHalts v s) : OnlyHalts v s.loseReads := foldl (fun _ _ h => h.lostRead) _ (h.setHost (by rfl))

end OnlyHalts

open OnlyHalts

/-! ### What has halted, and what is down -/

theorem tile_tileState_halted {s : State} {t : TileRef} {cause : Nat} : ((s.tileState t .halted cause).tile t).unit = .halted := by
  unfold State.tileState
  dsimp only
  split
  · next h =>
    split
    · exact h
    · exact tile_halted (.bump (.refl _)) (by rw [tile_setTile_same]; exact h)
  · exact tile_halted (noteGroups (.bump (.refl _))) (by rw [tile_modTile_same])

theorem tile_haltTile {s : State} {t : TileRef} (ht : (s.tile t).unit ≠ .absent) : ((s.haltTile t).tile t).unit = .halted := by
  rw [State.haltTile, if_neg ht]
  exact (endDemand (.refl _)).tile_halted tile_tileState_halted

theorem stack_setStackState_halted {s : State} {st cause : Nat} : (s.setStackState st .halted cause).stackState st = .halted := by
  have hput (u : State) :
      ({ u with units := { u.units with stackSt := kvPut u.units.stackSt st (.halted, cause) } } : State).stackState st = .halted := by
    rw [State.stackState, kvGet_kvPut_same]
  unfold State.setStackState
  dsimp only
  split
  · next h =>
    split
    · exact h
    · exact hput s
  · exact stack_halted (noteGroups (branch _ (.bump (.refl _)) (.bump (.refl _)))) (hput _)

theorem tile_haltStack {s : State} {t : TileRef} (ht : (s.tile t).unit ≠ .absent) : ((s.haltStack (t / 64)).tile t).unit = .halted := by
  have hfold : (((List.range 64).foldl (fun (s : State) i => s.haltTile (64 * (t / 64) + i)) s).tile t).unit = .halted := by
    refine tile_foldl_halted (a := t % 64) (fun _ _ _ h => h.haltTile) (fun u hu => ?_) (List.mem_range.2 (by omega)) ht
    rw [Nat.div_add_mod]
    exact tile_haltTile hu
  unfold State.haltStack
  dsimp only
  split
  · exact hfold
  · next hst => exact (setStackState_halted (.refl _) hst).tile_halted hfold

theorem stack_haltStack {s : State} {st : Nat} (hst : s.stackState st ≠ .absent) : (s.haltStack st).stackState st = .halted := by
  have hfold := (foldl (fun _ i h => h.haltTile) (List.range 64) (.refl s) : OnlyHalts s
    ((List.range 64).foldl (fun (s : State) i => s.haltTile (64 * st + i)) s))
  rw [State.haltStack, if_neg ((hfold.stack st).ne_absent hst)]
  exact stack_setStackState_halted

theorem package_setPackageState_halted {s : State} {cause : Nat} : (s.setPackageState .halted cause).units.package = .halted := by
  unfold State.setPackageState
  split
  · assumption
  · exact (noteAbove (.bump (.refl _))).package rfl

theorem up_portDown {s : State} {p cause : Nat} : ((s.portDown p cause).port p).up = false := by
  unfold State.portDown
  split
  · next h => rw [Port.up, h]; rfl
  · refine (dropPort_of_quiet (.refl _)).portDown p ?_
    rw [port_modPort]
    split
    · rfl
    · next hp =>
      have hnone : p ≥ ((s.raiseP Ev.portDown [w64 p, w64 cause]).idleGroups p).cornis.ports.length := by omega
      rw [State.port, List.getElem?_eq_none hnone]
      rfl

section StopDies

variable (s : State)

theorem tile_stopDies {t : TileRef} (h : t < 1536) (ht : (s.tile t).unit ≠ .absent) : (s.stopDies.tile t).unit = .halted := by
  have hunits : (((List.range 24).foldl (fun (s : State) st => s.haltStack st) s).tile t).unit = .halted :=
    tile_foldl_halted (f := State.haltStack) (a := t / 64) (fun _ _ _ h => h.haltStack) (fun _ => tile_haltStack)
      (List.mem_range.2 (Nat.div_lt_of_lt_mul h)) ht
  exact (stopDies_of_units (setPackageState_halted (.refl _))).tile_halted hunits

theorem stack_stopDies {st : Nat} (h : st < 24) (hst : s.stackState st ≠ .absent) : s.stopDies.stackState st = .halted := by
  have hunits : ((List.range 24).foldl (fun (s : State) st => s.haltStack st) s).stackState st = .halted :=
    foldl_reaches (f := State.haltStack) (P := fun u => u.stackState st ≠ .absent) (Q := fun u => u.stackState st = .halted)
      (fun _ _ _ h => h.haltStack) (fun _ _ h => (h.stack st).ne_absent) (fun _ _ h => h.stack_halted) (fun _ => stack_haltStack)
      _ s (List.mem_range.2 h) hst
  exact (stopDies_of_units (setPackageState_halted (.refl _))).stack_halted hunits

theorem package_stopDies : s.stopDies.units.package = .halted :=
  (stopDies_of_units (.refl _)).package package_setPackageState_halted

theorem up_stopDies {p : Nat} (h : p < 9) : (s.stopDies.port p).up = false := by
  unfold State.stopDies
  exact foldl_reaches (f := fun (s : State) p => s.portDown p 4) (P := fun _ => True) (Q := fun u => (u.port p).up = false)
    (fun _ _ _ h => h.portGoesDown) (fun _ _ _ => id) (fun _ _ h => h.portDown p) (fun _ _ => up_portDown) _ _
    (List.mem_range.2 h) trivial

end StopDies

end Sys2Proof.Proofs
end

section
/-! Power, the reference, and the stop of Brass: the statements of `spec/01_efulith_overview.md` (R25), with R437 and R494 to R498. -/

namespace Sys2Proof.Proofs

open Sys2Proof Sys2Proof.Machine Sys2Proof.Laws

/-! ### The event just raised is the newest of the log (R402) -/

theorem interrupt_events (s : State) (n : BitVec 6) : (s.interrupt n).events = s.events := by
  unfold State.interrupt
  split
  · rfl
  · split <;> rfl

theorem postEvent_events (s : State) (e : Event) : (s.postEvent e).events = s.events := by
  unfold State.postEvent
  dsimp only
  split
  · rw [interrupt_events]
    split <;> rfl
  · split <;> rfl

theorem getLast?_logEvent (s : State) (e : Event) : (s.logEvent e).events.log.getLast? = some e := by
  have hlen : ¬(s.events.log ++ [e]).length ≤ (s.events.log ++ [e]).length - 65536 := by
    rw [List.length_append, List.length_singleton]
    omega
  rw [State.logEvent, List.getLast?_drop, if_neg hlen, List.getLast?_concat]

theorem getLast?_raise0 (s : State) (code : BitVec 16) (unit : BitVec 32) (items : List Word) :
    (s.raise0 code unit items).events.log.getLast? = some (s.postOverflow.event code unit items) := by
  have hlog := getLast?_logEvent s.postOverflow (s.postOverflow.event code unit items)
  unfold State.raise0
  dsimp only
  split
  · exact hlog
  · split
    · exact hlog
    · rw [postEvent_events]
      exact hlog

/-- With the event image off, the event raised is the newest of the log. -/
theorem newest_raiseP {s u : State} {code : BitVec 16} {items : List Word} (hu : s.raiseP code items = u)
    (h : s.host.eq.enable = false) : (u.events.log.getLast?.map fun e => (e.code, e.items)) = some (code, items) := by
  rw [← hu, State.raiseP, State.raise, if_neg (by simp [h]), getLast?_raise0]
  rfl

/-! ### Power-up (R437, R496) -/

/-- S0 begins: BU_RES_0 reads OK, BRINGUP_STEP is logged, memory and tiles are as they were. -/
theorem enterS0_spec (s : State) :
    s.enterS0.bu = { s.bu with s0 := true, results := kvPut s.bu.results 0 (St.ok, 0, 0, 0) }
      ∧ (s.host.eq.enable = false → (s.enterS0.events.log.getLast?.map fun e => e.code) = some Ev.bringupStep)
      ∧ s.enterS0.mem = s.mem ∧ s.enterS0.tiles = s.tiles := by
  have h : OnlyLogs { s with bu := { s.bu with s0 := true, results := kvPut s.bu.results 0 (St.ok, 0, 0, 0) } } s.enterS0 :=
    (OnlyLogs.refl _).raiseP
  have hnew := newest_raiseP (u := s.enterS0) rfl
  refine ⟨h.bu, fun he => ?_, h.mem, h.tiles⟩
  simpa using congrArg (Option.map Prod.fst) (hnew he)

theorem inS0_enterS0 (s : State) :
    s.enterS0.bu.s0 = true ∧ kvGet s.enterS0.bu.results 0 (1, 1, 1, 1) = (St.ok, 0, 0, 0)
      ∧ (s.host.eq.enable = false → (s.enterS0.events.log.getLast?.map fun e => e.code) = some Ev.bringupStep)
      ∧ s.enterS0.mem = s.mem ∧ s.enterS0.tiles = s.tiles := by
  obtain ⟨hbu, hrest⟩ := enterS0_spec s
  rw [hbu]
  exact ⟨rfl, kvGet_kvPut_same .., hrest⟩

/-! ### The guest sites in reset (R495, R507) -/

/-- Of what a loss of the reference speaks of, `s` differs from `v` only in the guest sites. -/
structure OnlyGuests (v s : State) : Prop where
  bu : s.bu = v.bu
  tiles : s.tiles = v.tiles
  units : s.units = v.units
  ports : s.cornis.ports = v.cornis.ports
  linkUp : s.host.linkUp = v.host.linkUp
  eq : s.host.eq = v.host.eq

theorem onlyGuests_guestExit (s : State) (g : Nat) (new : GuestSt) (cause : Code) : OnlyGuests s (s.guestExit g new cause) := by
  unfold State.guestExit State.setGuest
  dsimp only
  split <;> split <;> exact ⟨rfl, rfl, rfl, rfl, rfl, rfl⟩

theorem OnlyGuests.trans {a b c : State} (h : OnlyGuests a b) (h' : OnlyGuests b c) : OnlyGuests a c :=
  ⟨h'.bu.trans h.bu, h'.tiles.trans h.tiles, h'.units.trans h.units, h'.ports.trans h.ports, h'.linkUp.trans h.linkUp,
    h'.eq.trans h.eq⟩

theorem state_guestExit_same (s : State) (g : Nat) (new : GuestSt) (cause : Code) :
    ((s.guestExit g new cause).guest g).state = new := by
  unfold State.guestExit State.setGuest State.guest
  dsimp only
  split <;> split <;> rfl

theorem guestExit_zero_guest1 (s : State) (new : GuestSt) (cause : Code) : (s.guestExit 0 new cause).guest1 = s.guest1 := by
  unfold State.guestExit
  dsimp only
  split <;> rfl

theorem guestExit_one_guest0 (s : State) (new : GuestSt) (cause : Code) : (s.guestExit 1 new cause).guest0 = s.guest0 := by
  unfold State.guestExit
  dsimp only
  split <;> rfl

/-- A guest site enters reset where it has a module. -/
def resetGuest (s : State) (g : Nat) : State := if (s.guest g).state = .absent then s else s.guestExit g .reset Rs.guestReset

theorem stopGuests_eq (s : State) : s.stopGuests = resetGuest (resetGuest s 0) 1 := rfl

theorem onlyGuests_resetGuest (s : State) (g : Nat) : OnlyGuests s (resetGuest s g) := by
  unfold resetGuest
  split
  · exact ⟨rfl, rfl, rfl, rfl, rfl, rfl⟩
  · exact onlyGuests_guestExit ..

theorem onlyGuests_stopGuests (s : State) : OnlyGuests s s.stopGuests :=
  (onlyGuests_resetGuest s 0).trans (onlyGuests_resetGuest _ 1)

theorem state_resetGuest {s : State} {g : Nat} (h : (s.guest g).state ≠ .absent) : ((resetGuest s g).guest g).state = .reset := by
  rw [resetGuest, if_neg h]
  exact state_guestExit_same ..

theorem state_stopGuests {s : State} {g : Nat} (hg : g < 2) (h : (s.guest g).state ≠ .absent) :
    (s.stopGuests.guest g).state = .reset := by
  have hkeep1 : (resetGuest s 0).guest1 = s.guest1 := by
    rw [resetGuest]
    split
    · rfl
    · exact guestExit_zero_guest1 ..
  have hkeep0 : ∀ u, (resetGuest u 1).guest0 = u.guest0 := fun u => by
    unfold resetGuest
    split
    · rfl
    · exact guestExit_one_guest0 ..
  rw [stopGuests_eq]
  obtain rfl | rfl : g = 0 ∨ g = 1 := by omega
  · exact (congrArg Guest.state (hkeep0 _)).trans (state_resetGuest h)
  · exact state_resetGuest (by rwa [show (resetGuest s 0).guest 1 = s.guest 1 from hkeep1])

/-! ### The loss of the reference (R495) -/

/-- From `s`, the dies stand still without a reference: the units that are not ABSENT halted, the ports down, the guest sites in reset,
`REF_LOST` set. -/
structure RefStopped (s u : State) : Prop where
  refOk : u.bu.refOk = false
  refLost : u.bu.refLost = true
  done : u.bu.done = s.bu.done
  tile : ∀ t < 1536, (s.tile t).unit ≠ .absent → (u.tile t).unit = .halted
  stack : ∀ st < 24, s.stackState st ≠ .absent → u.stackState st = .halted
  package : u.units.package = .halted
  port : ∀ p < 9, (u.port p).up = false
  guest : ∀ g < 2, (s.guest g).state ≠ .absent → (u.guest g).state = .reset

/-- What only halts leaves the dies stopped. -/
theorem RefStopped.halts {s u w : State} (h : RefStopped s u) (hw : OnlyHalts u w) : RefStopped s w where
  refOk := by rw [hw.bu]; exact h.refOk
  refLost := by rw [hw.bu]; exact h.refLost
  done := hw.done.trans h.done
  tile t ht hs := hw.tile_halted (h.tile t ht hs)
  stack st hst hs := hw.stack_halted (h.stack st hst hs)
  package := hw.package h.package
  port p hp := hw.portDown p (h.port p hp)
  guest g hg hs := by
    rw [State.guest, hw.guest0, hw.guest1]
    exact h.guest g hg hs

/-- What the loss of the reference does once the dies have stopped; the endpoint is left. -/
def refLost (u : State) (last : Word) : State :=
  ({ u with bu := { u.bu with refOk := false, refLost := true } } : State).stopGuests.raiseP Ev.refclkLost [last]

/-- The endpoint follows where it has no reference of its own (R412, R495). -/
def endpointFollows (u : State) : State := if !Config.separateRef && u.host.linkUp then u.endpointReset 3 else u

theorem exec_referenceLoss {s : State} (hr : s.bu.refOk = true) (hb : s.brassRuns = true) (h0 : s.bu.s0 = true) :
    exec .referenceLoss s = .next (endpointFollows (refLost (s.advanceTo (s.time.now + us 2)).stopDies s.time.invar)) := by
  change execReferenceLoss s = _
  rw [execReferenceLoss, hr, hb, h0]
  simp only [Bool.not_true, Bool.or_self, Bool.false_eq_true, if_false]
  generalize (s.advanceTo (s.time.now + us 2)).stopDies = u
  rfl

section Loss

variable {s u : State} {last : Word}

/-- Taking the reference away and resetting the guest sites leaves the rest. -/
theorem onlyGuests_stopGuests_refLost (u : State) :
    OnlyGuests { u with bu := { u.bu with refOk := false, refLost := true } }
      ({ u with bu := { u.bu with refOk := false, refLost := true } } : State).stopGuests := onlyGuests_stopGuests _

theorem refLost_linkUp (hu : OnlyHalts s u) : (refLost u last).host.linkUp = s.host.linkUp :=
  ((OnlyLogs.refl _).raiseP).linkUp.trans ((onlyGuests_stopGuests_refLost u).linkUp.trans hu.linkUp)

theorem newest_refLost (hu : OnlyHalts s u) (h : s.host.eq.enable = false) :
    ((refLost u last).events.log.getLast?.map fun e => (e.code, e.items)) = some (Ev.refclkLost, [last]) := by
  refine newest_raiseP rfl ?_
  rw [(onlyGuests_stopGuests_refLost u).eq]
  exact hu.imageOff h

/-- Dies that have stopped stay so while the reference is taken away and the guest sites are reset. -/
theorem refStopped_refLost (hu : OnlyHalts s u) (htile : ∀ t < 1536, (s.tile t).unit ≠ .absent → (u.tile t).unit = .halted)
    (hstack : ∀ st < 24, s.stackState st ≠ .absent → u.stackState st = .halted) (hpackage : u.units.package = .halted)
    (hport : ∀ p < 9, (u.port p).up = false) : RefStopped s (refLost u last) := by
  have hg := onlyGuests_stopGuests_refLost u
  have hguests : RefStopped s ({ u with bu := { u.bu with refOk := false, refLost := true } } : State).stopGuests := {
    refOk := congrArg BringUp.refOk hg.bu
    refLost := congrArg BringUp.refLost hg.bu
    done := by
      rw [hg.bu]
      exact hu.done
    tile := fun t ht hs => by
      rw [State.tile, hg.tiles]
      exact htile t ht hs
    stack := fun st hst hs => by
      rw [State.stackState, hg.units]
      exact hstack st hst hs
    package := by
      rw [hg.units]
      exact hpackage
    port := fun p hp => by
      rw [State.port, hg.ports]
      exact hport p hp
    guest := fun g hlt hs => state_stopGuests hlt (by
      unfold State.guest at hs ⊢
      rwa [hu.guest0, hu.guest1]) }
  exact hguests.halts (OnlyHalts.refl _).raiseP

end Loss

/-- A lost link: the endpoint is reset with it, and nothing else of what the loss speaks of changes. -/
theorem onlyHalts_endpointReset (s : State) (kind : Nat) :
    OnlyHalts { s with host := s.host.endpointReset s.time.now (kind = 3 || kind = 4) } (s.endpointReset kind) :=
  (OnlyHalts.refl _).loseReads.raiseP

theorem refStopped_endpointReset {s u : State} (h : RefStopped s u) (kind : Nat) : RefStopped s (u.endpointReset kind) :=
  RefStopped.halts (u := { u with host := u.host.endpointReset u.time.now (kind = 3 || kind = 4) }) { h with }
    (onlyHalts_endpointReset u kind)

theorem linkUp_endpointReset_lost (s : State) : (s.endpointReset 3).host.linkUp = false := by
  rw [(onlyHalts_endpointReset s 3).linkUp]
  exact Bool.and_false _

theorem refStopped_endpointFollows {s u : State} (h : RefStopped s u) : RefStopped s (endpointFollows u) := by
  unfold endpointFollows
  split
  · exact refStopped_endpointReset h 3
  · exact h

theorem linkUp_endpointFollows (u : State) : (endpointFollows u).host.linkUp = (u.host.linkUp && Config.separateRef) := by
  unfold endpointFollows
  split
  · next h =>
    rw [linkUp_endpointReset_lost]
    revert h
    cases Config.separateRef <;> simp
  · next h =>
    revert h
    cases Config.separateRef <;> simp

theorem endpointFollows_of_linkDown {u : State} (h : u.host.linkUp = false) : endpointFollows u = u := by
  rw [endpointFollows, h, Bool.and_false]
  rfl

/-- After a loss of the reference in S0 or later the dies are stopped, and the link with them unless the endpoint has its own. -/
theorem referenceLoss_spec {s : State} (hr : s.bu.refOk = true) (hb : s.brassRuns = true) (h0 : s.bu.s0 = true) :
    ∃ u, exec .referenceLoss s = .next u ∧ RefStopped s u ∧ u.host.linkUp = (s.host.linkUp && Config.separateRef)
      ∧ (s.host.linkUp = false → s.host.eq.enable = false →
        (u.events.log.getLast?.map fun e => (e.code, e.items)) = some (Ev.refclkLost, [s.time.invar])) := by
  have hadv (till : Nat) : OnlyHalts s (s.advanceTo till) := (OnlyHalts.refl s).advanceTo
  have hdies (till : Nat) : OnlyHalts s (s.advanceTo till).stopDies := (hadv till).stopDies
  have hstopped : RefStopped s (refLost (s.advanceTo (s.time.now + us 2)).stopDies s.time.invar) :=
    refStopped_refLost (hdies _) (fun t ht hs => tile_stopDies _ ht (((hadv _).tile t).ne_absent hs))
      (fun st hst hs => stack_stopDies _ hst (((hadv _).stack st).ne_absent hs)) (package_stopDies _) fun p hp => up_stopDies _ hp
  have hlink := refLost_linkUp (last := s.time.invar) (hdies (s.time.now + us 2))
  refine ⟨_, exec_referenceLoss hr hb h0, refStopped_endpointFollows hstopped, ?_, fun hl he => ?_⟩
  · rw [linkUp_endpointFollows, hlink]
  · rw [endpointFollows_of_linkDown (hlink.trans hl)]
    exact newest_refLost (hdies _) he

/-! ### Power-off (R300, R437, R498) -/

theorem mem_of_kvFind {α : Type} {l : KV α} {n : Nat} {a : α} (h : kvFind l n = some a) : (n, a) ∈ l := by
  induction l with
  | nil => cases h
  | cons e l ih =>
    obtain ⟨k, b⟩ := e
    rw [kvFind] at h
    split at h
    · next hk =>
      cases h
      exact hk ▸ List.mem_cons_self
    · exact List.mem_cons_of_mem _ (ih h)

/-- What power-off keeps of a tile is fuse-backed repairs alone. -/
theorem fused_of_mem_powerOff {s : State} {t : TileRef} (r) (h : r ∈ (s.powerOff.tile t).mem.repairs) : r.2.2.2.2 = true := by
  unfold State.tile kvGet at h
  cases hf : kvFind s.powerOff.tiles t with
  | none =>
    rw [hf] at h
    exact absurd h List.not_mem_nil
  | some x =>
    rw [hf] at h
    obtain ⟨e, -, he⟩ := List.mem_map.1 (mem_of_kvFind hf : (t, x) ∈ s.fusedTiles)
    obtain ⟨-, rfl⟩ := Prod.mk.inj he
    exact (List.mem_filter.1 h).2

theorem mem_fusedTiles {s : State} {e : Nat × Tile} (he : e ∈ s.tiles) (hr : ∃ r ∈ e.2.mem.repairs, r.2.2.2.2 = true) :
    (e.1, e.2.fusedOnly) ∈ s.fusedTiles :=
  List.mem_map.2 ⟨e, List.mem_filter.2 ⟨he, List.any_eq_true.2 hr⟩, rfl⟩

/-! ### Each command -/

theorem exec_powerStageStart_idle {s : State} (h : s.bu.powered = true) : exec .powerStageStart s = .next s := by
  change execPowerStageStart s = _
  rw [execPowerStageStart, h, if_pos rfl]

theorem exec_powerStageStart {s : State} (h : s.bu.powered = false) :
    ∃ u, exec .powerStageStart s = .next u ∧ u.bu = { s.bu with powered := true } ∧ u.time.now = s.time.now + ms 10 := by
  have hlt : s.time.now < s.time.now + ms 10 := Nat.lt_add_of_pos_right (by decide)
  change ∃ u, execPowerStageStart s = _ ∧ _
  rw [execPowerStageStart, h, if_neg Bool.false_ne_true, State.advanceTo, if_pos hlt]
  exact ⟨_, rfl, rfl, rfl⟩

theorem exec_inputFaultStop_idle {s : State} (h : s.bu.powered = false) : exec .inputFaultStop s = .next s := by
  change execInputFaultStop s = _
  rw [execInputFaultStop, h, if_neg Bool.false_ne_true]

theorem exec_inputFaultStop {s : State} (h : s.bu.powered = true) : exec .inputFaultStop s = .next s.powerOff := by
  change execInputFaultStop s = _
  rw [execInputFaultStop, if_pos h]

theorem exec_thermtripRelease_idle {s : State} (h : s.bu.powered = false) :
    exec .thermtripRelease s = .next { s with therm := { s.therm with trip := false, tripHw := false } } := by
  change execThermtripRelease s = _
  rw [execThermtripRelease, h, if_neg Bool.false_ne_true]

theorem exec_thermtripRelease {s : State} (h : s.bu.powered = true) : exec .thermtripRelease s = .next { s.powerOff with therm := {} } := by
  change execThermtripRelease s = _
  rw [execThermtripRelease, if_pos h]
  rfl

theorem exec_powerGood_idle {s : State} (h : s.bu.good = true) : exec .powerGood s = .next s := by
  change execPowerGood s = _
  rw [execPowerGood, h, Bool.or_true, if_pos rfl]

theorem exec_powerGood {s : State} (hb : s.brassRuns = true) (hg : s.bu.good = false) :
    exec .powerGood s = .next (if s.bu.refOk then ({ s with bu := { s.bu with good := true } } : State).enterS0
      else { s with bu := { s.bu with good := true } }) := by
  change execPowerGood s = _
  rw [execPowerGood, hb, hg]
  rfl

theorem exec_referenceValid_idle {s : State} (h : s.bu.refOk = true) : exec .referenceValid s = .next s := by
  change execReferenceValid s = _
  rw [execReferenceValid, if_pos h]

theorem exec_referenceValid {s : State} (h : s.bu.refOk = false) :
    exec .referenceValid s = .next (
      let u : State := { s with bu := { s.bu with refOk := true, refAt := s.time.now } }
      if s.brassRuns && s.bu.good && !s.bu.s0 then u.enterS0 else u) := by
  change execReferenceValid s = _
  rw [execReferenceValid, h, if_neg Bool.false_ne_true]
  rfl

theorem exec_referenceLoss_idle {s : State} (h : s.bu.refOk = false) : exec .referenceLoss s = .next s := by
  change execReferenceLoss s = _
  rw [execReferenceLoss, h]
  rfl

/-- Settles O49: S0 begins by its own event, power-off is one state, and the loss of the reference is followed through every operation
that a halting die or a port going down calls for. -/
theorem powerAndReferenceStartAndStopThePackage : Obligations.PowerAndReferenceStartAndStopThePackage := by
  intro s inS0 off
  have hoff : off s.powerOff := ⟨rfl, rfl, rfl, rfl, rfl, rfl, rfl, rfl, fun _ => fused_of_mem_powerOff, fun _ => mem_fusedTiles⟩
  refine ⟨exec_powerStageStart_idle, fun h => ?_, fun hb => ⟨exec_powerGood_idle, fun hg => ⟨fun hr => ?_, fun hr => ?_⟩⟩,
    exec_referenceValid_idle, fun hr => ⟨exec_referenceLoss_idle hr, fun hb hg h0 => ?_, fun hg => ?_⟩, fun hr hb h0 => ?_,
    ⟨rfl, ?_⟩, fun h => ⟨⟨_, exec_inputFaultStop h, hoff, rfl⟩, _, exec_thermtripRelease h, hoff, rfl⟩,
    exec_thermtripRelease_idle⟩
  · obtain ⟨u, hu, hbu, hnow⟩ := exec_powerStageStart h
    exact ⟨u, hu, hbu, hnow, exec_inputFaultStop_idle h⟩
  · rw [exec_powerGood hb hg, if_pos hr]
    exact ⟨_, rfl, congrArg BringUp.good (enterS0_spec _).1, inS0_enterS0 _⟩
  · rw [exec_powerGood hb hg, hr]
    rfl
  · rw [exec_referenceValid hr, hb, hg, h0]
    have hbu := (enterS0_spec { s with bu := { s.bu with refOk := true, refAt := s.time.now } }).1
    exact ⟨_, rfl, congrArg BringUp.refOk hbu, congrArg BringUp.refAt hbu, inS0_enterS0 _⟩
  · rw [exec_referenceValid hr, hg, Bool.and_false]
    rfl
  · obtain ⟨u, hu, hstop, hlink, hnew⟩ := referenceLoss_spec hr hb h0
    refine ⟨u, hu, hstop.refOk, hstop.refLost, hstop.done, ?_, hstop.tile, hstop.stack, hstop.package, hstop.port, hstop.guest,
      hlink, hnew⟩
    rw [State.clocksRun, hstop.refOk, Bool.and_false, Bool.false_and]
  · rw [State.clocksRun, State.brassRuns, Bool.and_false, Bool.false_and, Bool.false_and, Bool.false_and]

end Sys2Proof.Proofs
end

section
/-! What a started command leaves but for its own end: the command slots and the kept details (R84, R86, R391, R392). -/

namespace Sys2Proof.Proofs

open Sys2Proof Sys2Proof.Machine Sys2Proof.Laws Sys2Proof.Safety

/-- A command does its work or nothing (R25, R388). -/
theorem onCmd_cases {P : State → Prop} {s : State} {op : Nat} {c : Cmd} {f : State → State} (hf : P (f s)) (hs : P s) :
    P (s.onCmd op c f) := by
  unfold State.onCmd
  split
  · exact hf
  · exact hs

/-- What each step of a run leaves, the run leaves. -/
theorem foldl_keeps {α β γ : Type} {g : β → γ} {f : β → α → β} (h : ∀ b a, g (f b a) = g b) (l : List α) (b : β) :
    g (l.foldl f b) = g b := by
  induction l generalizing b with
  | nil => rfl
  | cons a l ih => exact (ih (f b a)).trans (h b a)

/-! ### What only commands see -/

section OnlyCommands

variable {v s : State}

theorem onlyCommands_refl (s : State) : OnlyCommands s s := rfl

theorem tick_of_onlyCommands (h : OnlyCommands v s) : s.tick = v.tick := by rw [h]

theorem onlyCommands_modCmd (h : OnlyCommands v s) (c : Cmd) (f : CmdSlot → CmdSlot) : OnlyCommands v (s.modCmd c f) := by
  unfold OnlyCommands at h ⊢
  rw [h]
  rfl

theorem onlyCommands_setDetail (h : OnlyCommands v s) (c : Cmd) (l : List (Path × Outc)) : OnlyCommands v (s.setDetail c l) := by
  unfold OnlyCommands at h ⊢
  rw [h]
  rfl

theorem onlyCommands_finish (h : OnlyCommands v s) (c : Cmd) (k : Compl) : OnlyCommands v (s.finish c k) := onlyCommands_modCmd h ..

theorem onlyCommands_finishData (h : OnlyCommands v s) (c : Cmd) (bytes : List Byte) (k : Compl) :
    OnlyCommands v (s.finishData c bytes k) := by
  unfold State.finishData
  split
  · exact onlyCommands_finish h ..
  · split
    · exact onlyCommands_finish h ..
    · exact onlyCommands_modCmd h ..

theorem onlyCommands_answeredBy (h : OnlyCommands v s) (c : Cmd) (q : LeafOut) : OnlyCommands v (answeredBy s c q) := by
  unfold answeredBy
  dsimp only
  split
  · exact onlyCommands_finish (onlyCommands_setDetail h ..) ..
  · exact onlyCommands_finishData (onlyCommands_setDetail h ..) ..

theorem tick_answered (s : State) (c : Cmd) (o : Outc) (data : List Byte) : (answered s c o data).tick = s.tick :=
  tick_of_onlyCommands (onlyCommands_answeredBy (onlyCommands_refl s) ..)

end OnlyCommands

end Sys2Proof.Proofs
end

section
/-! The tick: the statements of `spec/02_step_tick.md` on the lag (R39, R47, R49, R54) and on what a tick starts (R43 to R48). -/

namespace Sys2Proof.Proofs

open Sys2Proof Sys2Proof.Machine Sys2Proof.Laws Sys2Proof.Safety

/-! ### What leaves the tick registers alone -/

theorem OnlyLogs.tick {v s : State} (h : OnlyLogs v s) : s.tick = v.tick := by rw [h.rest]

@[simp] theorem tick_raiseP (s : State) (code : BitVec 16) (items : List Word) : (s.raiseP code items).tick = s.tick :=
  (OnlyLogs.refl s).raiseP.tick

@[simp] theorem tick_sendFrame (s : State) (ty : Nat) (payload : List Byte) : (s.sendFrame ty payload).tick = s.tick := by
  unfold State.sendFrame
  split
  · rfl
  · split <;> rfl

/-- The forecast alone of the tick registers is computed anew. -/
theorem tick_reforecast (s : State) : s.reforecast.tick = { s.tick with forecast := s.reforecast.tick.forecast } := by
  unfold State.reforecast
  split <;> rfl

/-! ### The lag within the wall step (R39) -/

/-- The wall step is `n`, and the lag is no more. -/
structure LagWithin (n : Nat) (s : State) : Prop where
  wall : s.tick.wall = n
  lag : s.tick.lag ≤ n

namespace LagWithin

variable {n : Nat} {s u : State}

theorem of_same (h : LagWithin n s) (hu : (u.tick.lag, u.tick.wall) = (s.tick.lag, s.tick.wall)) : LagWithin n u := by
  obtain ⟨hl, hw⟩ := Prod.mk.inj hu
  exact ⟨hw.trans h.wall, hl.trans_le h.lag⟩

theorem of_tick (h : LagWithin n s) (hu : u.tick = s.tick) : LagWithin n u := h.of_same (by rw [hu])

theorem branch (c : Prop) {dec : Decidable c} {a b : State} (ha : LagWithin n a) (hb : LagWithin n b) :
    LagWithin n (@ite State c dec a b) := by
  split
  · exact ha
  · exact hb

theorem foldl {α : Type} {f : State → α → State} (hf : ∀ s a, LagWithin n s → LagWithin n (f s a)) (l : List α) :
    ∀ {s : State}, LagWithin n s → LagWithin n (l.foldl f s) := by
  induction l with
  | nil => exact id
  | cons a l ih => exact fun h => ih (hf _ a h)

/-! Updates of one field. -/

theorem setEvents (h : LagWithin n s) {x : EventState} : LagWithin n { s with events := x } := ⟨h.wall, h.lag⟩

theorem setPower (h : LagWithin n s) {x : PowerState} : LagWithin n { s with power := x } := ⟨h.wall, h.lag⟩

theorem setTherm (h : LagWithin n s) {x : ThermState} : LagWithin n { s with therm := x } := ⟨h.wall, h.lag⟩

theorem setTiles (h : LagWithin n s) {x : KV Tile} : LagWithin n { s with tiles := x } := ⟨h.wall, h.lag⟩

theorem setMem (h : LagWithin n s) {x : List Host.Cell} : LagWithin n { s with mem := x } := ⟨h.wall, h.lag⟩

theorem setTick (h : LagWithin n s) {x : TickState} (hx : (x.lag, x.wall) = (s.tick.lag, s.tick.wall)) :
    LagWithin n { s with tick := x } := h.of_same hx

theorem setTilesTick (h : LagWithin n s) {x : KV Tile} {y : TickState} (hy : (y.lag, y.wall) = (s.tick.lag, s.tick.wall)) :
    LagWithin n { s with tiles := x, tick := y } := h.of_same hy

theorem setTickTwin (h : LagWithin n s) {x : TickState} {y : TwinState} (hx : (x.lag, x.wall) = (s.tick.lag, s.tick.wall)) :
    LagWithin n { s with tick := x, twin := y } := h.of_same hx

theorem modTile (h : LagWithin n s) {t : TileRef} {f : Tile → Tile} : LagWithin n (s.modTile t f) := h.setTiles

theorem logs (h : LagWithin n s) (hu : OnlyLogs s u) : LagWithin n u := h.of_tick hu.tick

theorem raise (h : LagWithin n s) {code : BitVec 16} {unit : BitVec 32} {items : List Word} : LagWithin n (s.raise code unit items) :=
  h.logs (OnlyLogs.refl s).raise

theorem raiseP (h : LagWithin n s) {code : BitVec 16} {items : List Word} : LagWithin n (s.raiseP code items) := h.raise

theorem pairWritten (h : LagWithin n s) {key : Nat} {agree : Bool} : LagWithin n (s.pairWritten key agree) :=
  branch _ h.setEvents h

theorem coupledUse (h : LagWithin n s) {key : Nat} {agree : Bool} {a b : Nat} {unit : BitVec 32} :
    LagWithin n (s.coupledUse key agree a b unit) :=
  branch _ h.setEvents (branch _ h h.setEvents.raise)

/-! After the tick (R62, R64, R466, R503). -/

theorem reforecast (h : LagWithin n s) : LagWithin n s.reforecast := h.of_same (by rw [tick_reforecast])

theorem sendForecast (h : LagWithin n s) : LagWithin n s.sendForecast := branch _ h (h.of_tick (tick_sendFrame ..))

theorem syncAlarm (h : LagWithin n s) : LagWithin n s.syncAlarm :=
  branch _ h (branch _ (h.of_tick (tick_sendFrame ..)) (h.of_tick rfl))

theorem writePace (h : LagWithin n s) : LagWithin n s.writePace := (h.setTick (by rfl)).pairWritten

theorem graceCheck (h : LagWithin n s) : LagWithin n s.graceCheck := branch _ h h.setTherm.writePace.raiseP.syncAlarm

theorem noticeGuest (h : LagWithin n s) {g : Nat} : LagWithin n (s.noticeGuest g) := branch _ (h.of_tick rfl) h

theorem afterTick (h : LagWithin n s) : LagWithin n s.afterTick :=
  have hsent := h.setTiles.reforecast.sendForecast
  (branch _ hsent.graceCheck hsent).noticeGuest.noticeGuest

/-! The step that ends (R50, R225, R446 to R448). -/

theorem spillEvent (h : LagWithin n s) {t : TileRef} : LagWithin n (s.spillEvent t) := foldl (fun _ _ h => h.raise) _ h.modTile

theorem endStep (h : LagWithin n s) : LagWithin n s.endStep := by
  have hcal (k : TickState) (a b : Nat) : ((k.calibrate a b).lag, (k.calibrate a b).wall) = (k.lag, k.wall) := by
    unfold TickState.calibrate
    split <;> rfl
  unfold State.endStep
  split
  · exact h
  · exact (foldl (fun _ _ h => h.modTile) _ h).setTick (hcal ..)

theorem giveJob (h : LagWithin n s) {tag uj : Nat} : LagWithin n (s.giveJob tag uj).1 := by
  unfold State.giveJob
  dsimp only
  split_ifs
  · exact h
  · exact h.setPower
  · exact h
  · exact h.setPower

theorem giveJobs {f : State × Nat → Nat × Nat → Nat} (l : List (Nat × Nat)) : ∀ {a : State × Nat}, LagWithin n a.1 →
    LagWithin n (l.foldl (fun (acc : State × Nat) j => ((acc.1.giveJob j.1 (f acc j)).1, acc.2 + (acc.1.giveJob j.1 (f acc j)).2)) a).1 := by
  induction l with
  | nil => exact id
  | cons j l ih => exact fun h => ih h.giveJob

theorem modelRatio (h : LagWithin n s) {step euj mfj : Nat} : LagWithin n (s.modelRatio step euj mfj) :=
  branch _ h.setPower.setPower h.setPower.raiseP

/-! The plans that start (R43, R44, R451). -/

theorem endFill (h : LagWithin n s) {t : TileRef} : LagWithin n (s.endFill t) := by
  unfold State.endFill
  split
  · exact h
  · exact h.modTile

theorem startTile (h : LagWithin n s) {t : TileRef} {p : Plan} {k : Nat} : LagWithin n (s.startTile t p k) :=
  h.endFill.modTile.setMem.coupledUse

theorem startPlans (h : LagWithin n s) {k : Nat} : LagWithin n (s.startPlans k) := by
  have hstart {x : KV Tile} {m : Option Nat} {l : List (TileRef × Plan)} : LagWithin n (l.foldl (fun (s : State) e => s.startTile e.1 e.2 k)
      { s with tiles := x, tick := { s.tick with latched := m } }) := foldl (fun _ _ h => h.startTile) _ (h.setTilesTick (by rfl))
  exact branch _ (branch _ hstart (hstart.setTickTwin (by rfl))) (branch _ hstart (hstart.setTickTwin (by rfl))).raiseP

/-! The tick itself (R39, R47, R49, R52). -/

theorem changePeriod (h : LagWithin n s) {k : Nat} : LagWithin n (s.changePeriod k) := by
  unfold State.changePeriod
  split
  · exact branch _ h (h.setTick (by rfl)).raiseP
  · exact h

/-- A realignment lowers the lag. -/
theorem realignNow (h : LagWithin n s) {k : Nat} : LagWithin n (s.realignNow k) :=
  branch _ h ⟨h.wall, (Nat.sub_le ..).trans h.lag⟩

/-- A skipped tick brings the lag to its own number at most. -/
theorem skipTick (h : LagWithin n s) {done agree : Bool} : LagWithin n (s.skipTick n done agree) := by
  have hmin : min (s.tick.lag + 1) n ≤ n := Nat.min_le_right ..
  unfold State.skipTick
  split_ifs
  · exact ⟨h.wall, hmin⟩
  · exact ⟨h.wall, hmin⟩
  · exact ⟨h.wall, hmin⟩

end LagWithin

/-! ### The tick, part by part (R36, R47) -/

/-- The tick has its number, and the lag and the period are those that hold from it on. -/
def numbered (s : State) (n : Nat) : State :=
  let u := ({ s with tick := { s.tick with wall := n, running := true } } : State).changePeriod n
  State.realignNow
    { u with tick := { u.tick with times := ((n, u.tick.sched.tickTime n) :: u.tick.times.filter (·.1 < n)).take 64 } } n

/-- Every tile was done at the sample. -/
def wasDone (s : State) : Bool := if s.tick.sampled then s.tick.sampleDone else s.allDone

/-- The step has ended where every tile was done. -/
def stepEnded (s : State) (done : Bool) : State :=
  if done then
    let u := s.endStep
    let u := (u.tiles.map Prod.fst).foldl (fun (s : State) t => s.spillEvent t) u
    { u with tick := { u.tick with skips := 0 } }
  else s

/-- The plans due have started, or the tick is skipped. -/
def startedOrSkipped (s : State) (n : Nat) (done : Bool) : State :=
  let agree := s.tick.paceAgrees
  let u := s.coupledUse 8400 agree (0x3F0000000000 + 0x101018) (0x3F0000000000 + 0x101068) (pkgUnit s.self)
  let u : State := { u with tick := u.tick.takeRatio agree }
  if u.therm.decided || !done || !agree then u.skipTick n done agree else u.startPlans n

/-- The tick from the point on where the energy of the step in progress has its accounts. -/
def restOfTick (u : State) (n : Nat) : State :=
  (startedOrSkipped (stepEnded { u with tick := { u.tick with sampled := false } } (wasDone u)) n (wasDone u)).afterTick

namespace LagWithin

variable {n : Nat} {s : State}

theorem numbered (h : s.tick.lag ≤ n) : LagWithin n (numbered s n) :=
  have hopen : LagWithin n { s with tick := { s.tick with wall := n, running := true } } := ⟨rfl, h⟩
  (hopen.changePeriod.setTick (by rfl)).realignNow

theorem stepEnded (h : LagWithin n s) {done : Bool} : LagWithin n (stepEnded s done) :=
  branch _ ((foldl (fun _ _ h => h.spillEvent) _ h.endStep).setTick (by rfl)) h

theorem takeRatio (h : LagWithin n s) {agree : Bool} : LagWithin n { s with tick := s.tick.takeRatio agree } :=
  h.setTick (by unfold TickState.takeRatio; split <;> rfl)

theorem startedOrSkipped (h : LagWithin n s) {done : Bool} : LagWithin n (startedOrSkipped s n done) :=
  branch _ h.coupledUse.takeRatio.skipTick h.coupledUse.takeRatio.startPlans

theorem restOfTick (h : LagWithin n s) : LagWithin n (restOfTick s n) := (h.setTick (by rfl)).stepEnded.startedOrSkipped.afterTick

/-- Tick `n` makes `n` the wall step, and the lag stays within it. What is left after the other parts of the tick are accounts of the
ended step's energy (R446 to R448). -/
theorem deliverTick (h : s.tick.lag ≤ n) : LagWithin n (s.deliverTick n) := by
  have hnum := numbered h
  change LagWithin n (Proofs.restOfTick (State.freshStep (if !s.tick.running then _ else _)) n)
  refine restOfTick ((branch _ hnum.setPower ?_).of_tick rfl)
  exact have hcounted := foldl (fun _ _ h => h.modTile) _ (giveJobs _ hnum.modelRatio)
    branch _ hcounted.setPower hcounted.setPower.setPower.raiseP

end LagWithin

/-! ### The number of the tick that comes (R37, R54) -/

/-- The number that comes is past the wall step, and the lag, with what a late record makes the tick jump, is within it; where a late
record withholds the tick, the lag and the wall step stand. -/
theorem numberTick_spec {s : State} (hr : s.tick.running = true) (hlag : s.tick.lag ≤ s.tick.wall) :
    match s.numberTick with
    | (u, some n) => s.tick.wall < n ∧ u.tick.lag ≤ n
    | (u, none) => (u.tick.lag, u.tick.wall) = (s.tick.lag, s.tick.wall) := by
  have hnext : s.tick.nextTick = s.tick.wall + 1 := by rw [TickState.nextTick, if_pos hr]
  unfold State.numberTick
  rw [hnext]
  cases s.tick.oldSched with
  | none => exact ⟨Nat.lt_succ_self _, hlag.trans (Nat.le_succ _)⟩
  | some r =>
    dsimp only
    generalize Schedule.lastAt _ _ = w
    by_cases hheld : (decide (w ≤ s.tick.wall) || decide (2 ^ 48 ≤ w)) = true
    · rw [if_pos hheld]
    · rw [if_neg hheld]
      have hw : s.tick.wall < w := by
        simp only [Bool.or_eq_true, decide_eq_true_eq, not_or] at hheld
        omega
      by_cases hjump : w ≤ s.tick.wall + 1
      · rw [if_pos hjump]
        exact ⟨hw, hlag.trans hw.le⟩
      · rw [if_neg hjump]
        refine ⟨hw, ?_⟩
        rw [tick_raiseP]
        dsimp only
        omega

/-- A tick after the first brings the wall step forward, and keeps the lag within it. -/
theorem execTick_lag_le_wall {s : State} (hr : s.tick.running = true) (hlag : s.tick.lag ≤ s.tick.wall) :
    ∃ u, exec .tick s = .next u ∧ u.tick.lag ≤ u.tick.wall ∧ s.tick.wall ≤ u.tick.wall := by
  refine ⟨_, rfl, ?_⟩
  split
  · exact ⟨hlag, le_rfl⟩
  · split
    · exact ⟨hlag, le_rfl⟩
    · next a _ =>
      have htick : (s.advanceInvar a).tick = s.tick := by
        unfold State.advanceInvar
        split <;> rfl
      have hspec := numberTick_spec (s := s.advanceInvar a) (by rw [htick, hr]) (by rw [htick]; exact hlag)
      rw [htick] at hspec
      split
      · next u n hn =>
        rw [hn] at hspec
        obtain ⟨hwall, hulag⟩ := hspec
        have hd := LagWithin.deliverTick hulag
        exact ⟨hd.lag.trans_eq hd.wall.symm, hwall.le.trans_eq hd.wall.symm⟩
      · next u hn =>
        rw [hn] at hspec
        obtain ⟨hl, hw⟩ := Prod.mk.inj hspec
        exact ⟨hl ▸ hw ▸ hlag, hw.ge⟩

/-! ### A realignment (R49) -/

/-- STEP_REALIGN leaves the lag and the wall step to the tick that follows. -/
theorem execStepRealign_lagAndWall {c : Cmd} {s : State} (h : Own c s) :
    ∃ u, exec (.stepRealign c) s = .next u ∧ u.tick.lag = s.tick.lag ∧ u.tick.wall = s.tick.wall := by
  refine ⟨_, rfl, onCmd_cases (P := fun u => u.tick.lag = s.tick.lag ∧ u.tick.wall = s.tick.wall) ?_ ⟨rfl, rfl⟩⟩
  rw [runPackages_own h, tick_answered]
  split
  · exact ⟨rfl, rfl⟩
  · rw [tick_reforecast]
    exact ⟨rfl, rfl⟩

/-- Settles O27: every part of a tick keeps the lag within the wall step, and a realignment waits for the tick. -/
theorem theLagNeverExceedsTheWallStep : Obligations.TheLagNeverExceedsTheWallStep :=
  ⟨rfl, rfl, fun _ hlag => ⟨fun hr => execTick_lag_le_wall hr hlag, fun _ => execStepRealign_lagAndWall⟩⟩

/-! ### What a tick starts (R43) -/

/-- A plan for wall step 1. -/
def firstPlan : Plan := { step := 1, job := 0, descs := [], energyUj := 0 }

/-- Tick 1 comes, and tile 0 is in service and has its plan, but its stack has not come up: the tile counts for nothing (R66, R67), so
that the tick does not start it. -/
def tileUnderStartingStack : State :=
  { State.reset with
    bu := { State.reset.bu with powered := true, s0 := true }
    tick := { State.reset.tick with
      hasSchedule := true, first := 1, sampled := true
      sched := { State.reset.tick.sched with baseStep := 1, baseTime := 1000000000 } }
    tiles := [(0, { ({} : Tile) with unit := .ready, queue := [firstPlan] })] }

/-- Refutes O26: a tile in service under a stack that is not runs nothing after the tick, whatever its queue holds. -/
theorem not_ticksStartPlansOrAreSkipped : ¬ Obligations.TicksStartPlansOrAreSkipped := by
  intro h
  obtain ⟨htick, -, -⟩ := h tileUnderStartingStack (by decide)
  obtain ⟨hnext, -⟩ := htick 1000000000 (by decide) (by decide)
  obtain ⟨hdone, -⟩ := hnext rfl (by rintro p m ⟨⟩) rfl rfl rfl
  obtain ⟨u, hu, -, -, -, -, hrun⟩ := hdone rfl (by decide)
  have hnone : (u.tile 0).running = none := by
    cases hu
    decide
  have hplan : (u.tile 0).running = some firstPlan := (hrun 0 (by decide)).trans (by decide)
  exact Option.some_ne_none _ (hplan.symm.trans hnone)

end Sys2Proof.Proofs
end

section
/-! The commands on the schedule: the statements of `spec/02_step_tick.md` on the period (R34) and on the record (R33, R35, R37, R49,
R51, R53). -/

namespace Sys2Proof.Proofs

open Sys2Proof Sys2Proof.Machine Sys2Proof.Laws Sys2Proof.Safety

/-! ### The bounds of a period and a step number (R34, R35) -/

theorem periodOk_iff (n : Nat) : periodOk n = true ↔ 500 ≤ n ∧ n ≤ 200000 := by simp [periodOk]

theorem periodOk_eq_false {n : Nat} (h : n < 500 ∨ 200000 < n) : periodOk n = false := by
  rw [Bool.eq_false_iff, Ne, periodOk_iff]
  omega

theorem stepOk_iff (n : Nat) : stepOk n = true ↔ n < 2 ^ 48 - 1 := by simp [stepOk]

/-! ### At the root a command works here (R51) -/

section Root

variable {c : Cmd} {s : State}

theorem exec_tickStart (h : Started c 0x0302 s) (hroot : s.isRoot = true) : exec (.tickStart c) s = .next (s.startTicks c) := by
  change execTickStart c s = _
  rw [execTickStart, onCmd_of h, State.atRoot, if_pos hroot]

theorem exec_tickSetPeriod (h : Started c 0x0303 s) (hroot : s.isRoot = true) : exec (.tickSetPeriod c) s = .next (s.setPeriod c) := by
  change execTickSetPeriod c s = _
  rw [execTickSetPeriod, onCmd_of h, State.atRoot, if_pos hroot]

theorem exec_tickCancelChange (h : Started c 0x0304 s) (hroot : s.isRoot = true) :
    exec (.tickCancelChange c) s = .next (s.cancelChange c) := by
  change execTickCancelChange c s = _
  rw [execTickCancelChange, onCmd_of h, State.atRoot, if_pos hroot]

end Root

/-! ### TICK_START (R34, R35, R37) -/

section StartTicks

variable {c : Cmd} {s : State}

theorem startTicks_badPeriod (hs : s.tick.hasSchedule = false) (hp : periodOk c.p2.toNat = false) :
    s.startTicks c = s.finishWith c St.rejected Rs.badPeriod := by
  simp [State.startTicks, hs, hp]

theorem startTicks_ok (hs : s.tick.hasSchedule = false) (hp : periodOk c.p2.toNat = true) (hn : stepOk c.p0.toNat = true)
    (ht : s.time.invar.toNat + 200000000 ≤ c.p1.toNat) :
    s.startTicks c =
      let q := s.putRecord { baseStep := c.p0.toNat, baseTime := c.p1.toNat, periodUs := c.p2.toNat }
      State.finish { q with tick := { q.tick with hasSchedule := true, first := c.p0.toNat } } c {} := by
  have hsoon : ¬c.p1.toNat < s.time.invar.toNat + 200000000 := Nat.not_lt.2 ht
  simp only [State.startTicks, hs, hp, hn, if_neg hsoon, Bool.not_true, Bool.false_eq_true, if_false]

end StartTicks

/-! ### TICK_SET_PERIOD (R51) -/

section SetPeriod

variable {c : Cmd} {s : State}

theorem setPeriod_noSchedule (hs : s.tick.hasSchedule = false) : s.setPeriod c = s.finishWith c St.notReady Rs.noSchedule := by
  simp [State.setPeriod, hs]

theorem setPeriod_badPeriod (hs : s.tick.hasSchedule = true) (hp : periodOk c.p0.toNat = false) :
    s.setPeriod c = s.finishWith c St.rejected Rs.badPeriod := by
  simp [State.setPeriod, hs, hp]

theorem setPeriod_changePending (hs : s.tick.hasSchedule = true) (hp : periodOk c.p0.toNat = true) (hm : stepOk c.p1.toNat = true)
    (hc : s.tick.sched.change ≠ none) : s.setPeriod c = s.finishWith c St.rejected Rs.changePending := by
  have hsome := Option.isSome_iff_ne_none.2 hc
  simp [State.setPeriod, hs, hp, hm, hsome]

theorem setPeriod_ok (hs : s.tick.hasSchedule = true) (hp : periodOk c.p0.toNat = true) (hm : stepOk c.p1.toNat = true)
    (hc : s.tick.sched.change = none) (hbase : s.tick.sched.baseStep ≤ c.p1.toNat) (hwall : s.tick.wall + 16 ≤ c.p1.toNat)
    (ht : s.time.invar.toNat + 200000000 ≤ (s.tick.sched.tickTime c.p1.toNat).toNat) :
    s.setPeriod c = (s.putRecord { s.tick.sched with change := some (c.p0.toNat, c.p1.toNat) }).finish c {} := by
  have hsoon : (decide (c.p1.toNat < s.tick.sched.baseStep) || decide (c.p1.toNat < s.tick.wall + 16)
      || decide ((s.tick.sched.tickTime c.p1.toNat).toNat < s.time.invar.toNat + 200000000)) = false := by
    simp only [decide_eq_false (Nat.not_lt.2 hbase), decide_eq_false (Nat.not_lt.2 hwall), decide_eq_false (Nat.not_lt.2 ht), Bool.or_self]
  simp only [State.setPeriod, hs, hp, hm, hc, hsoon, Bool.not_true, Option.isSome_none, Bool.false_eq_true, if_false]

end SetPeriod

/-! ### TICK_CANCEL_CHANGE (R53) -/

section CancelChange

variable {c : Cmd} {s : State} {p m : Nat}

theorem cancelChange_noSchedule (hs : s.tick.hasSchedule = false) : s.cancelChange c = s.finishWith c St.notReady Rs.noSchedule := by
  simp [State.cancelChange, hs]

theorem cancelChange_ok (hs : s.tick.hasSchedule = true) (hc : s.tick.sched.change = some (p, m))
    (ht : s.time.invar.toNat + 100000000 ≤ (s.tick.sched.tickTime m).toNat) :
    s.cancelChange c = (s.putRecord { s.tick.sched with change := none }).finish c {} := by
  have hsoon : ¬(s.tick.sched.tickTime m).toNat < s.time.invar.toNat + 100000000 := Nat.not_lt.2 ht
  simp only [State.cancelChange, hs, hc, if_neg hsoon, Bool.not_true, Bool.false_eq_true, if_false]

theorem cancelChange_tooSoon (hs : s.tick.hasSchedule = true) (hc : s.tick.sched.change = some (p, m))
    (ht : (s.tick.sched.tickTime m).toNat < s.time.invar.toNat + 100000000) :
    s.cancelChange c = s.finishWith c St.rejected Rs.tooSoon := by
  simp only [State.cancelChange, hs, hc, if_pos ht, Bool.not_true, Bool.false_eq_true, if_false]

end CancelChange

/-! ### STEP_REALIGN on this package (R49) -/

section StepRealign

variable {c : Cmd} {s : State}

theorem exec_stepRealign (h : Started c 0x0305 s) (ho : Own c s) (hn : c.p0.toNat ≤ s.tick.lag - s.tick.realign) :
    exec (.stepRealign c) s =
      .next (answered (State.reforecast { s with tick := { s.tick with realign := s.tick.realign + c.p0.toNat } }) c {} []) := by
  change execStepRealign c s = _
  rw [execStepRealign, onCmd_of h, runPackages_own ho, if_neg (Nat.not_lt.2 hn)]

theorem exec_stepRealign_badCount (h : Started c 0x0305 s) (ho : Own c s) (hn : s.tick.lag - s.tick.realign < c.p0.toNat) :
    exec (.stepRealign c) s = .next (answered s c (outc St.rejected Rs.badCount) []) := by
  change execStepRealign c s = _
  rw [execStepRealign, onCmd_of h, runPackages_own ho, if_pos hn]

end StepRealign

/-! ### The statements -/

/-- The record that a command has written stands in the tick registers. -/
theorem sched_putRecord (s : State) (r : Schedule) : (s.putRecord r).tick.sched = { r with version := s.tick.sched.version + 1 } := by
  rw [State.putRecord, tick_reforecast]

/-- Settles O19: the period is checked ahead of what else is asked of it, and an accepted one stands in the record. -/
theorem periodsOutsideTheRangeAreRefused : Obligations.PeriodsOutsideTheRangeAreRefused := by
  refine ⟨rfl, fun c s hroot => ⟨fun h hs hp => ?_, fun h hs hp => ?_, fun h hs hlo hhi hn ht => ?_,
    fun h hs hlo hhi hm hc hbase hwall ht => ?_⟩⟩
  · rw [exec_tickStart h hroot, startTicks_badPeriod hs (periodOk_eq_false hp)]
  · rw [exec_tickSetPeriod h hroot, setPeriod_badPeriod hs (periodOk_eq_false hp)]
  · rw [exec_tickStart h hroot, startTicks_ok hs ((periodOk_iff _).2 ⟨hlo, hhi⟩) ((stepOk_iff _).2 hn) ht]
    exact ⟨_, rfl, congrArg Schedule.periodUs (sched_putRecord ..)⟩
  · rw [exec_tickSetPeriod h hroot, setPeriod_ok hs ((periodOk_iff _).2 ⟨hlo, hhi⟩) ((stepOk_iff _).2 hm) hc hbase hwall ht]
    exact ⟨_, rfl, congrArg Schedule.change (sched_putRecord ..)⟩

/-- Settles O20: one equation for each outcome of the four commands. -/
theorem scheduleCommandsWriteTheRecord : Obligations.ScheduleCommandsWriteTheRecord := by
  intro c s written now r
  refine ⟨fun hroot => ⟨fun h hs hp hn ht => ?_, fun h hs hp hm hc hbase hwall ht => ?_, fun h hs hp hm hc => ?_,
    fun h hs p m hc => ⟨fun ht => ?_, fun ht => ?_⟩, fun hs => ⟨fun h => ?_, fun h => ?_⟩⟩,
    fun h ho => ⟨exec_stepRealign h ho, exec_stepRealign_badCount h ho⟩⟩
  · rw [exec_tickStart h hroot, startTicks_ok hs hp hn ht]
    rfl
  · rw [exec_tickSetPeriod h hroot, setPeriod_ok hs hp hm hc hbase hwall ht]
    rfl
  · rw [exec_tickSetPeriod h hroot, setPeriod_changePending hs hp hm hc]
  · rw [exec_tickCancelChange h hroot, cancelChange_ok hs hc ht]
    rfl
  · rw [exec_tickCancelChange h hroot, cancelChange_tooSoon hs hc ht]
  · rw [exec_tickSetPeriod h hroot, setPeriod_noSchedule hs]
  · rw [exec_tickCancelChange h hroot, cancelChange_noSchedule hs]

end Sys2Proof.Proofs
end

section
/-! The commands that return a block of registers: the statement on CNS_STATUS, PWR_READ and the rest (R38, R64, R68, R81, R343). -/

namespace Sys2Proof.Proofs

open Sys2Proof Sys2Proof.Machine Sys2Proof.Laws Sys2Proof.Safety

/-- CNS_STATUS over group 0 of package 0. -/
def groupStatus : Cmd := { opcode := 0x0501, unit := groupUnit 0 0 }

/-- Package 0 with that command started: the group lists tiles 0 and 1 of package 2, both in service, and port 0 leads there. -/
def twoTilesOfOnePackage : State :=
  { State.reset with
    bu := { State.reset.bu with powered := true, s0 := true }
    host := { State.reset.host with slots := [{ cmd := groupStatus, ph := .started }] }
    units := { State.reset.units with
      groups := [(0, [tileUnit 2 0, tileUnit 2 1])]
      remote := [(2, { package := 2, state := 3, stackRecs := [(3, 2)], tileRecs := [(0, (3, [])), (1, (3, []))] })] }
    cornis := { State.reset.cornis with ports := [{ state := .up }], routes := [(2, 1)] } }

/-- Refutes O13: a command over packages asks each package once, under the first of its units that the group lists, so that no request
goes out for the second tile of package 2. -/
theorem not_registerReadsReturnTheirBlock : ¬ Obligations.RegisterReadsReturnTheirBlock := by
  intro h
  obtain ⟨-, -, -, -, -, -, -, hspread, -⟩ := h groupStatus twoTilesOfOnePackage
  have hstarted : Started groupStatus 0x0501 twoTilesOfOnePackage := ⟨rfl, by decide, by decide⟩
  have hgroup : Spread groupStatus twoTilesOfOnePackage := .inr (.inr (by decide +kernel))
  obtain ⟨u, hu, hasked⟩ := hspread hgroup 0x0501 (.cnsStatus groupStatus) List.mem_cons_self hstarted
  have hnone : ∀ x ∈ u.cornis.txns, x.user ≠ .command 0 0 (tileUnit 2 1) := by
    cases hu
    decide +kernel
  have hreached : (tileUnit 2 1, [(1, 2, tileUnit 2 1)])
      ∈ twoTilesOfOnePackage.unitsUnder (twoTilesOfOnePackage.depth + 2) groupStatus.unit [] := by decide +kernel
  obtain ⟨x, hx, huser, -⟩ := hasked _ hreached (by decide) (by decide +kernel)
  exact hnone x hx huser

end Sys2Proof.Proofs
end

section
/-! Commands on one tile: the statement on PLAN_CANCEL (R45), XLT_INVALIDATE (R103), the region commands (R279, R280, R303), SCRUB_NOW
(R303) and KA_RUN (R400). -/

namespace Sys2Proof.Proofs

open Sys2Proof Sys2Proof.Machine Sys2Proof.Laws Sys2Proof.Safety

/-! ### A command's own slot (R392) -/

section Slot

variable {c : Cmd} {s : State}

theorem started_of_host {u : State} (hu : u.host = s.host) : u.started c = s.started c := by
  rw [State.started, hu, State.started]

theorem ends_finish (h : s.started c = true) (k : Compl) : Ends (s.finish c k) c k := by
  obtain ⟨z, hz, hm⟩ := List.any_eq_true.1 h
  have hc := hm
  rw [Bool.and_eq_true, decide_eq_true_eq, decide_eq_true_eq] at hc
  refine ⟨{ z with ph := .finished, compl := k }, ?_, hc.1, rfl, rfl⟩
  rw [finish_slots]
  exact List.mem_map.2 ⟨z, hz, if_pos hm⟩

theorem ends_setDetail_finish (h : s.started c = true) (l : List (Path × Outc)) (k : Compl) : Ends ((s.setDetail c l).finish c k) c k :=
  ends_finish (s := s.setDetail c l) h k

/-- A change of the slot that leaves its command and its phase is found in the slot. -/
theorem cmdSlot_modCmd {f : CmdSlot → CmdSlot} (hf : ∀ z, (f z).cmd = z.cmd ∧ (f z).ph = z.ph) :
    (s.modCmd c f).cmdSlot c = (s.cmdSlot c).map f := by
  unfold State.modCmd State.cmdSlot
  rw [List.find?_map]
  have hsame : ((fun k : CmdSlot => decide (k.cmd = c) && decide (k.ph = .started))
      ∘ fun k => if (decide (k.cmd = c) && decide (k.ph = .started)) = true then f k else k)
      = fun k => decide (k.cmd = c) && decide (k.ph = .started) := by
    funext k
    rw [Function.comp_apply]
    split
    · rw [(hf k).1, (hf k).2]
    · rfl
  rw [hsame]
  cases hfound : s.host.slots.find? fun k => decide (k.cmd = c) && decide (k.ph = .started) with
  | none => rfl
  | some z => simp only [Option.map_some, if_pos (List.find?_some hfound)]

theorem started_modCmd {f : CmdSlot → CmdSlot} (hf : ∀ z, (f z).cmd = z.cmd ∧ (f z).ph = z.ph) (h : s.started c = true) :
    (s.modCmd c f).started c = true := by
  obtain ⟨z, hz, hm⟩ := List.any_eq_true.1 h
  refine List.any_eq_true.2 ⟨f z, List.mem_map.2 ⟨z, hz, if_pos hm⟩, ?_⟩
  rwa [(hf z).1, (hf z).2]

theorem cmdSlot_of_started (h : s.started c = true) : ∃ z, s.cmdSlot c = some z :=
  Option.isSome_iff_exists.1 (List.find?_isSome.2 (List.any_eq_true.1 h))

end Slot

/-! ### A replicated command on one tile (R81, R84) -/

section OneTile

variable {c : Cmd} {s q : State} {t : TileRef} {o : Outc}

theorem own_of_ownTile (h : OwnTile c s t) : Own c s := ⟨.inl (h.1.trans_le (by decide)), h.2.1⟩

theorem runTiles_tile (h : OwnTile c s t) {leaf : State → TileRef → State × Outc} (hleaf : leaf s t = (q, o)) :
    s.runTiles c leaf = answeredBy q c { o := o, parts := [([], o)] } := by
  obtain ⟨hlevel, -, rfl⟩ := id h
  rw [runTiles_own (own_of_ownTile h), State.replicate, State.replicateAt, if_pos hlevel, hleaf]
  rfl

/-- A command over tiles ends on one tile with what the tile does. -/
theorem ends_runTiles (h : OwnTile c s t) {leaf : State → TileRef → State × Outc} (hleaf : leaf s t = (q, o))
    (hq : q.started c = true) : OnlyCommands q (s.runTiles c leaf) ∧ Ends (s.runTiles c leaf) c (membersSay o) := by
  rw [runTiles_tile h hleaf]
  exact ⟨onlyCommands_answeredBy (onlyCommands_refl q) .., ends_setDetail_finish hq ..⟩

theorem leavesOf_tile (h : OwnTile c s t) : s.leavesOf (s.depth + 4) c.unit [] = [(c.unit, [])] := by
  rw [State.leavesOf, if_pos (by rw [h.1]; rfl)]

theorem namedLeaves_tile (h : OwnTile c s t) : s.namedLeaves (s.depth + 4) c.unit [] = [(c.unit, [])] := by
  rw [State.namedLeaves, if_pos (by rw [h.1]; rfl)]

theorem tilesReached_tile (h : OwnTile c s t) : s.tilesReached (s.depth + 2) c.unit = [t] := by
  rw [State.tilesReached, if_pos h.1, if_pos h.2.1, h.2.2]

/-- The slot of a command whose one member is a tile. -/
def ofOneMember (c : Cmd) (r : Option Outc) (z : CmdSlot) : CmdSlot := { z with members := [{ unit := c.unit, pos := 0, report := r }] }

theorem runOver_tile (h : OwnTile c s t) {leaf : State → TileRef → State × Option Outc} {r : Option Outc} (hleaf : leaf s t = (q, r)) :
    s.runOver c [(c.unit, [])] leaf =
      if r.isSome then (q.modCmd c (ofOneMember c r)).finishMembers c 1 else q.modCmd c (ofOneMember c r) := by
  obtain ⟨-, hpkg, rfl⟩ := h
  simp only [State.runOver, List.foldl_cons, List.foldl_nil, hpkg, hleaf]
  cases r <;> rfl

theorem finishMembers_tile (hq : q.started c = true) :
    (q.modCmd c (ofOneMember c (some o))).finishMembers c 1 =
      ((q.modCmd c (ofOneMember c (some o))).setDetail c [([(0, 1, c.unit)], o)]).finish c (membersSay o) := by
  obtain ⟨z, hz⟩ := cmdSlot_of_started hq
  have hslot : (q.modCmd c (ofOneMember c (some o))).cmdSlot c = some (ofOneMember c (some o) z) := by
    rw [cmdSlot_modCmd (f := ofOneMember c (some o)) fun _ => ⟨rfl, rfl⟩, hz, Option.map_some]
  rw [State.finishMembers, hslot]
  simp [ofOneMember, membersSay]

/-- A command whose one tile reports at once ends with what the tile reports. -/
theorem ends_runOver (h : OwnTile c s t) {leaf : State → TileRef → State × Option Outc} (hleaf : leaf s t = (q, some o))
    (hq : q.started c = true) :
    OnlyCommands q (s.runOver c [(c.unit, [])] leaf) ∧ Ends (s.runOver c [(c.unit, [])] leaf) c (membersSay o) := by
  rw [runOver_tile h hleaf, Option.isSome_some, if_pos rfl, finishMembers_tile hq]
  have honly : OnlyCommands q (q.modCmd c (ofOneMember c (some o))) := onlyCommands_modCmd (onlyCommands_refl q) ..
  have hkept : (q.modCmd c (ofOneMember c (some o))).started c = true := started_modCmd (fun _ => ⟨rfl, rfl⟩) hq
  exact ⟨onlyCommands_finish (onlyCommands_setDetail honly ..) .., ends_setDetail_finish hkept ..⟩

end OneTile

/-! ### PLAN_CANCEL (R45) -/

section PlanCancel

variable {c : Cmd} {s q : State} {t : TileRef} {o : Outc}

/-- The forecast is formed of nothing that commands alone see. -/
theorem onlyCommands_reforecast {u : State} (h : OnlyCommands q u) : OnlyCommands q.reforecast u.reforecast := by
  have hacts : u.cobaltActs = q.cobaltActs := by rw [h, State.cobaltActs]; rfl
  unfold State.reforecast
  rw [hacts]
  split
  · rw [h]
    rfl
  · exact h

theorem host_reforecast (s : State) : s.reforecast.host = s.host := by
  unfold State.reforecast
  split <;> rfl

theorem ends_reforecast {k : Compl} (h : Ends s c k) : Ends s.reforecast c k := by
  rwa [Ends, host_reforecast]

theorem host_cancelPlan (s : State) (t : TileRef) (n : Nat) : (s.cancelPlan t n).1.host = s.host := by
  unfold State.cancelPlan
  dsimp only
  split
  · rfl
  · split <;> rfl

/-- On one tile, PLAN_CANCEL ends with what the tile's queue gives, and the forecast is computed anew. -/
theorem exec_planCancel (h : Started c 0x0311 s) (ht : OwnTile c s t) (hm : s.noMembers c = true) (hn : stepOk c.p0.toNat = true)
    (hcancel : s.cancelPlan t c.p0.toNat = (q, o)) :
    ∃ u, exec (.planCancel c) s = .next u ∧ OnlyCommands q.reforecast u ∧ Ends u c (membersSay o) := by
  have hq : q.started c = true := by
    rw [← h.2.1, ← started_of_host (host_cancelPlan s t c.p0.toNat), hcancel]
  obtain ⟨honly, hends⟩ := ends_runOver ht
    (leaf := fun s t => ((s.cancelPlan t c.p0.toNat).1, some (s.cancelPlan t c.p0.toNat).2)) (by rw [hcancel]) hq
  refine ⟨_, ?_, onlyCommands_reforecast honly, ends_reforecast hends⟩
  change execPlanCancel c s = _
  rw [execPlanCancel, onCmd_of h, hn, hm, State.runLater, leavesOf_tile ht]
  rfl

end PlanCancel

/-! ### The regions of a tile (R279, R280) -/

theorem host_modRegions {α : Type} (f : α → Nat) (g : α → Region → Region) (t : TileRef) (l : List α) (s : State) :
    (l.foldl (fun (s : State) a => s.modRegion t (f a) (g a)) s).host = s.host := 
  foldl_keeps (f := fun (s : State) a => s.modRegion t (f a) (g a)) (g := State.host) (fun _ _ => rfl) l s

theorem host_setInterleave (s : State) (t : TileRef) (rs : List Nat) (ilv : BitVec 2) : (s.setInterleave t rs ilv).host = s.host := by
  have hset (u : State) : (rs.foldl (fun (s : State) r => s.modRegion t r fun g => { g with ilv := ilv }) u).host = u.host :=
    host_modRegions ..
  have hpair (u : State) : (rs.foldl (fun (s : State) r => s.pairWritten (regionKey t r) ((s.tile t).ilvAgrees r)) u).host = u.host :=
    foldl_keeps (g := State.host) (fun s r => by unfold State.pairWritten; split <;> rfl) rs u
  unfold State.setInterleave
  dsimp only
  rw [foldl_keeps (g := State.host) (fun s r => by split <;> rfl), hpair, hset]

theorem host_recoded (t : TileRef) (rs : List Nat) (computable : Bool) (code : BitVec 3) (s : State) :
    (rs.foldl (fun (s : State) r => s.modRegion t r fun g => g.recode computable code) s).host = s.host := host_modRegions ..

section OneCommand

variable {c : Cmd} {s : State} {t : TileRef}

/-! ### XLT_INVALIDATE (R103) -/

theorem exec_xltInvalidate_inFlight (h : Started c 0x0203 s) (ht : OwnTile c s t)
    (hin : (s.tile t).inFlight c.p0.toNat (some (c.p1.toNat, c.p1.toNat + c.p2.toNat)) = true) :
    exec (.xltInvalidate c) s = .next s := by
  change execXltInvalidate c s = _
  simp only [execXltInvalidate, onCmd_of h, tilesReached_tile ht, List.any_cons, hin, Bool.true_or, if_true]

theorem exec_xltInvalidate (h : Started c 0x0203 s) (ht : OwnTile c s t)
    (hout : (s.tile t).inFlight c.p0.toNat (some (c.p1.toNat, c.p1.toNat + c.p2.toNat)) = false) :
    ∃ u, exec (.xltInvalidate c) s = .next u
      ∧ OnlyCommands (s.modTile t fun x => x.invalidate c.p0.toNat (some (c.p1.toNat, c.p1.toNat + c.p2.toNat))) u
      ∧ Ends u c (membersSay {}) := by
  refine ⟨_, ?_, ends_runTiles ht
    (leaf := fun s t => (s.modTile t fun x => x.invalidate c.p0.toNat (some (c.p1.toNat, c.p1.toNat + c.p2.toNat)), {})) rfl h.2.1⟩
  change execXltInvalidate c s = _
  simp only [execXltInvalidate, onCmd_of h, tilesReached_tile ht, List.any_cons, List.any_nil, hout, Bool.or_self, Bool.false_eq_true,
    if_false]

/-! ### The region commands (R279, R280, R303) -/

/-- What REGION_SET_CODE does on a tile is what it ends with. -/
theorem exec_regionSetCode (h : Started c 0x0220 s) (ht : OwnTile c s t) (hcode : c.p2.toNat < 6) {q : State} {o : Outc}
    (hleaf : (if (maskRegions c.p0).contains (s.tile t).topRegion then (s, outc St.rejected Rs.fwRegion)
      else (((maskRegions c.p0).filter (s.tile t).regionPresent).foldl (fun (s : State) r =>
          s.modRegion t r fun g => g.recode (c.p1 = 1) (BitVec.ofNat 3 c.p2.toNat)) s,
        if (maskRegions c.p0).all (s.tile t).regionPresent then {} else outc St.range Rs.channelOut)) = (q, o))
    (hq : q.host = s.host) :
    ∃ u, exec (.regionSetCode c) s = .next u ∧ OnlyCommands q u ∧ Ends u c (membersSay o) := by
  refine ⟨_, ?_, ends_runTiles ht (leaf := fun (s : State) t =>
    if (maskRegions c.p0).contains (s.tile t).topRegion then (s, outc St.rejected Rs.fwRegion)
      else (((maskRegions c.p0).filter (s.tile t).regionPresent).foldl (fun (s : State) r =>
          s.modRegion t r fun g => g.recode (c.p1 = 1) (BitVec.ofNat 3 c.p2.toNat)) s,
        if (maskRegions c.p0).all (s.tile t).regionPresent then {} else outc St.range Rs.channelOut)) hleaf
    ((started_of_host hq).trans h.2.1)⟩
  change execRegionSetCode c s = _
  rw [execRegionSetCode, onCmd_of h, if_neg (Nat.not_le.2 hcode)]

theorem exec_regionSetInterleave (h : Started c 0x0221 s) (ht : OwnTile c s t) (hp : c.p1 ≠ 3) (hd : (s.tile t).degraded = false)
    (hrs : ∀ r ∈ maskRegions c.p0, r % 16 ≠ 15) :
    ∃ u, exec (.regionSetInterleave c) s = .next u
      ∧ OnlyCommands (s.setInterleave t (maskRegions c.p0) (BitVec.ofNat 2 c.p1.toNat)) u ∧ Ends u c (membersSay {}) := by
  have hfirmware : ((maskRegions c.p0).any fun r => r % 16 = 15) = false := by
    rw [List.any_eq_false]
    exact fun r hr => by rw [decide_eq_true_eq]; exact hrs r hr
  refine ⟨_, ?_, ends_runTiles ht (leaf := fun (s : State) t =>
      if (s.tile t).degraded then (s, outc St.rejected Rs.channelOut)
      else if (maskRegions c.p0).any fun r => r % 16 = 15 then (s, outc St.rejected Rs.fwRegion)
      else (s.setInterleave t (maskRegions c.p0) (BitVec.ofNat 2 c.p1.toNat), {}))
    (by simp only [hd, hfirmware, Bool.false_eq_true, if_false]) ((started_of_host (host_setInterleave ..)).trans h.2.1)⟩
  change execRegionSetInterleave c s = _
  rw [execRegionSetInterleave, onCmd_of h, if_neg hp]

/-! ### SCRUB_NOW (R294, R303) -/

theorem noMembers_getD (hm : s.noMembers c = true) : ((s.cmdSlot c).map fun k => k.members.isEmpty).getD true = true := by
  unfold State.noMembers at hm
  cases hslot : s.cmdSlot c with
  | none => rfl
  | some z => rwa [hslot] at hm

/-- The pass that SCRUB_NOW asks of a tile; a tile with no region named reports at once. -/
def demandPass (c : Cmd) (s : State) (t : TileRef) : State × Option Outc :=
  let rs := (maskRegions c.p0).filter (s.tile t).regionPresent
  if rs.isEmpty then (s, some {})
  else (s.modTile t fun x => { x with mem := { x.mem with demand := x.mem.demand ++ [(c, rs.map (· * 32768))] } }, none)

theorem exec_scrubNow_eq (h : Started c 0x0223 s) (ht : OwnTile c s t) (hm : s.noMembers c = true) :
    exec (.scrubNow c) s = .next (s.runOver c [(c.unit, [])] (demandPass c)) := by
  change execScrubNow c s = _
  rw [execScrubNow, onCmd_of h, if_pos (noMembers_getD hm), State.runLater, leavesOf_tile ht]
  rfl

theorem exec_scrubNow_none (h : Started c 0x0223 s) (ht : OwnTile c s t) (hm : s.noMembers c = true)
    (hrs : (maskRegions c.p0).filter (s.tile t).regionPresent = []) :
    ∃ u, exec (.scrubNow c) s = .next u ∧ OnlyCommands s u ∧ Ends u c (membersSay {}) :=
  ⟨_, exec_scrubNow_eq h ht hm, ends_runOver ht (by rw [demandPass, hrs]; rfl) h.2.1⟩

theorem exec_scrubNow_some (h : Started c 0x0223 s) (ht : OwnTile c s t) (hm : s.noMembers c = true)
    (hrs : (maskRegions c.p0).filter (s.tile t).regionPresent ≠ []) :
    ∃ u, exec (.scrubNow c) s = .next u ∧ OnlyCommands (s.modTile t fun x => { x with mem := { x.mem with
      demand := x.mem.demand ++ [(c, ((maskRegions c.p0).filter (s.tile t).regionPresent).map (· * 32768))] } }) u := by
  refine ⟨_, exec_scrubNow_eq h ht hm, ?_⟩
  rw [runOver_tile ht (if_neg (by rwa [List.isEmpty_iff])), Option.isSome_none, if_neg Bool.false_ne_true]
  exact onlyCommands_modCmd (onlyCommands_refl _) ..

/-! ### KA_RUN (R400) -/

/-- What a known-answer run does on a tile that every tile of its stack in the command lets run. -/
def kaLeaf (c : Cmd) (fails : List (TileRef × Byte)) (listed : List TileRef) (s : State) (t : TileRef) : State × Option Outc :=
  if !s.kaAccepts listed t then (s, some (outc St.rejected Rs.inService))
  else
    let mask : Byte := BitVec.ofNat 8 c.p0.toNat
    let bad := (((fails.find? fun f => f.1 = t).map Prod.snd).getD 0) &&& mask
    (s.modTile t fun x => { x with kaRun := mask, kaFailed := bad }, some (if bad = 0 then {} else outc St.notReady Rs.testFailed))

theorem kaAccepts_self (s : State) (t : TileRef) : s.kaAccepts [t] t = decide ((s.tile t).unit = .removed) := by
  simp [State.kaAccepts]

theorem exec_kaRun_eq (h : Started c 0x0A01 s) (ht : OwnTile c s t) (fails : List (TileRef × Byte)) :
    exec (.kaRun c fails) s = .next (s.runOver c [(c.unit, [])] (kaLeaf c fails [t])) := by
  have hown : s.ownLeaves [(c.unit, [])] = [t] := by simp [State.ownLeaves, ht.2.1, ht.2.2]
  change execKaRun c fails s = _
  rw [execKaRun, onCmd_of h]
  dsimp only
  rw [namedLeaves_tile ht, hown]
  rfl

theorem exec_kaRun (h : Started c 0x0A01 s) (ht : OwnTile c s t) {fails : List (TileRef × Byte)} {q : State} {o : Outc}
    (hleaf : kaLeaf c fails [t] s t = (q, some o)) (hq : q.host = s.host) :
    ∃ u, exec (.kaRun c fails) s = .next u ∧ OnlyCommands q u ∧ Ends u c (membersSay o) :=
  ⟨_, exec_kaRun_eq h ht fails, ends_runOver ht hleaf ((started_of_host hq).trans h.2.1)⟩

theorem kaLeaf_removed (fails : List (TileRef × Byte)) (hr : (s.tile t).unit = .removed) :
    kaLeaf c fails [t] s t =
      let mask : Byte := BitVec.ofNat 8 c.p0.toNat
      let bad := (((fails.find? fun f => f.1 = t).map Prod.snd).getD 0) &&& mask
      (s.modTile t fun x => { x with kaRun := mask, kaFailed := bad }
        , some (if bad = 0 then {} else outc St.notReady Rs.testFailed)) := by
  rw [kaLeaf, kaAccepts_self, decide_eq_true hr]
  rfl

theorem kaLeaf_inService (fails : List (TileRef × Byte)) (hr : (s.tile t).unit ≠ .removed) :
    kaLeaf c fails [t] s t = (s, some (outc St.rejected Rs.inService)) := by
  rw [kaLeaf, kaAccepts_self, decide_eq_false hr]
  rfl

end OneCommand

/-! ### The statement -/

/-- Settles O21: on one tile a replicated command ends with what its tile gives, and each of the six commands is read off that. -/
theorem tileCommandsActOnTheirTile : Obligations.TileCommandsActOnTheirTile := by
  unfold Obligations.TileCommandsActOnTheirTile
  intro c s t ht
  refine ⟨fun h hm hn => ⟨fun hplan => ?_, fun hplan hrun => ?_, fun hplan hrun => ?_⟩, fun h => exec_xltInvalidate_inFlight h ht,
    fun h => exec_xltInvalidate h ht, fun h hcode => ⟨fun htop => ?_, fun htop => ?_⟩, fun h => exec_regionSetInterleave h ht,
    fun h hm => ⟨exec_scrubNow_none h ht hm, exec_scrubNow_some h ht hm⟩, fun h fails => ⟨fun hr => ?_, fun hr => ?_⟩⟩
  · exact exec_planCancel h ht hm hn (if_pos hplan)
  · exact exec_planCancel h ht hm hn (by rw [State.cancelPlan, hplan, List.contains_iff_mem.2 hrun]; rfl)
  · exact exec_planCancel h ht hm hn
      (by rw [State.cancelPlan, hplan, List.contains_eq_mem, decide_eq_false hrun]; rfl)
  · exact exec_regionSetCode h ht hcode (if_pos (List.contains_iff_mem.2 htop)) rfl
  · exact exec_regionSetCode h ht hcode (if_neg (mt List.contains_iff_mem.1 htop)) (host_recoded ..)
  · exact exec_kaRun h ht (kaLeaf_removed fails hr) rfl
  · exact exec_kaRun h ht (kaLeaf_inService fails hr) rfl

end Sys2Proof.Proofs
end

section
/-! The time tree: the statement on TIME_FRAME_SEND (R30), TIME (R29, R33, R338, R340), PARENT_FRAME_SILENCE (R32) and ROOT_FORGET
(R29). -/

namespace Sys2Proof.Proofs

open Sys2Proof Sys2Proof.Machine Sys2Proof.Laws Sys2Proof.Safety

theorem OnlyLogs.time {v s : State} (h : OnlyLogs v s) : s.time = v.time := by rw [h.rest]

@[simp] theorem time_raiseP (s : State) (code : BitVec 16) (items : List Word) : (s.raiseP code items).time = s.time :=
  (OnlyLogs.refl s).raiseP.time

/-! ### What the sending of flits leaves (R314 to R317) -/

/-- Only flits and messages went out: but for Cornis and what left the package, nothing changed, nor did the package's number, the suspect
packages or the frames sent. -/
structure OnlyFlits (v s : State) : Prop where
  rest : s = { v with cornis := s.cornis, out := s.out }
  self : s.cornis.self = v.cornis.self
  suspects : s.cornis.suspects = v.cornis.suspects
  frames : s.out.time = v.out.time

namespace OnlyFlits

variable {v s : State}

theorem refl (s : State) : OnlyFlits s s := ⟨rfl, rfl, rfl, rfl⟩

theorem time (h : OnlyFlits v s) : s.time = v.time := by rw [h.rest]

theorem tick (h : OnlyFlits v s) : s.tick = v.tick := by rw [h.rest]

theorem tiles (h : OnlyFlits v s) : s.tiles = v.tiles := by rw [h.rest]

theorem mem (h : OnlyFlits v s) : s.mem = v.mem := by rw [h.rest]

theorem branch (c : Prop) {dec : Decidable c} {a b : State} (ha : OnlyFlits v a) (hb : OnlyFlits v b) :
    OnlyFlits v (@ite State c dec a b) := by
  split
  · exact ha
  · exact hb

theorem setCornis (h : OnlyFlits v s) {x : CornisState} (hx : (x.self, x.suspects) = (s.cornis.self, s.cornis.suspects)) :
    OnlyFlits v { s with cornis := x } := by
  obtain ⟨hself, hsus⟩ := Prod.mk.inj hx
  refine ⟨?_, hself.trans h.self, hsus.trans h.suspects, h.frames⟩
  rw [h.rest]

theorem setOut (h : OnlyFlits v s) {y : Outputs} (hy : y.time = s.out.time) : OnlyFlits v { s with out := y } := by
  refine ⟨?_, h.self, h.suspects, hy.trans h.frames⟩
  rw [h.rest]

theorem modPort (h : OnlyFlits v s) {p : Nat} {f : Port → Port} : OnlyFlits v (s.modPort p f) := h.setCornis (by rfl)

theorem emitFlit (h : OnlyFlits v s) {p : Nat} {k : FlitKind} {body : List Byte} : OnlyFlits v (s.emitFlit p k body) :=
  h.modPort.setOut (by rfl)

theorem noteSent (h : OnlyFlits v s) {m : Msg} : OnlyFlits v (s.noteSent m) := h.setCornis (by rfl)

theorem sendFlit (h : OnlyFlits v s) {p vc : Nat} : OnlyFlits v (s.sendFlit p vc) := by
  unfold State.sendFlit
  split
  · exact h
  · exact have hsent := (branch _ (h.setCornis (by rfl)).noteSent h).emitFlit.modPort
      branch _ (hsent.setOut (by rfl)) hsent

theorem pumpFor (n : Nat) {p : Nat} : ∀ {s : State}, OnlyFlits v s → OnlyFlits v (State.pumpFor n s p) := by
  induction n with
  | zero => exact id
  | succ n ih =>
    intro s h
    unfold State.pumpFor
    split
    · exact ih h.sendFlit
    · exact h

theorem transmit (h : OnlyFlits v s) {p : Nat} {m : Msg} : OnlyFlits v (s.transmit p m) :=
  have hheld := h.setCornis (by rfl)
  branch _ hheld (hheld.pumpFor _)

theorem foldl {α : Type} {f : State → α → State} (hf : ∀ s a, OnlyFlits v s → OnlyFlits v (f s a)) (l : List α) :
    ∀ {s : State}, OnlyFlits v s → OnlyFlits v (l.foldl f s) := by
  induction l with
  | nil => exact id
  | cons a l ih => exact fun h => ih (hf _ a h)

theorem idleFlits (h : OnlyFlits v s) {p : Nat} : OnlyFlits v (s.idleFlits p) :=
  foldl (fun _ _ h => branch _ h h.emitFlit) _ (branch _ h.emitFlit h)

theorem freeCredit (h : OnlyFlits v s) {p vc n : Nat} : OnlyFlits v (s.freeCredit p vc n) := h.modPort.idleFlits

end OnlyFlits

/-! ### Frames sent (R30, R338) -/

/-- Frames are formed of the count, the tree, the record and the package's number. -/
theorem timeFrame_congr {s u : State} (htime : u.time = s.time) (htick : u.tick = s.tick) (hself : u.cornis.self = s.cornis.self) :
    u.timeFrame = s.timeFrame := by
  funext p
  unfold State.timeFrame State.self
  rw [htime, htick, hself]

/-- What the frames sent on some ports leave. -/
structure FramesSent (v : State) (ps : List Nat) (s : State) : Prop where
  frames : s.out.time = v.out.time ++ ps.map v.timeFrame
  time : s.time = v.time
  tick : s.tick = v.tick
  tiles : s.tiles = v.tiles
  mem : s.mem = v.mem
  self : s.cornis.self = v.cornis.self

theorem sendTimeFrame_spec (s : State) (p : Nat) : FramesSent s [p] (s.sendTimeFrame p) := by
  have h : OnlyFlits { s with out := { s.out with time := s.out.time ++ [s.timeFrame p] } } (s.sendTimeFrame p) := (OnlyFlits.refl _).transmit
  exact ⟨h.frames, h.time, h.tick, h.tiles, h.mem, h.self⟩

theorem sendTimeFrames_spec (ps : List Nat) (s : State) : FramesSent s ps (ps.foldl State.sendTimeFrame s) := by
  induction ps generalizing s with
  | nil => exact ⟨(List.append_nil _).symm, rfl, rfl, rfl, rfl, rfl⟩
  | cons p ps ih =>
    have h := sendTimeFrame_spec s p
    have hr := ih (s.sendTimeFrame p)
    refine ⟨?_, hr.time.trans h.time, hr.tick.trans h.tick, hr.tiles.trans h.tiles, hr.mem.trans h.mem, hr.self.trans h.self⟩
    rw [List.foldl_cons, hr.frames, h.frames, timeFrame_congr h.time h.tick h.self, List.append_assoc]
    rfl

/-! ### The clock brought forward (R28) -/

section AdvanceTo

variable (s : State) (u : Nat)

theorem advanceTo_eq : s.advanceTo u = { s with time := (s.advanceTo u).time } := by
  unfold State.advanceTo
  split <;> rfl

theorem advanceTo_now : (s.advanceTo u).time.now = max s.time.now u := by
  unfold State.advanceTo
  split
  next h => exact (max_eq_right h.le).symm
  next h => exact (max_eq_left (Nat.not_lt.1 h)).symm

theorem advanceTo_ratePpm : (s.advanceTo u).time.ratePpm = s.time.ratePpm := by
  unfold State.advanceTo
  split <;> rfl

end AdvanceTo

/-! ### Root, parent and lock (R29, R31) -/

/-- What the choice of a parent and the discipline of the count leave: the peers' frames, the root and the tick registers. -/
def treeKept (s : State) : KV TimePeer × Nat × TickState := (s.time.peers, s.time.root, s.tick)

theorem treeKept_ite (p : Prop) {dec : Decidable p} {v a b : State} (ha : treeKept a = treeKept v) (hb : treeKept b = treeKept v) :
    treeKept (@ite State p dec a b) = treeKept v := by
  split
  · exact ha
  · exact hb

theorem treeKept_chooseParent (s : State) : treeKept s.chooseParent = treeKept s := by
  unfold State.chooseParent
  split
  · rfl
  · dsimp only
    split <;> rfl

theorem lock_time (s : State) : s.lock.time = { s.time with locked := true, holdover := false } := by
  unfold State.lock
  dsimp only
  split
  · rw [time_raiseP]
  · rfl

theorem lock_tick (s : State) : s.lock.tick = s.tick := by
  unfold State.lock
  dsimp only
  split
  · rw [tick_raiseP]
  · rfl

theorem treeKept_lock (s : State) : treeKept s.lock = treeKept s := by
  unfold treeKept
  rw [lock_time, lock_tick]

theorem treeKept_exchange (s : State) (f : TimeFrame) : treeKept (s.exchange f) = treeKept s := by
  unfold State.exchange
  exact treeKept_ite _ ((treeKept_lock _).trans (treeKept_ite _ rfl rfl)) (treeKept_ite _ rfl rfl)

/-! ### A sound frame (R29 to R33) -/

/-- What a package notes of a frame that came at count `rx` (R338). -/
def peerOf (f : TimeFrame) (rx : BitVec 64) : TimePeer := ⟨f.root, f.rootHops, f.locked, f.version, f.txNs, rx⟩

/-- The frame is kept under its port. -/
def peerKept (s : State) (f : TimeFrame) : State :=
  { s with time := { s.time with peers := kvPut s.time.peers f.port (peerOf f s.time.invar) } }

/-- What a frame does after record and root were adopted: the parent is chosen, and a frame of the parent disciplines the count. -/
def follow (s : State) (f : TimeFrame) : State :=
  let s : State := if f.root = s.time.root then { s with time := { s.time with rootAt := s.time.now } } else s
  let s := s.chooseParent
  if s.time.parent ≠ some f.port then s
  else
    let s : State := { s with time := { s.time with parentAt := s.time.now } }
    let s : State := if f.locked then s else { s with time := { s.time with locked := false, goodExchanges := 0 } }
    if f.echoTx = 0 then s else s.exchange f

theorem takeTime_eq (s : State) (f : TimeFrame) :
    s.takeTime f = if !s.time.treeOn then peerKept s f else follow (((peerKept s f).adoptRecord (scheduleOf f)).adoptRoot f.root) f := rfl

theorem treeKept_follow (s : State) (f : TimeFrame) : treeKept (follow s f) = treeKept s := by
  have hroot : treeKept (if f.root = s.time.root then { s with time := { s.time with rootAt := s.time.now } } else s) = treeKept s :=
    treeKept_ite _ rfl rfl
  have hparent := (treeKept_chooseParent _).trans hroot
  have hunlock (a : State) : treeKept (if f.locked then a else { a with time := { a.time with locked := false, goodExchanges := 0 } })
      = treeKept a := treeKept_ite _ rfl rfl
  exact treeKept_ite _ hparent (treeKept_ite _ ((hunlock _).trans hparent) ((treeKept_exchange ..).trans ((hunlock _).trans hparent)))

section Adopt

variable {s : State} {r : Schedule}

theorem adoptRecord_time (s : State) (r : Schedule) : (s.adoptRecord r).time = s.time := by
  unfold State.adoptRecord
  dsimp only
  split_ifs <;> rfl

theorem adoptRecord_of_le (h : r.version.toNat ≤ s.tick.sched.version.toNat) : s.adoptRecord r = s := if_pos h

theorem adoptRecord_tick_first (hrun : s.tick.running = false) (hv : s.tick.sched.version.toNat < r.version.toNat) :
    (s.adoptRecord r).tick.sched = r.rolled s.time.invar.toNat ∧ (s.adoptRecord r).tick.hasSchedule = true := by
  rw [State.adoptRecord, if_neg (Nat.not_le.2 hv)]
  simp only [hrun, Bool.not_false, if_true, and_self]

theorem treeKept_adoptRoot (s : State) (root : Nat) :
    treeKept (s.adoptRoot root) = (s.time.peers, min s.time.root root, s.tick) := by
  unfold State.adoptRoot treeKept
  split
  next h => rw [min_eq_right h.le]
  next h => rw [min_eq_left (Nat.not_lt.1 h)]

end Adopt

/-- With the tree on, a sound frame is kept, its root is adopted where it is lower, and its record where it is newer. -/
theorem treeKept_takeTime {s : State} (f : TimeFrame) (htree : s.time.treeOn = true) :
    treeKept (s.takeTime f) = (kvPut s.time.peers f.port (peerOf f s.time.invar), min s.time.root f.root,
      ((peerKept s f).adoptRecord (scheduleOf f)).tick) := by
  rw [takeTime_eq, htree, Bool.not_true, if_neg Bool.false_ne_true, treeKept_follow, treeKept_adoptRoot, adoptRecord_time]
  rfl

theorem takeTime_peers (s : State) (f : TimeFrame) :
    (s.takeTime f).time.peers = kvPut s.time.peers f.port (peerOf f s.time.invar) := by
  cases htree : s.time.treeOn with
  | true => exact congrArg Prod.fst (treeKept_takeTime f htree)
  | false =>
    rw [takeTime_eq, htree]
    rfl

/-! ### A frame received (R338, R340) -/

/-- The state in which a frame's fields are checked: its flit has left the buffer, and its sender has been heard. -/
def heard (s : State) (f : TimeFrame) : State := (s.freeCredit f.port 3 1).hearTwin f.peer

section HearTwin

variable (s : State) (pkg : Nat)

theorem hearTwin_time : (s.hearTwin pkg).time = s.time := by
  unfold State.hearTwin
  split <;> rfl

theorem hearTwin_tick : (s.hearTwin pkg).tick = s.tick := by
  unfold State.hearTwin
  split <;> rfl

theorem hearTwin_cornis : (s.hearTwin pkg).cornis = s.cornis := by
  unfold State.hearTwin
  split <;> rfl

end HearTwin

section Heard

variable (s : State) (f : TimeFrame)

theorem heard_time : (heard s f).time = s.time := by
  rw [heard, hearTwin_time, (OnlyFlits.refl s).freeCredit.time]

theorem heard_tick : (heard s f).tick = s.tick := by
  rw [heard, hearTwin_tick, (OnlyFlits.refl s).freeCredit.tick]

theorem heard_suspects : (heard s f).cornis.suspects = s.cornis.suspects := by
  rw [heard, hearTwin_cornis, (OnlyFlits.refl s).freeCredit.suspects]

end Heard

/-- A frame of a peer that may speak on its port is checked field by field, and a sound one is taken. -/
theorem exec_time {s : State} {f : TimeFrame} (hclk : s.clocksRun = true) (hup : (s.port f.port).up = true) (hself : f.peer ≠ s.self)
    (htwin : f.port = 8 → f.peer = s.twinPkg) (hsus : f.peer ∉ s.cornis.suspects) :
    exec (.time f) s = .next (
      if !f.crcOk then (heard s f).msgViolation f.peer f.port Viol.crc Rs.badCrc
      else if !f.reservedZero then (heard s f).msgViolation f.peer f.port Viol.message Rs.badMessage
      else if (heard s f).badTime f then (heard s f).linkViolation f.port Viol.time
      else (heard s f).takeTime f) := by
  have hnum : (s.freeCredit f.port 3 1).self = s.self := (OnlyFlits.refl s).freeCredit.self
  have hport : (f.port = 8 && f.peer ≠ (s.freeCredit f.port 3 1).twinPkg : Bool) = false := by
    rw [State.twinPkg, hnum, ← State.twinPkg]
    simpa using htwin
  have hhere : ((heard s f).cornis.suspects.contains f.peer) = false := by
    rwa [heard_suspects, List.contains_eq_mem, decide_eq_false_iff_not]
  change execTime f s = _
  unfold execTime
  dsimp only
  rw [hclk, hup, hport, hnum, if_neg hself]
  change Host.Outcome.next (if !f.crcOk then _ else if (heard s f).cornis.suspects.contains f.peer then _ else _) = _
  rw [hhere]
  rfl

section Sound

variable {s : State} {f : TimeFrame}

theorem kvFind_takeTime_heard (s : State) (f : TimeFrame) :
    kvFind ((heard s f).takeTime f).time.peers f.port = some (peerOf f s.time.invar) := by
  rw [takeTime_peers, heard_time, kvFind_kvPut_same]

theorem takeTime_heard_root (f : TimeFrame) (htree : s.time.treeOn = true) :
    ((heard s f).takeTime f).time.root = min s.time.root f.root := by
  have h := treeKept_takeTime (s := heard s f) f (by rwa [heard_time])
  rw [heard_time] at h
  exact congrArg (fun k => k.2.1) h

theorem takeTime_heard_tick (f : TimeFrame) (htree : s.time.treeOn = true) :
    ((heard s f).takeTime f).tick = ((peerKept (heard s f) f).adoptRecord (scheduleOf f)).tick :=
  congrArg (fun k => k.2.2) (treeKept_takeTime (s := heard s f) f (by rwa [heard_time]))

/-- No tick has run: a newer record replaces the own one (R33, R37). -/
theorem takeTime_heard_sched (htree : s.time.treeOn = true) (hrun : s.tick.running = false)
    (hv : s.tick.sched.version.toNat < f.version.toNat) :
    ((heard s f).takeTime f).tick.sched = (scheduleOf f).rolled s.time.invar.toNat ∧ ((heard s f).takeTime f).tick.hasSchedule = true := by
  have hkept : (peerKept (heard s f) f).tick = s.tick := heard_tick s f
  have hinvar : (peerKept (heard s f) f).time.invar = s.time.invar := by
    rw [← heard_time s f]
    rfl
  have h := adoptRecord_tick_first (s := peerKept (heard s f) f) (r := scheduleOf f) (by rwa [hkept]) (by rwa [hkept])
  rwa [hinvar, ← takeTime_heard_tick f htree] at h

theorem takeTime_heard_tick_old (htree : s.time.treeOn = true) (hv : f.version.toNat ≤ s.tick.sched.version.toNat) :
    ((heard s f).takeTime f).tick = s.tick := by
  have hkept : (peerKept (heard s f) f).tick = s.tick := heard_tick s f
  rw [takeTime_heard_tick f htree, adoptRecord_of_le (by rwa [hkept]), hkept]

end Sound

/-! ### Silence of the parent and of the root (R29, R32) -/

/-- Holdover begins (R32). -/
def heldOver (s : State) : State := { s with time := { s.time with holdover := true, locked := false, goodExchanges := 0 } }

theorem heldOver_advanceTo (s : State) (u : Nat) :
    let q := heldOver (s.advanceTo u)
    q.time.holdover = true ∧ q.time.locked = false ∧ q.time.ratePpm = s.time.ratePpm ∧ q.time.now = max s.time.now u
      ∧ q = { s with time := q.time } := by
  refine ⟨rfl, rfl, advanceTo_ratePpm s u, advanceTo_now s u, ?_⟩
  rw [heldOver, advanceTo_eq]

theorem exec_parentFrameSilence {s : State} (hclk : s.clocksRun = true) (htree : s.time.treeOn = true) (hparent : s.time.parent ≠ none)
    (hhold : s.time.holdover = false) :
    exec .parentFrameSilence s = .next ((heldOver (s.advanceTo (s.time.parentAt + ms 8))).raiseP Ev.invarHoldover []) := by
  have hsome : s.time.parent.isNone = false := by rwa [Option.isNone_eq_false_iff, Option.isSome_iff_ne_none]
  change execParentFrameSilence s = _
  rw [execParentFrameSilence, hclk, htree, hsome, hhold, if_neg (by decide)]
  rfl

/-- The package takes itself as root (R29). -/
def ownRoot (s : State) : State :=
  { s with time := { s.time with
    root := s.self
    peers := s.time.peers.map fun e => (e.1, if e.2.root = s.time.root then { e.2 with rootHops := 0x7FF } else e.2)
    goodExchanges := 0 } }

theorem chooseParent_of_root {s : State} (h : s.time.root = s.self) :
    s.chooseParent = { s with time := { s.time with parent := none, hops := 0, locked := true } } := if_pos h

theorem ownRoot_advanceTo (s : State) (u : Nat) :
    let x := (ownRoot (s.advanceTo u)).chooseParent.lock.time
    x.root = s.self ∧ x.parent = none ∧ x.hops = 0 ∧ x.locked = true ∧ x.now = max s.time.now u := by
  have hself : (s.advanceTo u).self = s.self := by rw [advanceTo_eq]; rfl
  rw [lock_time, chooseParent_of_root (s := ownRoot (s.advanceTo u)) rfl]
  exact ⟨hself, rfl, rfl, rfl, advanceTo_now s u⟩

theorem exec_rootForget {s : State} (hclk : s.clocksRun = true) (htree : s.time.treeOn = true) (hroot : s.time.root ≠ s.self) :
    exec .rootForget s = .next (ownRoot (s.advanceTo (s.time.rootAt + ms 10))).chooseParent.lock := by
  change execRootForget s = _
  rw [execRootForget, hclk, htree, decide_eq_false hroot, if_neg (by decide)]
  rfl

/-- Settles O28: the tree and the record follow the frames, and their silence leads to holdover and to the package's own root. -/
theorem timeFramesDisciplineTheCount : Obligations.TimeFramesDisciplineTheCount := by
  unfold Obligations.TimeFramesDisciplineTheCount
  intro s hclk
  refine ⟨fun htree => ?_, fun f hup hself htwin hsus => ?_, fun htree hparent hhold => ?_, fun htree hroot => ?_⟩
  · have h := sendTimeFrames_spec ((List.range 9).filter fun p => (s.port p).up) s
    refine ⟨_, ?_, h.frames, h.time, h.tick, h.tiles, h.mem⟩
    change execTimeFrameSend s = _
    rw [execTimeFrameSend, hclk, htree]
    rfl
  · have hexec := exec_time hclk hup hself htwin hsus
    have htake (hsound : f.crcOk = true ∧ f.reservedZero = true ∧ (heard s f).badTime f = false) :
        exec (.time f) s = .next ((heard s f).takeTime f) := by
      obtain ⟨hcrc, hres, hbad⟩ := hsound
      rw [hexec, hcrc, hres, hbad]
      rfl
    refine ⟨fun hcrc => ?_, fun hcrc hres => ?_, fun hcrc hres hbad => ?_, fun hsound => ⟨_, htake hsound, kvFind_takeTime_heard s f⟩,
      fun hsound htree => ⟨_, htake hsound, takeTime_heard_root f htree, takeTime_heard_sched htree, takeTime_heard_tick_old htree⟩⟩
    · rw [hexec, hcrc]
      rfl
    · rw [hexec, hcrc, hres]
      rfl
    · change (heard s f).badTime f = true at hbad
      rw [hexec, hcrc, hres, hbad]
      rfl
  · exact ⟨_, exec_parentFrameSilence hclk htree hparent hhold, heldOver_advanceTo ..⟩
  · exact ⟨_, exec_rootForget hclk htree hroot, ownRoot_advanceTo ..⟩

end Sys2Proof.Proofs
end

section
/-! Byte stores, divided work, the outcome of several members, and canonical addresses: the statements of
`spec/03_units_and_addresses.md` on R81, R84, R85, R93 and R96, with R280. -/

namespace Sys2Proof.Proofs

open Sys2Proof Sys2Proof.Machine Sys2Proof.Laws

/-! ### Byte stores (R93, R280) -/

theorem cellGet_cellWrite {m : List Host.Cell} (h : Memory.wf m = true) (a c : Nat) (bs : List Byte) :
    cellGet (cellWrite m a bs) c = if a ≤ c then (bs[c - a]?).getD (cellGet m c) else cellGet m c := by
  by_cases hac : a ≤ c
  · rw [if_pos hac]
    by_cases hin : c - a < bs.length
    · have hat := cellGet_cellWrite_at bs h a (c - a) hin
      rw [Nat.add_sub_cancel' hac] at hat
      rw [hat, List.getElem?_eq_getElem hin, Option.getD_some]
    · rw [List.getElem?_eq_none (Nat.le_of_not_lt hin), Option.getD_none]
      exact cellGet_cellWrite_other bs h a c (.inr (by omega))
  · rw [if_neg hac]
    exact cellGet_cellWrite_other bs h a c (.inl (by omega))

/-- Keeping the bytes at some addresses leaves zero at the others. -/
theorem cellGet_filter_addr (p : Nat → Bool) (m : List Host.Cell) (c : Nat) :
    cellGet (m.filter fun e => p e.1) c = if p c then cellGet m c else 0 := by
  induction m with
  | nil => simp [cellGet]
  | cons x r ih =>
    obtain ⟨k, v⟩ := x
    by_cases hk : k = c
    · subst hk
      cases hp : p k <;> simp_all [cellGet]
    · cases hp : p k <;> simp_all [cellGet]

theorem cellGet_cellZero (m : List Host.Cell) (a n c : Nat) :
    cellGet (cellZero m a n) c = if a ≤ c ∧ c < a + n then 0 else cellGet m c := by
  have hkept : decide (c < a ∨ a + n ≤ c) = !decide (a ≤ c ∧ c < a + n) := by
    rw [← decide_not, decide_eq_decide]
    omega
  rw [cellZero, cellGet_filter_addr (fun k => decide (k < a ∨ a + n ≤ k)), hkept]
  by_cases hc : a ≤ c ∧ c < a + n <;> simp [hc]

/-- In canonical form the cells are the addresses that do not read as zero, with what they read as. -/
theorem mem_iff_cellGet {m : List Host.Cell} (h : Memory.wf m = true) (e : Host.Cell) : e ∈ m ↔ cellGet m e.1 = e.2 ∧ e.2 ≠ 0 := by
  obtain ⟨a, b⟩ := e
  refine ⟨fun he => ⟨cellGet_mem h he, ((wf_iff m).1 h).2 _ he⟩, fun ⟨hget, hb⟩ => ?_⟩
  by_contra hmem
  refine hb (hget.symm.trans (cellGet_not_mem fun e he hea => hmem ?_))
  have hcell : e = (a, b) := Prod.ext hea ((cellGet_mem h he).symm.trans (hea ▸ hget))
  exact hcell ▸ he

/-- Stores that read alike hold the same cells, and rising addresses leave one order for them. -/
theorem eq_of_cellGet_eq {m k : List Host.Cell} (hm : Memory.wf m = true) (hk : Memory.wf k = true)
    (h : ∀ a, cellGet m a = cellGet k a) : m = k := by
  have hrising {l : List Host.Cell} (hl : Memory.wf l = true) : l.Pairwise fun x y => x.1 < y.1 := ((wf_iff l).1 hl).1
  have hnodup {l : List Host.Cell} (hl : Memory.wf l = true) : l.Nodup :=
    (hrising hl).imp fun hlt => ne_of_apply_ne Prod.fst hlt.ne
  have hperm : m.Perm k := (List.perm_ext_iff_of_nodup (hnodup hm) (hnodup hk)).2 fun e => by
    rw [mem_iff_cellGet hm, mem_iff_cellGet hk, h]
  exact hperm.eq_of_pairwise (fun a b _ _ hab hba => absurd hba (Nat.lt_asymm hab)) (hrising hm) (hrising hk)

/-- Settles O6: one byte decides where a write or a zeroing reaches, and the cells of a canonical store are what it reads. -/
theorem stackMemoryIsBytesByAddress : Obligations.StackMemoryIsBytesByAddress :=
  ⟨fun _ a c bs h => cellGet_cellWrite h a c bs, fun m a n c _ => cellGet_cellZero m a n c, fun _ _ => eq_of_cellGet_eq⟩

/-! ### Divided work (R81) -/

/-- The whole granules of each share before the rest is dealt. -/
def floors (w : Nat) (ws : List Nat) : List Nat := ws.map fun x => w * x / ws.sum

/-- One more for each of the first `r`. -/
def topUp (r i n : Nat) : Nat := n + if i < r then 1 else 0

theorem shareLens_of_sum_pos {ws : List Nat} (w : Nat) (h : 0 < ws.sum) :
    shareLens w ws = (floors w ws).mapIdx (topUp (w - (floors w ws).sum)) := by
  unfold shareLens
  rw [if_neg h.ne']
  refine List.ext_getElem (by simp [floors]) fun i _ _ => ?_
  simp only [List.getElem_map, List.getElem_zip, List.getElem_range, List.getElem_mapIdx, topUp, floors]
  split <;> rfl

theorem sum_mapIdx_topUp (l : List Nat) (r : Nat) : (l.mapIdx (topUp r)).sum = l.sum + min r l.length := by
  induction l generalizing r with
  | nil => simp
  | cons n l ih =>
    have hrest : (fun i => topUp r (i + 1)) = topUp (r - 1) := by
      funext i n
      simp only [topUp, Nat.lt_sub_iff_add_lt]
    rw [List.mapIdx_cons, List.sum_cons, List.sum_cons, List.length_cons, hrest, ih, topUp]
    split <;> omega

/-- The floors and what they leave make up the whole. -/
theorem sum_floors_add_sum_mod (w S : Nat) (l : List Nat) :
    S * (l.map fun x => w * x / S).sum + (l.map fun x => w * x % S).sum = w * l.sum := by
  induction l with
  | nil => simp
  | cons x l ih =>
    have hx := Nat.div_add_mod (w * x) S
    simp only [List.map_cons, List.sum_cons, Nat.mul_add]
    omega

theorem sum_map_mod_le (w : Nat) {S : Nat} (h : 0 < S) (l : List Nat) : (l.map fun x => w * x % S).sum ≤ l.length * (S - 1) := by
  have hle := List.sum_le_card_nsmul (l.map fun x => w * x % S) (S - 1) fun n hn => by
    obtain ⟨x, -, rfl⟩ := List.mem_map.1 hn
    exact Nat.le_sub_one_of_lt (Nat.mod_lt _ h)
  rwa [List.length_map, smul_eq_mul] at hle

theorem sum_floors_le {ws : List Nat} (w : Nat) (h : 0 < ws.sum) : (floors w ws).sum ≤ w := by
  refine Nat.le_of_mul_le_mul_left ?_ h
  rw [Nat.mul_comm ws.sum w, ← sum_floors_add_sum_mod w ws.sum ws]
  exact Nat.le_add_right ..

/-- Each floor leaves less than one granule, so fewer are left than there are members. -/
theorem rest_lt_length {ws : List Nat} (w : Nat) (h : 0 < ws.sum) : w - (floors w ws).sum < ws.length := by
  have hall := sum_floors_add_sum_mod w ws.sum ws
  have hmod := sum_map_mod_le w h ws
  have hlen : 0 < ws.length := List.length_pos_iff.2 fun hnil => by simp [hnil] at h
  refine Nat.lt_of_mul_lt_mul_left (a := ws.sum) ?_
  calc ws.sum * (w - (floors w ws).sum) = (ws.map fun x => w * x % ws.sum).sum := by
        rw [Nat.mul_sub, Nat.mul_comm ws.sum w, ← hall, floors, Nat.add_sub_cancel_left]
    _ ≤ ws.length * (ws.sum - 1) := hmod
    _ < ws.length * ws.sum := Nat.mul_lt_mul_of_pos_left (Nat.sub_one_lt h.ne') hlen
    _ = ws.sum * ws.length := Nat.mul_comm ..

theorem shareLens_of_sum_zero {ws : List Nat} (w : Nat) (h : ws.sum = 0) : shareLens w ws = ws.map fun _ => 0 := by
  rw [shareLens, if_pos h]

theorem length_shareLens (w : Nat) (ws : List Nat) : (shareLens w ws).length = ws.length := by
  rcases Nat.eq_zero_or_pos ws.sum with h | h
  · rw [shareLens_of_sum_zero w h, List.length_map]
  · rw [shareLens_of_sum_pos w h, List.length_mapIdx, floors, List.length_map]

theorem sum_shareLens {ws : List Nat} (w : Nat) (h : 0 < ws.sum) : (shareLens w ws).sum = w := by
  have hle := sum_floors_le w h
  have hlt := rest_lt_length w h
  have hlen : (floors w ws).length = ws.length := List.length_map ..
  rw [shareLens_of_sum_pos w h, sum_mapIdx_topUp]
  omega

theorem getElem?_shareLens {ws : List Nat} (w : Nat) (h : 0 < ws.sum) {i x : Nat} (hx : ws[i]? = some x) :
    (shareLens w ws)[i]? = some (topUp (w - (floors w ws).sum) i (w * x / ws.sum)) := by
  rw [shareLens_of_sum_pos w h, List.getElem?_mapIdx, floors, List.getElem?_map, hx]
  rfl

theorem getElem?_shareStarts (l : List Nat) (a : Nat) {i n : Nat} (h : l[i]? = some n) :
    (shareStarts a l)[i]? = some (a + (l.take i).sum) := by
  induction l generalizing a i with
  | nil => simp at h
  | cons m l ih =>
    cases i with
    | zero => simp [shareStarts]
    | succ i =>
      rw [List.getElem?_cons_succ] at h
      rw [shareStarts, List.getElem?_cons_succ, ih (a + m) h, List.take_succ_cons, List.sum_cons, Nat.add_assoc]

/-- Settles O7: the floors leave fewer granules than there are members, and each of the first takes one of those. -/
theorem dividedWorkIsCutByWeight : Obligations.DividedWorkIsCutByWeight := by
  unfold Obligations.DividedWorkIsCutByWeight
  intro w ws
  refine ⟨length_shareLens w ws, fun h x hx => ?_,
    fun h => ⟨rest_lt_length w h, fun i x => getElem?_shareLens w h, sum_shareLens w h⟩, fun a i n => getElem?_shareStarts _ a⟩
  rw [shareLens_of_sum_zero w h] at hx
  exact (List.mem_map.1 hx).elim fun _ hy => hy.2.symm

/-! ### The outcome of several members (R84, R85) -/

theorem good_iff (o : Outc) : o.good = true ↔ o.status = St.ok ∨ o.status = St.throttled := by simp [Outc.good]

theorem failed_iff (o : Outc) : o.failed = true ↔ ¬(o.status = St.ok ∨ o.status = St.throttled) ∧ o.status ≠ St.partial := by
  simp [Outc.failed, Outc.good]

/-- A failed outcome is not good. -/
theorem good_of_failed {o : Outc} (h : o.failed = true) : o.good = false := by
  rw [Outc.failed, Bool.and_eq_true, Bool.not_eq_true'] at h
  exact h.1

section Combine

variable {n : Nat} {ms : List (Nat × Outc)}

/-- The members not done, by the bits of R85. -/
def doneMap (n : Nat) (ms : List (Nat × Outc)) : BitVec 64 :=
  ms.foldl (fun a m => if m.2.good then a else a ||| w64 (1 <<< mapBit n m.1)) 0

theorem combine_of_all_good (hne : ms ≠ []) (h : ∀ m ∈ ms, m.2.good = true) :
    combine n ms = { status := if ms.any fun m => m.2.status = St.throttled then St.throttled else St.ok } := by
  cases ms with
  | nil => exact absurd rfl hne
  | cons m l => rw [combine, if_pos (List.all_eq_true.2 h)]

theorem combine_of_all_failed {m : Nat × Outc} {l : List (Nat × Outc)} (h : ∀ k ∈ m :: l, k.2.failed = true) :
    combine n (m :: l) = { status := m.2.status, reason := m.2.reason, map := doneMap n (m :: l) } := by
  have hnot : ¬((m :: l).all fun k => k.2.good) = true := fun hall => by
    simpa [good_of_failed (h m List.mem_cons_self)] using List.all_eq_true.1 hall m List.mem_cons_self
  rw [combine, if_neg hnot, if_pos (List.all_eq_true.2 h), doneMap]

theorem combine_of_mixed (hbad : ∃ m ∈ ms, m.2.good = false) (hdone : ∃ m ∈ ms, m.2.failed = false) :
    combine n ms = { status := St.partial, map := doneMap n ms } := by
  have hnot : ¬(ms.all fun k => k.2.good) = true := by simpa using hbad
  have hnot' : ¬(ms.all fun k => k.2.failed) = true := by simpa using hdone
  cases ms with
  | nil => simp at hbad
  | cons m l => rw [combine, if_neg hnot, if_neg hnot', doneMap]

theorem doneMap_of_all_good (h : ∀ m ∈ ms, m.2.good = true) : doneMap n ms = 0 := by
  unfold doneMap
  generalize (0 : BitVec 64) = a
  induction ms with
  | nil => rfl
  | cons m l ih =>
    rw [List.foldl_cons, if_pos (h m List.mem_cons_self)]
    exact ih fun k hk => h k (List.mem_cons_of_mem _ hk)

theorem map_combine (n : Nat) (ms : List (Nat × Outc)) : (combine n ms).map = doneMap n ms := by
  by_cases hgood : ∀ m ∈ ms, m.2.good = true
  · rw [doneMap_of_all_good hgood]
    cases ms with
    | nil => rfl
    | cons m l => rw [combine_of_all_good (List.cons_ne_nil m l) hgood]
  · have hbad : ∃ m ∈ ms, m.2.good = false := by simpa using hgood
    by_cases hfail : ∀ m ∈ ms, m.2.failed = true
    · cases ms with
      | nil => rfl
      | cons m l => rw [combine_of_all_failed hfail]
    · rw [combine_of_mixed hbad (by simpa using hfail)]

end Combine

/-- Settles O8: the branches of `combine` are the rows of the table. -/
theorem membersGiveTheOverallStatus : Obligations.MembersGiveTheOverallStatus := by
  unfold Obligations.MembersGiveTheOverallStatus
  intro n ms
  refine ⟨fun h => h ▸ rfl, fun hne h => ?_, fun h ht => ?_, fun m l hms h => ?_, fun hbad hdone => ?_⟩
  · have hnone : ¬(ms.any fun m => m.2.status = St.throttled) = true := by
      rw [List.any_eq_true]
      rintro ⟨m, hm, ht⟩
      rw [h m hm] at ht
      exact absurd ht (by decide)
    rw [combine_of_all_good hne fun m hm => (good_iff _).2 (.inl (h m hm)), if_neg hnone]
  · obtain ⟨m, hm, hmt⟩ := ht
    rw [combine_of_all_good (List.ne_nil_of_mem hm) fun m hm => (good_iff _).2 (h m hm),
      if_pos (List.any_eq_true.2 ⟨m, hm, decide_eq_true hmt⟩)]
  · subst hms
    rw [combine_of_all_failed fun k hk => (failed_iff _).2 (h k hk)]
    exact ⟨rfl, rfl⟩
  · obtain ⟨m, hm, hmb⟩ := hbad
    obtain ⟨k, hk, hkd⟩ := hdone
    rw [combine_of_mixed ⟨m, hm, Bool.eq_false_iff.2 (mt (good_iff _).1 hmb)⟩
      ⟨k, hk, Bool.eq_false_iff.2 (mt (failed_iff _).1 hkd)⟩]

/-! ### The member map (R85) -/

theorem bitAt_w64_shift {k b : Nat} (hk : k < 64) : bitAt (w64 (1 <<< k)) b = true ↔ k = b := by
  simp only [bitAt, w64, BitVec.getLsbD_ofNat, Nat.one_shiftLeft, Nat.testBit_two_pow, Bool.and_eq_true, decide_eq_true_eq]
  omega

theorem mapBit_lt {n i : Nat} (h : i < n) : mapBit n i < 64 := by
  unfold mapBit
  split
  · omega
  · rw [Nat.div_lt_iff_lt_mul (by unfold ceilDiv; omega)]
    unfold ceilDiv
    omega

theorem mapBit_eq_iff {n : Nat} (i b : Nat) :
    mapBit n i = b ↔ if n ≤ 64 then i = b else ceilDiv n 64 * b ≤ i ∧ i < ceilDiv n 64 * b + ceilDiv n 64 := by
  unfold mapBit
  split
  · rfl
  · have hg : 0 < ceilDiv n 64 := by unfold ceilDiv; omega
    rw [Nat.div_eq_iff hg, Nat.mul_comm b]
    omega

theorem bitAt_doneMap {n b : Nat} {ms : List (Nat × Outc)} (h : ∀ m ∈ ms, m.1 < n) :
    bitAt (doneMap n ms) b = true ↔ ∃ m ∈ ms, m.2.good = false ∧ mapBit n m.1 = b := by
  have hfold (a : BitVec 64) : bitAt (ms.foldl (fun a m => if m.2.good then a else a ||| w64 (1 <<< mapBit n m.1)) a) b = true ↔
      bitAt a b = true ∨ ∃ m ∈ ms, m.2.good = false ∧ mapBit n m.1 = b := by
    induction ms generalizing a with
    | nil => simp
    | cons m l ih =>
      rw [List.foldl_cons, ih fun k hk => h k (List.mem_cons_of_mem _ hk), List.exists_mem_cons_iff]
      cases hm : m.2.good with
      | true => simp
      | false =>
        have hor : bitAt (a ||| w64 (1 <<< mapBit n m.1)) b = true ↔ bitAt a b = true ∨ mapBit n m.1 = b := by
          rw [← bitAt_w64_shift (mapBit_lt (h m List.mem_cons_self))]
          simp [bitAt]
        simp [hor, or_assoc]
  rw [doneMap, hfold]
  simp [bitAt]

/-- Settles O9: a bit of the map is set by the members that are not done and whose position it covers. -/
theorem memberMapMarksMembersNotDone : Obligations.MemberMapMarksMembersNotDone := by
  unfold Obligations.MemberMapMarksMembersNotDone
  intro n b ms _ _ hpos
  rw [map_combine, bitAt_doneMap hpos]
  refine exists_congr fun m => and_congr_right fun _ => and_congr ?_ (mapBit_eq_iff ..)
  rw [Bool.eq_false_iff, Ne, good_iff]

/-! ### Canonical addresses (R96) -/

theorem testBit_bitsOf_top (dva : BitVec 64) {k : Nat} (h : k < 8) : (bitsOf dva 63 56).testBit k = bitAt dva (56 + k) := by
  rw [bitsOf, show 63 + 1 - 56 = 8 by rfl, Nat.testBit_mod_two_pow, Nat.testBit_shiftRight, BitVec.testBit_toNat, decide_eq_true h,
    Bool.true_and, bitAt]

theorem canonical_iff (dva : BitVec 64) : canonical dva = true ↔ ∀ k : Nat, 57 ≤ k → k < 64 → bitAt dva k = bitAt dva 56 := by
  have hbit {k : Nat} (hk : k < 8) := testBit_bitsOf_top dva hk
  have hlt : bitsOf dva 63 56 < 2 ^ 8 := Nat.mod_lt _ (by decide)
  rw [canonical, Bool.or_eq_true, decide_eq_true_eq, decide_eq_true_eq]
  generalize bitsOf dva 63 56 = n at hbit hlt
  constructor
  · intro h k hk hk'
    have hn : ∀ j < 8, n.testBit j = n.testBit 0 := by
      rcases h with rfl | rfl <;> decide
    rw [← Nat.add_sub_cancel' (show 56 ≤ k by omega), ← hbit (by omega), ← hbit (k := 0) (by decide), hn _ (by omega)]
  · intro h
    have hn (j : Nat) (hj : j < 8) : n.testBit j = n.testBit 0 := by
      rw [hbit hj, hbit (k := 0) (by decide)]
      cases j with
      | zero => rfl
      | succ j => exact h _ (by omega) (by omega)
    have hhigh (j : Nat) (hj : 8 ≤ j) : n.testBit j = false := Nat.testBit_lt_two_pow (hlt.trans_le (Nat.pow_le_pow_right (by decide) hj))
    cases h0 : n.testBit 0 with
    | false =>
      refine .inl (Nat.eq_of_testBit_eq fun j => ?_)
      rw [Nat.zero_testBit]
      by_cases hj : j < 8
      · rw [hn j hj, h0]
      · exact hhigh j (Nat.le_of_not_lt hj)
    | true =>
      refine .inr (Nat.eq_of_testBit_eq fun j => ?_)
      rw [show 255 = 2 ^ 8 - 1 by rfl, Nat.testBit_two_pow_sub_one]
      by_cases hj : j < 8
      · rw [hn j hj, h0, decide_eq_true hj]
      · rw [hhigh j (Nat.le_of_not_lt hj), decide_eq_false hj]

/-- What stops a run of accesses stops what it is the front of. -/
theorem result_bind_error {α β : Type} {m : M α} {e : Stop} {s u : State} (h : m.result s = (.error e, u)) (f : α → M β) :
    (m >>= f).result s = (.error e, u) := by
  unfold M.result at h ⊢
  rw [EStateM.run_bind]
  cases hr : m.run s with
  | ok a v => simp [hr] at h
  | error e' v => simpa [hr] using h

theorem contextCheck_not_canonical {dva : BitVec 64} (h : canonical dva = false) (ctx kind : Nat) (s : State) :
    ∃ e, (contextCheck ctx dva kind).result s = (.error e, s) ∧ e.status = St.range ∧ e.reason = Rs.nonCanonical ∧ e.need = none := by
  refine ⟨{ status := St.range, reason := Rs.nonCanonical, kind, dva }, ?_, rfl, rfl, rfl⟩
  unfold contextCheck
  rw [h]
  rfl

/-- Settles O10: the first check of a translation stops it before the state is touched. -/
theorem nonCanonicalAddressesFault : Obligations.NonCanonicalAddressesFault := by
  refine ⟨canonical_iff, fun t ctx kind dva s h => ?_⟩
  obtain ⟨e, hstop, hwhy⟩ := contextCheck_not_canonical h (ctx % 4096) kind s
  exact ⟨e, result_bind_error hstop _, hwhy⟩

end Sys2Proof.Proofs
end

section
/-! The commands that read: what each returns (R73, R86, R112, R250, R303, R399, R406, R455), and that it changes nothing but its own
command's traces. -/

namespace Sys2Proof.Proofs

open Sys2Proof Sys2Proof.Machine Sys2Proof.Laws Sys2Proof.Safety

section Reads

variable {c : Cmd} {s : State} {op : Nat}

/-- A started command's row is its effect. -/
theorem exec_of_started {i : Instr} {f : State → State} (h : Started c op s) (hi : exec i s = .next (s.onCmd op c f)) :
    exec i s = .next (f s) := by
  rw [hi, onCmd_of h]

/-! ### What a read leaves (R68, R84, R391) -/

theorem onlyCommands_onCmd {f : State → State} (hf : OnlyCommands s (f s)) : OnlyCommands s (s.onCmd op c f) :=
  onCmd_cases hf (onlyCommands_refl s)

theorem onlyCommands_dataHere (h : Own c s) (bytes : State → List Byte) (k : State → Compl) :
    OnlyCommands s (s.runAt c fun s => s.finishData c (bytes s) (k s)) := by
  rw [runAt_here h.2]
  exact onlyCommands_finishData (onlyCommands_refl s) ..

theorem onlyCommands_runReplicated (h : Own c s) {leaf : State → BitVec 32 → State × LeafOut}
    (hleaf : OnlyCommands s (leaf s c.unit).1) : OnlyCommands s (s.runReplicated c leaf) := by
  rw [runReplicated_own h]
  exact onlyCommands_answeredBy hleaf ..

theorem onlyCommands_runPackages (h : Own c s) {leaf : State → State × Outc × List Byte} (hleaf : OnlyCommands s (leaf s).1) :
    OnlyCommands s (s.runPackages c leaf) := by
  rw [runPackages_own h]
  exact onlyCommands_answeredBy hleaf ..

/-- A command that goes on with what only commands see. -/
def OnlyReads (i : Instr) (s : State) : Prop := ∃ t, exec i s = .next t ∧ OnlyCommands s t

theorem onlyReads_of {i : Instr} {f : State → State} (hi : exec i s = .next (s.onCmd op c f)) (hf : OnlyCommands s (f s)) :
    OnlyReads i s := ⟨_, hi, onlyCommands_onCmd hf⟩

/-- Return data formed from the state, whatever it is, leaves the state. -/
theorem onlyCommands_data (bytes : List Byte) (k : Compl) : OnlyCommands s (s.finishData c bytes k) :=
  onlyCommands_finishData (onlyCommands_refl s) ..

theorem onlyCommands_refusal (st rs : Code) : OnlyCommands s (s.finishWith c st rs) := onlyCommands_finish (onlyCommands_refl s) ..

theorem onlyReads_groupRead : OnlyReads (.groupRead c) s := by
  refine onlyReads_of rfl ?_
  split
  · exact onlyCommands_refusal ..
  · exact onlyCommands_data ..

theorem onlyReads_memberStatus : OnlyReads (.memberStatus c) s := by
  refine onlyReads_of rfl ?_
  split
  · exact onlyCommands_refusal ..
  · exact onlyCommands_data ..

theorem onlyReads_eventLogRead : OnlyReads (.eventLogRead c) s := by
  refine onlyReads_of rfl ?_
  unfold State.readLog
  dsimp only
  split
  · exact onlyCommands_refusal ..
  · split
    · exact onlyCommands_finish (onlyCommands_refl s) ..
    · split
      · exact onlyCommands_finish (onlyCommands_refl s) ..
      · exact onlyCommands_data ..

theorem readJobs_state : (s.readJobs c).1 = s := by
  unfold State.readJobs
  split
  · rfl
  · split <;> rfl

theorem onlyReads_jobEnergyRead (h : Own c s) : OnlyReads (.jobEnergyRead c) s := by
  refine onlyReads_of rfl (onlyCommands_runPackages h ?_)
  rw [readJobs_state]
  exact onlyCommands_refl s

theorem onlyReads_memPoisonRead (h : Own c s) : OnlyReads (.memPoisonRead c) s := by
  refine onlyReads_of rfl ?_
  dsimp only
  rw [runAt_here h.2]
  split
  · exact onlyCommands_refusal ..
  · exact onlyCommands_data ..

theorem onlyReads_planStatus (h : Own c s) : OnlyReads (.planStatus c) s := by
  refine onlyReads_of rfl ?_
  dsimp only
  split
  · exact onlyCommands_refusal ..
  · refine onlyCommands_runReplicated h ?_
    split <;> exact onlyCommands_refl s

theorem onlyReads_unitRead (h : Own c s) : OnlyReads (.unitRead c) s := by
  refine onlyReads_of rfl ?_
  dsimp only
  split
  · exact onlyCommands_data ..
  · rw [runAt_here h.2]
    exact onlyCommands_data ..

/-- THERMAL_READ takes a free value for the slopes. -/
theorem onlyReads_thermalRead (h : Own c s) : OnlyReads (.thermalRead c) s := onlyReads_of rfl (onlyCommands_runPackages h rfl)

end Reads

/-- Settles O17: each read ends with data formed from the state as it finds it. -/
theorem readsChangeOnlyTheirCommand : Obligations.ReadsChangeOnlyTheirCommand := by
  unfold Obligations.ReadsChangeOnlyTheirCommand
  intro c s h
  have here {i : Instr} {op : Nat} {bytes : State → List Byte} {k : State → Compl}
      (hi : exec i s = .next (s.onCmd op c fun s => s.runAt c fun s => s.finishData c (bytes s) (k s))) : OnlyReads i s :=
    onlyReads_of hi (onlyCommands_dataHere h bytes k)
  have package {i : Instr} {op : Nat} {leaf : State → State × Outc × List Byte}
      (hi : exec i s = .next (s.onCmd op c fun s => s.runPackages c leaf)) (hleaf : (leaf s).1 = s) : OnlyReads i s :=
    onlyReads_of hi (onlyCommands_runPackages h (hleaf.symm ▸ onlyCommands_refl s))
  have units {i : Instr} {op : Nat} {leaf : State → BitVec 32 → State × LeafOut}
      (hi : exec i s = .next (s.onCmd op c fun s => s.runReplicated c leaf)) (hleaf : (leaf s c.unit).1 = s) : OnlyReads i s :=
    onlyReads_of hi (onlyCommands_runReplicated h (hleaf.symm ▸ onlyCommands_refl s))
  simp only [List.forall_mem_cons, List.not_mem_nil, false_implies, implies_true, and_true]
  exact ⟨onlyReads_of rfl (onlyCommands_data ..), package rfl rfl, here rfl, here rfl, package rfl rfl, package rfl rfl, here rfl,
    here rfl, onlyReads_thermalRead h, here rfl, here rfl, package rfl rfl, here rfl, here rfl, here rfl,
    onlyReads_of rfl (onlyCommands_data ..), onlyReads_groupRead, onlyReads_memberStatus, onlyReads_eventLogRead,
    onlyReads_of rfl (onlyCommands_data ..), onlyReads_jobEnergyRead h, units rfl rfl, units rfl rfl, onlyReads_memPoisonRead h,
    units rfl rfl, units rfl rfl, units rfl rfl, onlyReads_planStatus h, onlyReads_unitRead h, units rfl rfl⟩

/-! ### Lists (R86, R112, R399, R455) -/

section Lists

variable {c : Cmd} {s : State}

theorem exec_groupRead_some (h : Started c 0x0112 s) {l : List (BitVec 32)} (hl : kvFind s.units.groups c.p0.toNat = some l) :
    exec (.groupRead c) s = .next (s.finishData c (l.flatMap fun m => bytesLE 4 m.toNat) { result0 := w64 (4 * l.length) }) :=
  (exec_of_started h rfl).trans (by simp only [hl])

theorem exec_groupRead_none (h : Started c 0x0112 s) (hl : kvFind s.units.groups c.p0.toNat = none) :
    exec (.groupRead c) s = .next (s.finishWith c St.rejected Rs.noGroup) :=
  (exec_of_started h rfl).trans (by simp only [hl])

theorem exec_memberStatus_some (h : Started c 0x0103 s) {d : Detail}
    (hd : s.host.details.find? (fun d => d.ring = ringKey c c.p0.toNat && d.tag.toNat = c.p1.toNat) = some d) :
    exec (.memberStatus c) s = .next (s.finishData c (d.members.flatMap fun m =>
      bytesLE 4 m.1.toNat ++ bytesLE 1 m.2.1.status.toNat ++ bytesLE 1 m.2.1.reason.toNat ++ bytesLE 2 m.2.2) {}) :=
  (exec_of_started h rfl).trans (by simp only [hd])

theorem exec_memberStatus_none (h : Started c 0x0103 s)
    (hd : ∀ d ∈ s.host.details, ¬(d.ring = ringKey c c.p0.toNat ∧ d.tag.toNat = c.p1.toNat)) :
    exec (.memberStatus c) s = .next (s.finishWith c St.range 0) := by
  have hnone : s.host.details.find? (fun d => d.ring = ringKey c c.p0.toNat && d.tag.toNat = c.p1.toNat) = none :=
    List.find?_eq_none.2 fun d hm => by simpa using hd d hm
  exact (exec_of_started h rfl).trans (by simp only [hnone])

theorem exec_eventLogRead (h : Started c 0x0901 s) : exec (.eventLogRead c) s = .next (s.readLog c c.p0.toNat c.p1.toNat) :=
  (exec_of_started h rfl).trans rfl

theorem readLog_badCount {n : Nat} (hn : n = 0 ∨ 65536 < n) (first : Nat) :
    s.readLog c first n = s.finishWith c St.rejected Rs.badCount := by
  rw [State.readLog, if_pos (by simpa using hn)]

theorem readLog_gone {n first : Nat} (h0 : 0 < n) (hn : n ≤ 65536)
    (hf : first < (s.events.log.head?.map (·.seq)).getD s.events.next) :
    s.readLog c first n = s.finish c { status := St.range, result0 := w64 ((s.events.log.head?.map (·.seq)).getD s.events.next) } := by
  rw [State.readLog, if_neg (by simp; omega), if_pos hf]

theorem readLog_held {n first : Nat} (h0 : 0 < n) (hn : n ≤ 65536)
    (hf : (s.events.log.head?.map (·.seq)).getD s.events.next ≤ first) :
    s.readLog c first n =
      let l := (s.events.log.filter fun e => first ≤ e.seq).take n
      let k : Compl := { result0 := w64 l.length, result1 := w64 (first + l.length) }
      if l.isEmpty then s.finish c k else s.finishData c (l.flatMap fun e => eventBytes e false) k := by
  rw [State.readLog, if_neg (by simp; omega), if_neg (Nat.not_lt.2 hf)]

theorem exec_jobEnergyRead (h : Started c 0x0703 s) (ho : Own c s) :
    exec (.jobEnergyRead c) s = .next (answered s c (s.readJobs c).2.1 (s.readJobs c).2.2) := by
  rw [exec_of_started h (i := .jobEnergyRead c) rfl, runPackages_own ho, readJobs_state]

/-- The entry of a job or its absence (R448). -/
theorem readJobs_one (hall : bitAt c.p0 16 = false) :
    (s.readJobs c).2 = match s.power.account (BitVec.ofNat 16 (bitsOf c.p0 15 0)) with
      | some j => ({}, j.bytes)
      | none => (outc St.rejected Rs.noJob, []) := by
  rw [State.readJobs, if_neg (by simp [hall])]
  cases s.power.account (BitVec.ofNat 16 (bitsOf c.p0 15 0)) <;> rfl

end Lists

/-- Settles O15: each list is read off the state it stands in. -/
theorem listReadsSayWhatTheyHold : Obligations.ListReadsSayWhatTheyHold := by
  unfold Obligations.ListReadsSayWhatTheyHold
  intro c s
  refine ⟨fun h l => exec_groupRead_some h, exec_groupRead_none, fun h d => exec_memberStatus_some h, exec_memberStatus_none,
    fun h => (exec_of_started h rfl).trans rfl, fun h => ?_, fun h ho => ?_⟩
  · refine ⟨fun hn => ?_, fun h0 hn hf => ?_, fun h0 hn hf hl => ?_, fun h0 hn hf hl => ?_⟩ <;> rw [exec_eventLogRead h]
    · rw [readLog_badCount hn]
    · rw [readLog_gone h0 hn hf]
    · rw [readLog_held h0 hn hf]
      exact congrArg _ (if_pos (List.isEmpty_iff.2 hl))
    · rw [readLog_held h0 hn hf]
      exact congrArg _ (if_neg (mt List.isEmpty_iff.1 hl))
  · rw [exec_jobEnergyRead h ho]
    refine ⟨fun hall => ?_, fun hone j hj => ?_, fun hone hj => ?_⟩
    · rw [State.readJobs, if_pos hall]
    · rw [readJobs_one hone, hj]
    · rw [readJobs_one hone, hj]

/-! ### Tiles (R50, R65, R81, R112, R250, R303, R399) -/

section Tiles

variable {c : Cmd} {s : State}

theorem exec_kvBufferRead (h : Started c 0x0404 s) (ho : Own c s) (hup : unitLevel c.unit = 1 → s.tileUp (unitTileRef c.unit) = true) :
    exec (.kvBufferRead c) s = .next (answeredBy s c (allRead s c.unit
      ((s.liveTiles c.unit).flatMap fun t => (s.tile t).kv.flatMap KvSlot.bufferRecord))) := by
  have hlive : ¬(decide (unitLevel c.unit = 1) && !s.tileUp (unitTileRef c.unit)) = true := by
    rw [Bool.and_eq_true, decide_eq_true_eq, Bool.not_eq_true']
    exact fun hdown => Bool.eq_false_iff.1 hdown.2 (hup hdown.1)
  rw [exec_of_started h (i := .kvBufferRead c) rfl, runReplicated_own ho]
  dsimp only
  rw [if_neg hlive]
  rfl

theorem exec_planStatus_badStep (h : Started c 0x0312 s) (hstep : stepOk c.p0.toNat = false) :
    exec (.planStatus c) s = .next (s.finishWith c St.rejected Rs.badStep) :=
  (exec_of_started h rfl).trans (by simp only [hstep, Bool.not_false, if_true])

theorem exec_planStatus_stepOk (h : Started c 0x0312 s) (ho : Own c s) (hstep : stepOk c.p0.toNat = true) :
    exec (.planStatus c) s = .next (if s.tick.latched.any (fun l => c.p0.toNat + 16 ≤ l) then answered s c (outc St.range 0) []
      else answered s c {} ((s.liveTiles c.unit).flatMap fun t => s.planRecord t c.p0.toNat)) := by
  rw [exec_of_started h (i := .planStatus c) rfl]
  simp only [hstep, Bool.not_true, Bool.false_eq_true, if_false]
  rw [runReplicated_own ho]
  split <;> rfl

theorem exec_planStatus_kept (h : Started c 0x0312 s) (ho : Own c s) (hstep : stepOk c.p0.toNat = true)
    (hkept : ∀ l, s.tick.latched = some l → l < c.p0.toNat + 16) :
    exec (.planStatus c) s = .next (answered s c {} ((s.liveTiles c.unit).flatMap fun t => s.planRecord t c.p0.toNat)) := by
  rw [exec_planStatus_stepOk h ho hstep, if_neg]
  cases hl : s.tick.latched with
  | none => simp
  | some l => simpa using hkept l hl

theorem exec_planStatus_older (h : Started c 0x0312 s) (ho : Own c s) (hstep : stepOk c.p0.toNat = true)
    (hold : ∃ l, s.tick.latched = some l ∧ c.p0.toNat + 16 ≤ l) :
    exec (.planStatus c) s = .next (answered s c (outc St.range 0) []) := by
  obtain ⟨l, hl, hge⟩ := hold
  rw [exec_planStatus_stepOk h ho hstep, if_pos (by rw [hl]; exact decide_eq_true hge)]

/-! The poison bits of a region (R292, R303). -/

theorem testBit_foldl_or (l : List Nat) (a k : Nat) :
    (l.foldl (fun a i => a ||| 1 <<< i) a).testBit k = (a.testBit k || decide (k ∈ l)) := by
  induction l generalizing a with
  | nil => simp
  | cons i l ih =>
    rw [List.foldl_cons, ih, Nat.testBit_or, Nat.one_shiftLeft, Nat.testBit_two_pow, Bool.or_assoc]
    congr 1
    rw [← Bool.decide_or, decide_eq_decide, List.mem_cons, eq_comm]

theorem testBit_bitsOn (l : List Nat) (k : Nat) : (bitsOn l).testBit k = decide (k ∈ l) := by
  rw [bitsOn, testBit_foldl_or, Nat.zero_testBit, Bool.false_or]

/-- The poison bits of a region's pages, page by page, as numbers below 32,768. -/
def poisonOf (poison : List Nat) (r : Nat) : List Nat := (poison.filter fun p => regionOf p = r).map fun p => p - 32768 * r

theorem mem_poisonOf {poison : List Nat} {r p : Nat} (hp : p < 32768) : p ∈ poisonOf poison r ↔ 32768 * r + p ∈ poison := by
  simp only [poisonOf, List.mem_map, List.mem_filter, decide_eq_true_eq]
  unfold regionOf
  constructor
  · rintro ⟨q, ⟨hq, hr⟩, rfl⟩
    rwa [Nat.add_sub_cancel' (by omega)]
  · exact fun h => ⟨_, ⟨h, by omega⟩, by omega⟩

/-- The 4,096 bytes that hold the bits of the pages listed. -/
def bitBytes (l : List Nat) : List Byte :=
  (List.range 4096).map fun i => BitVec.ofNat 8 (bitsOn ((l.filter fun p => p / 8 = i).map (· % 8)))

theorem testBit_bitBytes (l : List Nat) {p : Nat} (hp : p < 32768) :
    (((bitBytes l)[p / 8]?).getD 0).toNat.testBit (p % 8) = decide (p ∈ l) := by
  have hget : (bitBytes l)[p / 8]? = some (BitVec.ofNat 8 (bitsOn ((l.filter fun q => q / 8 = p / 8).map (· % 8)))) := by
    rw [bitBytes, List.getElem?_map, List.getElem?_range (by omega)]
    rfl
  have hmem : p % 8 ∈ (l.filter fun q => q / 8 = p / 8).map (· % 8) ↔ p ∈ l := by
    simp only [List.mem_map, List.mem_filter, decide_eq_true_eq]
    refine ⟨?_, fun h => ⟨p, ⟨h, rfl⟩, rfl⟩⟩
    rintro ⟨q, ⟨hq, hdiv⟩, hmod⟩
    rwa [show p = q by omega]
  rw [hget, Option.getD_some, BitVec.toNat_ofNat, Nat.testBit_mod_two_pow, testBit_bitsOn, decide_eq_true (Nat.mod_lt p (by decide)),
    Bool.true_and, decide_eq_decide, hmem]

theorem exec_memPoisonRead (h : Started c 0x0224 s) (ho : Own c s) (hup : s.tileUp (unitTileRef c.unit) = true) :
    exec (.memPoisonRead c) s =
      .next (s.finishData c (bitBytes (poisonOf (s.tile (unitTileRef c.unit)).mem.poison (c.p0.toNat % 32))) {}) := by
  rw [exec_of_started h (i := .memPoisonRead c) rfl, runAt_here ho.2]
  exact congrArg _ (if_neg (by simp [hup]))

end Tiles

/-- Settles O16: on an own unit a replicated read answers with what its tiles hold, in their order. -/
theorem tileReadsReturnEachTile : Obligations.TileReadsReturnEachTile := by
  unfold Obligations.TileReadsReturnEachTile
  intro c s ho
  have units {i : Instr} {op : Nat} {leaf : State → BitVec 32 → State × LeafOut} (h : Started c op s)
      (hi : exec i s = .next (s.onCmd op c fun s => s.runReplicated c leaf)) :
      exec i s = .next (answeredBy (leaf s c.unit).1 c (leaf s c.unit).2) := by
    rw [exec_of_started h hi, runReplicated_own ho]
  refine ⟨fun h => (units h rfl).trans rfl, fun h => ⟨marginBytes, (units h rfl).trans rfl⟩, fun h => (units h rfl).trans rfl,
    fun h => (units h rfl).trans rfl, fun h => exec_kvBufferRead h ho, fun h => exec_planStatus_kept h ho,
    fun h => exec_planStatus_older h ho, exec_planStatus_badStep,
    fun h hup => ⟨_, exec_memPoisonRead h ho hup, by simp [bitBytes], fun p hp => ?_⟩⟩
  rw [testBit_bitBytes _ hp, decide_eq_decide]
  exact mem_poisonOf hp

/-! ### Records, dumps and tails (R68, R73, R207, R250, R406) -/

section Records

variable {c : Cmd} {s q t : State}

theorem exec_unitRead (h : Started c 0x0101 s) (hu : Here c s ∨ unitLevel c.unit = 4 ∨ unitLevel c.unit = 5) :
    exec (.unitRead c) s = .next (s.finishData c (s.recordBytes c.unit c.p0.toNat 65492)
      { result0 := w64 (s.recordBytes c.unit c.p0.toNat 65492).length, result1 := w64 (s.outAt s.depth c.unit).length }) := by
  rw [exec_of_started h (i := .unitRead c) rfl]
  dsimp only
  split
  · rfl
  · next hlevel => rw [runAt_here (hu.resolve_right (by simpa using hlevel))]

theorem exec_kvTailRead (h : Started c 0x0403 s) (hq : (tablePkg (s.kvAgent c) c.p0).result s = (.ok s.self, q)) :
    exec (.kvTailRead c) s = .next (match (tailData c.p0 c.p1.toNat (q.kvAgent c)).result q with
      | (.ok l, t) => t.finishData c l { result0 := w64 l.length }
      | (.error e, t) => t.finishWith c e.status e.reason) := by
  rw [exec_of_started h (i := .kvTailRead c) rfl, State.atTable, hq]
  exact congrArg _ (if_pos rfl)

end Records

/-- Settles O18: the record and the dump are formed of the state, the tail of what its accesses give. -/
theorem unitRecordsAndDumpsAreReturned : Obligations.UnitRecordsAndDumpsAreReturned := by
  unfold Obligations.UnitRecordsAndDumpsAreReturned
  intro c s
  refine ⟨exec_unitRead, fun h ho => ?_, fun h => ⟨fun q hq => ⟨fun l t hl => ?_, fun e t he => ?_⟩, fun e q he => ?_,
    fun p q z hp hne hz hm => ?_⟩⟩
  · rw [exec_of_started h (i := .stateDump c) rfl, runReplicated_own ho]
    rfl
  · rw [exec_kvTailRead h hq, hl]
  · rw [exec_kvTailRead h hq, he]
  · rw [exec_of_started h (i := .kvTailRead c) rfl, State.atTable, he]
  · rw [exec_of_started h (i := .kvTailRead c) rfl, State.atTable, hp]
    dsimp only
    rw [if_neg hne, if_neg (by simp [hz, hm])]

end Sys2Proof.Proofs
end

section
/-! Records of other packages (R69, R70, R75): the statement on RECORD_SEND, RECORD and FAULT_STATUS_CLEAR. -/

namespace Sys2Proof.Proofs

open Sys2Proof Sys2Proof.Machine Sys2Proof.Laws Sys2Proof.Safety

theorem OnlyLogs.cornis {v s : State} (h : OnlyLogs v s) : s.cornis = v.cornis := by rw [h.rest]

theorem cornis_noteStates (s old : State) (l : List (BitVec 32)) (cause : Nat) : (s.noteStates old l cause).cornis = s.cornis :=
  foldl_keeps (g := State.cornis) (fun q _ => by
    dsimp only
    split
    · rfl
    · exact (OnlyLogs.refl q).raise.cornis) l s

/-- What is noted of another package leaves the fabric. -/
theorem cornis_notePackage (s old : State) (p : Nat) : (s.notePackage old p).cornis = s.cornis := by
  unfold State.notePackage State.noteAbove
  rw [cornis_noteStates]
  split
  · rfl
  · exact cornis_noteStates ..

/-- Flits that the ports have sent once a command has gone on (R315). -/
def flitsSent : Host.Outcome State Fault Refusal → List Nat
  | .next t => t.cornis.ports.map (·.dealt)
  | _ => []

/-- Package 0 with power, its clocks running. -/
def poweredUp : State := { State.reset with bu := { State.reset.bu with powered := true, s0 := true } }

/-- A record of package 1, whose message came by port 0 in one flit. -/
def oneFlitRecord : RemoteRec := { package := 1, state := 3, flits := 1 }

/-- That package once the flit has left the port's buffer, its credit given back (R317). -/
def creditedOnce : State := poweredUp.freeCredit 0 3 1

/-- Refutes O29: its clause on a record taken says what RECORD does from a state whose port has already given back the credit of the
record's flits, as `creditedOnce`; RECORD gives it back itself, by one more idle flit, so that the fabric is not as it was. -/
theorem not_recordsAndFaultStatusChange : ¬ Obligations.RecordsAndFaultStatusChange := by
  intro h
  obtain ⟨-, -, htaken, -⟩ := h poweredUp
  obtain ⟨u, hu, -, -, -, -, hrest, -⟩ :=
    htaken (by decide) oneFlitRecord (by decide) (by decide) (by decide) rfl rfl rfl (fun h8 => absurd h8 (by decide))
  have hcornis : u.cornis = creditedOnce.cornis := by rw [hrest]; rfl
  have hkept : flitsSent (exec (.record oneFlitRecord) creditedOnce) = creditedOnce.cornis.ports.map (·.dealt) := by
    rw [← hcornis, ← cornis_notePackage u creditedOnce 1]
    exact congrArg flitsSent hu
  exact absurd hkept (by decide +kernel)

end Sys2Proof.Proofs
end

section
/-! What the stop of a tile (R514), and the events and states that follow it, leave of the commands that wait (R303, R392). -/

namespace Sys2Proof.Proofs

open Sys2Proof Sys2Proof.Machine Sys2Proof.Laws Sys2Proof.Safety

/-! ### An event leaves the command slots (R394, R402) -/

section Events

variable (s : State) (code : BitVec 16) (unit : BitVec 32) (items : List Word)

@[simp] theorem slots_interrupt (v : BitVec 6) : (s.interrupt v).host.slots = s.host.slots := by
  unfold State.interrupt
  split_ifs <;> rfl

@[simp] theorem slots_logEvent (e : Event) : (s.logEvent e).host.slots = s.host.slots := rfl

@[simp] theorem slots_postEvent (e : Event) : (s.postEvent e).host.slots = s.host.slots := by
  unfold State.postEvent
  dsimp only
  split_ifs <;> simp

@[simp] theorem slots_postOverflow : s.postOverflow.host.slots = s.host.slots := by
  unfold State.postOverflow
  split
  · rfl
  · dsimp only
    split_ifs <;> simp

@[simp] theorem slots_raise0 : (s.raise0 code unit items).host.slots = s.host.slots := by
  unfold State.raise0
  dsimp only
  split_ifs <;> simp

@[simp] theorem slots_hostFault (status reason : Code) (space addr : Nat) :
    (s.hostFault status reason space addr).host.slots = s.host.slots := by
  unfold State.hostFault
  dsimp only
  split_ifs <;> simp

@[simp] theorem slots_raise : (s.raise code unit items).host.slots = s.host.slots := by
  unfold State.raise
  split_ifs <;> simp

@[simp] theorem tiles_hostFault (status reason : Code) (space addr : Nat) : (s.hostFault status reason space addr).tiles = s.tiles :=
  (OnlyLogs.refl s).hostFault.tiles

@[simp] theorem tiles_raise : (s.raise code unit items).tiles = s.tiles := (OnlyLogs.refl s).raise.tiles

end Events

/-! ### A command's end leaves the other commands (R84, R86, R391, R392) -/

/-- From `v`, what only commands see has changed, and a started command `c` is still started. -/
structure SparesCommand (c : Cmd) (v s : State) : Prop where
  only : OnlyCommands v s
  started : v.started c = true → s.started c = true

namespace SparesCommand

variable {c d : Cmd} {v s : State}

theorem refl (c : Cmd) (s : State) : SparesCommand c s s := ⟨onlyCommands_refl s, id⟩

theorem branch (p : Prop) {dec : Decidable p} {a b : State} (ha : SparesCommand c v a) (hb : SparesCommand c v b) :
    SparesCommand c v (@ite State p dec a b) := by
  split
  · exact ha
  · exact hb

theorem setDetail (h : SparesCommand c v s) (l : List (Path × Outc)) : SparesCommand c v (s.setDetail d l) :=
  ⟨onlyCommands_setDetail h.only .., h.started⟩

variable (hd : d ≠ c)
include hd

theorem modCmd (h : SparesCommand c v s) (f : CmdSlot → CmdSlot) : SparesCommand c v (s.modCmd d f) := by
  refine ⟨onlyCommands_modCmd h.only .., fun hv => ?_⟩
  obtain ⟨z, hz, hm⟩ := List.any_eq_true.1 (h.started hv)
  have hcmd : z.cmd = c := of_decide_eq_true (Bool.and_eq_true_iff.1 hm).1
  refine List.any_eq_true.2 ⟨z, List.mem_map.2 ⟨z, hz, if_neg ?_⟩, hm⟩
  simp [hcmd, hd.symm]

theorem finish (h : SparesCommand c v s) (k : Compl) : SparesCommand c v (s.finish d k) := h.modCmd hd _

theorem finishWith (h : SparesCommand c v s) (st rs : Code) : SparesCommand c v (s.finishWith d st rs) := h.finish hd _

theorem finishData (h : SparesCommand c v s) (bytes : List Byte) (k : Compl) : SparesCommand c v (s.finishData d bytes k) :=
  branch _ (h.finish hd _) (branch _ (h.finish hd _) (h.modCmd hd _))

theorem finishEnergy (h : SparesCommand c v s) (ms : List Member) (k : Compl) : SparesCommand c v (s.finishEnergy d ms k) :=
  branch _ (h.finish hd _) (branch _ (branch _ (h.finish hd _) (h.finish hd _)) (h.modCmd hd _))

theorem finishReturn (h : SparesCommand c v s) (ms : List Member) (k : Compl) : SparesCommand c v (s.finishReturn d ms k) :=
  branch _ (h.finish hd _) (branch _ (h.finish hd _) (h.finishData hd ..))

theorem finishMembers (h : SparesCommand c v s) (n : Nat) : SparesCommand c v (s.finishMembers d n) := by
  unfold State.finishMembers
  split
  · exact h
  · refine branch _ ((h.setDetail _).finishEnergy hd ..) ?_
    split
    · exact branch _ ((h.setDetail _).finish hd _) ((h.setDetail _).finishData hd ..)
    · exact (h.setDetail _).finishReturn hd ..

theorem finishTree (h : SparesCommand c v s) : SparesCommand c v (s.finishTree d) := by
  unfold State.finishTree
  split
  · exact h
  · exact branch _ ((h.setDetail _).finishEnergy hd ..) ((h.setDetail _).finishReturn hd ..)

theorem memberDone (h : SparesCommand c v s) (unit : BitVec 32) (o : Outc) (data : List Byte) :
    SparesCommand c v (s.memberDone d unit o data) := by
  unfold State.memberDone State.memberBack
  have hmod := h.modCmd hd fun k => { k with members := k.members.map fun m =>
    if m.unit = unit && m.report.isNone then { m with report := some o, data := data, results := (0, 0) } else m }
  dsimp only
  split
  · exact hmod
  · exact branch _ hmod (branch _ (hmod.finishWith hd ..) (branch _ (hmod.finishMembers hd _) (hmod.finishTree hd)))

omit hd

/-- The passes that a tile gives up end their commands alone (R303). -/
theorem endDemand {t : TileRef} (h : ∀ e ∈ (s.tile t).mem.demand, e.1 ≠ c) :
    SparesCommand c (s.modTile t fun x => { x with mem := { x.mem with demand := [] } }) (s.endDemand t) := by
  unfold State.endDemand
  dsimp only
  generalize (s.tile t).mem.demand = l at h
  suffices hfold : ∀ u, SparesCommand c (s.modTile t fun x => { x with mem := { x.mem with demand := [] } }) u →
      SparesCommand c (s.modTile t fun x => { x with mem := { x.mem with demand := [] } })
        (l.foldl (fun (s : State) e => s.memberDone e.1 (s.tileId t) { status := St.aborted } []) u) from hfold _ (refl c _)
  induction l with
  | nil => exact fun u hu => hu
  | cons e l ih => exact fun u hu => ih (fun k hk => h k (List.mem_cons_of_mem _ hk)) _ (hu.memberDone (h e List.mem_cons_self) ..)

end SparesCommand

/-! ### A table whose values change (R113) -/

theorem kvFind_map {α β : Type} (f : Nat × α → β) (l : KV α) (k : Nat) :
    kvFind (l.map fun e => (e.1, f e)) k = (kvFind l k).map fun x => f (k, x) := by
  induction l with
  | nil => rfl
  | cons e l ih =>
    rw [List.map_cons, kvFind, kvFind]
    by_cases hk : e.1 = k
    · rw [if_pos hk, if_pos hk, ← hk]
      rfl
    · rw [if_neg hk, if_neg hk, ih]

/-! ### What a tile's work leaves of the commands (R89, R117, R303, R514) -/

theorem OnlyFlits.sendMsg {v s : State} (h : OnlyFlits v s) {m : Msg} : OnlyFlits v (s.sendMsg m) := by
  unfold State.sendMsg
  split
  · exact h.transmit
  · exact h

theorem OnlyFlits.request {v s : State} (h : OnlyFlits v s) {m : Msg} {user : TxnUser} : OnlyFlits v (s.request m user) :=
  (h.setCornis (by rfl)).sendMsg

theorem OnlyFlits.respond {v s : State} (h : OnlyFlits v s) {m : Msg} : OnlyFlits v (s.respond m) := .branch _ h.sendMsg h

/-- Of what commands have at hand nothing has changed from `v`: their slots, and the scrub passes that tiles run for them. -/
structure KeepsCommands (v s : State) : Prop where
  slots : s.host.slots = v.host.slots
  demand : ∀ t, (s.tile t).mem.demand = (v.tile t).mem.demand

namespace KeepsCommands

variable {v s : State} {t : TileRef} {page : Nat}

theorem refl (s : State) : KeepsCommands s s := ⟨rfl, fun _ => rfl⟩

theorem of_tiles (h : KeepsCommands v s) {u : State} (hs : u.host.slots = s.host.slots) (ht : u.tiles = s.tiles) : KeepsCommands v u :=
  ⟨hs.trans h.slots, fun t => by rw [← h.demand t, State.tile, ht, State.tile]⟩

theorem setMem (h : KeepsCommands v s) {x : List Host.Cell} : KeepsCommands v { s with mem := x } := { h with }

theorem setEvents (h : KeepsCommands v s) {x : EventState} : KeepsCommands v { s with events := x } := { h with }

theorem setFree (h : KeepsCommands v s) {n : Nat} : KeepsCommands v { s with free := n } := { h with }

theorem setTile (h : KeepsCommands v s) {x : Tile} (hx : x.mem.demand = (s.tile t).mem.demand) : KeepsCommands v (s.setTile t x) :=
  { h with
    demand := fun u => by
      by_cases hu : u = t
      · subst hu
        rw [tile_setTile_same, hx]
        exact h.demand u
      · rw [tile_setTile_other s x hu]
        exact h.demand u }

theorem modTile (h : KeepsCommands v s) {f : Tile → Tile} (hf : ∀ x, (f x).mem.demand = x.mem.demand) :
    KeepsCommands v (s.modTile t f) := h.setTile (hf _)

theorem branch (c : Prop) {dec : Decidable c} {a b : State} (ha : KeepsCommands v a) (hb : KeepsCommands v b) :
    KeepsCommands v (@ite State c dec a b) := by
  split
  · exact ha
  · exact hb

theorem foldl {α : Type} {f : State → α → State} (hf : ∀ s a, KeepsCommands v s → KeepsCommands v (f s a)) (l : List α) :
    ∀ {s : State}, KeepsCommands v s → KeepsCommands v (l.foldl f s) := by
  induction l with
  | nil => exact id
  | cons a l ih => exact fun h => ih (hf _ a h)

theorem raise (h : KeepsCommands v s) {code : BitVec 16} {unit : BitVec 32} {items : List Word} :
    KeepsCommands v (s.raise code unit items) := h.of_tiles (slots_raise ..) (tiles_raise ..)

theorem hostFault (h : KeepsCommands v s) {status reason : Code} {space addr : Nat} :
    KeepsCommands v (s.hostFault status reason space addr) := h.of_tiles (slots_hostFault ..) (tiles_hostFault ..)

/-! Messages (R119, R245, R322, R330). -/

theorem flits (h : KeepsCommands v s) {u : State} (hu : OnlyFlits s u) : KeepsCommands v u := h.of_tiles (by rw [hu.rest]) hu.tiles

theorem modSlot (h : KeepsCommands v s) {i : Nat} {f : DescSlot → DescSlot} : KeepsCommands v (s.modSlot t i f) :=
  h.modTile (by intro; split <;> rfl)

theorem countSent (h : KeepsCommands v s) {m : Msg} : KeepsCommands v (s.countSent t m) :=
  branch _ h (h.modTile (by intro; split_ifs <;> rfl))

theorem requestOf (h : KeepsCommands v s) {m : Msg} {user : TxnUser} : KeepsCommands v (s.requestOf t m user) :=
  h.countSent.flits (OnlyFlits.refl _).request

theorem sendQueued (h : KeepsCommands v s) {i : Nat} {msgs : List (Msg × Bool)} : KeepsCommands v (s.sendQueued t i msgs) :=
  foldl (fun _ _ h => h.requestOf.modSlot) _ h.modSlot

theorem respond (h : KeepsCommands v s) {m : Msg} : KeepsCommands v (s.respond m) := h.flits (OnlyFlits.refl _).respond

theorem meshSend (h : KeepsCommands v s) {delay : Nat} {b : MeshBody} : KeepsCommands v (s.meshSend t delay b) := { h with }

theorem reportShare (h : KeepsCommands v s) {sh : Share} {o : Outc} : KeepsCommands v (s.reportShare t sh o) := by
  unfold State.reportShare
  split
  · exact h.respond
  · exact h.meshSend

theorem reportItem (h : KeepsCommands v s) {it : AttnItem} {o : Outc} {wrote : Bool} {poison : BitVec 64} :
    KeepsCommands v (s.reportItem t it o wrote poison) := by
  unfold State.reportItem
  split
  · exact h.meshSend
  · exact h.respond

/-! Pages of stack memory (R279 to R292). -/

theorem useRegion (h : KeepsCommands v s) : KeepsCommands v (s.useRegion t page) :=
  branch _ h.setEvents (branch _ h h.setEvents.raise)

theorem advanceTo (h : KeepsCommands v s) {n : Nat} : KeepsCommands v (s.advanceTo n) := branch _ { h with } h

theorem pageMoved (h : KeepsCommands v s) {write : Bool} : KeepsCommands v (s.pageMoved t page write) := h.modTile (by intro; rfl)

theorem poisonPage (h : KeepsCommands v s) {kind : Nat} : KeepsCommands v (s.poisonPage t page kind) :=
  branch _ h (h.modTile (by intro; rfl)).raise

theorem correctedPage (h : KeepsCommands v s) {bits : Nat} : KeepsCommands v (s.correctedPage t page bits) :=
  branch _ ((h.modTile (by intro; rfl)).modTile (by intro; rfl)).raise (h.modTile (by intro; rfl))

theorem putPage (h : KeepsCommands v s) {data : List Byte} : KeepsCommands v (s.putPage t page data) :=
  h.setMem.pageMoved.modTile (by intro; rfl)

theorem rewritePage (h : KeepsCommands v s) {data : List Byte} : KeepsCommands v (s.rewritePage t page data) :=
  h.setMem.pageMoved.modTile (by intro; rfl)

theorem loseNarrow (h : KeepsCommands v s) : KeepsCommands v (s.loseNarrow t page) := (h.modTile (by intro; rfl)).hostFault

theorem mergeNarrow (h : KeepsCommands v s) {counted : Bool} : KeepsCommands v (s.mergeNarrow t page counted) := by
  unfold State.mergeNarrow
  split
  · exact h
  · refine branch _ h (branch _ (h.putPage.modTile (by intro; rfl)) (branch _ h.loseNarrow ?_))
    split
    · exact h.poisonPage.loseNarrow
    · exact (branch _ h.pageMoved h.pageMoved.correctedPage).rewritePage.modTile (by intro; rfl)

theorem awaitSlice (h : KeepsCommands v s) : KeepsCommands v (s.awaitSlice t page) := by
  unfold State.awaitSlice
  split
  · exact h
  · exact branch _ (h.modTile (by intro; rfl)).advanceTo h

theorem meetPage (h : KeepsCommands v s) : KeepsCommands v (s.meetPage t page) := h.useRegion.awaitSlice.mergeNarrow

/-- A run of accesses, however it ends, leaves what commands have at hand. -/
def Run {α : Type} (m : M α) : Prop := ∀ v s, KeepsCommands v s → KeepsCommands v (m.result s).2

theorem run_stop {α : Type} {st rs : Code} {kind : Nat} {dva : BitVec 64} : Run (M.stop st rs kind dva : M α) := fun _ _ => id

theorem run_upd {f : State → State} (hf : ∀ v s, KeepsCommands v s → KeepsCommands v (f s)) : Run (M.upd f) := hf

theorem run_bind {α β : Type} {m : M α} {f : α → M β} (hm : Run m) (hf : ∀ a, Run (f a)) : Run (m >>= f) := by
  intro v s h
  have hs := hm v s h
  rw [result_bind]
  split
  · next a u heq => exact hf a v u (by simpa only [heq] using hs)
  · next e u heq => simpa only [heq] using hs

theorem run_branch {α : Type} (c : Prop) {dec : Decidable c} {m n : M α} (hm : Run m) (hn : Run n) : Run (@ite (M α) c dec m n) := by
  split
  · exact hm
  · exact hn

/-- A check ahead of what follows: the two arms of the condition join again. -/
theorem run_check {α : Type} (c : Prop) {dec : Decidable c} {m : M Unit} {f : Unit → M α} (hm : Run m) (hf : ∀ a, Run (f a)) :
    Run (@ite (M α) c dec (m >>= f) (f ())) := run_branch _ (run_bind hm hf) (hf ())

theorem run_forM {γ : Type} {f : γ → M PUnit} (hf : ∀ a, Run (f a)) (l : List γ) : Run (l.forM f) := by
  induction l with
  | nil => exact fun _ _ => id
  | cons a l ih => exact run_bind (hf a) fun _ => ih

theorem run_writePage {off kind : Nat} {bytes : List Byte} : Run (writePage t page off kind bytes) := by
  refine run_bind (run_upd fun _ _ h => h.meetPage) fun _ => run_bind (fun _ _ => id) fun s => ?_
  split
  · exact run_stop
  · refine run_branch _ (run_upd fun _ _ h => { h with }) (run_branch _ run_stop
      (run_branch _ (run_upd fun _ _ h => h.putPage) (run_branch _ run_stop ?_)))
    split
    · exact run_bind (run_upd fun _ _ h => h.poisonPage) fun _ => run_stop
    · exact run_check _ (run_upd fun _ _ h => h.correctedPage) fun _ => run_bind (run_upd fun _ _ h => h.setMem) fun _ =>
        run_upd fun _ _ h => h.setMem.pageMoved.pageMoved.modTile (by intro; rfl)

theorem run_writeStack {a kind : Nat} {bytes : List Byte} : Run (writeStack a kind bytes) := run_forM (fun _ => run_writePage) _

/-! Descriptors that complete (R46, R117 to R120, R128). -/

theorem run (h : KeepsCommands v s) {α : Type} {m : M α} (hm : Run m) : KeepsCommands v (m.result s).2 := hm v s h

theorem writeLog (h : KeepsCommands v s) {d : DescSlot} {i : Nat} {o : Outc} : KeepsCommands v (s.writeLog t d i o) :=
  h.run run_writeStack

theorem planDone (h : KeepsCommands v s) {p : Plan} : KeepsCommands v (s.planDone t p) :=
  branch _ ((h.setTile (by rfl)).modTile (by intro; rfl)) (h.setTile (by rfl))

theorem countDone (h : KeepsCommands v s) {i : Nat} {o : Outc} : KeepsCommands v (s.countDone t i o) := by
  have hcount : KeepsCommands v (s.modTile t fun x => { x with
    completed := x.completed + 1
    planOuts := if o.status = St.ok && o.reason = 0 then x.planOuts else kvPut x.planOuts i o }) := h.modTile (by intro; rfl)
  unfold State.countDone
  dsimp only
  split
  · exact branch _ hcount.planDone hcount
  · exact hcount

theorem signal (h : KeepsCommands v s) {sem amount : Nat} {fail : Bool} : KeepsCommands v (s.signal t sem amount fail).1 := by
  unfold State.signal
  split <;> dsimp only
  · exact h.modTile (by intro; rfl)
  · exact h.modTile (by intro; rfl)

theorem completeOne (h : KeepsCommands v s) {i : Option Nat} {d : DescSlot} {o : Outc} : KeepsCommands v (s.completeOne t i d o).1 := by
  have hfree {u : State} (hu : KeepsCommands v u) : KeepsCommands v (match i with
      | some n => u.modTile t fun x => { x.dequeue n with slots := kvErase x.slots n }
      | none => u) := by
    cases i with
    | none => exact hu
    | some n => exact hu.modTile (by intro; rfl)
  unfold State.completeOne
  extract_lets +onlyGivenNames o s₁ free
  have h₁ : KeepsCommands v s₁ := h.modTile (by intro; rfl)
  split
  · exact (hfree h₁).reportShare
  · exact hfree h₁
  · extract_lets +onlyGivenNames s₂ fail s₃ r
    have h₂ : KeepsCommands v s₂ := h₁.writeLog
    split
    · exact (hfree h₂).countDone
    · split
      · cases i with dsimp only
        | none => exact h₂.meshSend.modTile (by intro; rfl)
        | some n => exact (h₂.meshSend.modTile (by intro; rfl)).modSlot
      · exact (hfree h₂.signal).countDone

theorem completeSlots (fuel : Nat) : ∀ {s : State} {l : List (Nat × Outc)}, KeepsCommands v s →
    KeepsCommands v (s.completeSlots t fuel l) := by
  induction fuel with
  | zero => exact fun h => by unfold State.completeSlots; exact h
  | succ fuel ih =>
    intro s l h
    cases l with
    | nil => exact h
    | cons e l =>
      unfold State.completeSlots
      split
      · exact ih h
      · exact branch _ (ih h) (ih h.completeOne)

/-! A tile that stops (R89, R514). -/

theorem setAcc_mem (x : Tile) (row u : Nat) (a : BitVec 32) : (x.setAcc row u a).mem = x.mem := rfl

theorem run_freeRows {rows : List Nat} : Run (freeRows t rows) := by
  refine run_upd fun v s h => KeepsCommands.setFree (h.modTile fun x => ?_)
  refine congrArg TileMem.demand (foldl_keeps (g := Tile.mem) (fun x r => ?_) _ x)
  exact foldl_keeps (g := Tile.mem) (fun x u => setAcc_mem x r.2 u _) (List.range 32) x

/-- Every tile keeps the commands of its passes. -/
theorem mapTiles (h : KeepsCommands v s) {u : State} {f : TileRef × Tile → Tile} (hs : u.host.slots = s.host.slots)
    (ht : u.tiles = s.tiles.map fun e => (e.1, f e)) (hf : ∀ e, (f e).mem.demand = e.2.mem.demand) : KeepsCommands v u := by
  refine ⟨hs.trans h.slots, fun t => ?_⟩
  rw [← h.demand t, State.tile, State.tile, kvGet, kvGet, ht, kvFind_map]
  cases kvFind s.tiles t with
  | none => rfl
  | some x => exact hf (t, x)

theorem blend (h : KeepsCommands v s) {ran : State} {k : Nat} : KeepsCommands v (s.blend ran t k) := by
  unfold State.blend
  extract_lets page s₁
  have h₁ : KeepsCommands v s₁ := h.mapTiles rfl rfl fun _ => rfl
  exact h₁.modTile (by intro; rfl)

theorem cutShort (h : KeepsCommands v s) {i : Nat} : KeepsCommands v (s.cutShort t i) := by
  unfold State.cutShort
  split
  · exact h
  · split
    · exact h
    · exact branch _ (h.setFree.blend.sendQueued.run run_freeRows) h.setFree.blend.sendQueued

theorem abortRest (h : KeepsCommands v s) {o : Outc} : KeepsCommands v (s.abortRest t o) := by
  unfold State.abortRest
  split
  · exact h
  · exact foldl (fun _ _ h => completeSlots _ h.completeOne) _ (h.setTile (by rfl))

theorem stopTile (h : KeepsCommands v s) {reason : Code} : KeepsCommands v (s.stopTile t reason) := by
  unfold State.stopTile
  extract_lets +onlyGivenNames o s₁ s₂ x slots s₃ s₄ s₅ s₆
  have h₁ : KeepsCommands v s₁ := foldl (fun _ _ h => h.cutShort) _ h
  have h₃ : KeepsCommands v s₃ := (h₁.run run_freeRows).setTile (by rfl)
  have h₅ : KeepsCommands v s₅ := foldl (fun _ _ h => h.reportShare) _ (completeSlots _ h₃)
  exact abortRest (foldl (fun _ _ h => h.reportItem) _ h₅)

theorem retire (h : KeepsCommands v s) : KeepsCommands v (s.retire t) :=
  (h.stopTile.modTile (by intro; rfl)).modTile (by intro; rfl)

end KeepsCommands

end Sys2Proof.Proofs
end

section
/-! Removal and restoring of tiles (R88 to R90), groups (R77, R78), contexts (R98, R112) and the probe (R517). -/

namespace Sys2Proof.Proofs

open Sys2Proof Sys2Proof.Machine Sys2Proof.Laws Sys2Proof.Safety

/-! ### What the units' records and states leave (R69, R70, R404) -/

/-- The tiles, the groups' lists and the command slots. -/
def standing (s : State) : KV Tile × KV (List (BitVec 32)) × List CmdSlot := (s.tiles, s.units.groups, s.host.slots)

section Standing

variable (s old : State)

theorem OnlyLogs.units {v u : State} (h : OnlyLogs v u) : u.units = v.units := by rw [h.rest]

theorem standing_raise (code : BitVec 16) (unit : BitVec 32) (items : List Word) : standing (s.raise code unit items) = standing s := by
  simp only [standing, tiles_raise, slots_raise, (OnlyLogs.refl s).raise.units]

theorem standing_bump (l : List Nat) : standing (s.bump l) = standing s := rfl

theorem standing_noteStates (l : List (BitVec 32)) (cause : Nat) : standing (s.noteStates old l cause) = standing s :=
  foldl_keeps (g := standing) (fun q _ => by
    dsimp only
    split
    · rfl
    · exact standing_raise ..) l s

theorem standing_noteGroups (cause : Nat) : standing (s.noteGroups old cause) = standing s := standing_noteStates ..

theorem standing_noteAbove (cause : Nat) : standing (s.noteAbove old cause) = standing s := standing_noteStates ..

theorem standing_setStackState (st : Nat) (new : UnitSt) (cause : Nat) : standing (s.setStackState st new cause) = standing s := by
  unfold State.setStackState
  dsimp only
  split
  · split <;> rfl
  · rw [standing_noteGroups]
    split <;> exact standing_raise ..

theorem standing_setPackageState (new : UnitSt) (cause : Nat) : standing (s.setPackageState new cause) = standing s := by
  unfold State.setPackageState
  split
  · rfl
  · exact (standing_noteAbove ..).trans (standing_raise ..)

theorem standing_settlePkg (cause : Nat) : standing (s.settlePkg cause) = standing s := by
  unfold State.settlePkg
  split
  · exact standing_setPackageState ..
  · rfl

theorem standing_settle (st cause : Nat) : standing (s.settle st cause) = standing s := by
  refine (standing_settlePkg _ cause).trans ?_
  split
  · exact standing_setStackState ..
  · rfl

variable {s}

theorem tile_of_standing {u : State} (h : standing u = standing s) (t : TileRef) : u.tile t = s.tile t :=
  congrArg (fun x : KV Tile × KV (List (BitVec 32)) × List CmdSlot => kvGet x.1 t {}) h

theorem slots_of_standing {u : State} (h : standing u = standing s) : u.host.slots = s.host.slots :=
  congrArg (fun x : KV Tile × KV (List (BitVec 32)) × List CmdSlot => x.2.2) h

theorem started_of_slots {c : Cmd} {u : State} (h : u.host.slots = s.host.slots) : u.started c = s.started c := by
  rw [State.started, h, State.started]

end Standing

/-! ### A tile's `STATE` (R70, R404) -/

section TileState

variable (s : State) (t : TileRef) (new : UnitSt) (cause : Nat)

theorem tile_tileState : (s.tileState t new cause).tile t = { s.tile t with unit := new, cause := cause } := by
  unfold State.tileState
  dsimp only
  split
  · next hsame =>
    split
    · next hcause => rw [← hsame, ← hcause]
    · rw [State.bumpTile, tile_of_standing (standing_bump ..), tile_setTile_same, ← hsame]
  · rw [tile_of_standing (standing_noteGroups ..), State.bumpTile, tile_of_standing (standing_bump ..), tile_modTile_same,
      tile_of_standing (standing_raise ..)]

theorem mem_tileState : ((s.tileState t new cause).tile t).mem = (s.tile t).mem := by rw [tile_tileState]

theorem slots_tileState : (s.tileState t new cause).host.slots = s.host.slots := by
  unfold State.tileState
  dsimp only
  split
  · split <;> rfl
  · rw [slots_of_standing (standing_noteGroups ..)]
    exact slots_raise ..

end TileState

/-! ### UNIT_REMOVE (R89) -/

section Remove

variable {c : Cmd} {s : State} {t : TileRef}

/-- A tile that retires has no plan. -/
theorem queue_retire (s : State) (t : TileRef) : ((s.retire t).tile t).queue = [] := by
  rw [State.retire, tile_modTile_same, State.dropPlans, tile_modTile_same]

/-- Giving up its passes changes nothing else of a tile. -/
theorem tile_endDemand (hd : ∀ e ∈ (s.tile t).mem.demand, e.1 ≠ c) :
    (s.endDemand t).tile t = { s.tile t with mem := { (s.tile t).mem with demand := [] } } := by
  have htiles : (s.endDemand t).tiles = (s.modTile t fun x => { x with mem := { x.mem with demand := [] } }).tiles := by
    rw [(SparesCommand.endDemand hd).only]
  rw [State.tile, htiles]
  exact tile_modTile_same ..

theorem removeTile_eq (hup : (s.tile t).unit.inService = true) :
    s.removeTile t = ((s.retire t).tileState t .removed 4).endDemand t := if_neg (by rw [hup]; decide)

/-- A tile in service leaves it: REMOVED, with no plan, while a command that is none of its scrub passes' is still started. -/
theorem removeTile_spec (hup : (s.tile t).unit.inService = true) (hd : ∀ e ∈ (s.tile t).mem.demand, e.1 ≠ c)
    (h : s.started c = true) :
    ((s.removeTile t).tile t).unit = .removed ∧ ((s.removeTile t).tile t).queue = [] ∧ (s.removeTile t).started c = true := by
  have hkeep : KeepsCommands s (s.retire t) := (KeepsCommands.refl s).retire
  have hplans := queue_retire s t
  rw [removeTile_eq hup]
  generalize s.retire t = u at hkeep hplans
  have hdemand : ∀ e ∈ ((u.tileState t .removed 4).tile t).mem.demand, e.1 ≠ c := by
    rw [mem_tileState, hkeep.demand]
    exact hd
  refine ⟨?_, ?_, (SparesCommand.endDemand hdemand).started ?_⟩
  · rw [tile_endDemand hdemand, tile_tileState]
  · rw [tile_endDemand hdemand, tile_tileState]
    exact hplans
  · rw [started_of_slots (s := s), h]
    exact (slots_tileState ..).trans hkeep.slots

theorem exec_unitRemove (h : Started c 0x0120 s) (ht : OwnTile c s t) :
    exec (.unitRemove c) s = .next (((s.removeTile t).settle (unitStack c.unit) 4).finish c {}) := by
  obtain ⟨hlevel, hpkg, rfl⟩ := ht
  rw [exec_of_started h (i := .unitRemove c) rfl, runAt_here hpkg, if_neg (by rw [hlevel]; decide)]

/-- A command that ends after the states above its tile have settled (R88). -/
theorem ends_settle (h : s.started c = true) (st cause : Nat) (k : Compl) : Ends ((s.settle st cause).finish c k) c k :=
  ends_finish ((started_of_slots (slots_of_standing (standing_settle s st cause))).trans h) k

theorem tile_settle_finish (st cause : Nat) (k : Compl) (t : TileRef) : ((s.settle st cause).finish c k).tile t = s.tile t :=
  tile_of_standing (standing_settle s st cause) t

theorem unitRemove_of_tile (h : Started c 0x0120 s) (ht : OwnTile c s t) (hup : (s.tile t).unit.inService = true)
    (hd : ∀ e ∈ (s.tile t).mem.demand, e.1 ≠ c) :
    ∃ u, exec (.unitRemove c) s = .next u ∧ (u.tile t).unit = .removed ∧ (u.tile t).queue = [] ∧ Ends u c {} := by
  obtain ⟨hunit, hqueue, hstarted⟩ := removeTile_spec hup hd h.2.1
  refine ⟨_, exec_unitRemove h ht, ?_, ?_, ends_settle hstarted ..⟩
  · rw [tile_settle_finish]
    exact hunit
  · rw [tile_settle_finish]
    exact hqueue

end Remove

/-! ### UNIT_RESTORE (R90) -/

section Restore

variable {c : Cmd} {s : State} {t : TileRef} (heads : List Nat) (fails : List TileRef)

/-- A restored tile is in service with nothing queued, running or cached. -/
theorem restoreTile_spec (s : State) (t : TileRef) :
    (((s.restoreTile t).tile t).unit = .ready ∨ ((s.restoreTile t).tile t).unit = .degraded) ∧ ((s.restoreTile t).tile t).queue = []
      ∧ ((s.restoreTile t).tile t).running = none ∧ ((s.restoreTile t).tile t).xlt = [] := by
  unfold State.restoreTile
  extract_lets u w x full
  have hw : w.tile t = u.tile t := rfl
  rw [tile_tileState, hw, tile_modTile_same]
  refine ⟨?_, rfl, rfl, rfl⟩
  change (if full = true then UnitSt.ready else .degraded) = .ready ∨ (if full = true then UnitSt.ready else .degraded) = .degraded
  split
  · exact .inl rfl
  · exact .inr rfl

theorem slots_restoreTile (s : State) (t : TileRef) : (s.restoreTile t).host.slots = s.host.slots := slots_tileState ..

section Tile

variable (h : Started c 0x0121 s) (ht : OwnTile c s t)
include h ht

theorem exec_unitRestore_refused {a b : Code} (hr : restoreRefusal (s.tile t).unit = some (a, b)) :
    exec (.unitRestore c heads fails) s = .next (s.finishWith c a b) := by
  obtain ⟨hlevel, hpkg, rfl⟩ := ht
  rw [exec_of_started h (i := .unitRestore c heads fails) rfl, runAt_here hpkg]
  dsimp only
  rw [if_neg (by rw [hlevel]; decide), hr]

theorem exec_unitRestore (hu : (s.tile t).unit = .removed) :
    exec (.unitRestore c heads fails) s = .next
      (if !s.stackUp (unitStack c.unit) then s.finishWith c St.notReady Rs.stackOut
      else if fails.contains t then s.finishWith c St.notReady Rs.testFailed
      else ((s.restoreTile t).settle (unitStack c.unit) 0).finish c {}) := by
  obtain ⟨hlevel, hpkg, rfl⟩ := ht
  rw [exec_of_started h (i := .unitRestore c heads fails) rfl, runAt_here hpkg]
  dsimp only
  rw [if_neg (by rw [hlevel]; decide), hu]
  exact rfl

theorem exec_unitRestore_stackOut (hu : (s.tile t).unit = .removed) (hst : s.stackUp (unitStack c.unit) = false) :
    exec (.unitRestore c heads fails) s = .next (s.finishWith c St.notReady Rs.stackOut) := by
  rw [exec_unitRestore heads fails h ht hu, if_pos (by rw [hst]; rfl)]

theorem exec_unitRestore_failed (hu : (s.tile t).unit = .removed) (hst : s.stackUp (unitStack c.unit) = true) (hf : t ∈ fails) :
    exec (.unitRestore c heads fails) s = .next (s.finishWith c St.notReady Rs.testFailed) := by
  rw [exec_unitRestore heads fails h ht hu, if_neg (by rw [hst]; decide), if_pos (List.contains_iff_mem.2 hf)]

theorem exec_unitRestore_passed (hu : (s.tile t).unit = .removed) (hst : s.stackUp (unitStack c.unit) = true) (hf : t ∉ fails) :
    exec (.unitRestore c heads fails) s = .next (((s.restoreTile t).settle (unitStack c.unit) 0).finish c {}) := by
  rw [exec_unitRestore heads fails h ht hu, if_neg (by rw [hst]; decide), if_neg (by rwa [List.contains_iff_mem])]

theorem unitRestore_of_tile (hu : (s.tile t).unit = .removed) (hst : s.stackUp (unitStack c.unit) = true) (hf : t ∉ fails) :
    ∃ u, exec (.unitRestore c heads fails) s = .next u ∧ ((u.tile t).unit = .ready ∨ (u.tile t).unit = .degraded)
      ∧ (u.tile t).queue = [] ∧ (u.tile t).running = none ∧ (u.tile t).xlt = [] ∧ Ends u c {} := by
  obtain ⟨hunit, hqueue, hrunning, hxlt⟩ := restoreTile_spec s t
  have hstarted : (s.restoreTile t).started c = true := (started_of_slots (slots_restoreTile s t)).trans h.2.1
  refine ⟨_, exec_unitRestore_passed heads fails h ht hu hst hf, ?_⟩
  rw [tile_settle_finish]
  exact ⟨hunit, hqueue, hrunning, hxlt, ends_settle hstarted ..⟩

end Tile

end Restore

/-! ### GROUP_WRITE and GROUP_DELETE (R77, R78) -/

section Groups

variable {c : Cmd} {s : State}

theorem listOf_mem {l : GroupLists} {u : BitVec 32} {m : List (BitVec 32)} (h : listOf l u = some m) : (u, m) ∈ l := by
  obtain ⟨e, he, rfl⟩ := Option.map_eq_some_iff.1 h
  have hu : e.1 = u := of_decide_eq_true (List.find?_some he :)
  exact hu ▸ List.mem_of_find?_eq_some he

theorem listOf_isSome {l : GroupLists} {u : BitVec 32} {m : List (BitVec 32)} (h : (u, m) ∈ l) : (listOf l u).isSome = true := by
  rw [listOf, Option.isSome_map, List.find?_isSome]
  exact ⟨_, h, decide_eq_true rfl⟩

/-- Lists whose groups are all of package `p` lead to no unknown group of another package. -/
theorem unknownGroups_own {l : GroupLists} {p : Nat} (hl : ∀ e ∈ l, ∀ u ∈ e.2, unitLevel u = 7 → unitPkg u = p) :
    ∀ (f : Nat) (u : BitVec 32), (listOf l u).isSome = true ∨ unitPkg u = p → ∀ v ∈ unknownGroups l f u, unitPkg v = p := by
  intro f
  induction f with
  | zero => exact fun _ _ _ hv => nomatch hv
  | succ f ih =>
    intro u hu v hv
    rw [unknownGroups] at hv
    split at hv
    next hnone =>
      obtain rfl := List.mem_singleton.1 hv
      exact hu.resolve_left (by rw [hnone]; decide)
    next m hm =>
      obtain ⟨k, hk, hv⟩ := List.mem_flatMap.1 hv
      obtain ⟨hkm, hk7⟩ := List.mem_filter.1 hk
      exact ih k (.inr (hl _ (listOf_mem hm) k hkm (of_decide_eq_true hk7))) v hv

/-- The lists of the own groups, the new one ahead. -/
def ownLists (s : State) (g : Nat) (new : List (BitVec 32)) : GroupLists :=
  (groupUnit s.self g, new) :: ((s.units.groups.filter fun k => k.1 ≠ g).map fun k => (groupUnit s.self k.1, k.2))

theorem listOf_ownLists_isSome {g n : Nat} {new m : List (BitVec 32)} (hn : (n, m) ∈ s.units.groups) :
    (listOf (ownLists s g new) (groupUnit s.self n)).isSome = true := by
  by_cases hg : n = g
  · exact listOf_isSome (m := new) (hg ▸ List.mem_cons_self)
  · exact listOf_isSome (m := m) (List.mem_cons_of_mem _ (List.mem_map.2 ⟨(n, m), List.mem_filter.2 ⟨hn, decide_eq_true hg⟩, rfl⟩))

/-- The state in which a group's list stands written (R69, R77). -/
def groupWritten (s : State) (g : Nat) (l : GroupLists) (new : List (BitVec 32)) : State :=
  let u : State := { s with units := { s.units with groups := kvPut s.units.groups g new } }
  State.noteGroups (u.bump ((2048 + g) :: ((u.units.groups.map Prod.fst).filter fun k =>
    reachesGroup l (groupUnit s.self g) (l.length + 2) (groupUnit s.self k)).map (2048 + ·))) s 0

theorem standing_groupWritten (s : State) (g : Nat) (l : GroupLists) (new : List (BitVec 32)) :
    standing (groupWritten s g l new) = (s.tiles, kvPut s.units.groups g new, s.host.slots) := standing_noteGroups ..

/-- With every list at hand and none of another package asked for, the checks decide. -/
theorem writeGroup_own {z : CmdSlot} {g count : Nat} {new : List (BitVec 32)} (hz : s.cmdSlot c = some z) (hm : z.members = [])
    (hl : ∀ e ∈ ownLists s g new, ∀ u ∈ e.2, unitLevel u = 7 → unitPkg u = s.self) :
    s.writeGroup c g count new = (s.groupCheck (ownLists s g new) g count new).elim
      ((groupWritten s g (ownLists s g new) new).finish c {}) (s.finishWith c St.rejected) := by
  unfold State.writeGroup
  rw [hz]
  dsimp only
  rw [hm, List.filterMap_nil, List.append_nil, List.any_nil, List.any_nil, if_neg Bool.false_ne_true, if_neg Bool.false_ne_true,
    if_neg]
  · change _ = Option.elim (s.groupCheck (_ :: _) g count new) _ _
    cases s.groupCheck (_ :: _) g count new with
    | none => rfl
    | some r => rfl
  · rw [Bool.and_eq_true, Bool.not_eq_true', not_and, Bool.not_eq_false, List.isEmpty_iff, List.filter_eq_nil_iff]
    refine fun _ v hv => ?_
    obtain ⟨k, hk, hv⟩ := List.mem_flatMap.1 hv
    have hknown : (listOf (ownLists s g new) k).isSome = true := by
      rcases List.mem_cons.1 hk with rfl | hk
      · exact listOf_isSome (m := new) List.mem_cons_self
      · obtain ⟨e, he, rfl⟩ := List.mem_map.1 (List.mem_of_mem_filter hk)
        exact listOf_ownLists_isSome he
    simpa using unknownGroups_own hl _ k (.inl hknown) v hv

/-- A parameter at hand is read from its slot. -/
theorem withParam_good {z : CmdSlot} {b : List Byte} {addr len : Nat} (hz : s.cmdSlot c = some z) (hb : z.param = some (.good b))
    (hlen : len ≤ b.length) (k : State → List Byte → State) : s.withParam c addr len k = k s (b.take len) := by
  unfold State.withParam
  rw [hz]
  dsimp only
  rw [hb]
  exact if_neg (Nat.not_lt.2 hlen)

theorem exec_groupWrite (h : Started c 0x0110 s) {z : CmdSlot} {b : List Byte} (hz : s.cmdSlot c = some z)
    (hb : z.param = some (.good b)) (hm : z.members = []) (hlen : 4 * c.p1.toNat ≤ b.length) {new : List (BitVec 32)}
    (hnew : new = unitList (b.take (4 * c.p1.toNat)))
    (hl : ∀ e ∈ ownLists s c.p0.toNat new, ∀ u ∈ e.2, unitLevel u = 7 → unitPkg u = s.self) :
    exec (.groupWrite c) s = .next ((s.groupCheck (ownLists s c.p0.toNat new) c.p0.toNat c.p1.toNat new).elim
      ((groupWritten s c.p0.toNat (ownLists s c.p0.toNat new) new).finish c {}) (s.finishWith c St.rejected)) := by
  rw [exec_of_started h (i := .groupWrite c) rfl, withParam_good hz hb hlen, ← hnew, writeGroup_own hz hm hl]

/-- A group's list is stored under its index and no other. -/
theorem groupWritten_finish_spec (h : s.started c = true) (g : Nat) (l : GroupLists) (new : List (BitVec 32)) :
    Ends ((groupWritten s g l new).finish c {}) c {} ∧ kvFind ((groupWritten s g l new).finish c {}).units.groups g = some new
      ∧ ∀ n, n ≠ g → kvFind ((groupWritten s g l new).finish c {}).units.groups n = kvFind s.units.groups n := by
  have hstanding := standing_groupWritten s g l new
  have hstarted : (groupWritten s g l new).started c = true :=
    (started_of_slots (congrArg (fun x => x.2.2) hstanding)).trans h
  have hgroups : ((groupWritten s g l new).finish c {}).units.groups = kvPut s.units.groups g new :=
    congrArg (fun x => x.2.1) hstanding
  rw [hgroups]
  exact ⟨ends_finish hstarted _, kvFind_kvPut_same .., fun n hn => kvFind_kvPut_other _ _ hn⟩

section Delete

variable (h : Started c 0x0111 s)
include h

theorem exec_groupDelete :
    exec (.groupDelete c) s = .next
      (if (kvFind s.units.groups c.p0.toNat).isNone then s.finishWith c St.rejected Rs.noGroup
      else if s.units.groups.any fun k => k.2.contains (groupUnit s.self c.p0.toNat) then s.finishWith c St.rejected Rs.groupInUse
      else State.finish { s with units := { s.units with groups := kvErase s.units.groups c.p0.toNat } } c {}) :=
  exec_of_started h (i := .groupDelete c) rfl

theorem exec_groupDelete_none (hg : kvFind s.units.groups c.p0.toNat = none) :
    exec (.groupDelete c) s = .next (s.finishWith c St.rejected Rs.noGroup) := by
  rw [exec_groupDelete h, if_pos (by rw [hg]; rfl)]

variable (hg : (kvFind s.units.groups c.p0.toNat).isSome = true)
include hg

theorem exec_groupDelete_inUse (hk : ∃ k ∈ s.units.groups, groupUnit s.self c.p0.toNat ∈ k.2) :
    exec (.groupDelete c) s = .next (s.finishWith c St.rejected Rs.groupInUse) := by
  obtain ⟨k, hk, hmem⟩ := hk
  rw [exec_groupDelete h, if_neg (by simp [Option.isSome_iff_ne_none.1 hg]),
    if_pos]
  exact List.any_eq_true.2 ⟨k, hk, List.contains_iff_mem.2 hmem⟩

theorem exec_groupDelete_free (hk : ∀ k ∈ s.units.groups, groupUnit s.self c.p0.toNat ∉ k.2) :
    exec (.groupDelete c) s = .next
      (State.finish { s with units := { s.units with groups := kvErase s.units.groups c.p0.toNat } } c {}) := by
  rw [exec_groupDelete h, if_neg (by simp [Option.isSome_iff_ne_none.1 hg]), if_neg]
  simpa using fun n m hm => hk (n, m) hm

end Delete

end Groups

/-! ### Contexts and the probe (R97, R98, R112, R517) -/

section Contexts

variable {c : Cmd} {s : State}

/-- A context that is set has no entry left in a tile's cache. -/
theorem xlt_setContext (s : State) (g : Nat) (f : Context → Context) (t : TileRef) :
    ∀ e ∈ ((s.setContext g f).tile t).xlt, e.ctx ≠ g := by
  have htiles : (s.setContext g f).tiles = s.tiles.map fun e => (e.1, e.2.invalidate g none) := by
    unfold State.setContext State.pairWritten
    dsimp only
    split <;> rfl
  intro e he
  rw [State.tile, htiles, kvGet, kvFind_map] at he
  cases hx : kvFind s.tiles t with
  | none =>
    rw [hx] at he
    exact nomatch he
  | some x =>
    rw [hx] at he
    simpa using (List.mem_filter.1 he).2

section Own

variable (ho : Own c s)
include ho

theorem exec_xltSetBase (h : Started c 0x0201 s) (hr : c.p1 = 0 ∨ (s.nodeLocal (4096 * c.p1.toNat)).isSome = true) :
    exec (.xltSetBase c) s = .next (answered
      (s.setContext c.p0.toNat fun k => { k with root := 4096 * c.p1.toNat, baseSeal := BitVec.ofNat 8 c.p2.toNat }) c {} []) := by
  rw [exec_of_started h (i := .xltSetBase c) rfl, runPackages_own ho]
  dsimp only
  rw [if_neg]
  rcases hr with hr | hr
  · simp [hr]
  · simp [Option.isSome_iff_ne_none.1 hr]

theorem exec_xltSetBase_refused (h : Started c 0x0201 s) (h0 : c.p1 ≠ 0) (hr : s.nodeLocal (4096 * c.p1.toNat) = none) :
    exec (.xltSetBase c) s = .next (answered s c (outc St.rejected Rs.badEntry) []) := by
  have hp : c.p1.toNat ≠ 0 := fun hp => h0 (BitVec.eq_of_toNat_eq hp)
  rw [exec_of_started h (i := .xltSetBase c) rfl, runPackages_own ho]
  dsimp only
  rw [if_pos (by simp [hr, hp])]

theorem exec_xltSetLimit (h : Started c 0x0202 s) (hpos : c.p1.toNat ≤ 256) (hneg : c.p2.toNat ≤ 256) :
    exec (.xltSetLimit c) s = .next (answered (s.setContext c.p0.toNat fun k =>
      { k with pos := c.p1.toNat, neg := c.p2.toNat, limitSeal := BitVec.ofNat 8 c.p3.toNat }) c {} []) := by
  rw [exec_of_started h (i := .xltSetLimit c) rfl, runPackages_own ho, if_neg (by simp [hpos, hneg])]

theorem exec_xltSetLimit_refused (h : Started c 0x0202 s) (hp : 256 < c.p1.toNat ∨ 256 < c.p2.toNat) :
    exec (.xltSetLimit c) s = .next (answered s c (outc St.rejected Rs.badEntry) []) := by
  rw [exec_of_started h (i := .xltSetLimit c) rfl, runPackages_own ho, if_pos (by simpa using hp)]

end Own

section Probe

variable {t : TileRef} {u : State} (ht : OwnTile c s t) (h : Started c 0x0205 s) (hup : s.tileUp t = true)
include ht h hup

theorem exec_xltProbe_ok {e : XEntry} {hit : Bool} (hp : (probe t (c.p0.toNat % 4096) c.p1).result s = (.ok (e, hit), u)) :
    exec (.xltProbe c) s = .next (u.finishOk c (w64 (e.global c.p1)) (w64 (4 * e.prot.toNat + if hit then 256 else 0))) := by
  obtain ⟨-, hpkg, rfl⟩ := ht
  rw [exec_of_started h (i := .xltProbe c) rfl, runAt_here hpkg]
  dsimp only
  rw [hup, hp]
  exact congrArg _ (if_neg Bool.false_ne_true)

theorem exec_xltProbe_error {e : Stop} (hp : (probe t (c.p0.toNat % 4096) c.p1).result s = (.error e, u)) :
    exec (.xltProbe c) s = .next (u.finishWith c e.status e.reason) := by
  obtain ⟨-, hpkg, rfl⟩ := ht
  rw [exec_of_started h (i := .xltProbe c) rfl, runAt_here hpkg]
  dsimp only
  rw [hup, hp]
  exact congrArg _ (if_neg Bool.false_ne_true)

end Probe

end Contexts

/-- Settles O22, command by command. -/
theorem unitsGroupsAndContextsAreSet : Obligations.UnitsGroupsAndContextsAreSet := by
  unfold Obligations.UnitsGroupsAndContextsAreSet
  intro c s
  refine ⟨fun t ht => ⟨fun h => unitRemove_of_tile h ht, fun h heads fails => ⟨unitRestore_of_tile heads fails h ht,
      exec_unitRestore_failed heads fails h ht, exec_unitRestore_stackOut heads fails h ht,
      fun a b => exec_unitRestore_refused heads fails h ht⟩⟩, ⟨rfl, rfl, rfl, rfl⟩, ?_,
    fun h => ⟨exec_groupDelete_none h, exec_groupDelete_inUse h, exec_groupDelete_free h⟩,
    fun ho => ⟨exec_xltSetBase ho, exec_xltSetBase_refused ho, exec_xltSetLimit ho, exec_xltSetLimit_refused ho⟩,
    fun f t => xlt_setContext s _ f t,
    fun t ht h hup => ⟨fun _ _ _ => exec_xltProbe_ok ht h hup, fun _ _ => exec_xltProbe_error ht h hup⟩⟩
  intro h z b hz hb hm hlen new lists hl
  have hexec := exec_groupWrite h hz hb hm hlen rfl hl
  refine ⟨fun hc => ?_, fun r hr => ?_⟩
  · change s.groupCheck (ownLists s c.p0.toNat new) _ _ _ = none at hc
    rw [hc, Option.elim_none] at hexec
    exact ⟨_, hexec, groupWritten_finish_spec h.2.1 ..⟩
  · change s.groupCheck (ownLists s c.p0.toNat new) _ _ _ = some r at hr
    rw [hr, Option.elim_some] at hexec
    exact hexec

end Sys2Proof.Proofs
end

section
/-! How a descriptor's run ends (R116, R117, R139): what `State.conclude` leaves of a slot that has nothing to send. -/

namespace Sys2Proof.Proofs

open Sys2Proof Sys2Proof.Machine Sys2Proof.Laws Sys2Proof.Safety

/-! ### Slots -/

section Slots

variable {s : State} {t : TileRef} {i : Nat} {d : DescSlot}

/-- A slot in use reads as changed. -/
theorem slot_modSlot (h : (s.tile t).slot i = some d) (f : DescSlot → DescSlot) : ((s.modSlot t i f).tile t).slot i = some (f d) := by
  rw [State.modSlot, tile_modTile_same]
  simp only [h, slot_setSlot_same]

/-- A tile whose slot changes keeps all else. -/
theorem tile_modSlot (h : (s.tile t).slot i = some d) (f : DescSlot → DescSlot) :
    (s.modSlot t i f).tile t = (s.tile t).setSlot i (f d) := by
  rw [State.modSlot, tile_modTile_same]
  simp only [h]

theorem slots_dequeue (x : Tile) (i : Nat) : (x.dequeue i).slots = x.slots := rfl

/-- The engine has finished the slot with an outcome (R117). -/
theorem slot_finishSlot (h : (s.tile t).slot i = some d) (o : Outc) :
    ((s.finishSlot t i o).tile t).slot i = some { d with ph := .finished, result := o } := by
  rw [State.finishSlot, tile_modTile_same]
  simp only [h]
  unfold Tile.slot
  split_ifs <;> exact slot_setSlot_same ..

/-- A slot with no message queued sends none. -/
theorem sendQueued_nil (s : State) (t : TileRef) (i : Nat) : s.sendQueued t i [] = s.modSlot t i fun d => { d with toSend := [] } := rfl

/-- A slot whose effect is made and that has nothing to wait for finishes with its result (R328, R356). -/
theorem settleSlot_quiet (h : (s.tile t).slot i = some d) (ha : d.applied = true) (hw : d.waits = []) (he : d.entries = [])
    (hm : d.mirror.status = St.ok) (hp : d.ph ≠ .finished) : s.settleSlot t i = s.finishSlot t i d.result := by
  have hover : d.overall = d.result := by
    unfold DescSlot.overall
    rw [he, hm]
    simp
  unfold State.settleSlot
  simp [h, ha, hw, hp, hm, hover]

end Slots

/-! ### The end of a run -/

/-- Of a tile, only what the end of an engine's work changes may differ. -/
structure OnlyWork (x y : Tile) : Prop where
  rest : y = { x with
    activity := y.activity, engineFree := y.engineFree, pauses := y.pauses, slots := y.slots, queues := y.queues, spans := y.spans
    spanMark := y.spanMark }

namespace OnlyWork

variable {x y z : Tile}

theorem refl (x : Tile) : OnlyWork x x := ⟨rfl⟩

theorem trans (h : OnlyWork x y) (hz : OnlyWork y z) : OnlyWork x z := by
  constructor
  rw [hz.rest, h.rest]

theorem branch (c : Prop) {dec : Decidable c} (hy : OnlyWork x y) (hz : OnlyWork x z) : OnlyWork x (@ite Tile c dec y z) := by
  split
  · exact hy
  · exact hz

theorem endWork (x : Tile) (i k last pause : Nat) : OnlyWork x (x.endWork i k last pause) := by
  unfold Tile.endWork
  dsimp only
  split
  · exact (branch _ ⟨rfl⟩ (refl x)).trans ⟨rfl⟩
  · exact branch _ ⟨rfl⟩ (refl x)

theorem finishSlot (s : State) (t : TileRef) (i : Nat) (o : Outc) : OnlyWork (s.tile t) ((s.finishSlot t i o).tile t) := by
  rw [State.finishSlot, tile_modTile_same]
  split
  · extract_lets k y z
    have hz : OnlyWork (s.tile t) z := branch _ ⟨rfl⟩ ⟨rfl⟩
    exact branch _ hz (hz.trans ⟨rfl⟩)
  · exact ⟨rfl⟩

theorem modSlot (s : State) (t : TileRef) (i : Nat) (f : DescSlot → DescSlot) : OnlyWork (s.tile t) ((s.modSlot t i f).tile t) := by
  rw [State.modSlot, tile_modTile_same]
  split <;> exact ⟨rfl⟩

theorem acc (h : OnlyWork x y) : y.acc = x.acc := by rw [h.rest]

theorem ws (h : OnlyWork x y) : y.ws = x.ws := by rw [h.rest]

theorem eccCorrected (h : OnlyWork x y) : y.eccCorrected = x.eccCorrected := by rw [h.rest]

theorem eccUncorrected (h : OnlyWork x y) : y.eccUncorrected = x.eccUncorrected := by rw [h.rest]

theorem mxEnd (h : OnlyWork x y) : y.mxEnd = x.mxEnd := by rw [h.rest]

theorem holdEnd (h : OnlyWork x y) : y.holdEnd = x.holdEnd := by rw [h.rest]

theorem xlt (h : OnlyWork x y) : y.xlt = x.xlt := by rw [h.rest]

theorem core (h : OnlyWork x y) : (y.core, y.coreAt, y.droopSince) = (x.core, x.coreAt, x.droopSince) := by rw [h.rest]

end OnlyWork

section Conclude

variable {s : State} {t : TileRef} {i : Nat} {d : DescSlot}

/-- Core time follows from the clock, the power state and three fields of the tile. -/
theorem coreWall_of_core {u : State} {x y : Tile} (htime : u.time = s.time) (hpower : u.power = s.power)
    (h : (y.core, y.coreAt, y.droopSince) = (x.core, x.coreAt, x.droopSince)) (c : Nat) : u.coreWall y c = s.coreWall x c := by
  obtain ⟨hcore, hat, hdroop⟩ := by simpa only [Prod.mk.injEq] using h
  simp only [State.coreWall, State.coreNow, State.slow, htime, hpower, hcore, hat, hdroop]

theorem time_advanceTo_of_time {u : State} (h : u.time = s.time) (n : Nat) : (u.advanceTo n).time = (s.advanceTo n).time := by
  unfold State.advanceTo
  rw [h]
  split
  · rfl
  · exact h

/-- Bringing the clock to a core time depends on the clock, the power state and the tile's core clock. -/
theorem time_advanceCore_of_core {u : State} (htime : u.time = s.time) (hpower : u.power = s.power)
    (h : ((u.tile t).core, (u.tile t).coreAt, (u.tile t).droopSince) = ((s.tile t).core, (s.tile t).coreAt, (s.tile t).droopSince))
    (c : Nat) : (u.advanceCore t c).time = (s.advanceCore t c).time := by
  unfold State.advanceCore
  rw [coreWall_of_core htime hpower h, time_advanceTo_of_time htime]

theorem tile_advanceTo (s : State) (n : Nat) (t : TileRef) : (s.advanceTo n).tile t = s.tile t := by
  rw [advanceTo_eq]
  rfl

/-- The tile of a slot whose engine has ended its work at `last`, a pause following. -/
def workEnded (s : State) (d : DescSlot) (i last pause : Nat) (x : Tile) : Tile :=
  (x.endWork i (queueOf d).key last pause).note (some d.job) (queueOf d).key (s.wallAt x (x.engineStart d)) (s.wallAt x last)

theorem onlyWork_workEnded (s : State) (d : DescSlot) (i last pause : Nat) (x : Tile) : OnlyWork x (workEnded s d i last pause x) :=
  (OnlyWork.endWork x i _ last pause).trans ⟨rfl⟩

theorem slot_endWork {x : Tile} (h : x.slot i = some d) (k last pause : Nat) :
    (x.endWork i k last pause).slot i = some { d with readyCore := last + pause } := by
  have hsame (y : Tile) (hy : y.slots = x.slots) : y.slot i = some d := (congrArg (kvFind · i) hy).trans h
  unfold Tile.endWork
  dsimp only
  rw [hsame (ite _ _ _) (by split <;> rfl)]
  exact slot_setSlot_same ..

/-- The clock at the end of a slot's work: a MATMUL leaves it (R139). -/
def atEnd (s : State) (t : TileRef) (d : DescSlot) (last : Nat) : State :=
  if dOpcode d.desc = 0x10 then s else s.advanceCore t last

/-- The state in which the engine has ended a run's work, with its pause noted and the clock at its end. -/
def worked (s : State) (t : TileRef) (i : Nat) (d : DescSlot) (r : Done) : State :=
  atEnd (s.modTile t (workEnded s d i (s.workEnd t d r) (s.pauseOf (cc r.cycles + s.inCore t r.latency)))) t d (s.workEnd t d r)

/-- A slot whose run has made its effect. -/
def effected (r : Done) (now : Nat) (d : DescSlot) : DescSlot :=
  { d with applied := true, ph := .running, result := r.outc, landed := [], readyAt := r.endAt.getD now }

theorem tile_atEnd (last : Nat) : (atEnd s t d last).tile t = s.tile t := by
  unfold atEnd
  split
  · rfl
  · exact tile_advanceTo ..

theorem tile_worked (r : Done) : (worked s t i d r).tile t =
    workEnded s d i (s.workEnd t d r) (s.pauseOf (cc r.cycles + s.inCore t r.latency)) (s.tile t) := by
  rw [worked, tile_atEnd, tile_modTile_same]

theorem slot_worked (h : (s.tile t).slot i = some d) (r : Done) : ((worked s t i d r).tile t).slot i =
    some { d with readyCore := s.workEnd t d r + s.pauseOf (cc r.cycles + s.inCore t r.latency) } := by
  rw [tile_worked]
  exact slot_endWork h ..

theorem time_worked (r : Done) : (worked s t i d r).time = (atEnd s t d (s.workEnd t d r)).time := by
  unfold worked atEnd
  split
  · rfl
  · refine time_advanceCore_of_core (by rfl) (by rfl) ?_ _
    rw [tile_modTile_same]
    exact (onlyWork_workEnded ..).core

theorem worked_tilesAndTime (r : Done) : OnlyTilesAndTime s (worked s t i d r) := by
  unfold worked atEnd OnlyTilesAndTime
  split
  · rfl
  · rw [State.advanceCore, advanceTo_eq]
    rfl

/-- A run of a slot with nothing to send ends its work, takes the clock there, and finishes the slot. -/
theorem conclude_quiet (h : (s.tile t).slot i = some d) (hq : Quiet d) (hw : d.waits = []) (r : Done) :
    s.conclude t i r = (((worked s t i d r).modSlot t i (effected r (worked s t i d r).time.now)).modSlot t i
      fun d => { d with toSend := [] }).finishSlot t i r.outc := by
  obtain ⟨hsend, hland, hent, hmirror⟩ := hq
  have hconclude : s.conclude t i r = (((worked s t i d r).modSlot t i (effected r (worked s t i d r).time.now)).modSlot t i
      fun d => { d with toSend := [] }).settleSlot t i := by
    unfold State.conclude
    rw [h]
    cases r.arr <;> simp only [hland, hsend, List.foldl_nil, ite_self] <;> rfl
  rw [hconclude, settleSlot_quiet (slot_modSlot (slot_modSlot (slot_worked h r) _) _) rfl hw hent hmirror SlotPh.noConfusion]
  rfl

theorem conclude_tilesAndTime (h : (s.tile t).slot i = some d) (hq : Quiet d) (hw : d.waits = []) (r : Done) :
    OnlyTilesAndTime s (s.conclude t i r) := by
  rw [conclude_quiet h hq hw]
  have hworked : OnlyTilesAndTime s (worked s t i d r) := worked_tilesAndTime r
  unfold OnlyTilesAndTime at hworked ⊢
  generalize worked s t i d r = e at hworked
  rw [hworked]
  rfl

/-- The clock stands where the work ended. -/
theorem time_conclude (h : (s.tile t).slot i = some d) (hq : Quiet d) (hw : d.waits = []) (r : Done) :
    (s.conclude t i r).time = (atEnd s t d (s.workEnd t d r)).time := by
  rw [conclude_quiet h hq hw]
  exact time_worked r

/-- The slot waits for its completion with the run's outcome. -/
theorem finished_conclude (h : (s.tile t).slot i = some d) (hq : Quiet d) (hw : d.waits = []) (r : Done) :
    Finished (s.conclude t i r) t i d r.outc (r.endAt.getD (atEnd s t d (s.workEnd t d r)).time.now)
      (s.workEnd t d r + s.pauseOf (cc r.cycles + s.inCore t r.latency)) := by
  unfold Finished
  rw [conclude_quiet h hq hw, slot_finishSlot (slot_modSlot (slot_modSlot (slot_worked h r) _) _), time_worked]
  rfl

theorem onlyWork_conclude (h : (s.tile t).slot i = some d) (hq : Quiet d) (hw : d.waits = []) (r : Done) :
    OnlyWork (s.tile t) ((s.conclude t i r).tile t) := by
  have hworked : OnlyWork (s.tile t) ((worked s t i d r).tile t) := by
    rw [tile_worked]
    exact onlyWork_workEnded ..
  rw [conclude_quiet h hq hw]
  exact ((hworked.trans (.modSlot ..)).trans (.modSlot ..)).trans (.finishSlot ..)

/-- A run of an engine's descriptor, other than a MATMUL, ends with the clock at the end of its work. -/
theorem executed_conclude (h : (s.tile t).slot i = some d) (hq : Quiet d) (hw : d.waits = []) (hop : dOpcode d.desc ≠ 0x10) {r : Done}
    (hat : r.endAt = none) :
    Executed s (s.conclude t i r) t i d r.outc (s.workEnd t d r) (cc r.cycles + s.inCore t r.latency) := by
  have htime := time_conclude h hq hw r
  have hfin := finished_conclude h hq hw r
  rw [hat, Option.getD_none] at hfin
  rw [atEnd, if_neg hop] at htime hfin
  exact ⟨hfin, htime⟩

theorem slow_pos (s : State) (x : Tile) : 0 < s.slow x := by
  unfold State.slow
  split <;> omega

theorem inCore_zero (s : State) (t : TileRef) : s.inCore t 0 = 0 := by
  unfold State.inCore ceilDiv
  exact Nat.div_eq_of_lt (by have := slow_pos s (s.tile t); omega)

/-- Work without latencies starts where its engine is free. -/
theorem workEnd_of_cycles {r : Done} (hc : r.endCore = none) (hl : r.latency = 0) (hh : r.head = 0) :
    s.workEnd t d r = (s.tile t).engineStart d + cc r.cycles := by
  unfold State.workEnd
  rw [hc, hl, hh, inCore_zero, Option.getD_none, Nat.add_zero, Nat.add_zero, Nat.max_eq_left]
  exact Nat.le_max_left ..

theorem runsFor_conclude (h : (s.tile t).slot i = some d) (hq : Quiet d) (hw : d.waits = []) (hop : dOpcode d.desc ≠ 0x10) {r : Done}
    (hat : r.endAt = none) (hc : r.endCore = none) (hl : r.latency = 0) (hh : r.head = 0) :
    RunsFor s (s.conclude t i r) t i d r.outc (cc r.cycles) := by
  have hex := executed_conclude h hq hw hop hat
  rwa [workEnd_of_cycles hc hl hh, hl, inCore_zero, Nat.add_zero] at hex

end Conclude

/-! ### The slot that may run -/

section Runnable

variable {s : State} {t : TileRef} {i op : Nat} {d : DescSlot}

theorem slot_of_runnable (h : s.runnable t i op = some d) :
    (s.tile t).slot i = some d ∧ dOpcode d.desc = op ∧ d.applied = false ∧ d.waits = [] ∧ s.tileUp t = true := by
  unfold State.runnable at h
  split at h
  · cases h
  · next d' hd =>
    obtain ⟨hc, hsome⟩ := Option.ite_none_right_eq_some.1 h
    cases hsome
    simp only [Bool.and_eq_true, decide_eq_true_eq, Bool.not_eq_true', List.isEmpty_iff] at hc
    exact ⟨hd, hc.1.1.1.2, hc.1.1.2, hc.1.2, hc.1.1.1.1⟩

/-- What may run depends on a tile's unit, slots and queues, and on whether the package runs. -/
theorem runnable_of_same {u : State} (hbu : u.bu = s.bu) (hunit : (u.tile t).unit = (s.tile t).unit)
    (hslots : (u.tile t).slots = (s.tile t).slots) (hqueues : (u.tile t).queues = (s.tile t).queues) :
    u.runnable t i op = s.runnable t i op := by
  have hslot (j : Nat) : (u.tile t).slot j = (s.tile t).slot j := congrArg (kvFind · j) hslots
  have hnext (j : Nat) : (u.tile t).mxNext j = (s.tile t).mxNext j := by
    simp only [Tile.mxNext, Tile.mxWaiting, hslot, hqueues]
  have hup : u.tileUp t = s.tileUp t := by simp only [State.tileUp, State.clocksRun, State.brassRuns, hbu, hunit]
  unfold State.runnable Tile.queue_
  rw [hslot, hnext, hup, hqueues]

end Runnable

/-! ### What a run leaves for its end -/

/-- From `s`, an engine's run on a tile has changed no more than the tile's stores and counters, its matrix times and its translations:
nothing that the end of the run reads. -/
structure Ran (t : TileRef) (s u : State) : Prop where
  rest : u = { s with tiles := u.tiles, free := u.free }
  tile : u.tile t = { s.tile t with
    activity := (u.tile t).activity, ws := (u.tile t).ws, acc := (u.tile t).acc, eccCorrected := (u.tile t).eccCorrected
    eccUncorrected := (u.tile t).eccUncorrected, mxEnd := (u.tile t).mxEnd, mxRuns := (u.tile t).mxRuns
    holdEnd := (u.tile t).holdEnd, drains := (u.tile t).drains, drainEnd := (u.tile t).drainEnd, xlt := (u.tile t).xlt }

namespace Ran

variable {s u w : State} {t : TileRef}

theorem refl (t : TileRef) (s : State) : Ran t s s := ⟨rfl, rfl⟩

theorem trans (h : Ran t s u) (hw : Ran t u w) : Ran t s w := by
  constructor
  · rw [hw.rest, h.rest]
  · rw [hw.tile, h.tile]

theorem modTile (h : Ran t s u) {f : Tile → Tile} (hf : ∀ x, f x = { x with
    activity := (f x).activity, ws := (f x).ws, acc := (f x).acc, eccCorrected := (f x).eccCorrected
    eccUncorrected := (f x).eccUncorrected, mxEnd := (f x).mxEnd, mxRuns := (f x).mxRuns
    holdEnd := (f x).holdEnd, drains := (f x).drains, drainEnd := (f x).drainEnd, xlt := (f x).xlt }) : Ran t s (u.modTile t f) := by
  refine h.trans ⟨rfl, ?_⟩
  rw [tile_modTile_same]
  exact hf _

theorem setFree (h : Ran t s u) {n : Nat} : Ran t s { u with free := n } := h.trans ⟨rfl, rfl⟩

theorem time (h : Ran t s u) : u.time = s.time := by rw [h.rest]

theorem mem (h : Ran t s u) : u.mem = s.mem := by rw [h.rest]

theorem tick (h : Ran t s u) : u.tick = s.tick := by rw [h.rest]

theorem power (h : Ran t s u) : u.power = s.power := by rw [h.rest]

theorem bu (h : Ran t s u) : u.bu = s.bu := by rw [h.rest]

theorem slots (h : Ran t s u) : (u.tile t).slots = (s.tile t).slots := by rw [h.tile]

theorem queues (h : Ran t s u) : (u.tile t).queues = (s.tile t).queues := by rw [h.tile]

theorem slot (h : Ran t s u) (i : Nat) : (u.tile t).slot i = (s.tile t).slot i := congrArg (kvFind · i) h.slots

theorem core (h : Ran t s u) :
    ((u.tile t).core, (u.tile t).coreAt, (u.tile t).droopSince) = ((s.tile t).core, (s.tile t).coreAt, (s.tile t).droopSince) := by
  rw [h.tile]

theorem engineStart (h : Ran t s u) (d : DescSlot) : (u.tile t).engineStart d = (s.tile t).engineStart d := by
  rw [h.tile]
  rfl

theorem advanceCore (h : Ran t s u) (c : Nat) : (u.advanceCore t c).time = (s.advanceCore t c).time :=
  time_advanceCore_of_core h.time h.power h.core c

theorem pauseOf (h : Ran t s u) (work : Nat) : u.pauseOf work = s.pauseOf work := by
  unfold State.pauseOf
  rw [h.tick]

theorem runnable (h : Ran t s u) (i op : Nat) : u.runnable t i op = s.runnable t i op :=
  runnable_of_same h.bu (by rw [h.tile]) h.slots h.queues

/-- What a run's end does from where the run has come to, it does from where the run began. -/
theorem executed (h : Ran t s u) {i : Nat} {d : DescSlot} {o : Outc} {last work : Nat} (hx : Executed u w t i d o last work) :
    Executed s w t i d o last work := by
  unfold Executed at hx ⊢
  dsimp only at hx ⊢
  rwa [h.advanceCore, h.pauseOf] at hx

theorem runsFor (h : Ran t s u) {i : Nat} {d : DescSlot} {o : Outc} {work : Nat} (hx : RunsFor u w t i d o work) :
    RunsFor s w t i d o work := by
  unfold RunsFor at hx ⊢
  rw [h.engineStart] at hx
  exact h.executed hx

end Ran

/-! ### Running a descriptor (R87, R111, R148) -/

section RunDesc

variable {s q : State} {t : TileRef} {i op : Nat} {d : DescSlot} {stopped : Stop → State → State} {body : DescSlot → Env → M Done}

theorem runDesc_ok {r : Done} (h : s.runnable t i op = some d) (hb : (body d (d.env t i)).result s = (.ok r, q)) :
    s.runDesc t i op stopped body = q.conclude t i r := by
  simp only [State.runDesc, h, hb]

theorem runDesc_stop {e : Stop} (h : s.runnable t i op = some d) (hb : (body d (d.env t i)).result s = (.error e, q))
    (hn : e.need = none) :
    s.runDesc t i op stopped body =
      (stopped e (q.recordFault t e i (d.env t i).ctx (d.env t i).step)).conclude t i { outc := outc e.status e.reason } := by
  simp only [State.runDesc, h, hb, hn]

theorem runDesc_need {e : Stop} {n : Need} (h : s.runnable t i op = some d) (hb : (body d (d.env t i)).result s = (.error e, q))
    (hn : e.need = some n) : s.runDesc t i op stopped body = s.askFor (d.env t i) q n := by
  simp only [State.runDesc, h, hb, hn]

/-- A tile whose stores' code has found something, counted in `STORE_ECC` (R114). -/
def eccCounted (e : StoreErr) (x : Tile) : Tile :=
  { x with
    eccCorrected := x.eccCorrected + BitVec.ofNat 32 e.corrected
    eccUncorrected := if e.bad.isSome then x.eccUncorrected + 1 else x.eccUncorrected }

theorem tile_countStore (s : State) (t : TileRef) (e : StoreErr) : (s.countStore t e).tile t = eccCounted e (s.tile t) := by
  unfold State.countStore
  split
  · next h =>
    simp only [Bool.and_eq_true, decide_eq_true_eq, Option.isNone_iff_eq_none] at h
    simp [eccCounted, h.1, h.2]
  · exact tile_modTile_same ..

theorem ran_countStore (s : State) (t : TileRef) (e : StoreErr) : Ran t s (s.countStore t e) := by
  unfold State.countStore
  split
  · exact .refl t s
  · exact (Ran.refl t s).modTile fun _ => rfl

theorem meetStore_eq (h : s.runnable t i op = some d) (e : StoreErr) : s.meetStore t i op e = s.countStore t e := by
  rw [State.meetStore, h, Option.isSome_some, if_pos rfl]

/-- A store's uncorrectable error stops the descriptor before it does anything (R148). -/
theorem guardStore_bad {e : StoreErr} (h : e.bad.isSome = true) (d : DescSlot) (env : Env) (s : State) :
    (guardStore e body d env).result s = (.error { status := St.poisoned, dva := BitVec.allOnes 64 }, s) := by
  rw [guardStore, if_pos h]
  rfl

theorem guardStore_none (n : Nat) : guardStore ⟨n, none⟩ body = body := rfl

/-- A stop that is no access makes no fault record (R110). -/
theorem recordFault_of_kind_zero {e : Stop} (h : e.kind = 0) (slot ctx step : Nat) : s.recordFault t e slot ctx step = s := by
  unfold State.recordFault Stop.faults
  simp [h]

end RunDesc

end Sys2Proof.Proofs
end

section
/-! The engines' reads and writes of a tile's stores (R113): runs that only read, and what a run of writes makes of each accumulator
and of each byte of the work store. -/

namespace Sys2Proof.Proofs

open Sys2Proof Sys2Proof.Machine Sys2Proof.Laws Sys2Proof.Safety

theorem result_bind_ok {α β : Type} {m : M α} {f : α → M β} {s u : State} {a : α} (h : m.result s = (.ok a, u)) :
    (m >>= f).result s = (f a).result u := by
  unfold M.result EStateM.run at h ⊢
  rw [show (m >>= f) s = EStateM.bind m f s from rfl, EStateM.bind]
  cases hm : m s with
  | ok b v =>
    rw [hm] at h
    cases h
    rfl
  | error e v =>
    rw [hm] at h
    cases h

/-! ### What a run of accesses to the stores leaves -/

/-- From `s`, no more has changed than the stores of tile `t`, its activity counters and the count of free values taken. -/
structure Stored (t : TileRef) (s u : State) : Prop where
  rest : u = { s with tiles := u.tiles, free := u.free }
  tile : u.tile t = { s.tile t with activity := (u.tile t).activity, ws := (u.tile t).ws, acc := (u.tile t).acc }

namespace Stored

variable {s u w : State} {t : TileRef}

theorem refl (t : TileRef) (s : State) : Stored t s s := ⟨rfl, rfl⟩

theorem trans (h : Stored t s u) (hw : Stored t u w) : Stored t s w := by
  constructor
  · rw [hw.rest, h.rest]
  · rw [hw.tile, h.tile]

theorem modTile (s : State) (t : TileRef) {f : Tile → Tile}
    (hf : ∀ x, f x = { x with activity := (f x).activity, ws := (f x).ws, acc := (f x).acc }) : Stored t s (s.modTile t f) := by
  refine ⟨rfl, ?_⟩
  rw [tile_modTile_same]
  exact hf _

theorem ran (h : Stored t s u) : Ran t s u := by
  refine ⟨h.rest, ?_⟩
  rw [h.tile]

end Stored

/-! ### Runs that only read -/

/-- A run that answers `a` when the work store of the tile is `w`, and changes neither store. -/
def Looks (t : TileRef) (w : List Host.Cell) {α : Type} (m : M α) (a : α) : Prop :=
  ∀ s : State, (s.tile t).ws = w → ∃ u, m.result s = (.ok a, u) ∧ Stored t s u ∧ (u.tile t).ws = w ∧ (u.tile t).acc = (s.tile t).acc

namespace Looks

variable {t : TileRef} {w : List Host.Cell} {α β : Type}

theorem pure (a : α) : Looks t w (Pure.pure a : M α) a := fun s hs => ⟨s, rfl, .refl t s, hs, rfl⟩

theorem bind {m : M α} {f : α → M β} {a : α} {b : β} (hm : Looks t w m a) (hf : Looks t w (f a) b) : Looks t w (m >>= f) b := by
  intro s hs
  obtain ⟨u, hu, hstored, hws, hacc⟩ := hm s hs
  obtain ⟨v, hv, hstored', hws', hacc'⟩ := hf u hws
  exact ⟨v, (result_bind_ok hu).trans hv, hstored.trans hstored', hws', hacc'.trans hacc⟩

theorem mapM {γ : Type} {f : γ → M α} {g : γ → α} (l : List γ) (hf : ∀ c ∈ l, Looks t w (f c) (g c)) : Looks t w (l.mapM f) (l.map g) := by
  induction l with
  | nil =>
    rw [List.mapM_nil]
    exact pure _
  | cons c l ih =>
    rw [List.mapM_cons]
    exact (hf c List.mem_cons_self).bind ((ih fun c' h => hf c' (List.mem_cons_of_mem _ h)).bind (pure _))

theorem wsRead (a n : Nat) : Looks t w (wsRead t a n) (cellRead w a n) := by
  intro s hs
  refine ⟨s.modTile t fun x => x.act 9 n, ?_, .modTile s t fun _ => rfl, ?_, ?_⟩
  · have hread : (Machine.wsRead t a n).result s = (.ok (cellRead ((s.modTile t fun x => x.act 9 n).tile t).ws a n),
        s.modTile t fun x => x.act 9 n) := rfl
    rw [hread, tile_modTile_same, ← hs]
    rfl
  · rw [tile_modTile_same]
    exact hs
  · rw [tile_modTile_same]
    rfl

end Looks

/-! ### A fold whose steps touch one value each -/

theorem foldl_eq_self {α β : Type} {f : β → α → β} (l : List α) (v : β) (h : ∀ a ∈ l, ∀ b, f b a = b) : l.foldl f v = v := by
  induction l generalizing v with
  | nil => rfl
  | cons a l ih =>
    rw [List.foldl_cons, h a List.mem_cons_self]
    exact ih v fun c hc => h c (List.mem_cons_of_mem _ hc)

/-- A fold of which one step alone changes the value is that step. -/
theorem foldl_range_single {β : Type} {f : β → Nat → β} {n k : Nat} (hk : k < n) (v : β) (h : ∀ j < n, j ≠ k → ∀ b, f b j = b) :
    (List.range n).foldl f v = f v k := by
  induction n with
  | zero => omega
  | succ n ih =>
    rw [List.range_succ, List.foldl_append, List.foldl_cons, List.foldl_nil]
    by_cases hkn : k = n
    · subst hkn
      rw [foldl_eq_self _ v fun j hj => h j (by have := List.mem_range.1 hj; omega) (by have := List.mem_range.1 hj; omega)]
    · rw [h n (by omega) (Ne.symm hkn)]
      exact ih (by omega) fun j hj hne => h j (by omega) hne

theorem foldl_if_single {β : Type} {f : β → Nat → β} {p : Nat → Prop} [DecidablePred p] {n k : Nat} (hk : k < n) (v : β)
    (h : ∀ j < n, p j → j = k) (hp : p k) : (List.range n).foldl (fun v j => if p j then f v j else v) v = f v k := by
  rw [foldl_range_single hk v fun j hj hne b => if_neg fun hpj => hne (h j hj hpj), if_pos hp]

/-! ### Runs that change values of a store one by one -/

/-- A run from which, where `p` holds of the tile, `p` still holds, and each value `obs` of the tile has become the function `f` of itself. -/
def Turns (t : TileRef) (p : Tile → Prop) {κ β : Type} (obs : Tile → κ → β) {α : Type} (m : M α) (f : κ → β → β) : Prop :=
  ∀ s : State, p (s.tile t) → ∃ a u, m.result s = (.ok a, u) ∧ Stored t s u ∧ p (u.tile t) ∧ ∀ k, obs (u.tile t) k = f k (obs (s.tile t) k)

namespace Turns

variable {t : TileRef} {p : Tile → Prop} {κ β α γ : Type} {obs : Tile → κ → β}

theorem pure (a : α) : Turns t p obs (Pure.pure a : M α) fun _ v => v := fun s hs => ⟨a, s, rfl, .refl t s, hs, fun _ => rfl⟩

theorem bind {m : M α} {n : α → M γ} {f g : κ → β → β} (hm : Turns t p obs m f) (hn : ∀ a, Turns t p obs (n a) g) :
    Turns t p obs (m >>= n) fun k v => g k (f k v) := by
  intro s hs
  obtain ⟨a, u, hu, hstored, hp, hobs⟩ := hm s hs
  obtain ⟨c, v, hv, hstored', hp', hobs'⟩ := hn a u hp
  refine ⟨c, v, (result_bind_ok hu).trans hv, hstored.trans hstored', hp', fun k => ?_⟩
  rw [hobs', hobs]

theorem forM {m : γ → M PUnit} {f : γ → κ → β → β} (l : List γ) (hm : ∀ c ∈ l, Turns t p obs (m c) (f c)) :
    Turns t p obs (l.forM m) fun k v => l.foldl (fun v c => f c k v) v := by
  induction l with
  | nil => exact pure _
  | cons c l ih => exact (hm c List.mem_cons_self).bind fun _ => ih fun c' h => hm c' (List.mem_cons_of_mem _ h)

theorem mapM {m : γ → M α} {f : γ → κ → β → β} (l : List γ) (hm : ∀ c ∈ l, Turns t p obs (m c) (f c)) :
    Turns t p obs (l.mapM m) fun k v => l.foldl (fun v c => f c k v) v := by
  induction l with
  | nil =>
    rw [List.mapM_nil]
    exact pure _
  | cons c l ih =>
    rw [List.mapM_cons]
    exact (hm c List.mem_cons_self).bind fun _ => (ih fun c' h => hm c' (List.mem_cons_of_mem _ h)).bind fun _ => pure _

/-- A run told of only by what it keeps. -/
theorem writes {m : M α} {f : κ → β → β} (hm : Turns t p obs m f) : Turns t p (fun _ (_ : Unit) => ()) m fun _ v => v := by
  intro s hs
  obtain ⟨a, u, hu, hstored, hp, -⟩ := hm s hs
  exact ⟨a, u, hu, hstored, hp, fun _ => rfl⟩

/-- Changes of the tile's stores alone. -/
theorem upd {g : Tile → Tile} {f : κ → β → β}
    (hg : ∀ x, g x = { x with activity := (g x).activity, ws := (g x).ws, acc := (g x).acc }) (hp : ∀ x, p x → p (g x))
    (hobs : ∀ x k, obs (g x) k = f k (obs x k)) : Turns t p obs (M.upd fun s => s.modTile t g) f := by
  intro s hs
  refine ⟨(), s.modTile t g, rfl, .modTile s t hg, ?_, fun k => ?_⟩
  · rw [tile_modTile_same]
    exact hp _ hs
  · rw [tile_modTile_same]
    exact hobs _ k

end Turns

/-- What is read first may decide what changes. -/
theorem Looks.turns {t : TileRef} {w : List Host.Cell} {α γ κ β : Type} {obs : Tile → κ → β} {m : M α} {a : α}
    {n : α → M γ} {f : κ → β → β} (hm : Looks t w m a) (hobs : ∀ x y : Tile, y.ws = x.ws → y.acc = x.acc → obs y = obs x)
    (hn : Turns t (fun x => x.ws = w) obs (n a) f) : Turns t (fun x => x.ws = w) obs (m >>= n) f := by
  intro s hs
  obtain ⟨u, hu, hstored, hws, hacc⟩ := hm s hs
  obtain ⟨c, v, hv, hstored', hws', hobs'⟩ := hn u hws
  refine ⟨c, v, (result_bind_ok hu).trans hv, hstored.trans hstored', hws', fun k => ?_⟩
  rw [hobs', hobs _ _ (hws.trans hs.symm) hacc]

/-! ### Accumulators -/

theorem kvFind_filter_key {α : Type} (p : Nat → Bool) (l : KV α) (k : Nat) :
    kvFind (l.filter fun e => p e.1) k = if p k then kvFind l k else none := by
  induction l with
  | nil => simp [kvFind]
  | cons e l ih =>
    by_cases he : p e.1 = true
    · rw [List.filter_cons_of_pos (by exact he), kvFind, kvFind, ih]
      split
      · next hk => rw [if_pos (hk ▸ he)]
      · rfl
    · rw [List.filter_cons_of_neg (by exact he), ih]
      split
      · next hp => rw [kvFind, if_neg fun hk : e.1 = k => he (hk ▸ hp)]
      · rfl

theorem kvFind_kvErase {α : Type} (l : KV α) (n k : Nat) : kvFind (kvErase l n) k = if k = n then none else kvFind l k := by
  rw [kvErase, kvFind_filter_key fun c => decide (c ≠ n)]
  simp only [decide_not, Bool.not_eq_true', decide_eq_false_iff_not, ite_not]

/-- An accumulator reads as set, the others as before. -/
theorem accAt_setAcc (x : Tile) {row col row' col' : Nat} (v : BitVec 32) (hcol : col < 32) (hcol' : col' < 32) :
    (x.setAcc row col v).accAt row' col' = if row = row' ∧ col = col' then v else x.accAt row' col' := by
  have hkey : 32 * row' + col' = 32 * row + col ↔ row = row' ∧ col = col' := by omega
  unfold Tile.setAcc Tile.accAt
  simp only [← hkey]
  split
  · next hv =>
    rw [kvGet, kvFind_kvErase]
    split
    · exact hv.symm
    · rfl
  · split
    · next hk => rw [hk, kvGet_kvPut_same]
    · next hk => exact kvGet_kvPut_other _ _ _ hk

theorem setAcc_rest (x : Tile) (row col : Nat) (v : BitVec 32) : x.setAcc row col v = { x with acc := (x.setAcc row col v).acc } := rfl

/-- Accumulators set in turn, in one column, each from its own value. -/
theorem foldl_setAcc {γ : Type} (l : List γ) (g : γ → Nat) (h : γ → BitVec 32 → BitVec 32) {col : Nat} (hcol : col < 32) (x : Tile) :
    let y := l.foldl (fun x r => x.setAcc (g r) col (h r (x.accAt (g r) col))) x
    y = { x with acc := y.acc } ∧ ∀ row, ∀ u < 32, y.accAt row u =
      l.foldl (fun v r => if g r = row ∧ col = u then h r v else v) (x.accAt row u) := by
  induction l generalizing x with
  | nil => exact ⟨rfl, fun _ _ _ => rfl⟩
  | cons r l ih =>
    obtain ⟨hrest, hat⟩ := ih (x.setAcc (g r) col (h r (x.accAt (g r) col)))
    refine ⟨hrest, fun row u hu => ?_⟩
    rw [List.foldl_cons, List.foldl_cons, hat row u hu, accAt_setAcc _ _ hcol hu]
    congr 1
    split
    · next hk => rw [hk.1, hk.2]
    · rfl

end Sys2Proof.Proofs
end

section
/-! MATMUL (R129 to R138, R148): what its products leave in the accumulators, and O33. -/

namespace Sys2Proof.Proofs

open Sys2Proof Sys2Proof.Machine Sys2Proof.Laws Sys2Proof.Safety

/-! ### The products -/

/-- The lanes that an element slot and its scale slot hold. -/
def lanesIn (w : List Host.Cell) (fmt smode l valid elemAt sclAt : Nat) : List Lane :=
  let scl := if smode = 0 then [] else cellRead w sclAt (l / blockSize smode)
  (List.range l).map fun i =>
    if i < valid then some (getElem fmt (cellRead w elemAt (runBytes fmt l)) i, ((scl[i / blockSize smode]?).getD 0).toNat) else none

/-- Lanes of A's slot `(kc, m)`. -/
def lanesA (w : List Host.Cell) (a : MatArgs) (m kc : Nat) : List Lane :=
  lanesIn w a.fa a.sa a.l (a.valid kc) (a.aBase + a.aSlot kc m * 128) (a.aScl + a.aSlot kc m * 16)

/-- Lanes of B's slot `(nb, kc, u)`. -/
def lanesB (w : List Host.Cell) (a : MatArgs) (nb u kc : Nat) : List Lane :=
  lanesIn w a.fb a.sb a.l (a.valid kc) (a.bBase + a.bSlot nb kc u * 128) (a.bScl + a.bSlot nb kc u * 16)

/-- The contribution of chunk `kc` to row `m` and column `u` of block `nb`. -/
def chunkAt (w : List Host.Cell) (a : MatArgs) (nb m u kc : Nat) : BitVec 32 :=
  chunkSum a.fa a.sa a.fb a.sb ((lanesA w a m kc).zip (lanesB w a nb u kc))

/-- An accumulator after row `m` of block `nb` has been added in column `u`. -/
def entryAfter (w : List Host.Cell) (a : MatArgs) (nb u m : Nat) (v : BitVec 32) : BitVec 32 :=
  accumulate a.add v ((List.range a.kc).map (chunkAt w a nb m u))

/-- Accumulator `k` after column `u` of block `nb`. -/
def columnAfter (w : List Host.Cell) (a : MatArgs) (nb u : Nat) (k : Nat × Fin 32) (v : BitVec 32) : BitVec 32 :=
  (List.range a.m).foldl (fun v m => if a.row + nb * a.m + m = k.1 ∧ u = k.2 then entryAfter w a nb u m v else v) v

/-- A tile after column `u` of block `nb`. -/
def columnWritten (w : List Host.Cell) (a : MatArgs) (nb u : Nat) (x : Tile) : Tile :=
  (List.range a.m).foldl (fun x m => x.setAcc (a.row + nb * a.m + m) u (entryAfter w a nb u m (x.accAt (a.row + nb * a.m + m) u))) x

theorem columnWritten_spec (w : List Host.Cell) (a : MatArgs) (nb : Nat) {u : Nat} (hu : u < 32) (x : Tile) :
    columnWritten w a nb u x = { x with acc := (columnWritten w a nb u x).acc }
      ∧ ∀ k : Nat × Fin 32, (columnWritten w a nb u x).accAt k.1 k.2 = columnAfter w a nb u k (x.accAt k.1 k.2) := by
  have hfold := foldl_setAcc (List.range a.m) (fun m => a.row + nb * a.m + m) (entryAfter w a nb u) hu x
  exact ⟨hfold.1, fun k => hfold.2 k.1 k.2 k.2.2⟩

/-- Valid columns of a block. -/
def columnsOf (a : MatArgs) (nb : Nat) : Nat := if nb + 1 = a.nb then a.nLast else 32

/-- Accumulator `k` after all the blocks. -/
def productAfter (w : List Host.Cell) (a : MatArgs) (k : Nat × Fin 32) (v : BitVec 32) : BitVec 32 :=
  (List.range a.nb).foldl (fun v nb => (List.range (columnsOf a nb)).foldl (fun v u => columnAfter w a nb u k v) v) v

/-- The accumulators of a tile, by row and column. -/
def accs (x : Tile) (k : Nat × Fin 32) : BitVec 32 := x.accAt k.1 k.2

theorem accs_of_acc {x y : Tile} (h : y.acc = x.acc) : accs y = accs x := by
  unfold accs Tile.accAt
  rw [h]

section Products

variable {t : TileRef} {w : List Host.Cell}

theorem looks_slotLanes (fmt smode l valid elemAt sclAt : Nat) :
    Looks t w (slotLanes t fmt smode l valid elemAt sclAt) (lanesIn w fmt smode l valid elemAt sclAt) := by
  unfold slotLanes lanesIn
  refine (Looks.wsRead _ _).bind ?_
  dsimp only
  split
  · exact (Looks.pure _).bind (.pure _)
  · exact (Looks.wsRead _ _).bind (.pure _)

theorem turns_matColumn (a : MatArgs) (nb : Nat) {u : Nat} (hu : u < 32) :
    Turns t (fun x => x.ws = w) accs
      (matColumn t a ((List.range a.m).map fun m => (List.range a.kc).map (lanesA w a m)) nb u) (columnAfter w a nb u) := by
  unfold matColumn
  have hb : Looks t w ((List.range a.kc).mapM fun kc =>
      slotLanes t a.fb a.sb a.l (a.valid kc) (a.bBase + a.bSlot nb kc u * 128) (a.bScl + a.bSlot nb kc u * 16))
      ((List.range a.kc).map (lanesB w a nb u)) := .mapM _ fun _ _ => looks_slotLanes _ _ _ _ _ _
  refine hb.turns (fun _ _ _ h => accs_of_acc h) ?_
  have hzip : (List.range a.m).zip ((List.range a.m).map fun m => (List.range a.kc).map (lanesA w a m)) =
      (List.range a.m).map fun m => (m, (List.range a.kc).map (lanesA w a m)) := by
    conv_lhs => rw [← List.map_id' (List.range a.m)]
    rw [List.map_map, List.zip_map']
    rfl
  simp only [hzip, List.foldl_map, List.zip_map', List.map_map]
  refine .upd (g := columnWritten w a nb u) (fun x => ?_) (fun x hx => ?_) fun x k => (columnWritten_spec w a nb hu x).2 k
  · have h := (columnWritten_spec w a nb hu x).1
    generalize columnWritten w a nb u x = y at h
    rw [h]
  · rw [(columnWritten_spec w a nb hu x).1]
    exact hx

theorem turns_matProduct (a : MatArgs) (hn : a.nLast ≤ 32) :
    Turns t (fun x => x.ws = w) accs (matProduct t a) (productAfter w a) := by
  unfold matProduct
  have hrows : Looks t w ((List.range a.m).mapM fun m => (List.range a.kc).mapM fun kc =>
      slotLanes t a.fa a.sa a.l (a.valid kc) (a.aBase + a.aSlot kc m * 128) (a.aScl + a.aSlot kc m * 16))
      ((List.range a.m).map fun m => (List.range a.kc).map (lanesA w a m)) :=
    .mapM _ fun _ _ => .mapM _ fun _ _ => looks_slotLanes _ _ _ _ _ _
  refine hrows.turns (fun _ _ _ h => accs_of_acc h) (Turns.bind (f := productAfter w a) (g := fun _ v => v) ?_ fun _ => ?_)
  · refine .forM _ fun nb _ => .forM _ fun u hu => turns_matColumn a nb ?_
    have := List.mem_range.1 hu
    split at this <;> omega
  · exact .upd (fun _ => rfl) (fun _ h => h) fun _ _ => rfl

end Products

/-! ### The value of each accumulator -/

/-- Rows of one number lie in one block. -/
theorem block_unique {m i i' nb nb' : Nat} (hi : i < m) (hi' : i' < m) (h : nb * m + i = nb' * m + i') : nb = nb' := by
  have hdiv := congrArg (· / m) h
  simpa only [Nat.mul_comm _ m, Nat.mul_add_div (Nat.zero_lt_of_lt hi), Nat.div_eq_of_lt hi, Nat.div_eq_of_lt hi', Nat.add_zero] using hdiv

section Values

variable (w : List Host.Cell) (a : MatArgs)

theorem columnAfter_self {nb u : Nat} {k : Nat × Fin 32} (h : ∀ m < a.m, a.row + nb * a.m + m = k.1 → u ≠ k.2) (v : BitVec 32) :
    columnAfter w a nb u k v = v :=
  foldl_eq_self _ v fun m hm _ => if_neg fun hk => h m (List.mem_range.1 hm) hk.1 hk.2

/-- Each valid column of a row of a block has its chunks added. -/
theorem productAfter_entry {nb m u : Nat} (hnb : nb < a.nb) (hm : m < a.m) (hu : u < columnsOf a nb) (hu32 : u < 32) (v : BitVec 32) :
    productAfter w a (a.row + nb * a.m + m, ⟨u, hu32⟩) v = entryAfter w a nb u m v := by
  unfold productAfter
  rw [foldl_range_single hnb, foldl_range_single hu]
  · exact foldl_if_single hm v (fun j _ hj => by omega) ⟨rfl, rfl⟩
  · exact fun j _ hne _ => columnAfter_self w a (fun _ _ _ => hne) _
  · intro j hj hne b
    refine foldl_eq_self _ b fun u' _ b' => columnAfter_self w a (fun m' hm' hrow => absurd (block_unique hm' hm ?_) hne) b'
    dsimp only at hrow
    omega

/-- The other columns and rows keep theirs. -/
theorem productAfter_self {row : Nat} {u : Fin 32} (h : ∀ nb < a.nb, ∀ m < a.m, row = a.row + nb * a.m + m → columnsOf a nb ≤ u)
    (v : BitVec 32) : productAfter w a (row, u) v = v := by
  refine foldl_eq_self _ v fun nb hnb b => foldl_eq_self _ b fun u' hu' b' => foldl_eq_self _ b' fun m hm b'' => if_neg fun hk => ?_
  have hcol := h nb (List.mem_range.1 hnb) m (List.mem_range.1 hm) hk.1.symm
  rw [← hk.2] at hcol
  exact absurd (List.mem_range.1 hu') (Nat.not_lt.2 hcol)

end Values

end Sys2Proof.Proofs
end

section
/-! MATMUL as a descriptor (R130 to R138, R148): its times and its warm hold, its end, and O33. -/

namespace Sys2Proof.Proofs

open Sys2Proof Sys2Proof.Machine Sys2Proof.Laws Sys2Proof.Safety

/-! ### The body -/

theorem mxWaiting_of_same {x y : Tile} (hslots : y.slots = x.slots) (hqueues : y.queues = x.queues) : y.mxWaiting = x.mxWaiting := by
  unfold Tile.mxWaiting Tile.slot
  rw [hslots, hqueues]

/-- Core time at which a MATMUL ends. -/
def matLast (x : Tile) (d : DescSlot) : Nat :=
  x.mxStart (matArgs d.desc) d.dispatchCore + cc ((matArgs d.desc).cycles + 34)

/-- When the warm hold after a MATMUL ends; none where no hold follows it (R138). -/
def holdAfter (s : State) (x : Tile) (d : DescSlot) : Option Nat :=
  if (matArgs d.desc).hold ≠ 0 && x.mxWaiting.length ≤ 1 && s.tick.stepRatio = 0 then
    some (matLast x d + cc (matArgs d.desc).hold - cc 6)
  else none

/-- What a MATMUL, of which some rows took free values, has left of a state on its tile. -/
structure Multiplied (t : TileRef) (d : DescSlot) (rows : List Nat) (s u : State) : Prop where
  ran : Ran t s u
  acc (k : Nat × Fin 32) : k.1 ∉ rows → accs (u.tile t) k = productAfter (s.tile t).ws (matArgs d.desc) k (accs (s.tile t) k)
  ws : (u.tile t).ws = (s.tile t).ws
  eccCorrected : (u.tile t).eccCorrected = (s.tile t).eccCorrected
  eccUncorrected : (u.tile t).eccUncorrected = (s.tile t).eccUncorrected
  mxEnd : (u.tile t).mxEnd = matLast (s.tile t) d
  holdEnd : (u.tile t).holdEnd = holdAfter s (s.tile t) d

/-- What a MATMUL's run answers. -/
def matDone (x : Tile) (d : DescSlot) : Done :=
  { outc := outc St.ok 0, cycles := (matArgs d.desc).cycles, endCore := some (matLast x d) }

/-- The outcome of a MATMUL with what its stores' code found. -/
def matOutc (e : StoreErr) : Outc := if e.bad.isSome then outc St.poisoned 0 else outc St.ok 0

/-- The rows that an uncorrectable error leaves free. -/
def rowsLost (d : DescSlot) (e : StoreErr) : List Nat := (e.bad.map (matArgs d.desc).rowsFrom).getD []

section Body

variable {s : State} {t : TileRef} {i : Nat} {d : DescSlot}

/-- The tile of a MATMUL, its products made, once the engine has been taken. -/
def groupsTaken (s : State) (x : Tile) (d : DescSlot) : Tile :=
  { (x.endHold (x.mxStart (matArgs d.desc) d.dispatchCore)).takeGroups ((matArgs d.desc).run (x.mxStart (matArgs d.desc) d.dispatchCore)) with
    holdEnd := holdAfter s x d }

theorem groupsTaken_spec (s : State) (x : Tile) (d : DescSlot) :
    groupsTaken s x d = { x with
      activity := (groupsTaken s x d).activity, mxEnd := matLast x d, mxRuns := (groupsTaken s x d).mxRuns, holdEnd := holdAfter s x d } := by
  unfold groupsTaken Tile.endHold
  split <;> rfl

theorem matmulBody_result (hn : (matArgs d.desc).nLast ≤ 32) :
    ∃ u, (matmulBody d (d.env t i)).result s = (.ok (matDone (s.tile t) d), u) ∧ Multiplied t d [] s u := by
  obtain ⟨⟨⟩, q, hq, hstored, hws, hacc⟩ := turns_matProduct (matArgs d.desc) hn (t := t) (w := (s.tile t).ws) s rfl
  have hwaiting : (q.tile t).mxWaiting = (s.tile t).mxWaiting := mxWaiting_of_same hstored.ran.slots hstored.ran.queues
  have hlast : matLast (q.tile t) d = matLast (s.tile t) d := by
    rw [hstored.tile]
    rfl
  have hhold : holdAfter q (q.tile t) d = holdAfter s (s.tile t) d := by
    unfold holdAfter
    rw [hwaiting, hlast, hstored.ran.tick]
  refine ⟨q.setTile t (groupsTaken q (q.tile t) d), ?_, ?_⟩
  · refine (result_bind_ok hq).trans ?_
    rw [show matDone (s.tile t) d = matDone (q.tile t) d by rw [matDone, matDone, hlast]]
    rfl
  · have hspec := groupsTaken_spec q (q.tile t) d
    have hran : Ran t q (q.setTile t (groupsTaken q (q.tile t) d)) := by
      refine ⟨rfl, ?_⟩
      rw [tile_setTile_same]
      rw [hspec]
    rw [hlast, hhold] at hspec
    refine ⟨hstored.ran.trans hran, fun k _ => ?_, ?_, ?_, ?_, ?_, ?_⟩ <;> rw [tile_setTile_same, hspec]
    · exact hacc k
    · exact hws
    · rw [hstored.tile]
    · rw [hstored.tile]

/-- A tile whose rows have taken the free values from the `k`th on. -/
def rowsFreed (k : Nat) (rows : List Nat) (x : Tile) : Tile :=
  ((List.range rows.length).zip rows).foldl (fun (x : Tile) r =>
    (List.range 32).foldl (fun (x : Tile) u => x.setAcc r.2 u (BitVec.ofNat 32 (Config.freeBits 32 (k + 32 * r.1 + u)))) x) x

/-- A tile apart from its accumulators. -/
def apartAcc (x : Tile) : Tile := { x with acc := [] }

theorem apartAcc_setAcc (x : Tile) (row u : Nat) (v : BitVec 32) : apartAcc (x.setAcc row u v) = apartAcc x := rfl

theorem eq_of_apartAcc {x y : Tile} (h : apartAcc y = apartAcc x) : y = { x with acc := y.acc } :=
  congrArg (fun z : Tile => { z with acc := y.acc }) h

theorem apartAcc_rowsFreed (k : Nat) (rows : List Nat) (x : Tile) : apartAcc (rowsFreed k rows x) = apartAcc x := by
  unfold rowsFreed
  refine foldl_keeps (fun y r => ?_) _ x
  exact foldl_keeps (fun z u => apartAcc_setAcc z ..) _ y

theorem accAt_rowsFreed (k : Nat) {rows : List Nat} (x : Tile) {row u : Nat} (hrow : row ∉ rows) (hu : u < 32) :
    (rowsFreed k rows x).accAt row u = x.accAt row u := by
  refine List.foldlRecOn (motive := fun y : Tile => y.accAt row u = x.accAt row u) _ _ rfl fun y hy r hr => ?_
  refine List.foldlRecOn (motive := fun y : Tile => y.accAt row u = x.accAt row u) _ _ hy fun z hz v hv => ?_
  rw [accAt_setAcc _ _ (List.mem_range.1 hv) hu, if_neg, hz]
  exact fun h => hrow (h.1 ▸ (List.of_mem_zip hr).2)

/-- A MATMUL that meets an uncorrectable error leaves the rows that take an operand from there free (R135, R148). -/
theorem matmulWith_result (e : StoreErr) (hn : (matArgs d.desc).nLast ≤ 32) :
    ∃ u, (matmulWith e d (d.env t i)).result s = (.ok { matDone (s.tile t) d with outc := matOutc e }, u)
      ∧ Multiplied t d (rowsLost d e) s u := by
  obtain ⟨u, hu, hm⟩ := matmulBody_result (s := s) (t := t) (i := i) hn
  obtain ⟨n, bad⟩ := e
  cases bad with
  | none => exact ⟨u, hu, hm⟩
  | some addr =>
    obtain ⟨hran, hacc, hws, hcorrected, huncorrected, hend, hhold⟩ := hm
    let rows := (matArgs d.desc).rowsFrom addr
    have hrest := eq_of_apartAcc (apartAcc_rowsFreed u.free rows (u.tile t))
    refine ⟨{ u.modTile t (rowsFreed u.free rows) with free := u.free + 32 * rows.length }, (result_bind_ok hu).trans rfl, ?_⟩
    have htile : State.tile { u.modTile t (rowsFreed u.free rows) with free := u.free + 32 * rows.length } t =
      rowsFreed u.free rows (u.tile t) := tile_modTile_same ..
    refine ⟨hran.trans ⟨rfl, ?_⟩, fun k hk => ?_, ?_, ?_, ?_, ?_, ?_⟩ <;> rw [htile]
    · rw [hrest]
    · rw [accs, accAt_rowsFreed (rows := rows) _ _ hk k.2.2]
      exact hacc k List.not_mem_nil
    all_goals rw [hrest]; assumption

end Body

/-! ### Its times -/

theorem foldl_max_zero {l : List Nat} (h : ∀ n ∈ l, n = 0) : l.foldl max 0 = 0 := by
  induction l with
  | nil => rfl
  | cons n l ih =>
    rw [List.foldl_cons, h n List.mem_cons_self]
    exact ih fun k hk => h k (List.mem_cons_of_mem _ hk)

/-- Drains of other rows do not hold up a MATMUL (R139). -/
theorem rowsDrained_of_disjoint {x : Tile} {row n : Nat} (h : ∀ e ∈ x.drains, rowsMeet (row, n) (e.1, e.2.1) = false) :
    x.rowsDrained row n = 0 := by
  refine foldl_max_zero fun k hk => ?_
  obtain ⟨e, he, rfl⟩ := List.mem_map.1 hk
  rw [drainedAt, h e he]
  rfl

/-- On an idle engine a MATMUL starts at its dispatch (R137). -/
theorem matLast_of_idle {x : Tile} {d : DescSlot}
    (h : ∀ e ∈ x.drains, rowsMeet ((matArgs d.desc).row, (matArgs d.desc).m * (matArgs d.desc).nb) (e.1, e.2.1) = false)
    (hend : x.mxEnd ≤ d.dispatchCore) (hpause : x.mxPause ≤ d.dispatchCore) :
    matLast x d = d.dispatchCore + cc ((matArgs d.desc).cycles + 34) := by
  unfold matLast Tile.mxStart
  rw [rowsDrained_of_disjoint h, if_neg (by omega)]
  omega

/-- Back to back, it ends its issue cycles after the one before (R137). -/
theorem matLast_of_busy {x : Tile} {d : DescSlot}
    (h : ∀ e ∈ x.drains, rowsMeet ((matArgs d.desc).row, (matArgs d.desc).m * (matArgs d.desc).nb) (e.1, e.2.1) = false)
    (hend : d.dispatchCore < x.mxEnd) (hpause : x.mxPause ≤ x.mxEnd - cc 34) (h34 : cc 34 ≤ x.mxEnd) :
    matLast x d = x.mxEnd + cc (matArgs d.desc).cycles := by
  unfold matLast Tile.mxStart
  rw [rowsDrained_of_disjoint h, if_pos hend]
  unfold cc at *
  omega

/-! ### Its end -/

/-- The queues stand, and so do the slots but the `i`th. -/
structure OnlySlot (i : Nat) (x y : Tile) : Prop where
  queues : y.queues = x.queues
  slot (j : Nat) : j ≠ i → y.slot j = x.slot j

namespace OnlySlot

variable {x y z : Tile} {i : Nat}

theorem refl (x : Tile) : OnlySlot i x x := ⟨rfl, fun _ _ => rfl⟩

theorem trans (h : OnlySlot i x y) (hz : OnlySlot i y z) : OnlySlot i x z :=
  ⟨hz.queues.trans h.queues, fun j hj => (hz.slot j hj).trans (h.slot j hj)⟩

theorem setSlot (x : Tile) (i : Nat) (d : DescSlot) : OnlySlot i x (x.setSlot i d) :=
  ⟨rfl, fun _ hj => slot_setSlot_other _ _ hj⟩

theorem branch (c : Prop) {dec : Decidable c} (hy : OnlySlot i x y) (hz : OnlySlot i x z) : OnlySlot i x (@ite Tile c dec y z) := by
  split
  · exact hy
  · exact hz

theorem endWork (x : Tile) (i k last pause : Nat) : OnlySlot i x (x.endWork i k last pause) := by
  unfold Tile.endWork
  dsimp only
  have hy : OnlySlot i x (if k < 6 then { x.act 22 (pause / 10) with
      engineFree := kvPut x.engineFree k (last + pause)
      pauses := if pause = 0 then x.pauses else kvPut x.pauses k (last, last + pause) } else x) := branch _ ⟨rfl, fun _ _ => rfl⟩ (refl x)
  split
  · exact hy.trans (setSlot ..)
  · exact hy

theorem modSlot (s : State) (t : TileRef) (i : Nat) (f : DescSlot → DescSlot) : OnlySlot i (s.tile t) ((s.modSlot t i f).tile t) := by
  rw [State.modSlot, tile_modTile_same]
  split
  · exact setSlot ..
  · exact refl _

/-- What is in the matrix queue stays there until it completes (R139). -/
theorem finishSlot {s : State} {t : TileRef} {d : DescSlot} (h : (s.tile t).slot i = some d) (hk : (queueOf d).key = 0) (o : Outc) :
    OnlySlot i (s.tile t) ((s.finishSlot t i o).tile t) := by
  rw [State.finishSlot, tile_modTile_same]
  simp only [h, hk, if_pos]
  exact (setSlot ..).trans (branch _ ⟨rfl, fun _ _ => rfl⟩ (refl _))

end OnlySlot

section Ends

variable {s u : State} {t : TileRef} {i : Nat} {d : DescSlot}

theorem key_of_matmul (h : dOpcode d.desc = 0x10) : (queueOf d).key = 0 := by
  unfold queueOf opForm
  rw [h]
  rfl

theorem onlySlot_conclude (h : (s.tile t).slot i = some d) (hq : Quiet d) (hw : d.waits = []) (hk : (queueOf d).key = 0) (r : Done) :
    OnlySlot i (s.tile t) ((s.conclude t i r).tile t) := by
  have hworked : OnlySlot i (s.tile t) ((worked s t i d r).tile t) := by
    rw [tile_worked]
    exact (OnlySlot.endWork ..).trans ⟨rfl, fun _ _ => rfl⟩
  rw [conclude_quiet h hq hw]
  exact ((hworked.trans (.modSlot ..)).trans (.modSlot ..)).trans
    (.finishSlot (slot_modSlot (slot_modSlot (slot_worked h r) _) _) hk _)

/-- With its one descriptor finished nothing waits in the matrix queue. -/
theorem mxWaiting_of_finished {x y : Tile} (hx : x.mxWaiting = [(i, d)]) (hy : OnlySlot i x y) {d' : DescSlot}
    (hslot : y.slot i = some d') (hfin : d'.ph = .finished) : y.mxWaiting = [] := by
  rw [Tile.mxWaiting, List.filterMap_eq_nil_iff, hy.queues]
  intro j hj
  by_cases hji : j = i
  · subst hji
    simp [hslot, hfin]
  · rw [hy.slot j hji]
    cases hslot' : x.slot j with
    | none => rfl
    | some b =>
      dsimp only
      rw [ite_eq_left_iff]
      intro hwaits
      have hmem : (j, b) ∈ x.mxWaiting := by
        refine List.mem_filterMap.2 ⟨j, hj, ?_⟩
        simp only [hslot', if_neg hwaits]
      rw [hx, List.mem_singleton, Prod.mk.injEq] at hmem
      exact absurd hmem.1 hji

/-- All groups of a tile on which nothing waits are kept by a hold of 35 cycles or more, at the end of its MATMUL (R138). -/
theorem groupsAt_of_hold {w : State} {x : Tile} {last hold : Nat} (hwaiting : x.mxWaiting = []) (hend : x.mxEnd = last)
    (hhold : x.holdEnd = some (last + cc hold - cc 6)) (h35 : 35 ≤ hold) : w.groupsAt t x last = 8 := by
  have hall (g : Nat) (hg : g < 8) : x.holding last g = true := by
    unfold Tile.holding
    rw [hhold, hend]
    dsimp only
    rw [Bool.and_eq_true, decide_eq_true_iff, decide_eq_true_iff]
    unfold cc
    omega
  have hforeseen : w.foreseen t x = x := by
    rw [State.foreseen, hwaiting]
    rfl
  unfold State.groupsAt
  dsimp only
  rw [hforeseen, List.filter_eq_self.2]
  · rfl
  · intro g hg
    rw [hall g (List.mem_range.1 hg), Bool.or_true]

/-- What a MATMUL leaves once its engine has been reckoned with. -/
structure MatmulEnds (t : TileRef) (i : Nat) (d : DescSlot) (e : StoreErr) (s w : State) : Prop where
  acc (k : Nat × Fin 32) : k.1 ∉ rowsLost d e → accs (w.tile t) k = productAfter (s.tile t).ws (matArgs d.desc) k (accs (s.tile t) k)
  ws : (w.tile t).ws = (s.tile t).ws
  mem : w.mem = s.mem
  eccCorrected : (w.tile t).eccCorrected = (s.tile t).eccCorrected + BitVec.ofNat 32 e.corrected
  eccUncorrected : (w.tile t).eccUncorrected = if e.bad.isSome then (s.tile t).eccUncorrected + 1 else (s.tile t).eccUncorrected
  mxEnd : (w.tile t).mxEnd = matLast (s.tile t) d
  holdEnd : (w.tile t).holdEnd = holdAfter s (s.tile t) d
  waiting : (s.tile t).mxWaiting = [(i, d)] → (w.tile t).mxWaiting = []
  reckoned : Reckoned s w t i d (matOutc e) (matLast (s.tile t) d) (cc (matArgs d.desc).cycles)

theorem matmulEnds (h : s.runnable t i 0x10 = some d) (hq : Quiet d) (hn : (matArgs d.desc).nLast ≤ 32) (e : StoreErr) :
    ∃ w, exec (.matmul t i e) s = .next w ∧ MatmulEnds t i d e s w := by
  obtain ⟨hslot, hop, -, hwaits, -⟩ := slot_of_runnable h
  have hcount := ran_countStore s t e
  obtain ⟨u, hu, hm⟩ := matmulWith_result (s := s.countStore t e) (t := t) (i := i) e hn
  have hran : Ran t s u := hcount.trans hm.ran
  have hlast : matLast ((s.countStore t e).tile t) d = matLast (s.tile t) d := by
    rw [tile_countStore]
    rfl
  have hold : holdAfter (s.countStore t e) ((s.countStore t e).tile t) d = holdAfter s (s.tile t) d := by
    unfold holdAfter
    rw [hlast, hcount.tick, mxWaiting_of_same hcount.slots hcount.queues]
  have hslot' : (u.tile t).slot i = some d := (hran.slot i).trans hslot
  let r : Done := { matDone ((s.countStore t e).tile t) d with outc := matOutc e }
  have hwork := onlyWork_conclude hslot' hq hwaits r
  have hfin := finished_conclude hslot' hq hwaits r
  have htime := time_conclude hslot' hq hwaits r
  rw [atEnd, if_pos hop] at hfin htime
  have hend : u.workEnd t d r = matLast (s.tile t) d := hlast
  have hcc : cc r.cycles + u.inCore t r.latency = cc (matArgs d.desc).cycles := by
    rw [show r.latency = 0 from rfl, inCore_zero]
    rfl
  rw [hend, hcc, hran.pauseOf, show r.endAt = none from rfl, Option.getD_none, hran.time] at hfin
  refine ⟨u.conclude t i r, ?_, ?_⟩
  · show Host.Outcome.next _ = _
    rw [meetStore_eq h, runDesc_ok ((hcount.runnable i 0x10).trans h) hu]
  · constructor
    · intro k hk
      rw [accs_of_acc hwork.acc, hm.acc k hk, tile_countStore]
      rfl
    · rw [hwork.ws, hm.ws, tile_countStore]
      rfl
    · exact (by rw [conclude_tilesAndTime hslot' hq hwaits r] : (u.conclude t i r).mem = u.mem).trans hran.mem
    · rw [hwork.eccCorrected, hm.eccCorrected, tile_countStore]
      rfl
    · rw [hwork.eccUncorrected, hm.eccUncorrected, tile_countStore]
      rfl
    · rw [hwork.mxEnd, hm.mxEnd, hlast]
    · rw [hwork.holdEnd, hm.holdEnd, hold]
    · intro hx
      rw [← mxWaiting_of_same hran.slots hran.queues] at hx
      exact mxWaiting_of_finished hx (onlySlot_conclude hslot' hq hwaits (key_of_matmul hop) r) hfin rfl
    · exact ⟨hfin, htime.trans hran.time⟩

end Ends

/-- Settles O33: each accumulator is a fold over blocks, columns and rows of which one step alone touches it. -/
theorem matmulAddsTheProductsOfItsChunks : Obligations.MatmulAddsTheProductsOfItsChunks := by
  unfold Obligations.MatmulAddsTheProductsOfItsChunks
  intro s t i d hrun hquiet a x lanes product columns c last hn
  refine ⟨fun n => ?_, fun n addr => ?_⟩
  · obtain ⟨w, hw, hends⟩ := matmulEnds hrun hquiet hn ⟨n, none⟩
    have hcol (nb : Nat) (hnb : nb < a.nb) : columns nb ≤ 32 := by
      show (if nb + 1 = a.nb then a.nLast else 32) ≤ 32
      split <;> omega
    have hacc (k : Nat × Fin 32) := hends.acc k List.not_mem_nil
    have hself (row u : Nat) (hu : u < 32) (h : ∀ nb < a.nb, ∀ m < a.m, row = a.row + nb * a.m + m → columnsOf a nb ≤ u) :
        (w.tile t).accAt row u = x.accAt row u := (hacc (row, ⟨u, hu⟩)).trans (productAfter_self _ _ h _)
    refine ⟨w, hw, ?_, ?_, ?_, hends.ws, hends.mem, hends.reckoned, hends.mxEnd, fun hdrains => ⟨?_, ?_⟩, ⟨?_, ?_⟩,
      hends.eccCorrected, hends.eccUncorrected⟩
    · intro nb m u hnb hm hu
      have hu32 : u < 32 := hu.trans_le (hcol nb hnb)
      exact (hacc (a.row + nb * a.m + m, ⟨u, hu32⟩)).trans (productAfter_entry _ a hnb hm hu hu32 _)
    · intro nb m u hnb hm hcols hu
      refine hself _ u hu fun nb' _ m' hm' hrow => ?_
      rwa [block_unique hm' hm (show nb' * a.m + m' = nb * a.m + m by omega)]
    · intro row u hu hrow
      refine hself row u hu fun nb hnb m hm hat => ?_
      have := Nat.mul_le_mul_right a.m (show nb + 1 ≤ a.nb from hnb)
      rw [Nat.add_mul, Nat.mul_comm a.nb] at this
      omega
    · exact fun hend hpause => matLast_of_idle hdrains hend hpause
    · exact fun hend hpause h34 => matLast_of_busy hdrains hend hpause h34
    · intro hold
      have hat : (w.tile t).holdEnd = some (last + cc a.hold - cc 6) := by
        rw [hends.holdEnd, holdAfter, if_pos]
        · rfl
        · simpa only [Bool.and_eq_true, decide_eq_true_eq, and_assoc] using hold
      exact ⟨hat, fun h35 hone => groupsAt_of_hold (hends.waiting hone) hends.mxEnd hat h35⟩
    · intro hold
      rw [hends.holdEnd, holdAfter, if_neg]
      simpa only [Bool.and_eq_true, decide_eq_true_eq, and_assoc] using hold
  · obtain ⟨w, hw, hends⟩ := matmulEnds hrun hquiet hn ⟨n, some addr⟩
    obtain ⟨v, hv, hfree⟩ := matmulEnds hrun hquiet hn {}
    exact ⟨w, v, hw, hv, fun row hrow u hu => (hends.acc (row, ⟨u, hu⟩) hrow).trans (hfree.acc (row, ⟨u, hu⟩) List.not_mem_nil).symm,
      hends.ws, hends.mem, hends.eccCorrected, hends.eccUncorrected, hends.reckoned, hfree.reckoned⟩

end Sys2Proof.Proofs
end

section
/-! Rows of bytes in the work store (R145, R164): what a write leaves at each address, and what is read back of rows written at a pitch. -/

namespace Sys2Proof.Proofs

open Sys2Proof Sys2Proof.Machine Sys2Proof.Laws Sys2Proof.Safety

/-! ### Bytes -/

theorem cellGet_put (m : List Host.Cell) (a c : Nat) (b : Byte) : cellGet (cellPut m a b) c = if c = a then b else cellGet m c := by
  induction m with
  | nil => simp [cellPut, cellGet, eq_comm]
  | cons e m ih =>
    obtain ⟨k, v⟩ := e
    unfold cellPut
    split
    · simp [cellGet, eq_comm]
    · split
      · next hk =>
        subst hk
        simp only [cellGet, eq_comm]
        split <;> rfl
      · next hk =>
        simp only [cellGet, ih]
        split
        · next hc => rw [if_neg (by omega)]
        · rfl

/-- A byte reads as set, the others as before, in any list of cells. -/
theorem cellGet_set (m : List Host.Cell) (a c : Nat) (b : Byte) : cellGet (cellSet m a b) c = if c = a then b else cellGet m c := by
  unfold cellSet
  split
  · next hb => rw [cellGet_filter_ne, hb]
  · exact cellGet_put ..

/-- The byte at an address after `bytes` have been written from `a` on. -/
def byteAfter (a : Nat) (bytes : List Byte) (k : Nat) (v : Byte) : Byte := if a ≤ k then (bytes[k - a]?).getD v else v

theorem cellGet_write (bytes : List Byte) (m : List Host.Cell) (a k : Nat) :
    cellGet (cellWrite m a bytes) k = byteAfter a bytes k (cellGet m k) := by
  induction bytes generalizing m a with
  | nil => simp [cellWrite, byteAfter]
  | cons b bytes ih =>
    rw [cellWrite, ih, cellGet_set]
    unfold byteAfter
    rcases Nat.lt_trichotomy k a with h | h | h
    · rw [if_neg (by omega), if_neg (by omega), if_neg (by omega)]
    · rw [if_neg (by omega), if_pos h, if_pos (by omega), h, Nat.sub_self]
      rfl
    · rw [if_pos (by omega), if_neg (by omega), if_pos (by omega), show k - a = (k - (a + 1)) + 1 by omega, List.getElem?_cons_succ]

theorem byteAfter_outside {a k : Nat} {bytes : List Byte} (h : k < a ∨ a + bytes.length ≤ k) (v : Byte) : byteAfter a bytes k v = v := by
  unfold byteAfter
  split
  · rw [List.getElem?_eq_none (by omega)]
    rfl
  · rfl

theorem byteAfter_at {a j : Nat} {bytes : List Byte} (h : j < bytes.length) (v : Byte) : byteAfter a bytes (a + j) v = bytes[j] := by
  unfold byteAfter
  rw [if_pos (Nat.le_add_right ..), Nat.add_sub_cancel_left, List.getElem?_eq_getElem h]
  rfl

/-- The bytes of a tile's work store, by address. -/
def cells (x : Tile) (k : Nat) : Byte := cellGet x.ws k

theorem turns_wsWrite {t : TileRef} {c : KV (BitVec 32)} (a : Nat) (bytes : List Byte) :
    Turns t (fun x => x.acc = c) cells (wsWrite t a bytes) (byteAfter a bytes) :=
  .upd (fun _ => rfl) (fun _ h => h) fun _ _ => cellGet_write ..

/-! ### Rows at a pitch -/

/-- Rows written at a pitch read back. -/
theorem cellRead_rows {n r base pitch : Nat} {bytes : Nat → List Byte} {x y : Tile} (hlen : ∀ r < n, (bytes r).length ≤ pitch) (hr : r < n)
    (h : ∀ k, cells y k = (List.range n).foldl (fun v r => byteAfter (base + r * pitch) (bytes r) k v) (cells x k)) :
    cellRead y.ws (base + r * pitch) (bytes r).length = bytes r := by
  refine List.ext_getElem (by simp [cellRead]) fun j hj hj' => ?_
  have hbyte : cells y (base + r * pitch + j) = (bytes r)[j] := by
    rw [h, foldl_range_single hr]
    · exact byteAfter_at hj' _
    · intro i hi hne v
      refine byteAfter_outside ?_ v
      have hi := hlen i hi
      have hr := hlen r hr
      rcases Nat.lt_or_gt_of_ne hne with hlt | hlt
      · have := Nat.mul_le_mul_right pitch (show i + 1 ≤ r from hlt)
        rw [Nat.add_mul] at this
        omega
      · have := Nat.mul_le_mul_right pitch (show r + 1 ≤ i from hlt)
        rw [Nat.add_mul] at this
        omega
  simpa only [cellRead, List.getElem_map, List.getElem_range, cells] using hbyte

/-! ### Packed runs -/

theorem length_packFour (codes : List Nat) : (packFour codes).length = ceilDiv codes.length 2 := by
  induction codes using packFour.induct with
  | case1 a b r ih => simp only [packFour, List.length_cons, ih, ceilDiv]; omega
  | case2 a => simp [packFour, ceilDiv]
  | case3 => rfl

theorem length_packSix (codes : List Nat) : (packSix codes).length = 3 * ceilDiv codes.length 4 := by
  induction codes using packSix.induct with
  | case1 a b c d r ih => simp only [packSix, List.length_append, length_bytesLE, List.length_cons, ih, ceilDiv]; omega
  | case2 a b c => simp [packSix, length_bytesLE, ceilDiv]
  | case3 a b => simp [packSix, length_bytesLE, ceilDiv]
  | case4 a => simp [packSix, length_bytesLE, ceilDiv]
  | case5 => rfl

theorem length_packRun (fmt : Nat) (codes : List Nat) : (packRun fmt codes).length = runBytes fmt codes.length := by
  unfold packRun runBytes
  split
  · exact length_packFour codes
  · exact length_packSix codes
  · simp [List.length_flatMap, length_bytesLE, Nat.mul_comm]

/-- A run of elements of a byte or more. -/
theorem runBytes_of_byte {fmt : Nat} (h : 8 ≤ fmtBits fmt) (n : Nat) : runBytes fmt n = fmtBits fmt / 8 * n := by
  unfold runBytes
  split <;> omega

theorem le_vecPitch (fmt n : Nat) : fmtBits fmt / 8 * n ≤ vecPitch fmt n := by
  unfold vecPitch ceilDiv
  omega

end Sys2Proof.Proofs
end

section
/-! ACC_DRAIN and VECTOR (R139 to R141, R145 to R148): what their runs leave, and O34. -/

namespace Sys2Proof.Proofs

open Sys2Proof Sys2Proof.Machine Sys2Proof.Laws Sys2Proof.Safety

/-! ### The end of a run on an engine with its own stores -/

section Ends

variable {s q : State} {t : TileRef} {i op : Nat} {d : DescSlot} {e : StoreErr} {stopped : Stop → State → State}
  {body : DescSlot → Env → M Done}

/-- A run that changes its tile alone ends when its work does, with what the stores' code found counted. -/
theorem runDesc_ran (h : s.runnable t i op = some d) (hq : Quiet d) (hop : op ≠ 0x10) {r : Done}
    (hb : (body d (d.env t i)).result (s.countStore t e) = (.ok r, q)) (hran : Ran t (s.countStore t e) q) (hat : r.endAt = none)
    (hl : r.latency = 0) :
    Executed s ((s.meetStore t i op e).runDesc t i op stopped body) t i d r.outc (q.workEnd t d r) (cc r.cycles)
      ∧ OnlyWork (q.tile t) (((s.meetStore t i op e).runDesc t i op stopped body).tile t)
      ∧ ((s.meetStore t i op e).runDesc t i op stopped body).mem = s.mem := by
  obtain ⟨hslot, hopcode, -, hwaits, -⟩ := slot_of_runnable h
  have hcount := ran_countStore s t e
  have hall : Ran t s q := hcount.trans hran
  have hslot' : (q.tile t).slot i = some d := (hall.slot i).trans hslot
  rw [meetStore_eq h, runDesc_ok ((hcount.runnable i op).trans h) hb]
  have hex := executed_conclude hslot' hq hwaits (hopcode ▸ hop) hat
  rw [hl, inCore_zero, Nat.add_zero] at hex
  exact ⟨hall.executed hex, onlyWork_conclude hslot' hq hwaits r,
    (by rw [conclude_tilesAndTime hslot' hq hwaits r] : (q.conclude t i r).mem = q.mem).trans hall.mem⟩

/-- An uncorrectable error in a store ends a descriptor at once, with nothing done (R148). -/
theorem runDesc_bad (h : s.runnable t i op = some d) (hq : Quiet d) (hop : op ≠ 0x10) (he : e.bad.isSome = true) :
    RunsFor s ((s.meetStore t i op e).runDesc t i op noStop (guardStore e body)) t i d (outc St.poisoned 0) 0
      ∧ OnlyWork (eccCounted e (s.tile t)) (((s.meetStore t i op e).runDesc t i op noStop (guardStore e body)).tile t)
      ∧ ((s.meetStore t i op e).runDesc t i op noStop (guardStore e body)).mem = s.mem := by
  obtain ⟨hslot, hopcode, -, hwaits, -⟩ := slot_of_runnable h
  have hcount := ran_countStore s t e
  have hslot' : ((s.countStore t e).tile t).slot i = some d := (hcount.slot i).trans hslot
  rw [meetStore_eq h, runDesc_stop ((hcount.runnable i op).trans h) (guardStore_bad he ..) rfl, recordFault_of_kind_zero rfl, noStop]
  refine ⟨hcount.runsFor (runsFor_conclude hslot' hq hwaits (hopcode ▸ hop) rfl rfl rfl rfl), ?_, ?_⟩
  · rw [← tile_countStore]
    exact onlyWork_conclude hslot' hq hwaits _
  · exact (by rw [conclude_tilesAndTime hslot' hq hwaits _] :
      ((s.countStore t e).conclude t i { outc := outc St.poisoned 0 }).mem = (s.countStore t e).mem).trans hcount.mem

end Ends

/-! ### ACC_DRAIN -/

section Drain

variable {s : State} {t : TileRef} {i : Nat} {d : DescSlot}

theorem zip_range_map {α : Type} (n : Nat) (f : Nat → α) : (List.range n).zip ((List.range n).map f) = (List.range n).map fun r => (r, f r) := by
  conv_lhs => rw [← List.map_id' (List.range n), List.map_map]
  exact List.zip_map' ..

/-- A drained row, quantised. -/
def drainedRow (x : Tile) (a : DrainArgs) (sat : Bool) (r : Nat) : List Nat × List Nat × FmtFlags :=
  quantRow a.fmt a.smode sat (.fin false 1 0) (drainRow x a r)

/-- The byte at an address after a row-major drain. -/
def drainedByte (x : Tile) (a : DrainArgs) (sat : Bool) (k : Nat) (v : Byte) : Byte :=
  (List.range a.rows).foldl (fun v r =>
    byteAfter (a.scl + r * scaleCount a.smode a.cols) ((drainedRow x a sat r).2.1.map (BitVec.ofNat 8)) k
      (byteAfter (a.dest + r * a.pitch) (packRun a.fmt (drainedRow x a sat r).1) k v)) v

theorem turns_drainRows (x : Tile) (a : DrainArgs) (sat : Bool) (c : KV (BitVec 32)) :
    Turns t (fun x => x.acc = c) cells (drainRows t a sat ((List.range a.rows).map (drainRow x a))) (drainedByte x a sat) := by
  unfold drainRows drainedByte
  dsimp only
  rw [List.map_map, List.length_map, List.length_range, zip_range_map]
  refine Turns.bind (g := fun _ v => v) (f := drainedByte x a sat) ?_ fun _ => .pure _
  have hrows := Turns.forM (t := t) (p := fun x => x.acc = c) (obs := cells)
    ((List.range a.rows).map fun r => (r, drainedRow x a sat r)) fun r _ =>
    (turns_wsWrite (t := t) (c := c) (a.dest + r.1 * a.pitch) (packRun a.fmt r.2.1)).bind fun _ =>
      turns_wsWrite (t := t) (c := c) (a.scl + r.1 * scaleCount a.smode a.cols) (r.2.2.1.map (BitVec.ofNat 8))
  simp only [List.foldl_map] at hrows
  exact hrows

/-- Output in slots too leaves the accumulators. -/
theorem turns_drainBcast (a : DrainArgs) (sat : Bool) (rows : List (List Fv)) (c : KV (BitVec 32)) :
    Turns t (fun x => x.acc = c) (fun _ (_ : Unit) => ()) (drainBcast t a sat rows) fun _ v => v := by
  unfold drainBcast
  dsimp only
  refine Turns.bind (f := fun _ v => v) (g := fun _ v => v) (Turns.mapM _ (f := fun _ _ v => v) fun p _ => ?_) fun _ => .pure _
  refine Turns.bind (f := fun _ v => v) (g := fun _ v => v) (turns_wsWrite _ _).writes fun _ => ?_
  split
  · exact Turns.bind (f := fun _ v => v) (g := fun _ v => v) (turns_wsWrite _ _).writes fun _ => .pure _
  · exact .pure _

/-- What an ACC_DRAIN has left of a state on its tile. -/
structure Drained (t : TileRef) (d : DescSlot) (s u : State) : Prop where
  ran : Ran t s u
  eccCorrected : (u.tile t).eccCorrected = (s.tile t).eccCorrected
  eccUncorrected : (u.tile t).eccUncorrected = (s.tile t).eccUncorrected
  acc : (u.tile t).acc = if (drainArgs d.desc).clear then ((s.tile t).clearAcc (drainArgs d.desc).row (drainArgs d.desc).rows).acc
    else (s.tile t).acc
  cells : (drainArgs d.desc).bcast = false → ∀ k,
    cells (u.tile t) k = drainedByte (s.tile t) (drainArgs d.desc) (dSaturate d.desc) k (cells (s.tile t) k)

/-- What an ACC_DRAIN's run answers. -/
def drainDone (x : Tile) (a : DrainArgs) (at_ : Nat) (f : FmtFlags) : Done :=
  { outc := f.done, cycles := a.rows, endCore := some (x.drainStart a at_ + cc (a.rows + 8)) }

/-- A tile whose drain path has been taken. -/
def drainTaken (a : DrainArgs) (start : Nat) (x : Tile) : Tile := (if a.clear then x.clearAcc a.row a.rows else x).takeDrain a start

theorem drainTaken_spec (a : DrainArgs) (start : Nat) (x : Tile) : drainTaken a start x = { x with
    acc := if a.clear then (x.clearAcc a.row a.rows).acc else x.acc, drains := (drainTaken a start x).drains
    drainEnd := (drainTaken a start x).drainEnd } := by
  unfold drainTaken
  split <;> rfl

/-- The drain once its rows are written. -/
theorem drained_of_stored {q : State} (a : DrainArgs) (start : Nat) (hstored : Stored t s q) (hacc : (q.tile t).acc = (s.tile t).acc)
    (ha : drainArgs d.desc = a) (hcells : a.bcast = false → ∀ k,
      cells (q.tile t) k = drainedByte (s.tile t) a (dSaturate d.desc) k (cells (s.tile t) k)) :
    Drained t d s (q.modTile t (drainTaken a start)) := by
  subst ha
  refine ⟨hstored.ran.modTile fun x => ?_, ?_, ?_, ?_, fun hb k => ?_⟩
  · rw [drainTaken_spec]
  all_goals rw [tile_modTile_same, drainTaken_spec]
  · rw [hstored.tile]
  · rw [hstored.tile]
  · dsimp only [Tile.clearAcc]
    rw [hacc]
  · exact hcells hb k

theorem drainBody_result : ∃ f u, (drainBody d (d.env t i)).result s =
    (.ok (drainDone (s.tile t) (drainArgs d.desc) d.dispatchCore f), u) ∧ Drained t d s u := by
  cases hb : (drainArgs d.desc).bcast with
  | true =>
    obtain ⟨f, q, hq, hstored, hacc, -⟩ := turns_drainBcast (t := t) (drainArgs d.desc) (dSaturate d.desc)
      ((List.range (drainArgs d.desc).rows).map (drainRow (s.tile t) (drainArgs d.desc))) (s.tile t).acc s rfl
    refine ⟨f, _, ?_, drained_of_stored (drainArgs d.desc) ((s.tile t).drainStart (drainArgs d.desc) d.dispatchCore) hstored hacc rfl
      fun h => absurd (hb ▸ h) (by decide)⟩
    unfold drainBody
    refine (result_bind_ok (show (get : M State).result s = (.ok s, s) from rfl)).trans ?_
    dsimp only
    rw [hb, if_pos rfl]
    exact (result_bind_ok hq).trans rfl
  | false =>
    obtain ⟨f, q, hq, hstored, hacc, hcells⟩ := turns_drainRows (t := t) (s.tile t) (drainArgs d.desc) (dSaturate d.desc) (s.tile t).acc s rfl
    refine ⟨f, _, ?_, drained_of_stored (drainArgs d.desc) ((s.tile t).drainStart (drainArgs d.desc) d.dispatchCore) hstored hacc rfl
      fun _ => hcells⟩
    unfold drainBody
    refine (result_bind_ok (show (get : M State).result s = (.ok s, s) from rfl)).trans ?_
    dsimp only
    rw [hb, if_neg Bool.false_ne_true]
    exact (result_bind_ok hq).trans rfl

theorem accAt_clearAcc (x : Tile) (row n : Nat) {k u : Nat} (hu : u < 32) :
    (x.clearAcc row n).accAt k u = if row ≤ k ∧ k < row + n then 0 else x.accAt k u := by
  unfold Tile.accAt kvGet Tile.clearAcc
  dsimp only
  rw [kvFind_filter_key fun c => decide (c < 32 * row) || decide (32 * (row + n) ≤ c)]
  by_cases h : row ≤ k ∧ k < row + n
  · rw [if_neg (by rw [Bool.or_eq_true, decide_eq_true_iff, decide_eq_true_iff]; omega), if_pos h]
    rfl
  · rw [if_pos (by rw [Bool.or_eq_true, decide_eq_true_iff, decide_eq_true_iff]; omega), if_neg h]

/-- A run on other rows does not hold up a drain (R139). -/
theorem rowReady_of_disjoint {r : MxRun} {row n i : Nat} (h : rowsMeet (row, n) (r.row, r.m * r.nb) = false) (hi : i < n) :
    r.rowReady (row + i) = 0 := by
  have hout : row + i < r.row ∨ r.row + r.m * r.nb ≤ row + i := by
    by_contra hin
    rw [Bool.eq_false_iff] at h
    refine h ?_
    rw [rowsMeet, Bool.and_eq_true, decide_eq_true_iff, decide_eq_true_iff]
    omega
  rw [MxRun.rowReady, if_pos]
  rwa [Bool.or_eq_true, decide_eq_true_iff, decide_eq_true_iff]

theorem drainStart_of_disjoint {x : Tile} {a : DrainArgs} {at_ : Nat}
    (h : ∀ r ∈ x.mxRuns, rowsMeet (a.row, a.rows) (r.row, r.m * r.nb) = false) (hpause : x.mxPause ≤ at_) :
    x.drainStart a at_ = max at_ x.drainEnd := by
  have hready : ((List.range a.rows).map fun i => (x.mxRuns.map fun r => r.rowReady (a.row + i)).foldl max 0 - cc i).foldl max 0 = 0 := by
    refine foldl_max_zero fun k hk => ?_
    obtain ⟨i, hi, rfl⟩ := List.mem_map.1 hk
    rw [foldl_max_zero, Nat.zero_sub]
    intro n hn
    obtain ⟨r, hr, rfl⟩ := List.mem_map.1 hn
    exact rowReady_of_disjoint (h r hr) (List.mem_range.1 hi)
  unfold Tile.drainStart
  dsimp only
  rw [hready, Nat.max_zero]
  exact Nat.max_eq_left (hpause.trans (Nat.le_max_left ..))

/-- A row of a row-major drain without scales reads back. -/
theorem cellRead_drained {x y : Tile} {a : DrainArgs} {sat : Bool} (hs : a.smode = 0) (hp : runBytes a.fmt a.cols ≤ a.pitch)
    (h : ∀ k, cells y k = drainedByte x a sat k (cells x k)) {r : Nat} (hr : r < a.rows) :
    cellRead y.ws (a.dest + r * a.pitch) (packRun a.fmt (drainedRow x a sat r).1).length = packRun a.fmt (drainedRow x a sat r).1 := by
  have hlen (r : Nat) : (packRun a.fmt (drainedRow x a sat r).1).length ≤ a.pitch := by
    rw [length_packRun, drainedRow, quantRow, if_pos hs]
    simpa [drainRow] using hp
  refine cellRead_rows (x := x) (bytes := fun r => packRun a.fmt (drainedRow x a sat r).1) (fun r _ => hlen r) hr fun k => (h k).trans ?_
  have hscales (r : Nat) : (drainedRow x a sat r).2.1 = [] := by rw [drainedRow, quantRow, if_pos hs]
  unfold drainedByte
  simp only [hscales, List.map_nil]
  congr 1
  funext v r
  refine byteAfter_outside ?_ _
  rw [List.length_nil]
  omega

end Drain

/-! ### VECTOR -/

/-- A row of operands in the work store, as FP32 (R174). -/
def rowIn (w : List Host.Cell) (base fmt n r : Nat) : List (BitVec 32) :=
  (unpackRun fmt n (cellRead w (base + r * vecPitch fmt n) (fmtBits fmt / 8 * n))).map fun c => toF32 (decodeNum fmt c)

/-- Operand b of a row (R145). -/
def operandB (w : List Host.Cell) (v : VecArgs) (r : Nat) : List (BitVec 32) :=
  if !vopUsesB v.op || v.bImm then List.replicate v.n v.imm
  else if v.op = 0x13 then List.replicate v.n (((rowIn w v.b v.fi 1 (if v.bRow then 0 else r)).head?).getD 0)
  else rowIn w v.b v.fi v.n (if v.bRow then 0 else r)

/-- The values of an element-wise operation on a row. -/
def elemsOut (w : List Host.Cell) (v : VecArgs) (r : Nat) : List (BitVec 32) :=
  (((rowIn w v.a v.fi v.n r).zip (operandB w v r)).zip (if v.op = 0x03 then rowIn w v.dest v.fo v.n r else rowIn w v.a v.fi v.n r)).map
    fun e => vecElem v.op e.1.1 e.1.2 e.2

/-- Values as output bytes, with the flags of their conversion. -/
def valuesOut (v : VecArgs) (sat : Bool) (l : List (BitVec 32)) : List Byte × FmtFlags :=
  (packRun v.fo (vecOutCodes v.fo sat l).1, (vecOutCodes v.fo sat l).2)

/-- What a row operation's result leaves. -/
def reducedOut (v : VecArgs) (sat : Bool) : RowOut → List Byte × FmtFlags
  | .value x => valuesOut v sat [x]
  | .index i f => (bytesLE 4 (i % 2 ^ 32).toNat, f)

/-- Output bytes and flags of a row. -/
def rowOut (w : List Host.Cell) (v : VecArgs) (sat : Bool) (r : Nat) : List Byte × FmtFlags :=
  if vopReduces v.op then reducedOut v sat (vecReduce v.op v.imm (rowIn w v.a v.fi v.n r)) else valuesOut v sat (elemsOut w v r)

section Vector

variable {s : State} {t : TileRef} {i : Nat} {d : DescSlot} {w : List Host.Cell}

theorem looks_vecRow (base fmt n r : Nat) : Looks t w (vecRow t base fmt n r) (rowIn w base fmt n r) :=
  (Looks.wsRead _ _).bind (.pure _)

theorem looks_vecB (v : VecArgs) (r : Nat) : Looks t w (vecB t v r) (operandB w v r) := by
  unfold vecB operandB
  split
  · exact .pure _
  · dsimp only
    split
    · exact (looks_vecRow _ _ _ _).bind (.pure _)
    · exact looks_vecRow _ _ _ _

theorem looks_vecRowOut (v : VecArgs) (sat : Bool) (r : Nat) : Looks t w (vecRowOut t v sat r) (rowOut w v sat r) := by
  unfold vecRowOut rowOut
  refine (looks_vecRow _ _ _ _).bind ?_
  split
  · cases vecReduce v.op v.imm (rowIn w v.a v.fi v.n r) with
    | value x => exact .pure _
    | index i f => exact .pure _
  · refine (looks_vecB v r).bind ?_
    dsimp only
    unfold valuesOut elemsOut
    split
    · exact (looks_vecRow _ _ _ _).bind (.pure _)
    · exact (Looks.pure _).bind (.pure _)

/-- Values of a byte or more take their format's bytes each. -/
theorem length_valuesOut {v : VecArgs} (h : 8 ≤ fmtBits v.fo) (sat : Bool) (l : List (BitVec 32)) :
    (valuesOut v sat l).1.length = fmtBits v.fo / 8 * l.length := by
  rw [valuesOut, length_packRun, runBytes_of_byte h]
  simp [vecOutCodes]

theorem length_rowIn (base fmt n r : Nat) : (rowIn w base fmt n r).length = n := by simp [rowIn, unpackRun]

theorem length_operandB (v : VecArgs) (r : Nat) : (operandB w v r).length = v.n := by
  unfold operandB
  split
  · exact List.length_replicate
  · split
    · exact List.length_replicate
    · exact length_rowIn ..

theorem length_elemsOut (v : VecArgs) (r : Nat) : (elemsOut w v r).length = v.n := by
  have hz : (if v.op = 0x03 then rowIn w v.dest v.fo v.n r else rowIn w v.a v.fi v.n r).length = v.n := by
    split <;> exact length_rowIn ..
  rw [elemsOut, List.length_map, List.length_zip, List.length_zip, hz, length_rowIn, length_operandB, Nat.min_self, Nat.min_self]

/-- Elements of an output row. -/
def outLen (v : VecArgs) : Nat := if vopReduces v.op then 1 else v.n

/-- What a VECTOR has left of a state on its tile. -/
structure Computed (t : TileRef) (d : DescSlot) (s u : State) : Prop where
  stored : Stored t s u
  acc : (u.tile t).acc = (s.tile t).acc
  cells : vecClash (vecArgs d.desc) = false → ∀ k, cells (u.tile t) k = (List.range (vecArgs d.desc).rows).foldl (fun v r =>
    byteAfter ((vecArgs d.desc).dest + r * vecPitch (vecArgs d.desc).fo (outLen (vecArgs d.desc)))
      (rowOut (s.tile t).ws (vecArgs d.desc) (dSaturate d.desc) r).1 k v) (cells (s.tile t) k)

/-- What a VECTOR's run answers. -/
def vecDone (v : VecArgs) (f : FmtFlags) : Done :=
  { outc := f.done, cycles := v.rows * (ceilDiv v.n (vecRate v.op) + if 0x10 ≤ v.op then 12 else 0) }

theorem turns_freeBytes {p : Tile → Prop} (n : Nat) : Turns t p (fun _ (_ : Unit) => ()) (freeBytes n) fun _ v => v :=
  fun s hs => ⟨_, { s with free := s.free + n }, rfl, ⟨rfl, rfl⟩, hs, fun _ => rfl⟩

/-- The output rows as they are written. -/
def rowsWritten (t : TileRef) (v : VecArgs) (out : List (List Byte × FmtFlags)) : M PUnit :=
  ((List.range v.rows).zip out).forM fun e => do
    let bytes ← if vecClash v then freeBytes e.2.1.length else pure e.2.1
    wsWrite t (v.dest + e.1 * vecPitch v.fo (outLen v)) bytes

theorem turns_rowsWritten_free (v : VecArgs) (out : List (List Byte × FmtFlags)) (c : KV (BitVec 32)) :
    Turns t (fun x => x.acc = c) (fun _ (_ : Unit) => ()) (rowsWritten t v out) fun _ v => v := by
  refine Turns.forM _ (f := fun _ _ v => v) fun e _ => ?_
  dsimp only
  split
  · exact Turns.bind (f := fun _ v => v) (g := fun _ v => v) (turns_freeBytes _) fun _ => (turns_wsWrite _ _).writes
  · exact Turns.bind (f := fun _ v => v) (g := fun _ v => v) (.pure _) fun _ => (turns_wsWrite _ _).writes

theorem turns_rowsWritten (v : VecArgs) (hclash : vecClash v = false) (f : Nat → List Byte × FmtFlags) (c : KV (BitVec 32)) :
    Turns t (fun x => x.acc = c) cells (rowsWritten t v ((List.range v.rows).map f)) fun k b => (List.range v.rows).foldl
      (fun b r => byteAfter (v.dest + r * vecPitch v.fo (outLen v)) (f r).1 k b) b := by
  unfold rowsWritten
  rw [zip_range_map]
  have hrows := Turns.forM (t := t) (p := fun x => x.acc = c) (obs := cells) ((List.range v.rows).map fun r => (r, f r))
    (m := fun e => do
      let bytes ← if vecClash v then freeBytes e.2.1.length else pure e.2.1
      wsWrite t (v.dest + e.1 * vecPitch v.fo (outLen v)) bytes)
    (f := fun e => byteAfter (v.dest + e.1 * vecPitch v.fo (outLen v)) e.2.1) fun e _ => by
      rw [hclash, if_neg Bool.false_ne_true, pure_bind]
      exact turns_wsWrite _ _
  simp only [List.foldl_map] at hrows
  exact hrows

theorem rowsWritten_result (v : VecArgs) (f : Nat → List Byte × FmtFlags) :
    ∃ u, (rowsWritten t v ((List.range v.rows).map f)).result s = (.ok (), u) ∧ Stored t s u ∧ (u.tile t).acc = (s.tile t).acc
      ∧ (vecClash v = false → ∀ k, cells (u.tile t) k = (List.range v.rows).foldl
        (fun b r => byteAfter (v.dest + r * vecPitch v.fo (outLen v)) (f r).1 k b) (cells (s.tile t) k)) := by
  cases hclash : vecClash v with
  | true =>
    obtain ⟨⟨⟩, u, hu, hstored, hacc, -⟩ := turns_rowsWritten_free (t := t) v ((List.range v.rows).map f) (s.tile t).acc s rfl
    exact ⟨u, hu, hstored, hacc, fun h => absurd h (by decide)⟩
  | false =>
    obtain ⟨⟨⟩, u, hu, hstored, hacc, hcells⟩ := turns_rowsWritten (t := t) v hclash f (s.tile t).acc s rfl
    exact ⟨u, hu, hstored, hacc, fun _ => hcells⟩

theorem vectorBody_result : ∃ f u, (vectorBody d (d.env t i)).result s = (.ok (vecDone (vecArgs d.desc) f), u) ∧ Computed t d s u := by
  obtain ⟨q, hq, hread, hws, hacc⟩ := Looks.mapM (t := t) (w := (s.tile t).ws) (List.range (vecArgs d.desc).rows)
    (fun r _ => looks_vecRowOut (vecArgs d.desc) (dSaturate d.desc) r) s rfl
  obtain ⟨u, hu, hwritten, hacc', hcells⟩ := rowsWritten_result (s := q) (t := t) (vecArgs d.desc)
    (rowOut (s.tile t).ws (vecArgs d.desc) (dSaturate d.desc))
  refine ⟨_, _, (result_bind_ok hq).trans ((result_bind_ok hu).trans rfl), ⟨(hread.trans hwritten).trans (.modTile _ _ fun _ => rfl), ?_, ?_⟩⟩
  · refine (congrArg Tile.acc (tile_modTile_same ..)).trans ?_
    exact hacc'.trans hacc
  · intro hclash k
    refine (congrArg (cells · k) (tile_modTile_same ..)).trans ((hcells hclash k).trans ?_)
    unfold cells
    rw [hws]

/-- A row of output reads back, where all rows have the length of the output's. -/
theorem cellRead_computed {x y : Tile} {v : VecArgs} {sat : Bool} (h : ∀ k, cells y k = (List.range v.rows).foldl
      (fun b r => byteAfter (v.dest + r * vecPitch v.fo (outLen v)) (rowOut x.ws v sat r).1 k b) (cells x k))
    (hlen : ∀ r, (rowOut x.ws v sat r).1.length = fmtBits v.fo / 8 * outLen v) {r : Nat} (hr : r < v.rows) :
    cellRead y.ws (v.dest + r * vecPitch v.fo (outLen v)) (fmtBits v.fo / 8 * outLen v) = (rowOut x.ws v sat r).1 := by
  rw [← hlen r]
  refine cellRead_rows (x := x) (bytes := fun r => (rowOut x.ws v sat r).1) (fun r _ => ?_) hr h
  rw [hlen r]
  exact le_vecPitch ..

end Vector

/-! ### Their ends -/

section Ends

variable {s : State} {t : TileRef} {i : Nat} {d : DescSlot}

theorem accDrain_ends (hrun : s.runnable t i 0x11 = some d) (hq : Quiet d) (n : Nat) :
    ∃ w f, exec (.accDrain t i ⟨n, none⟩) s = .next w ∧ w.mem = s.mem
      ∧ ((w.tile t).eccCorrected = (s.tile t).eccCorrected + BitVec.ofNat 32 n ∧ (w.tile t).eccUncorrected = (s.tile t).eccUncorrected)
      ∧ Executed s w t i d (FmtFlags.done f) ((s.tile t).drainStart (drainArgs d.desc) d.dispatchCore + cc ((drainArgs d.desc).rows + 8))
        (cc (drainArgs d.desc).rows)
      ∧ (w.tile t).acc = (if (drainArgs d.desc).clear then ((s.tile t).clearAcc (drainArgs d.desc).row (drainArgs d.desc).rows).acc
        else (s.tile t).acc)
      ∧ ((drainArgs d.desc).bcast = false → ∀ k,
        cells (w.tile t) k = drainedByte (s.tile t) (drainArgs d.desc) (dSaturate d.desc) k (cells (s.tile t) k)) := by
  obtain ⟨f, u, hu, hd⟩ := drainBody_result (s := s.countStore t ⟨n, none⟩) (t := t) (i := i) (d := d)
  obtain ⟨hex, honly, hmem⟩ := runDesc_ran (stopped := noStop) hrun hq (by decide) hu hd.ran rfl rfl
  have htile := tile_countStore s t ⟨n, none⟩
  have hcorrected := honly.eccCorrected.trans hd.eccCorrected
  have huncorrected := honly.eccUncorrected.trans hd.eccUncorrected
  have hacc := honly.acc.trans hd.acc
  have hcells := hd.cells
  simp only [State.workEnd, drainDone, Option.getD_some] at hex
  rw [htile] at hcorrected huncorrected hacc hcells hex
  refine ⟨_, f, rfl, hmem, ⟨hcorrected, huncorrected⟩, hex, hacc, fun hb k => ?_⟩
  exact (congrArg (cellGet · k) honly.ws).trans (hcells hb k)

theorem vector_ends (hrun : s.runnable t i 0x18 = some d) (hq : Quiet d) (n : Nat) :
    ∃ w f, exec (.vector t i ⟨n, none⟩) s = .next w ∧ w.mem = s.mem
      ∧ ((w.tile t).eccCorrected = (s.tile t).eccCorrected + BitVec.ofNat 32 n ∧ (w.tile t).eccUncorrected = (s.tile t).eccUncorrected)
      ∧ RunsFor s w t i d (FmtFlags.done f) (cc (vecDone (vecArgs d.desc) f).cycles)
      ∧ (vecClash (vecArgs d.desc) = false → ∀ k, cells (w.tile t) k = (List.range (vecArgs d.desc).rows).foldl (fun v r =>
        byteAfter ((vecArgs d.desc).dest + r * vecPitch (vecArgs d.desc).fo (outLen (vecArgs d.desc)))
          (rowOut (s.tile t).ws (vecArgs d.desc) (dSaturate d.desc) r).1 k v) (cells (s.tile t) k)) := by
  obtain ⟨f, u, hu, hd⟩ := vectorBody_result (s := s.countStore t ⟨n, none⟩) (t := t) (i := i) (d := d)
  have hran : Ran t s u := (ran_countStore ..).trans hd.stored.ran
  obtain ⟨hex, honly, hmem⟩ := runDesc_ran (stopped := noStop) hrun hq (by decide) hu hd.stored.ran rfl rfl
  have htile := tile_countStore s t ⟨n, none⟩
  have hcorrected := honly.eccCorrected
  have huncorrected := honly.eccUncorrected
  have hcells := hd.cells
  rw [hd.stored.tile, htile] at hcorrected huncorrected
  rw [htile] at hcells
  rw [workEnd_of_cycles rfl rfl rfl, hran.engineStart] at hex
  refine ⟨_, f, rfl, hmem, ⟨hcorrected, huncorrected⟩, hex, fun hclash k => ?_⟩
  exact (congrArg (cellGet · k) honly.ws).trans (hcells hclash k)

end Ends

/-- The codes that a row-major drain without scales writes. -/
theorem drainedRow_codes {x : Tile} {a : DrainArgs} {sat : Bool} (h : a.smode = 0) (r : Nat) :
    (drainedRow x a sat r).1 = (List.range a.cols).map fun u => (convert a.fmt sat (f32 (mulF (x.accAt (a.row + r) u) a.scale))).1 := by
  rw [drainedRow, quantRow, if_pos h]
  simp only [drainRow, List.map_map]
  rfl

theorem rowOut_of_elem {w : List Host.Cell} {v : VecArgs} {sat : Bool} (h : vopReduces v.op = false) (r : Nat) :
    rowOut w v sat r = valuesOut v sat (elemsOut w v r) := by
  rw [rowOut, h]
  rfl

theorem rowOut_of_value {w : List Host.Cell} {v : VecArgs} {sat : Bool} {r : Nat} {x : BitVec 32} (h : vopReduces v.op = true)
    (hx : vecReduce v.op v.imm (rowIn w v.a v.fi v.n r) = .value x) : rowOut w v sat r = valuesOut v sat [x] := by
  rw [rowOut, if_pos h, hx]
  rfl

section Rows

variable {x y : Tile} {v : VecArgs} {sat : Bool}

/-- An output row of an element-wise operation reads back. -/
theorem cellRead_elems (h : ∀ k, cells y k = (List.range v.rows).foldl
      (fun b r => byteAfter (v.dest + r * vecPitch v.fo (outLen v)) (rowOut x.ws v sat r).1 k b) (cells x k))
    (hbits : 8 ≤ fmtBits v.fo) (hop : vopReduces v.op = false) {r : Nat} (hr : r < v.rows) :
    cellRead y.ws (v.dest + r * vecPitch v.fo v.n) (fmtBits v.fo / 8 * v.n) = (valuesOut v sat (elemsOut x.ws v r)).1 := by
  have hlen : outLen v = v.n := by rw [outLen, hop]; rfl
  have hread := cellRead_computed h (fun r => by rw [rowOut_of_elem hop, length_valuesOut hbits, length_elemsOut, hlen]) hr
  rwa [hlen, rowOut_of_elem hop] at hread

/-- The value of a row operation reads back. -/
theorem cellRead_value (h : ∀ k, cells y k = (List.range v.rows).foldl
      (fun b r => byteAfter (v.dest + r * vecPitch v.fo (outLen v)) (rowOut x.ws v sat r).1 k b) (cells x k))
    (hbits : 8 ≤ fmtBits v.fo) (hop : vopReduces v.op = true)
    (hvalue : ∀ r, ∃ z, vecReduce v.op v.imm (rowIn x.ws v.a v.fi v.n r) = .value z) {r : Nat} (hr : r < v.rows) {z : BitVec 32}
    (hz : vecReduce v.op v.imm (rowIn x.ws v.a v.fi v.n r) = .value z) :
    cellRead y.ws (v.dest + r * vecPitch v.fo 1) (fmtBits v.fo / 8) = (valuesOut v sat [z]).1 := by
  have hlen : outLen v = 1 := by rw [outLen, if_pos hop]
  have hread := cellRead_computed h (fun r => by
    obtain ⟨z, hz⟩ := hvalue r
    rw [rowOut_of_value hop hz, length_valuesOut hbits, hlen]
    rfl) hr
  rwa [hlen, rowOut_of_value hop hz, Nat.mul_one] at hread

/-- Operands as the obligation writes them. -/
theorem operandB_eq (w : List Host.Cell) (v : VecArgs) (r : Nat) : operandB w v r =
    if vopUsesB v.op = false ∨ v.bImm = true then List.replicate v.n v.imm
    else if v.op = 0x13 then List.replicate v.n (((rowIn w v.b v.fi 1 (if v.bRow then 0 else r)).head?).getD 0)
    else rowIn w v.b v.fi v.n (if v.bRow then 0 else r) := by
  rw [operandB]
  simp only [Bool.or_eq_true, Bool.not_eq_true']

end Rows

/-- An uncorrectable error in the stores counts, and leaves the stores (R148). -/
theorem storesLost {s : State} {t : TileRef} {i op : Nat} {d : DescSlot} {body : DescSlot → Env → M Done} {n addr : Nat}
    (hrun : s.runnable t i op = some d) (hq : Quiet d) (hop : op ≠ 0x10) :
    let w := (s.meetStore t i op ⟨n, some addr⟩).runDesc t i op noStop (guardStore ⟨n, some addr⟩ body)
    RunsFor s w t i d (outc St.poisoned 0) 0 ∧ (w.tile t).ws = (s.tile t).ws ∧ (w.tile t).acc = (s.tile t).acc ∧ w.mem = s.mem
      ∧ (w.tile t).eccCorrected = (s.tile t).eccCorrected + BitVec.ofNat 32 n
      ∧ (w.tile t).eccUncorrected = (s.tile t).eccUncorrected + 1 := by
  obtain ⟨hruns, honly, hmem⟩ := runDesc_bad (body := body) hrun hq hop (e := ⟨n, some addr⟩) rfl
  exact ⟨hruns, honly.ws, honly.acc, hmem, honly.eccCorrected, honly.eccUncorrected⟩

/-- Settles O34: each output row is written by its own step alone, its rows lying at a pitch no shorter than they are. -/
theorem drainAndVectorWriteTheirResults : Obligations.DrainAndVectorWriteTheirResults := by
  unfold Obligations.DrainAndVectorWriteTheirResults
  intro s t i d hquiet x sat
  refine ⟨?_, ?_, ?_⟩
  · intro hrun a codes n
    obtain ⟨w, f, hw, hmem, ⟨hcorrected, huncorrected⟩, hex, hacc, hcells⟩ := accDrain_ends hrun hquiet n
    refine ⟨w, f.done, hw, rfl, hmem, hcorrected, huncorrected, hex, fun hruns hpause => drainStart_of_disjoint hruns hpause,
      fun r k hk => ?_, fun hb hs _ hp r hr => ?_⟩
    · rw [Tile.accAt, hacc]
      cases hclear : a.clear with
      | true =>
        simp only [true_and]
        exact accAt_clearAcc x a.row a.rows hk
      | false => rfl
    · have hread := cellRead_drained hs hp (hcells hb) hr
      rwa [drainedRow_codes hs] at hread
  · intro hrun v row b z out n
    obtain ⟨w, f, hw, hmem, ⟨hcorrected, huncorrected⟩, hex, hcells⟩ := vector_ends hrun hquiet n
    refine ⟨w, f.done, hw, rfl, hmem, hcorrected, huncorrected, hex, fun hbits hclash r hr => ⟨fun hop => ?_, fun hop => ?_,
      fun hop _ k l hkl => ?_⟩⟩
    · refine (cellRead_elems (hcells hclash) hbits hop hr).trans ?_
      rw [elemsOut, operandB_eq, valuesOut, vecOutCodes, List.map_map]
      rfl
    · exact cellRead_value (hcells hclash) hbits (by rw [hop]; rfl) (fun r => ⟨_, by rw [hop]; rfl⟩) hr (by rw [hop]; rfl)
    · exact cellRead_value (hcells hclash) hbits (by rw [hop]; rfl) (fun r => ⟨_, by rw [hop]; rfl⟩) hr (by
        rw [hop, show rowIn x.ws v.a v.fi v.n r = k :: l from hkl]
        rfl)
  · intro n addr p hp hrun
    rw [List.mem_cons, List.mem_singleton] at hp
    rcases hp with rfl | rfl
    · exact ⟨_, rfl, storesLost hrun hquiet (by decide)⟩
    · exact ⟨_, rfl, storesLost hrun hquiet (by decide)⟩

end Sys2Proof.Proofs
end

section
/-! O30 refuted: the completion log of a tile may lie in another tile's slice (R128), and an access to a page that a Pewter bank of that
slice reads waits for the slice's boundary (R269). -/

namespace Sys2Proof.Proofs

open Sys2Proof Sys2Proof.Machine Sys2Proof.Laws Sys2Proof.Safety

/-- A finished NOP, the first descriptor of its plan. -/
def finishedNop : DescSlot := { desc := 1, index := some 0, job := 0, step := 1, wall := 1, ph := .finished, applied := true }

/-- A tile with the finished NOP in slot 0, whose log buffer begins where the slice of tile 1 does. -/
def loggingTile : Tile :=
  { unit := .ready, running := some { step := 1, job := 0, descs := [1], energyUj := 0 }, planStep := 1, cplBase := 2 ^ 31
    slots := [(0, finishedNop)] }

/-- A tile of which a Pewter bank reads the page of the log entry until 1000. -/
def readingTile : Tile := { unit := .ready, pewter := { busy := [(0, 128, 1000, 0)] } }

/-- A running package with both. -/
def busyNeighbour : State :=
  { State.reset with
    bu := { State.reset.bu with powered := true, good := true, s0 := true, done := 13, ready := true }
    tiles := [(0, loggingTile), (1, readingTile)] }

/-- The clock after an answer. -/
def clockAfter : Host.Outcome State Fault Refusal → Nat
  | .next u => u.time.now
  | _ => 0

theorem busyNeighbour_waits : clockAfter (exec (.descriptorComplete 0 0) busyNeighbour) = 1000 := by decide +kernel

/-- Refutes O30: DESCRIPTOR_COMPLETE of a NOP on a tile without Pewter work ends at 1000 where the statement asks for 0, as its completion
log entry is written in the neighbour's slice, to a page that a bank reads until then. The statement lacks a premise that the log buffer
lies in the tile's own slice, where firmware puts it (R128). -/
theorem not_descriptorsAreAdmittedDispatchedAndCompleted : ¬ Obligations.DescriptorsAreAdmittedDispatchedAndCompleted := by
  unfold Obligations.DescriptorsAreAdmittedDispatchedAndCompleted
  intro h
  obtain ⟨-, -, -, hcomplete⟩ := h busyNeighbour 0 (by decide +kernel)
  obtain ⟨u, hu, -, -, hnow, -⟩ := hcomplete 0 finishedNop 0 (by decide +kernel) rfl rfl rfl rfl (by decide +kernel)
  have hwaits := busyNeighbour_waits
  rw [hu, clockAfter, hnow (by decide +kernel)] at hwaits
  revert hwaits
  decide +kernel

end Sys2Proof.Proofs
end

section
/-! Where a tile stands in the list of tiles: putting a tile back where `setTile` puts one changes the list alone, and no access to a page
depends on it (R277 to R293). -/

namespace Sys2Proof.Proofs

open Sys2Proof Sys2Proof.Machine Sys2Proof.Laws Sys2Proof.Safety

/-! ### Tables in any order -/

theorem kvPut_kvPut_same {α : Type} (l : KV α) (n : Nat) (v w : α) : kvPut (kvPut l n v) n w = kvPut l n w := by
  induction l with
  | nil => simp [kvPut]
  | cons e r ih =>
    obtain ⟨k, u⟩ := e
    by_cases hlt : n < k
    · simp [kvPut, hlt]
    · by_cases heq : n = k
      · simp [kvPut, heq]
      · simp [kvPut, hlt, heq, ih]

theorem kvPut_comm {α : Type} (l : KV α) {a b : Nat} (h : a ≠ b) (v w : α) : kvPut (kvPut l a v) b w = kvPut (kvPut l b w) a v := by
  induction l with
  | nil => grind [kvPut]
  | cons e r ih =>
    obtain ⟨k, u⟩ := e
    grind [kvPut]

/-! ### A tile put back -/

/-- The state with tile `own` put back, as it is, where `setTile` puts it. -/
def putBack (own : TileRef) (s : State) : State := s.setTile own (s.tile own)

section PutBack

variable (own : TileRef) (s : State) (t : TileRef)

@[simp] theorem tile_putBack : (putBack own s).tile t = s.tile t := by
  by_cases h : t = own
  · subst h
    exact tile_setTile_same ..
  · exact tile_setTile_other _ _ h

@[simp] theorem setTile_putBack (x : Tile) : (putBack own s).setTile t x = putBack own (s.setTile t x) := by
  by_cases h : t = own
  · subst h
    simp only [putBack, State.setTile, kvPut_kvPut_same, State.tile, kvGet_kvPut_same]
  · rw [putBack, putBack, tile_setTile_other _ _ (Ne.symm h)]
    simp only [State.setTile, kvPut_comm _ h]

@[simp] theorem modTile_putBack (f : Tile → Tile) : (putBack own s).modTile t f = putBack own (s.modTile t f) := by
  rw [State.modTile, tile_putBack, setTile_putBack, State.modTile]

/-- A change of the tile itself puts it in its place. -/
theorem putBack_setTile (x : Tile) : putBack t (s.setTile t x) = s.setTile t x := by
  simp only [putBack, State.setTile, State.tile, kvPut_kvPut_same, kvGet_kvPut_same]

/-- A state whose tiles are those of one where the tile is in its place has it there too. -/
theorem putBack_of_tiles {v : State} (h : putBack own v = v) (ht : s.tiles = v.tiles) : putBack own s = s := by
  have hv : kvPut v.tiles own (v.tile own) = v.tiles := congrArg State.tiles h
  have hs : kvPut s.tiles own (s.tile own) = s.tiles := by rw [State.tile, ht]; exact hv
  rw [putBack, State.setTile, hs]

theorem ite_putBack {c : Prop} {dec : Decidable c} {a b x y : State} (hx : x = putBack own a) (hy : y = putBack own b) :
    @ite State c dec x y = putBack own (@ite State c dec a b) := by
  split
  · exact hx
  · exact hy

/-- A step that comes upon a state with the tile put back. -/
theorem eq_putBack {f : State → State} (hf : ∀ u, f (putBack own u) = putBack own (f u)) {w u : State} (h : w = putBack own u) :
    f w = putBack own (f u) := by rw [h, hf]

/-! Events and faults speak of no tile (R394, R402). -/

@[simp] theorem interrupt_putBack (v : BitVec 6) : (putBack own s).interrupt v = putBack own (s.interrupt v) :=
  ite_putBack own rfl (ite_putBack own rfl rfl)

@[simp] theorem postEvent_putBack (e : Event) : (putBack own s).postEvent e = putBack own (s.postEvent e) := by
  unfold State.postEvent
  exact ite_putBack own (eq_putBack own (f := (State.interrupt · _)) (fun u => interrupt_putBack own u _) (ite_putBack own rfl rfl))
    (ite_putBack own rfl rfl)

@[simp] theorem postOverflow_putBack : (putBack own s).postOverflow = putBack own s.postOverflow := by
  have hm : (putBack own s).host.eq.missed = s.host.eq.missed := rfl
  unfold State.postOverflow
  rw [hm]
  split
  · rfl
  · exact ite_putBack own (ite_putBack own
      (eq_putBack own (f := (State.postEvent · _)) (fun u => postEvent_putBack own u _) rfl) rfl) rfl

@[simp] theorem raise0_putBack (code : BitVec 16) (unit : BitVec 32) (items : List Word) :
    (putBack own s).raise0 code unit items = putBack own (s.raise0 code unit items) := by
  unfold State.raise0
  rw [postOverflow_putBack]
  exact ite_putBack own rfl (ite_putBack own rfl
    (eq_putBack own (f := (State.postEvent · _)) (fun u => postEvent_putBack own u _) rfl))

@[simp] theorem hostFault_putBack (status reason : Code) (space addr : Nat) :
    (putBack own s).hostFault status reason space addr = putBack own (s.hostFault status reason space addr) := by
  unfold State.hostFault
  refine ite_putBack own (eq_putBack own (f := fun u => { u with
    host := { u.host with faultSince := 0, faultAt := some u.time.now, faultFirst := none } }) (fun _ => rfl) ?_) rfl
  exact eq_putBack own (f := (State.raise0 · _ _ _)) (fun u => raise0_putBack own u _ _ _) rfl

@[simp] theorem raise_putBack (code : BitVec 16) (unit : BitVec 32) (items : List Word) :
    (putBack own s).raise code unit items = putBack own (s.raise code unit items) := by
  unfold State.raise
  refine ite_putBack own ?_ (raise0_putBack ..)
  exact eq_putBack own (f := (State.hostFault · _ _ _ _)) (fun u => hostFault_putBack own u _ _ _ _)
    (eq_putBack own (f := (State.raise0 · _ _ _)) (fun u => raise0_putBack own u _ _ _) rfl)

@[simp] theorem coupledUse_putBack (key : Nat) (agree : Bool) (a b : Nat) (unit : BitVec 32) :
    (putBack own s).coupledUse key agree a b unit = putBack own (s.coupledUse key agree a b unit) :=
  ite_putBack own rfl (ite_putBack own rfl 
    (eq_putBack own (f := (State.raise · _ _ _)) (fun u => raise_putBack own u _ _ _) rfl))

/-! Pages of stack memory (R279 to R292). -/

theorem advanceTo_putBack (n : Nat) : (putBack own s).advanceTo n = putBack own (s.advanceTo n) := ite_putBack own rfl rfl

theorem pageMoved_putBack (page : Nat) (write : Bool) : (putBack own s).pageMoved t page write = putBack own (s.pageMoved t page write) :=
  modTile_putBack ..

@[simp] theorem pageStop_putBack (page : Nat) : (putBack own s).pageStop t page = s.pageStop t page := by
  simp only [State.pageStop, tile_putBack]
  rfl

@[simp] theorem decodePage_putBack (page : Nat) : (putBack own s).decodePage t page = s.decodePage t page := by
  simp only [State.decodePage, tile_putBack]
  rfl

theorem useRegion_putBack (page : Nat) : (putBack own s).useRegion t page = putBack own (s.useRegion t page) := by
  simp only [State.useRegion, tile_putBack, coupledUse_putBack]
  rfl

theorem poisonPage_putBack (page kind : Nat) : (putBack own s).poisonPage t page kind = putBack own (s.poisonPage t page kind) := by
  unfold State.poisonPage
  rw [tile_putBack, modTile_putBack, raise_putBack]
  exact ite_putBack own rfl rfl

theorem correctedPage_putBack (page bits : Nat) : (putBack own s).correctedPage t page bits = putBack own (s.correctedPage t page bits) := by
  unfold State.correctedPage
  simp only [tile_putBack, modTile_putBack, raise_putBack]
  exact ite_putBack own rfl rfl

theorem putPage_putBack (page : Nat) (data : List Byte) : (putBack own s).putPage t page data = putBack own (s.putPage t page data) := by
  unfold State.putPage
  exact eq_putBack own (f := fun u => (u.pageMoved t page true).modTile t _)
    (fun u => by rw [pageMoved_putBack, modTile_putBack]) rfl

theorem rewritePage_putBack (page : Nat) (data : List Byte) :
    (putBack own s).rewritePage t page data = putBack own (s.rewritePage t page data) := by
  unfold State.rewritePage
  exact eq_putBack own (f := fun u => (u.pageMoved t page true).modTile t _)
    (fun u => by rw [pageMoved_putBack, modTile_putBack]) rfl

theorem loseNarrow_putBack (page : Nat) : (putBack own s).loseNarrow t page = putBack own (s.loseNarrow t page) := by
  unfold State.loseNarrow
  rw [modTile_putBack, hostFault_putBack]
  rfl

theorem mergeNarrow_putBack (page : Nat) (counted : Bool) :
    (putBack own s).mergeNarrow t page counted = putBack own (s.mergeNarrow t page counted) := by
  unfold State.mergeNarrow
  simp only [tile_putBack, pageStop_putBack, decodePage_putBack, putPage_putBack, modTile_putBack, loseNarrow_putBack, poisonPage_putBack,
    pageMoved_putBack, correctedPage_putBack]
  split
  · rfl
  · refine ite_putBack own rfl (ite_putBack own rfl (ite_putBack own rfl ?_))
    split
    · rfl
    · split <;> simp only [rewritePage_putBack, modTile_putBack]

theorem awaitSlice_putBack (page : Nat) : (putBack own s).awaitSlice t page = putBack own (s.awaitSlice t page) := by
  unfold State.awaitSlice
  simp only [tile_putBack, modTile_putBack, advanceTo_putBack]
  split
  · rfl
  · exact ite_putBack own rfl rfl

theorem meetPage_putBack (page : Nat) : (putBack own s).meetPage t page = putBack own (s.meetPage t page) := by
  simp only [State.meetPage, useRegion_putBack, awaitSlice_putBack, mergeNarrow_putBack]

theorem correctPage_putBack (page : Nat) (data : List Byte) (bits : Nat) (always : Bool) :
    (putBack own s).correctPage t page data bits always = putBack own (s.correctPage t page data bits always) := by
  unfold State.correctPage
  simp only [correctedPage_putBack, tile_putBack, rewritePage_putBack]
  exact ite_putBack own rfl rfl

theorem modSlot_putBack (i : Nat) (f : DescSlot → DescSlot) : (putBack own s).modSlot t i f = putBack own (s.modSlot t i f) :=
  modTile_putBack ..

end PutBack

/-! ### What accesses leave of a tile -/

/-- What a tile tells of traps, and its semaphores. -/
def trapsAndSems (x : Tile) : BitVec 8 × Word × KV Sem := (x.trap, x.trapInfo, x.sems)

/-- A tile's traps and semaphores, and the descriptors that its slots hold. -/
def posted (x : Tile) : (BitVec 8 × Word × KV Sem) × (Nat → Option (BitVec 512)) :=
  (trapsAndSems x, fun i => (x.slot i).map (·.desc))

theorem posted_setSlot {x : Tile} {i : Nat} {d e : DescSlot} (h : x.slot i = some d) (he : e.desc = d.desc) :
    posted (x.setSlot i e) = posted x := by
  refine Prod.ext rfl (funext fun j => ?_)
  by_cases hj : j = i
  · subst hj
    simp only [posted, slot_setSlot_same, h, Option.map_some, he]
  · simp only [posted, slot_setSlot_other _ _ hj]

/-- Every tile keeps its traps, its semaphores and the descriptors of its slots. -/
structure Posts (v s : State) : Prop where
  tile : ∀ t, posted (s.tile t) = posted (v.tile t)

namespace Posts

variable {v s : State} {t : TileRef} {page : Nat}

theorem refl (s : State) : Posts s s := ⟨fun _ => rfl⟩

theorem trans (h : Posts v s) {u : State} (hu : Posts s u) : Posts v u := ⟨fun t => (hu.tile t).trans (h.tile t)⟩

theorem of_tiles (h : Posts v s) {u : State} (ht : u.tiles = s.tiles) : Posts v u :=
  ⟨fun t => by
    rw [State.tile, State.tile, ht]
    exact h.tile t⟩

theorem setMem (h : Posts v s) {x : List Host.Cell} : Posts v { s with mem := x } := h.of_tiles rfl

theorem setEvents (h : Posts v s) {x : EventState} : Posts v { s with events := x } := h.of_tiles rfl

theorem setFree (h : Posts v s) {n : Nat} : Posts v { s with free := n } := h.of_tiles rfl

theorem setTile (h : Posts v s) {x : Tile} (hx : posted x = posted (s.tile t)) : Posts v (s.setTile t x) :=
  ⟨fun u => by
    by_cases hu : u = t
    · subst hu
      rw [tile_setTile_same, hx]
      exact h.tile u
    · rw [tile_setTile_other s x hu]
      exact h.tile u⟩

theorem modTile (h : Posts v s) {f : Tile → Tile} (hf : ∀ x, posted (f x) = posted x) : Posts v (s.modTile t f) := h.setTile (hf _)

/-- A slot that keeps its descriptor. -/
theorem modSlot (h : Posts v s) {i : Nat} {f : DescSlot → DescSlot} (hf : ∀ d, (f d).desc = d.desc) : Posts v (s.modSlot t i f) :=
  h.modTile fun x => by
    split
    · next d hd => exact posted_setSlot hd (hf d)
    · rfl

theorem branch (c : Prop) {dec : Decidable c} {a b : State} (ha : Posts v a) (hb : Posts v b) : Posts v (@ite State c dec a b) := by
  split
  · exact ha
  · exact hb

theorem raise (h : Posts v s) {code : BitVec 16} {unit : BitVec 32} {items : List Word} : Posts v (s.raise code unit items) :=
  h.of_tiles (tiles_raise ..)

theorem coupledUse (h : Posts v s) {key : Nat} {agree : Bool} {a b : Nat} {unit : BitVec 32} :
    Posts v (s.coupledUse key agree a b unit) := branch _ h.setEvents (branch _ h h.setEvents.raise)

theorem advanceTo (h : Posts v s) {n : Nat} : Posts v (s.advanceTo n) := branch _ (h.of_tiles rfl) h

theorem pageMoved (h : Posts v s) {write : Bool} : Posts v (s.pageMoved t page write) := h.modTile (by intro; rfl)

theorem poisonPage (h : Posts v s) {kind : Nat} : Posts v (s.poisonPage t page kind) := branch _ h (h.modTile (by intro; rfl)).raise

theorem correctedPage (h : Posts v s) {bits : Nat} : Posts v (s.correctedPage t page bits) :=
  branch _ ((h.modTile (by intro; rfl)).modTile (by intro; rfl)).raise (h.modTile (by intro; rfl))

theorem putPage (h : Posts v s) {data : List Byte} : Posts v (s.putPage t page data) := h.setMem.pageMoved.modTile (by intro; rfl)

theorem rewritePage (h : Posts v s) {data : List Byte} : Posts v (s.rewritePage t page data) := h.setMem.pageMoved.modTile (by intro; rfl)

theorem loseNarrow (h : Posts v s) : Posts v (s.loseNarrow t page) :=
  (h.modTile (by intro; rfl) : Posts v (s.modTile t _)).of_tiles (tiles_hostFault ..)

theorem mergeNarrow (h : Posts v s) {counted : Bool} : Posts v (s.mergeNarrow t page counted) := by
  unfold State.mergeNarrow
  split
  · exact h
  · refine branch _ h (branch _ (h.putPage.modTile (by intro; rfl)) (branch _ h.loseNarrow ?_))
    split
    · exact h.poisonPage.loseNarrow
    · exact (branch _ h.pageMoved h.pageMoved.correctedPage).rewritePage.modTile (by intro; rfl)

theorem awaitSlice (h : Posts v s) : Posts v (s.awaitSlice t page) := by
  unfold State.awaitSlice
  split
  · exact h
  · exact branch _ (h.modTile (by intro; rfl)).advanceTo h

theorem meetPage (h : Posts v s) : Posts v (s.meetPage t page) := h.coupledUse.awaitSlice.mergeNarrow

theorem correctPage (h : Posts v s) {data : List Byte} {bits : Nat} {always : Bool} : Posts v (s.correctPage t page data bits always) :=
  branch _ h.correctedPage.rewritePage h.correctedPage

end Posts

/-! ### Runs that do not depend on where a tile stands -/

theorem result_bind_eq {α β : Type} (m : M α) (f : α → M β) (s : State) :
    (m >>= f).result s = (match m.result s with
      | (.ok a, q) => (f a).result q
      | (.error e, q) => (.error e, q)) := by
  simp only [M.result, EStateM.run_bind]
  cases m.run s <;> rfl

/-- A run of accesses that keeps what tiles have posted, and does the same whether or not a tile has been put back in its place. -/
structure Placeless (own : TileRef) {α : Type} (m : M α) : Prop where
  posts : ∀ s, Posts s (m.result s).2
  moves : ∀ s, m.result (putBack own s) = ((m.result s).1, putBack own (m.result s).2)

namespace Placeless

variable {own : TileRef} {α β : Type}

theorem pure {a : α} : Placeless own (Pure.pure a : M α) := ⟨.refl, fun _ => rfl⟩

theorem throw {e : Stop} : Placeless own (MonadExcept.throw e : M α) := ⟨.refl, fun _ => rfl⟩

theorem stop {st rs : Code} {kind : Nat} {dva : BitVec 64} : Placeless own (M.stop st rs kind dva : M α) := throw

theorem upd {f : State → State} (hp : ∀ s, Posts s (f s)) (hf : ∀ s, f (putBack own s) = putBack own (f s)) : Placeless own (M.upd f) :=
  ⟨hp, fun s => Prod.ext rfl (hf s)⟩

theorem bind {m : M α} {f : α → M β} (hm : Placeless own m) (hf : ∀ a, Placeless own (f a)) : Placeless own (m >>= f) := by
  constructor <;> intro s
  · have hs := hm.posts s
    rw [result_bind_eq]
    split
    · next a q heq => exact (show Posts s q by simpa only [heq] using hs).trans ((hf a).posts q)
    · next e q heq => simpa only [heq] using hs
  · rw [result_bind_eq, result_bind_eq, hm.moves s]
    rcases m.result s with ⟨a | a, q⟩
    · rfl
    · exact (hf a).moves q

/-- A look at the state that does not tell where a tile stands. -/
theorem get {f : State → M α} (hs : ∀ s, f (putBack own s) = f s) (hf : ∀ s, Placeless own (f s)) :
    Placeless own (MonadState.get >>= f) := by
  constructor <;> intro s
  · exact (hf s).posts s
  · exact (congrArg (M.result · (putBack own s)) (hs s)).trans ((hf s).moves s)

theorem branch (c : Prop) {dec : Decidable c} {m n : M α} (hm : Placeless own m) (hn : Placeless own n) :
    Placeless own (@ite (M α) c dec m n) := by
  split
  · exact hm
  · exact hn

/-- A check ahead of what follows: the two arms of the condition join again. -/
theorem check (c : Prop) {dec : Decidable c} {m : M Unit} {f : Unit → M α} (hm : Placeless own m) (hf : ∀ u, Placeless own (f u)) :
    Placeless own (@ite (M α) c dec (m >>= f) (f ())) := branch c (hm.bind hf) (hf ())

theorem mapM {γ : Type} {f : γ → M α} (hf : ∀ c, Placeless own (f c)) (l : List γ) : Placeless own (l.mapM f) := by
  induction l with
  | nil => rw [List.mapM_nil]; exact pure
  | cons c l ih =>
    rw [List.mapM_cons]
    exact (hf c).bind fun _ => ih.bind fun _ => pure

theorem forM {γ : Type} {f : γ → M PUnit} (hf : ∀ c, Placeless own (f c)) (l : List γ) : Placeless own (l.forM f) := by
  induction l with
  | nil => exact pure
  | cons c l ih => exact (hf c).bind fun _ => ih

variable {t : TileRef} {page off len kind : Nat} {bytes : List Byte}

theorem meetPage : Placeless own (M.upd fun s => s.meetPage t page) := upd (fun s => (Posts.refl s).meetPage) fun _ => meetPage_putBack ..

theorem poisonPage : Placeless own (M.upd fun s => s.poisonPage t page kind) :=
  upd (fun s => (Posts.refl s).poisonPage) fun _ => poisonPage_putBack ..

theorem readPage : Placeless own (readPage t page off len kind) := by
  refine meetPage.bind fun _ => get (fun s => ?_) fun s => ?_
  · simp only [pageStop_putBack, tile_putBack, decodePage_putBack]
    rfl
  · split
    · exact stop
    · refine branch _ stop (bind (upd (fun s => (Posts.refl s).pageMoved) fun _ => pageMoved_putBack ..) fun _ => branch _ pure ?_)
      split
      · exact poisonPage.bind fun _ => stop
      · exact check _ (upd (fun s => (Posts.refl s).correctPage) fun _ => correctPage_putBack ..) fun _ => pure

theorem writePage : Placeless own (writePage t page off kind bytes) := by
  refine meetPage.bind fun _ => get (fun s => ?_) fun s => ?_
  · simp only [pageStop_putBack, tile_putBack, decodePage_putBack]
    rfl
  · split
    · exact stop
    · refine branch _ (upd (fun s => (Posts.refl s).of_tiles rfl) fun _ => rfl) (branch _ stop
        (branch _ (upd (fun s => (Posts.refl s).putPage) fun _ => putPage_putBack ..) (branch _ stop ?_)))
      split
      · exact poisonPage.bind fun _ => stop
      · exact check _ (upd (fun s => (Posts.refl s).correctedPage) fun _ => correctedPage_putBack ..) fun _ =>
          bind (upd (fun s => (Posts.refl s).setMem) fun _ => rfl) fun _ =>
            upd (fun s => (Posts.refl s).setMem.pageMoved.pageMoved.modTile (by intro; rfl)) fun s =>
              eq_putBack own (f := fun u => ((u.pageMoved t page false).pageMoved t page true).modTile t _)
                (fun u => by rw [pageMoved_putBack, pageMoved_putBack, modTile_putBack]) rfl

theorem readStack {a n kind : Nat} : Placeless own (readStack a n kind) := bind (mapM (fun _ => readPage) _) fun _ => pure

theorem writeStack {a kind : Nat} {bytes : List Byte} : Placeless own (writeStack a kind bytes) := forM (fun _ => writePage) _

end Placeless

end Sys2Proof.Proofs
end

section
/-! What the completion of descriptors and the stop of a tile leave of every tile's trap and of its failed semaphores (R89, R117 to R120,
R149, R514). -/

namespace Sys2Proof.Proofs

open Sys2Proof Sys2Proof.Machine Sys2Proof.Laws Sys2Proof.Safety

/-- A tile keeps its trap, and a semaphore that has failed stays failed. -/
structure TileFirm (x y : Tile) : Prop where
  trap : y.trap = x.trap
  trapInfo : y.trapInfo = x.trapInfo
  failed (sem : Nat) : (kvGet x.sems sem {}).failed = true → (kvGet y.sems sem {}).failed = true

theorem trapsAndSems_note (x : Tile) (job : Option (BitVec 16)) (queue start stop : Nat) :
    trapsAndSems (x.note job queue start stop) = trapsAndSems x := rfl

theorem trapsAndSems_act (x : Tile) (k n : Nat) : trapsAndSems (x.act k n) = trapsAndSems x := rfl

theorem trapsAndSems_count (x : Tile) (k n : Nat) : trapsAndSems (x.count k n) = trapsAndSems x := rfl

namespace TileFirm

variable {x y z : Tile}

theorem of_eq (h : trapsAndSems y = trapsAndSems x) : TileFirm x y := by
  obtain ⟨htrap, hinfo, hsems⟩ := by simpa only [trapsAndSems, Prod.mk.injEq] using h
  exact ⟨htrap, hinfo, fun sem hf => hsems ▸ hf⟩

theorem trans (h : TileFirm x y) (hz : TileFirm y z) : TileFirm x z :=
  ⟨hz.trap.trans h.trap, hz.trapInfo.trans h.trapInfo, fun sem hf => hz.failed sem (h.failed sem hf)⟩

end TileFirm

/-- Every tile keeps its trap and its failed semaphores. -/
structure Firm (v s : State) : Prop where
  tile : ∀ t, TileFirm (v.tile t) (s.tile t)

namespace Firm

variable {v s : State} {t : TileRef}

theorem refl (s : State) : Firm s s := ⟨fun _ => .of_eq rfl⟩

theorem of_tiles (h : Firm v s) {u : State} (ht : u.tiles = s.tiles) : Firm v u :=
  ⟨fun t => by
    rw [State.tile, State.tile, ht]
    exact h.tile t⟩

theorem setFree (h : Firm v s) {n : Nat} : Firm v { s with free := n } := h.of_tiles rfl

theorem setTile (h : Firm v s) {x : Tile} (hx : TileFirm (s.tile t) x) : Firm v (s.setTile t x) :=
  ⟨fun u => by
    by_cases hu : u = t
    · subst hu
      rw [tile_setTile_same]
      exact (h.tile u).trans hx
    · rw [tile_setTile_other s x hu]
      exact h.tile u⟩

theorem setRest (h : Firm v s) {x : Tile} (hx : trapsAndSems x = trapsAndSems (s.tile t)) : Firm v (s.setTile t x) := h.setTile (.of_eq hx)

theorem modTile (h : Firm v s) {f : Tile → Tile} (hf : ∀ x, trapsAndSems (f x) = trapsAndSems x) : Firm v (s.modTile t f) := h.setRest (hf _)

theorem branch (c : Prop) {dec : Decidable c} {a b : State} (ha : Firm v a) (hb : Firm v b) : Firm v (@ite State c dec a b) := by
  split
  · exact ha
  · exact hb

theorem foldl {α : Type} {f : State → α → State} (hf : ∀ s a, Firm v s → Firm v (f s a)) (l : List α) :
    ∀ {s : State}, Firm v s → Firm v (l.foldl f s) := by
  induction l with
  | nil => exact id
  | cons a l ih => exact fun h => ih (hf _ a h)

/-! Messages (R119, R245, R322, R330). -/

theorem modSlot (h : Firm v s) {i : Nat} {f : DescSlot → DescSlot} : Firm v (s.modSlot t i f) := h.modTile (by intro; split <;> rfl)

theorem countSent (h : Firm v s) {m : Msg} : Firm v (s.countSent t m) := branch _ h (h.modTile (by intro; split_ifs <;> rfl))

theorem requestOf (h : Firm v s) {m : Msg} {user : TxnUser} : Firm v (s.requestOf t m user) :=
  h.countSent.of_tiles (OnlyFlits.refl _).request.tiles

theorem sendQueued (h : Firm v s) {i : Nat} {msgs : List (Msg × Bool)} : Firm v (s.sendQueued t i msgs) :=
  foldl (fun _ _ h => h.requestOf.modSlot) _ h.modSlot

theorem respond (h : Firm v s) {m : Msg} : Firm v (s.respond m) := h.of_tiles (OnlyFlits.refl _).respond.tiles

theorem meshSend (h : Firm v s) {delay : Nat} {b : MeshBody} : Firm v (s.meshSend t delay b) := h.of_tiles rfl

theorem reportShare (h : Firm v s) {sh : Share} {o : Outc} : Firm v (s.reportShare t sh o) := by
  unfold State.reportShare
  split
  · exact h.respond
  · exact h.meshSend

theorem reportItem (h : Firm v s) {it : AttnItem} {o : Outc} {wrote : Bool} {poison : BitVec 64} : Firm v (s.reportItem t it o wrote poison) := by
  unfold State.reportItem
  split
  · exact h.meshSend
  · exact h.respond

/-- Accesses to stack memory keep traps and semaphores (R279 to R292). -/
theorem posts (h : Firm v s) {u : State} (hu : Posts s u) : Firm v u :=
  ⟨fun t => (h.tile t).trans (.of_eq (congrArg Prod.fst (hu.tile t)))⟩

/-! Descriptors that complete (R46, R117 to R120, R128). -/

theorem writeLog (h : Firm v s) {d : DescSlot} {i : Nat} {o : Outc} : Firm v (s.writeLog t d i o) :=
  h.posts ((Placeless.writeStack (own := t)).posts s)

theorem planDone (h : Firm v s) {p : Plan} : Firm v (s.planDone t p) :=
  branch _ ((h.setRest (by rfl)).modTile (by intro; rfl)) (h.setRest (by rfl))

theorem countDone (h : Firm v s) {i : Nat} {o : Outc} : Firm v (s.countDone t i o) := by
  have hcount : Firm v (s.modTile t fun x => { x with
    completed := x.completed + 1
    planOuts := if o.status = St.ok && o.reason = 0 then x.planOuts else kvPut x.planOuts i o }) := h.modTile (by intro; rfl)
  unfold State.countDone
  dsimp only
  split
  · exact branch _ hcount.planDone hcount
  · exact hcount

theorem failed_kvMod (l : KV Sem) (sem : Nat) {f : Sem → Sem} (hf : ∀ m : Sem, m.failed = true → (f m).failed = true) {k : Nat}
    (hk : (kvGet l k {}).failed = true) : (kvGet (kvMod l sem {} f) k {}).failed = true := by
  unfold kvMod
  by_cases h : k = sem
  · subst h
    rw [kvGet_kvPut_same]
    exact hf _ hk
  · rwa [kvGet_kvPut_other _ _ _ h]

/-- A signal leaves a semaphore failed where it was, or makes it so (R119, R120). -/
theorem signal (h : Firm v s) {sem amount : Nat} {fail : Bool} : Firm v (s.signal t sem amount fail).1 := by
  have hmod {f : Sem → Sem} (hf : ∀ m : Sem, m.failed = true → (f m).failed = true) :
      Firm v (s.modTile t fun x => { x with sems := kvMod x.sems sem {} f }) :=
    h.setTile ⟨rfl, rfl, fun _ hk => failed_kvMod _ _ hf hk⟩
  unfold State.signal
  split
  · exact hmod fun _ _ => rfl
  · exact hmod fun _ hm => hm

theorem completeOne (h : Firm v s) {i : Option Nat} {d : DescSlot} {o : Outc} : Firm v (s.completeOne t i d o).1 := by
  have hfree {u : State} (hu : Firm v u) : Firm v (match i with
      | some n => u.modTile t fun x => { x.dequeue n with slots := kvErase x.slots n }
      | none => u) := by
    cases i with
    | none => exact hu
    | some n => exact hu.modTile (by intro; rfl)
  unfold State.completeOne
  extract_lets +onlyGivenNames o s₁ free
  have h₁ : Firm v s₁ := h.modTile fun x => by
    rw [trapsAndSems_note, trapsAndSems_act, trapsAndSems_act, trapsAndSems_count, trapsAndSems_count]
  split
  · exact (hfree h₁).reportShare
  · exact hfree h₁
  · extract_lets +onlyGivenNames s₂ fail s₃ r
    have h₂ : Firm v s₂ := h₁.writeLog
    split
    · exact (hfree h₂).countDone
    · split
      · cases i with dsimp only
        | none => exact h₂.meshSend.modTile (by intro; rfl)
        | some n => exact (h₂.meshSend.modTile (by intro; rfl)).modSlot
      · exact (hfree h₂.signal).countDone

theorem completeSlots (fuel : Nat) : ∀ {s : State} {l : List (Nat × Outc)}, Firm v s → Firm v (s.completeSlots t fuel l) := by
  induction fuel with
  | zero => exact fun h => by unfold State.completeSlots; exact h
  | succ fuel ih =>
    intro s l h
    cases l with
    | nil => exact h
    | cons e l =>
      unfold State.completeSlots
      split
      · exact ih h
      · exact branch _ (ih h) (ih h.completeOne)

/-! A tile that stops (R89, R514). -/

theorem freeRows (h : Firm v s) {rows : List Nat} : Firm v ((Machine.freeRows t rows).result s).2 := by
  refine Firm.setFree (h.modTile fun x => ?_)
  exact (congrArg trapsAndSems (eq_of_apartAcc (apartAcc_rowsFreed s.free rows x))).trans rfl

theorem blend (h : Firm v s) {ran : State} {k : Nat} : Firm v (s.blend ran t k) := by
  unfold State.blend
  extract_lets page s₁
  have h₁ : Firm v s₁ := ⟨fun u => by
    refine (h.tile u).trans (.of_eq ?_)
    rw [State.tile, State.tile, kvGet, kvGet, kvFind_map]
    cases kvFind s.tiles u <;> rfl⟩
  exact h₁.modTile (by intro; rfl)

theorem cutShort (h : Firm v s) {i : Nat} : Firm v (s.cutShort t i) := by
  unfold State.cutShort
  split
  · exact h
  · split
    · exact h
    · exact branch _ (h.setFree.blend.sendQueued.freeRows) h.setFree.blend.sendQueued

theorem abortRest (h : Firm v s) {o : Outc} : Firm v (s.abortRest t o) := by
  unfold State.abortRest
  split
  · exact h
  · exact foldl (fun _ _ h => completeSlots _ h.completeOne) _ (h.setRest (by rfl))

theorem stopTile (h : Firm v s) {reason : Code} : Firm v (s.stopTile t reason) := by
  unfold State.stopTile
  extract_lets +onlyGivenNames o s₁ s₂ x slots s₃ s₄ s₅ s₆
  have h₁ : Firm v s₁ := foldl (fun _ _ h => h.cutShort) _ h
  have h₃ : Firm v s₃ := h₁.freeRows.setRest (by rfl)
  have h₅ : Firm v s₅ := foldl (fun _ _ h => h.reportShare) _ (completeSlots _ h₃)
  exact abortRest (foldl (fun _ _ h => h.reportItem) _ h₅)

theorem retire (h : Firm v s) : Firm v (s.retire t) := (h.stopTile.modTile (by intro; rfl)).modTile (by intro; rfl)

end Firm

end Sys2Proof.Proofs
end

section
/-! The sequencer's own descriptors, its traps and the end of a warm hold (R59, R103, R104, R123, R125, R138, R149, R150), and O32. -/

namespace Sys2Proof.Proofs

open Sys2Proof Sys2Proof.Machine Sys2Proof.Laws Sys2Proof.Safety

theorem onlyTilesAndTime_trans {s u w : State} (h : OnlyTilesAndTime s u) (hw : OnlyTilesAndTime u w) : OnlyTilesAndTime s w := by
  unfold OnlyTilesAndTime at *
  rw [hw, h]

theorem onlyTilesAndTime_advanceTo (s : State) (n : Nat) : OnlyTilesAndTime s (s.advanceTo n) := by
  rw [advanceTo_eq]
  rfl

theorem onlyTilesAndTime_advanceInvar (s : State) (n : Nat) : OnlyTilesAndTime s (s.advanceInvar n) := by
  unfold State.advanceInvar
  split <;> rfl

theorem tile_advanceInvar (s : State) (n : Nat) (t : TileRef) : (s.advanceInvar n).tile t = s.tile t := by
  unfold State.advanceInvar
  split <;> rfl

section Descriptors

variable {s : State} {t : TileRef} {i op : Nat} {d : DescSlot}

/-- A slot that may run ends at once, where its engine is free, with an outcome and no work. -/
theorem conclude_at_once {u : State} (h : s.runnable t i op = some d) (hq : Quiet d) (hop : op ≠ 0x10) (hu : u.tile t = s.tile t) (o : Outc) :
    RunsFor u (u.conclude t i { outc := o }) t i d o 0 ∧ OnlyTilesAndTime u (u.conclude t i { outc := o }) := by
  obtain ⟨hslot, hopcode, -, hwaits, -⟩ := slot_of_runnable h
  rw [← hu] at hslot
  exact ⟨runsFor_conclude hslot hq hwaits (hopcode ▸ hop) rfl rfl rfl rfl, conclude_tilesAndTime hslot hq hwaits _⟩

/-- A NOP only ends (R125). -/
theorem nop_ends (h : s.runnable t i 0x01 = some d) (hq : Quiet d) :
    ∃ u, exec (.nop t i) s = .next u ∧ RunsFor s u t i d {} 0 ∧ OnlyTilesAndTime s u :=
  ⟨s.conclude t i {}, congrArg Host.Outcome.next (runDesc_ok h rfl), conclude_at_once h hq (by decide) rfl {}⟩

/-- What a fence awaits has come (R59). -/
theorem fenceMet_iff {x : Tile} {st : Nat} (h : fenceStep d.desc d.step = some st) :
    x.fenceMet d = true ↔ (kvGet x.arr (4 * fld d.desc 16 3 0 + st % 4) (0, 0)).1.toNat = st
      ∧ fld d.desc 20 31 0 ≤ (kvGet x.arr (4 * fld d.desc 16 3 0 + st % 4) (0, 0)).2.toNat := by
  unfold Tile.fenceMet
  rw [h, Bool.and_eq_true, decide_eq_true_iff, decide_eq_true_iff]

theorem exec_receiveFence (h : s.runnable t i 0x02 = some d) :
    exec (.receiveFence t i) s = .next (if (s.tile t).fenceMet d then s.conclude t i {} else s) := by
  show execReceiveFence t i s = _
  rw [execReceiveFence, h]

theorem exec_receiveFenceDeadline (h : s.runnable t i 0x02 = some d) (hmet : (s.tile t).fenceMet d = false) :
    exec (.receiveFenceDeadline t i) s =
      .next (if fld d.desc 32 31 0 = 0 then s else (s.atDeadline t d).conclude t i { outc := outc St.notReady 0 }) := by
  show execReceiveFenceDeadline t i s = _
  rw [execReceiveFenceDeadline, h]
  dsimp only
  rw [hmet]
  split <;> rfl

theorem exec_receiveFenceDeadline_none (h : s.runnable t i 0x02 = some d) (hnone : fld d.desc 32 31 0 = 0) :
    exec (.receiveFenceDeadline t i) s = .next s := by
  show execReceiveFenceDeadline t i s = _
  rw [execReceiveFenceDeadline, h]
  exact if_pos hnone

/-- The range that an XLT_INVALIDATE names; none for all of a context. -/
def xltRange (d : DescSlot) : Option (Nat × Nat) :=
  if fld d.desc 32 13 13 = 1 then none else some (fld d.desc 16 63 0, fld d.desc 16 63 0 + fld d.desc 24 63 0)

theorem exec_xltInvalidateDesc (h : s.runnable t i 0x03 = some d) :
    exec (.xltInvalidateDesc t i) s = if (s.tile t).inFlight (invalidateCtx d) (xltRange d) then .next s
      else .next ((s.modTile t fun x => x.invalidate (invalidateCtx d) (xltRange d)).conclude t i {}) := by
  show execXltInvalidateDesc t i s = _
  rw [execXltInvalidateDesc, h]
  rfl

/-- The entries that an invalidation leaves (R103). -/
theorem mem_invalidate {x : Tile} {d : DescSlot} {ctx : Nat} {e : XEntry} :
    e ∈ (x.invalidate ctx (xltRange d)).xlt ↔ e ∈ x.xlt ∧ ¬ (e.ctx = ctx ∧ (fld d.desc 32 13 13 = 1 ∨
      (fld d.desc 16 63 0 < e.dva + 2 ^ e.size ∧ e.dva < fld d.desc 16 63 0 + fld d.desc 24 63 0))) := by
  unfold Tile.invalidate xltRange
  rw [List.mem_filter]
  by_cases h : fld d.desc 32 13 13 = 1
  · rw [if_pos h]
    simp [h]
  · rw [if_neg h]
    simp only [h, Bool.not_eq_true', Bool.and_eq_false_iff, decide_eq_false_iff_not, not_and_or, false_or]

theorem xltInvalidate_ends (h : s.runnable t i 0x03 = some d) (hq : Quiet d) :
    let u := (s.modTile t fun x => x.invalidate (invalidateCtx d) (xltRange d)).conclude t i {}
    RunsFor s u t i d {} 0 ∧ OnlyTilesAndTime s u ∧ (u.tile t).xlt = ((s.tile t).invalidate (invalidateCtx d) (xltRange d)).xlt := by
  obtain ⟨hslot, hopcode, -, hwaits, -⟩ := slot_of_runnable h
  have hran : Ran t s (s.modTile t fun x => x.invalidate (invalidateCtx d) (xltRange d)) := (Ran.refl t s).modTile fun _ => rfl
  have hslot' := (hran.slot i).trans hslot
  refine ⟨hran.runsFor (runsFor_conclude hslot' hq hwaits (hopcode ▸ (by decide)) rfl rfl rfl rfl), ?_, ?_⟩
  · exact onlyTilesAndTime_trans (u := s.modTile t fun x => x.invalidate (invalidateCtx d) (xltRange d)) rfl (conclude_tilesAndTime hslot' hq hwaits _)
  · rw [(onlyWork_conclude hslot' hq hwaits _).xlt, tile_modTile_same]

/-- A hold that has ended is no more (R138). -/
theorem holdExpiry_ends {e : Nat} (he : (s.tile t).holdEnd = some e) (hrun : s.clocksRun = true) :
    exec (.holdExpiry t) s = .next ((s.advanceCore t e).modTile t fun x => x.endHold e) := by
  show execHoldExpiry t s = _
  rw [execHoldExpiry, he]
  dsimp only
  rw [if_pos hrun]

theorem holdEnd_endHold {x : Tile} {e : Nat} (he : x.holdEnd = some e) : (x.endHold e).holdEnd = none := by
  rw [Tile.endHold, he]

end Descriptors

/-! ### Traps (R149, R150) -/

section Traps

variable {s : State} {t : TileRef}

/-- Some command is none of those on a list. -/
theorem exists_cmd_not_mem {α : Type} (l : List (Cmd × α)) : ∃ c : Cmd, ∀ e ∈ l, e.1 ≠ c := by
  have hrings : ∃ n, ∀ e ∈ l, e.1.ring < n := by
    induction l with
    | nil => exact ⟨0, fun _ h => absurd h List.not_mem_nil⟩
    | cons e l ih =>
      obtain ⟨n, hn⟩ := ih
      refine ⟨max n (e.1.ring + 1), fun k hk => ?_⟩
      rcases List.mem_cons.1 hk with rfl | hk
      · omega
      · have := hn k hk
        omega
  obtain ⟨n, hn⟩ := hrings
  exact ⟨{ ring := n }, fun e he heq => absurd (hn e he) (by rw [heq]; exact Nat.lt_irrefl n)⟩

/-- A tile as a trap finds it. -/
def trapped (s : State) (t : TileRef) (code : Nat) (info : Word) : State :=
  s.modTile t fun x => { x with trap := BitVec.ofNat 8 code, trapInfo := info }

/-- A trapped tile is the retired one, halted, without its scrub passes. -/
theorem tile_trapTile (s : State) (t : TileRef) (code : Nat) (info : Word) :
    ∃ mem, (s.trapTile t code info).tile t = { ((trapped s t code info).retire t).tile t with unit := .halted, cause := 3, mem := mem } := by
  let q := (((trapped s t code info).retire t).tileState t .halted 3).settle (t / 64) 3
  obtain ⟨c, hc⟩ := exists_cmd_not_mem (q.tile t).mem.demand
  have hq : q.tile t = { ((trapped s t code info).retire t).tile t with unit := .halted, cause := 3 } :=
    (tile_of_standing (standing_settle ..) t).trans (tile_tileState ..)
  have hraise : (s.trapTile t code info).tiles = (q.endDemand t).tiles := tiles_raise ..
  refine ⟨{ (q.tile t).mem with demand := [] }, ?_⟩
  rw [State.tile, hraise]
  exact (tile_endDemand hc).trans (by rw [hq])

/-- A trap halts a tile with its code and information, and its queued plans go. -/
theorem trapTile_spec (s : State) (t : TileRef) (code : Nat) (info : Word) :
    ((s.trapTile t code info).tile t).trap = BitVec.ofNat 8 code ∧ ((s.trapTile t code info).tile t).trapInfo = info
      ∧ ((s.trapTile t code info).tile t).unit = .halted ∧ ((s.trapTile t code info).tile t).queue = [] := by
  obtain ⟨mem, hmem⟩ := tile_trapTile s t code info
  have hfirm : TileFirm ((trapped s t code info).tile t) (((trapped s t code info).retire t).tile t) := (Firm.retire (.refl _)).tile t
  have hat : (trapped s t code info).tile t = { s.tile t with trap := BitVec.ofNat 8 code, trapInfo := info } := tile_modTile_same ..
  have htrap := hfirm.trap
  have hinfo := hfirm.trapInfo
  rw [hat] at htrap hinfo
  have hqueue := queue_retire (trapped s t code info) t
  generalize ((trapped s t code info).retire t).tile t = y at *
  rw [hmem]
  exact ⟨htrap, hinfo, rfl, hqueue⟩

theorem takeTrap_of_up (h : s.tileUp t = true) (code : Nat) (info : Word) : s.takeTrap t code info = s.trapTile t code info := if_pos h

/-- A trap of a tile in service, as the commands that take it leave it. -/
theorem takeTrap_spec (h : s.tileUp t = true) (code : Nat) (info : Word) {o : Host.Outcome State Fault Refusal}
    (ho : o = .next (s.takeTrap t code info)) : ∃ u, o = .next u ∧ (u.tile t).trap = BitVec.ofNat 8 code ∧ (u.tile t).trapInfo = info
      ∧ (u.tile t).unit = .halted ∧ (u.tile t).queue = [] := by
  rw [takeTrap_of_up h] at ho
  exact ⟨_, ho, trapTile_spec s t code info⟩

end Traps

/-- Settles O32: every arm ends the slot at once from where its engine is free, and a trap's halt keeps what the trap says. -/
theorem sequencerDescriptorsTrapsAndHolds : Obligations.SequencerDescriptorsTrapsAndHolds := by
  unfold Obligations.SequencerDescriptorsTrapsAndHolds
  intro s t i x
  refine ⟨fun d hrun hq => nop_ends hrun hq, ?_, ?_, ?_, ?_⟩
  · intro d st hrun hq hst a met us10
    have hmet : x.fenceMet d = true ↔ met := fenceMet_iff hst
    have hunmet (h : ¬ met) : x.fenceMet d = false := by rwa [← Bool.not_eq_true, hmet]
    have hfence := exec_receiveFence hrun
    refine ⟨fun h => ?_, fun h => ?_, fun h hus hshare => ?_, fun h hus hshare => ?_, fun hus => ?_⟩
    · rw [if_pos (hmet.2 h)] at hfence
      exact ⟨_, hfence, conclude_at_once hrun hq (by decide) rfl {}⟩
    · rwa [if_neg (mt hmet.1 h)] at hfence
    · have hdeadline := exec_receiveFenceDeadline hrun (hunmet h)
      rw [if_neg hus, State.atDeadline, hshare] at hdeadline
      obtain ⟨hruns, honly⟩ := conclude_at_once hrun hq (by decide) (tile_advanceTo s (x.planAt + us us10) t) (outc St.notReady 0)
      exact ⟨_, hdeadline, hruns, onlyTilesAndTime_trans (onlyTilesAndTime_advanceTo ..) honly⟩
    · have hdeadline := exec_receiveFenceDeadline hrun (hunmet h)
      rw [if_neg hus, State.atDeadline, if_pos hshare] at hdeadline
      obtain ⟨hruns, honly⟩ := conclude_at_once hrun hq (by decide)
        (tile_advanceInvar s (s.tick.timeOf d.wall + 1000 * us10).toNat t) (outc St.notReady 0)
      exact ⟨_, hdeadline, hruns, onlyTilesAndTime_trans (onlyTilesAndTime_advanceInvar ..) honly⟩
    · exact exec_receiveFenceDeadline_none hrun hus
  · intro d hrun hq ctx lo range
    have hexec := exec_xltInvalidateDesc hrun
    refine ⟨fun h => hexec.trans (if_pos h), fun h => ?_⟩
    · obtain ⟨hruns, honly, hxlt⟩ := xltInvalidate_ends hrun hq
      refine ⟨_, hexec.trans (if_neg fun hin => Bool.false_ne_true (h.symm.trans hin)), hruns, honly, fun e => ?_⟩
      rw [hxlt]
      exact mem_invalidate
  · exact fun info hup => ⟨takeTrap_spec hup 3 info rfl, takeTrap_spec hup 2 info rfl, takeTrap_spec hup 4 info rfl⟩
  · intro e he hrun
    have hcore : (s.advanceCore t e).tile t = x := tile_advanceTo ..
    have htile : ((s.advanceCore t e).modTile t fun x => x.endHold e).tile t = x.endHold e := by rw [tile_modTile_same, hcore]
    refine ⟨_, holdExpiry_ends he hrun, rfl, ?_, htile, ?_⟩
    · rw [htile]
      exact holdEnd_endHold he
    · exact onlyTilesAndTime_trans (u := s.advanceCore t e) (onlyTilesAndTime_advanceTo s _) rfl

end Sys2Proof.Proofs
end

section
/-! Signals, shares and reports on the meshes (R117 to R120, R126, R127), and O31. -/

namespace Sys2Proof.Proofs

open Sys2Proof Sys2Proof.Machine Sys2Proof.Laws Sys2Proof.Safety

/-! ### Signals (R119, R120) -/

/-- What the count of a completed descriptor leaves: every tile's semaphores, slots and core, the clock and the meshes. -/
structure Counted (s u : State) : Prop where
  time : u.time = s.time
  mesh : u.mesh = s.mesh
  sems (t : TileRef) : (u.tile t).sems = (s.tile t).sems
  slots (t : TileRef) : (u.tile t).slots = (s.tile t).slots

namespace Counted

variable {s u w : State} {t : TileRef}

theorem refl (s : State) : Counted s s := ⟨rfl, rfl, fun _ => rfl, fun _ => rfl⟩

theorem setTile (h : Counted s u) {x : Tile} (hx : (x.sems, x.slots) = ((u.tile t).sems, (u.tile t).slots)) : Counted s (u.setTile t x) := by
  obtain ⟨hsems, hslots⟩ := by simpa only [Prod.mk.injEq] using hx
  refine ⟨h.time, h.mesh, fun k => ?_, fun k => ?_⟩
  all_goals by_cases hk : k = t
  · rw [hk, tile_setTile_same, hsems, h.sems]
  · rw [tile_setTile_other u x hk, h.sems]
  · rw [hk, tile_setTile_same, hslots, h.slots]
  · rw [tile_setTile_other u x hk, h.slots]

theorem modTile (h : Counted s u) {f : Tile → Tile} (hf : ∀ x, ((f x).sems, (f x).slots) = (x.sems, x.slots)) : Counted s (u.modTile t f) :=
  h.setTile (hf _)

theorem branch (c : Prop) {dec : Decidable c} (hu : Counted s u) (hw : Counted s w) : Counted s (@ite State c dec u w) := by
  split
  · exact hu
  · exact hw

theorem planDone (h : Counted s u) {p : Plan} : Counted s (u.planDone t p) :=
  branch _ ((h.setTile (by rfl)).modTile (by intro; rfl)) (h.setTile (by rfl))

theorem countDone (h : Counted s u) {i : Nat} {o : Outc} : Counted s (u.countDone t i o) := by
  have hcount : Counted s (u.modTile t fun x => { x with
    completed := x.completed + 1
    planOuts := if o.status = St.ok && o.reason = 0 then x.planOuts else kvPut x.planOuts i o }) := h.modTile (by intro; rfl)
  unfold State.countDone
  dsimp only
  split
  · exact branch _ hcount.planDone hcount
  · exact hcount

end Counted

/-- From `s`, slot `i` of tile `t` has become free; the clock, the meshes and every semaphore stand. -/
structure SlotFreed (t : TileRef) (i : Nat) (s u : State) : Prop where
  time : u.time = s.time
  mesh : u.mesh = s.mesh
  sems (k : TileRef) : (u.tile k).sems = (s.tile k).sems
  slot : (u.tile t).slot i = none

namespace SlotFreed

variable {s u w : State} {t : TileRef} {i : Nat}

theorem modTile {f : Tile → Tile} (hf : (f (s.tile t)).sems = (s.tile t).sems) (hslot : (f (s.tile t)).slot i = none) :
    SlotFreed t i s (s.modTile t f) := by
  refine ⟨rfl, rfl, fun k => ?_, ?_⟩
  · by_cases hk : k = t
    · rw [hk, tile_modTile_same, hf]
    · rw [tile_modTile_other s f hk]
  · rw [tile_modTile_same, hslot]

theorem counted (h : SlotFreed t i s u) (hw : Counted u w) : SlotFreed t i s w :=
  ⟨hw.time.trans h.time, hw.mesh.trans h.mesh, fun k => (hw.sems k).trans (h.sems k), (congrArg (kvFind · i) (hw.slots t)).trans h.slot⟩

/-- A signal that has been applied frees the slot that sent it (R117). -/
theorem signalled (s : State) (t : TileRef) (i : Nat) : SlotFreed t i s (s.signalled t i) := by
  unfold State.signalled
  split
  · have hfreed : SlotFreed t i s (s.modTile t fun x => { x with slots := kvErase x.slots i }) :=
      modTile rfl ((kvFind_kvErase ..).trans (if_pos rfl))
    dsimp only
    split
    · exact hfreed.counted (.countDone (.refl _))
    · exact hfreed
  · next hnone =>
    have hsame : SlotFreed t i s s := ⟨rfl, rfl, fun _ => rfl, hnone⟩
    split
    · split
      · exact hsame
      · exact (modTile (f := fun x => { x with signalsOut := kvErase x.signalsOut (i - 256) }) rfl hnone).counted (.countDone (.refl _))
    · exact hsame

end SlotFreed

/-- The first message due has come off the meshes, the clock at its time. -/
def messageTaken (s : State) (m : MeshMsg) (rest : List MeshMsg) : State := State.advanceTo { s with mesh := rest } m.due

section Taken

variable (s : State) (t : TileRef) (m : MeshMsg) (rest : List MeshMsg)

theorem tile_messageTaken : (messageTaken s m rest).tile t = s.tile t := tile_advanceTo ..

theorem messageTaken_eq : messageTaken s m rest = { s with mesh := rest, time := (messageTaken s m rest).time } := advanceTo_eq ..

theorem mesh_messageTaken : (messageTaken s m rest).mesh = rest := by rw [messageTaken_eq]

theorem tileUp_messageTaken : (messageTaken s m rest).tileUp t = s.tileUp t := by
  have hbu : (messageTaken s m rest).bu = s.bu := by rw [messageTaken_eq]
  simp only [State.tileUp, State.clocksRun, State.brassRuns, hbu, tile_messageTaken]

end Taken

/-- A SIGNAL message's fields. -/
def signalOf : MeshBody → Option (Nat × Nat × Bool × TileRef × Nat)
  | .signal sem amount fail src slot => some (sem, amount, fail, src, slot)
  | _ => none

section Messages

variable {s : State} {t : TileRef}

theorem exec_remoteSignal {sem amount : Nat} {fail : Bool} {src : TileRef} {slot : Nat} {m : MeshMsg} {rest : List MeshMsg}
    (hrun : s.clocksRun = true) (h : meshTake t signalOf s.mesh = some ((sem, amount, fail, src, slot), m, rest)) :
    let r := (messageTaken s m rest).signal t sem amount fail
    exec (.remoteSignal t) s =
      .next ((r.1.signalled src slot).completeSlots t slotFuel (r.2.map fun n => (n, outc St.aborted Rs.depFailed))) := by
  show execRemoteSignal t s = _
  unfold execRemoteSignal
  split
  · next hnone => cases hnone.symm.trans h
  · next hsome =>
    cases hsome.symm.trans h
    rw [hrun]
    rfl

theorem completeSlots_nil (s : State) (t : TileRef) (fuel : Nat) : s.completeSlots t fuel [] = s := by
  cases fuel <;> rfl

/-- A signal that does not fail adds to its semaphore, which holds at its largest value (R119). -/
theorem sem_signal (s : State) (t : TileRef) (sem amount : Nat) : let r := s.signal t sem amount false
    r.2 = [] ∧ r.1.time = s.time ∧ r.1.mesh = s.mesh
      ∧ (kvGet (r.1.tile t).sems sem {}).value.toNat = min ((kvGet (s.tile t).sems sem {}).value.toNat + amount) (2 ^ 32 - 1)
      ∧ (kvGet (r.1.tile t).sems sem {}).failed = (kvGet (s.tile t).sems sem {}).failed := by
  have hsems : ((s.signal t sem amount false).1.tile t).sems = kvMod (s.tile t).sems sem {} fun m =>
      { m with value := BitVec.ofNat 32 (min (m.value.toNat + amount) 0xFFFFFFFF) } :=
    congrArg Tile.sems (tile_modTile_same ..)
  refine ⟨rfl, rfl, rfl, ?_, ?_⟩
  all_goals rw [hsems, kvMod, kvGet_kvPut_same]
  exact (BitVec.toNat_ofNat ..).trans (Nat.mod_eq_of_lt (by omega))

/-- One that fails sets `FAILED` (R120). -/
theorem failed_signal (s : State) (t : TileRef) (sem amount : Nat) :
    (kvGet ((s.signal t sem amount true).1.tile t).sems sem {}).failed = true := by
  have hsems : ((s.signal t sem amount true).1.tile t).sems = kvMod (s.tile t).sems sem {} fun m => { m with failed := true } :=
    congrArg Tile.sems (tile_modTile_same ..)
  rw [hsems, kvMod, kvGet_kvPut_same]

theorem remoteSignal_adds {sem amount : Nat} {src : TileRef} {slot : Nat} {m : MeshMsg} {rest : List MeshMsg}
    (hrun : s.clocksRun = true) (h : meshTake t signalOf s.mesh = some ((sem, amount, false, src, slot), m, rest)) :
    ∃ u, exec (.remoteSignal t) s = .next u ∧ u.mesh = rest ∧ u.time.now = max s.time.now m.due
      ∧ (kvGet (u.tile t).sems sem {}).value.toNat = min ((kvGet (s.tile t).sems sem {}).value.toNat + amount) (2 ^ 32 - 1)
      ∧ (kvGet (u.tile t).sems sem {}).failed = (kvGet (s.tile t).sems sem {}).failed ∧ (u.tile src).slot slot = none := by
  let q := messageTaken s m rest
  have hq : q.tile t = s.tile t := tile_messageTaken ..
  obtain ⟨hnone, htime, hmesh, hvalue, hfailed⟩ := sem_signal q t sem amount
  have hfreed := SlotFreed.signalled (q.signal t sem amount false).1 src slot
  refine ⟨(q.signal t sem amount false).1.signalled src slot, (exec_remoteSignal hrun h).trans ?_, ?_, ?_, ?_, ?_, hfreed.slot⟩
  · rw [hnone, List.map_nil, completeSlots_nil]
  · rw [hfreed.mesh, hmesh]
    exact mesh_messageTaken ..
  · rw [hfreed.time, htime]
    exact advanceTo_now ..
  · rw [hfreed.sems, hvalue, hq]
  · rw [hfreed.sems, hfailed, hq]

/-- What the slots that fail with a semaphore complete keeps it failed. -/
theorem remoteSignal_fails {sem amount : Nat} {src : TileRef} {slot : Nat} {m : MeshMsg} {rest : List MeshMsg}
    (hrun : s.clocksRun = true) (h : meshTake t signalOf s.mesh = some ((sem, amount, true, src, slot), m, rest)) :
    ∃ u, exec (.remoteSignal t) s = .next u ∧ (kvGet (u.tile t).sems sem {}).failed = true := by
  let q := messageTaken s m rest
  have hfreed := SlotFreed.signalled (q.signal t sem amount true).1 src slot
  refine ⟨_, exec_remoteSignal hrun h, ((Firm.completeSlots _ (.refl _)).tile t).failed sem ?_⟩
  rw [hfreed.sems]
  exact failed_signal q t sem amount

/-! ### Shares (R126) -/

/-- A SHARE message's share. -/
def shareOf : MeshBody → Option Share
  | .share sh => some sh
  | _ => none

theorem exec_shareArrival {sh : Share} {m : MeshMsg} {rest : List MeshMsg} (hrun : s.clocksRun = true)
    (h : meshTake t shareOf s.mesh = some (sh, m, rest)) :
    exec (.shareArrival t) s = .next ((messageTaken s m rest).takeShare t sh) := by
  show execShareArrival t s = _
  unfold execShareArrival
  split
  · next hnone => cases hnone.symm.trans h
  · next hsome =>
    cases hsome.symm.trans h
    rw [hrun]
    rfl

theorem takeShare_down {sh : Share} (h : s.tileUp t = false) : s.takeShare t sh = s.reportShare t sh (outc St.notReady 0) := by
  rw [State.takeShare, h]
  rfl

theorem takeShare_room {sh : Share} (h : s.tileUp t = true) (hnew : (s.tile t).holdsTwin sh = false) (hroom : (s.tile t).shares.length < 32) :
    s.takeShare t sh = s.setTile t ((s.tile t).queueShare sh) := by
  simp only [State.takeShare, h, hnew, if_neg (Nat.not_le.2 hroom)]
  rfl

theorem takeShare_full {sh : Share} (h : s.tileUp t = true) (hnew : (s.tile t).holdsTwin sh = false) (hfull : 32 ≤ (s.tile t).shares.length)
    (hown : sh.leadMsg = none) : s.takeShare t sh = s.modTile sh.lead fun k => { k with retry := k.retry ++ [(t, sh)] } := by
  simp only [State.takeShare, h, hnew, if_pos hfull, hown]
  rfl

theorem foldl_meshSend (l : List (TileRef × Share)) (s : State) :
    l.foldl (fun (s : State) e => s.meshSend e.1 (meshDelay t e.1) (.share e.2)) s =
      { s with mesh := s.mesh ++ l.map fun e => { dest := e.1, due := s.time.now + meshDelay t e.1, body := .share e.2 } } := by
  induction l generalizing s with
  | nil => rw [List.map_nil, List.append_nil]; rfl
  | cons e l ih =>
    rw [List.foldl_cons, ih, List.map_cons]
    simp only [State.meshSend, List.append_assoc, List.singleton_append]

/-- The shares held for want of room go out again, 64 cc on. -/
theorem shareRetry_sends (hrun : s.clocksRun = true) (h : (s.tile t).retry ≠ []) :
    ∃ u, exec (.shareRetry t) s = .next u ∧ (u.tile t).retry = [] ∧ u.time.now = s.time.now + s.coreSpan t 64
      ∧ u.mesh = s.mesh ++ (s.tile t).retry.map fun e =>
        { dest := e.1, due := s.time.now + s.coreSpan t 64 + meshDelay t e.1, body := .share e.2 } := by
  let q := (s.advanceTo (s.time.now + s.coreSpan t 64)).modTile t fun x => { x with retry := [] }
  have hnow : q.time.now = s.time.now + s.coreSpan t 64 := (advanceTo_now ..).trans (Nat.max_eq_right (Nat.le_add_right ..))
  have hexec : exec (.shareRetry t) s =
      .next ((s.tile t).retry.foldl (fun (s : State) e => s.meshSend e.1 (meshDelay t e.1) (.share e.2)) q) := by
    show execShareRetry t s = _
    unfold execShareRetry
    rw [hrun]
    cases hretry : (s.tile t).retry with
    | nil => exact absurd hretry h
    | cons e l => rfl
  rw [foldl_meshSend] at hexec
  have htile : (q.tile t).retry = [] := congrArg Tile.retry (tile_modTile_same ..)
  refine ⟨_, hexec, htile, hnow, ?_⟩
  rw [hnow]
  have hmesh : (s.advanceTo (s.time.now + s.coreSpan t 64)).mesh = s.mesh := by rw [advanceTo_eq]
  exact congrArg (· ++ _) hmesh

/-! ### Reports (R127) -/

/-- A REPORT message's fields. -/
def reportOf : MeshBody → Option (Nat × BitVec 32 × Outc)
  | .report slot unit o => some (slot, unit, o)
  | _ => none

theorem exec_shareReport {slot : Nat} {unit : BitVec 32} {o : Outc} {m : MeshMsg} {rest : List MeshMsg} (hrun : s.clocksRun = true)
    (h : meshTake t reportOf s.mesh = some ((slot, unit, o), m, rest)) :
    exec (.shareReport t) s = .next ((messageTaken s m rest).memberReport t slot unit o) := by
  show execShareReport t s = _
  unfold execShareReport
  split
  · next hnone => cases hnone.symm.trans h
  · next hsome =>
    cases hsome.symm.trans h
    rw [hrun]
    rfl

/-- A slot of whose split a member has reported. -/
def reported (unit : BitVec 32) (o : Outc) (d : DescSlot) : DescSlot :=
  { d with members := d.members.map fun k => if k.unit = unit && k.report.isNone then { k with report := some o } else k }

/-- A member's report is marked, and the last one finishes the slot with the members' outcome. -/
theorem slot_memberReport {slot : Nat} {unit : BitVec 32} {o : Outc} {d : DescSlot} (h : (s.tile t).slot slot = some d)
    (hsplit : d.split = true) (hph : d.ph = .running) :
    (s.memberReport t slot unit o).mesh = s.mesh
      ∧ ((∃ k ∈ (reported unit o d).members, k.report = none) →
        ((s.memberReport t slot unit o).tile t).slot slot = some (reported unit o d))
      ∧ ((∀ k ∈ (reported unit o d).members, k.report ≠ none) → ((s.memberReport t slot unit o).tile t).slot slot =
        some { reported unit o d with
          ph := .finished, result := combineTree 8 ((reported unit o d).members.map fun k => (k.path, k.report.getD {})) }) := by
  have hslot : ((s.modSlot t slot (reported unit o)).tile t).slot slot = some (reported unit o d) := slot_modSlot h _
  have hall : (reported unit o d).members.all (fun m => m.report.isSome) = true ↔ ∀ k ∈ (reported unit o d).members, k.report ≠ none := by
    simp only [List.all_eq_true, Option.isSome_iff_ne_none]
  have heq : s.memberReport t slot unit o = if (reported unit o d).members.all (fun m => m.report.isSome) = true then
      (s.modSlot t slot (reported unit o)).finishSlot t slot
        (combineTree 8 ((reported unit o d).members.map fun m => (m.path, m.report.getD {})))
      else s.modSlot t slot (reported unit o) := by
    unfold State.memberReport
    dsimp only
    rw [show (s.modSlot t slot fun d => { d with members := d.members.map fun m =>
      if m.unit = unit && m.report.isNone then { m with report := some o } else m }) = s.modSlot t slot (reported unit o) from rfl, hslot]
    dsimp only
    rw [show (reported unit o d).split = true from hsplit, show (reported unit o d).ph = .running from hph]
    simp only [decide_true, Bool.true_and]
  rw [heq]
  refine ⟨?_, fun hsome => ?_, fun hevery => ?_⟩
  · split <;> rfl
  · rw [if_neg, hslot]
    intro hevery
    obtain ⟨k, hk, hnone⟩ := hsome
    exact hall.1 hevery k hk hnone
  · rw [if_pos (hall.2 hevery)]
    exact slot_finishSlot hslot _

end Messages

/-- Settles O31: each command takes the first message due and does what it says; what completes after a failed signal leaves the semaphore
failed. -/
theorem signalsAndSharesArriveInTurn : Obligations.SignalsAndSharesArriveInTurn := by
  unfold Obligations.SignalsAndSharesArriveInTurn
  intro s t hrun x sig shr rep
  refine ⟨fun sem amount src slot m rest h => remoteSignal_adds hrun h, fun sem amount src slot m rest h => remoteSignal_fails hrun h,
    ?_, fun h => shareRetry_sends hrun h, ?_⟩
  · intro sh m rest h q
    have hexec := exec_shareArrival hrun h
    have hx : (messageTaken s m rest).tile t = x := tile_messageTaken ..
    have hup := tileUp_messageTaken s t m rest
    rw [← hup, ← hx, hexec]
    refine ⟨fun hup hnew hroom => congrArg Host.Outcome.next (takeShare_room hup hnew hroom), fun hup hnew hfull hown => ?_, fun hdown => ?_⟩
    · rw [takeShare_full hup hnew hfull hown]
      rfl
    · rw [takeShare_down hdown]
      rfl
  · intro slot unit o m rest d h hslot hsplit hph ms
    have hslot' : ((messageTaken s m rest).tile t).slot slot = some d := by rw [tile_messageTaken, hslot]
    obtain ⟨hmesh, hwaits, hdone⟩ := slot_memberReport (unit := unit) (o := o) hslot' hsplit hph
    exact ⟨_, exec_shareReport hrun h, hmesh.trans (mesh_messageTaken ..), hwaits, hdone⟩

end Sys2Proof.Proofs
end

section
/-! A tile's reads and writes by device virtual address do not depend on where the tile stands (R96 to R111, R197, R281, R353 to R356): a
translation puts it in its place before anything tells. -/

namespace Sys2Proof.Proofs

open Sys2Proof Sys2Proof.Machine Sys2Proof.Laws Sys2Proof.Safety

/-! ### Runs from a state with the tile in its place -/

/-- A run that keeps what tiles have posted, and leaves a tile that is in its place there. -/
structure Calm (own : TileRef) {α : Type} (m : M α) : Prop where
  posts : ∀ s, Posts s (m.result s).2
  settled : ∀ s, putBack own s = s → putBack own (m.result s).2 = (m.result s).2

/-- A run that answers with the tile in its place, and otherwise does not depend on it. -/
structure Settles (own : TileRef) {α : Type} (m : M α) : Prop extends Placeless own m where
  settled : ∀ s a q, m.result s = (.ok a, q) → putBack own q = q

section Combinators

variable {own : TileRef} {α β : Type}

theorem Placeless.calm {m : M α} (h : Placeless own m) : Calm own m :=
  ⟨h.posts, fun s hs => (congrArg Prod.snd ((h.moves s).symm.trans (congrArg m.result hs)) :)⟩

theorem result_atDva (dva : BitVec 64) (m : M α) (s : State) :
    (atDva dva m).result s = ((m.result s).1.mapError fun e => if e.dva = 0 then { e with dva := dva } else e, (m.result s).2) := by
  unfold atDva M.result EStateM.adaptExcept EStateM.run
  dsimp only
  cases m s <;> rfl

theorem result_tryCatch (m : M α) (h : Stop → M α) (s : State) :
    M.result (EStateM.tryCatch m h) s = (match m.result s with
      | (.ok a, q) => (.ok a, q)
      | (.error e, q) => (h e).result q) := by
  unfold M.result EStateM.run EStateM.tryCatch
  dsimp only
  cases m s <;> rfl

namespace Calm

theorem pure {a : α} : Calm own (Pure.pure a : M α) := Placeless.pure.calm

theorem throw {e : Stop} : Calm own (MonadExcept.throw e : M α) := Placeless.throw.calm

theorem stop {st rs : Code} {kind : Nat} {dva : BitVec 64} : Calm own (M.stop st rs kind dva : M α) := throw

theorem get : Calm own (MonadState.get : M State) := ⟨.refl, fun _ => id⟩

theorem bind {m : M α} {f : α → M β} (hm : Calm own m) (hf : ∀ a, Calm own (f a)) : Calm own (m >>= f) := by
  constructor <;> intro s
  · have hp := hm.posts s
    rw [result_bind]
    split
    · next a q heq => exact (show Posts s q by simpa only [heq] using hp).trans ((hf a).posts q)
    · next e q heq => simpa only [heq] using hp
  · intro hs
    have hq := hm.settled s hs
    rw [result_bind]
    split
    · next a q heq => exact (hf a).settled q (by simpa only [heq] using hq)
    · next e q heq => simpa only [heq] using hq

theorem branch (c : Prop) {dec : Decidable c} {m n : M α} (hm : Calm own m) (hn : Calm own n) : Calm own (@ite (M α) c dec m n) := by
  split
  · exact hm
  · exact hn

theorem check (c : Prop) {dec : Decidable c} {m : M Unit} {f : Unit → M α} (hm : Calm own m) (hf : ∀ u, Calm own (f u)) :
    Calm own (@ite (M α) c dec (m >>= f) (f ())) := branch c (hm.bind hf) (hf ())

theorem atDva {dva : BitVec 64} {m : M α} (hm : Calm own m) : Calm own (Machine.atDva dva m) :=
  ⟨fun s => by rw [result_atDva]; exact hm.posts s, fun s => by rw [result_atDva]; exact hm.settled s⟩

theorem mapM {γ : Type} {f : γ → M α} (hf : ∀ c, Calm own (f c)) (l : List γ) : Calm own (l.mapM f) := by
  induction l with
  | nil => rw [List.mapM_nil]; exact pure
  | cons c l ih =>
    rw [List.mapM_cons]
    exact (hf c).bind fun _ => ih.bind fun _ => pure

theorem forM {γ : Type} {f : γ → M PUnit} (hf : ∀ c, Calm own (f c)) (l : List γ) : Calm own (l.forM f) := by
  induction l with
  | nil => exact pure
  | cons c l ih => exact (hf c).bind fun _ => ih

end Calm

theorem Placeless.atDva {dva : BitVec 64} {m : M α} (hm : Placeless own m) : Placeless own (Machine.atDva dva m) :=
  ⟨fun s => by rw [result_atDva]; exact hm.posts s, fun s => by rw [result_atDva, result_atDva, hm.moves s]⟩

theorem Placeless.tryCatch {m : M α} {h : Stop → M α} (hm : Placeless own m) (hh : ∀ e, Placeless own (h e)) :
    Placeless own (EStateM.tryCatch m h) := by
  constructor <;> intro s
  · have hp := hm.posts s
    rw [result_tryCatch]
    split
    · next a q heq => simpa only [heq] using hp
    · next e q heq => exact (show Posts s q by simpa only [heq] using hp).trans ((hh e).posts q)
  · rw [result_tryCatch, result_tryCatch, hm.moves s]
    rcases m.result s with ⟨e | a, q⟩
    · exact (hh e).moves q
    · rfl

namespace Settles

theorem modTile {f : Tile → Tile} (hf : ∀ x, posted (f x) = posted x) : Settles own (M.upd fun s => s.modTile own f) :=
  ⟨.upd (fun s => (Posts.refl s).modTile hf) fun _ => modTile_putBack .., fun s _ q h => by
    cases h
    exact putBack_setTile ..⟩

theorem atDva {dva : BitVec 64} {m : M α} (hm : Settles own m) : Settles own (Machine.atDva dva m) :=
  ⟨hm.toPlaceless.atDva, fun s a q h => by
    rw [result_atDva] at h
    rcases hr : m.result s with ⟨e | b, v⟩
    · rw [hr] at h
      cases h
    · rw [hr] at h
      cases h
      exact hm.settled s _ _ hr⟩

/-- What follows leaves the tile in its place. -/
theorem bind {m : M α} {f : α → M β} (hm : Settles own m) (hf : ∀ a, Calm own (f a)) : Settles own (m >>= f) := by
  have hall (s : State) : Posts s ((m >>= f).result s).2 ∧ (m >>= f).result (putBack own s) =
      (((m >>= f).result s).1, putBack own ((m >>= f).result s).2) ∧ ∀ a q, (m >>= f).result s = (.ok a, q) → putBack own q = q := by
    have hp := hm.posts s
    rw [result_bind_eq, result_bind_eq, hm.moves s]
    rcases hr : m.result s with ⟨e | a, q⟩
    · rw [hr] at hp
      exact ⟨hp, rfl, fun _ _ h => nomatch h⟩
    · rw [hr] at hp
      have hq := hm.settled s a q hr
      have hu := (hf a).settled q hq
      dsimp only
      rw [hq]
      exact ⟨hp.trans ((hf a).posts q), Prod.ext rfl hu.symm, fun b u h => by rw [h] at hu; exact hu⟩
  exact ⟨⟨fun s => (hall s).1, fun s => (hall s).2.1⟩, fun s => (hall s).2.2⟩

/-- What comes before does not depend on it. -/
theorem after {m : M α} {f : α → M β} (hm : Placeless own m) (hf : ∀ a, Settles own (f a)) : Settles own (m >>= f) :=
  ⟨hm.bind fun a => (hf a).toPlaceless, fun s b q h => by
    rw [result_bind_eq] at h
    split at h
    · next a u heq => exact (hf a).settled u b q h
    · cases h⟩

theorem get {f : State → M α} (hs : ∀ s, f (putBack own s) = f s) (hf : ∀ s, Settles own (f s)) :
    Settles own (MonadState.get >>= f) :=
  ⟨.get hs fun s => (hf s).toPlaceless, fun s => (hf s).settled s⟩

end Settles

end Combinators

/-! ### Translation (R96 to R104) -/

section Translation

variable {own : TileRef}

@[simp] theorem protectedAt_putBack (s : State) (a : Nat) : (putBack own s).protectedAt a = s.protectedAt a := by
  simp only [State.protectedAt, tile_putBack]

@[simp] theorem nodeLocal_putBack (s : State) (g : Nat) : (putBack own s).nodeLocal g = s.nodeLocal g := by
  simp only [State.nodeLocal, protectedAt_putBack]
  rfl

namespace Placeless

theorem walk {dva : BitVec 64} {kind : Nat} (level : Nat) : ∀ node, Placeless own (walk dva kind level node) := by
  induction level with
  | zero =>
    intro node
    refine get (fun s => by simp only [nodeLocal_putBack]) fun s => ?_
    split
    · exact stop
    · refine bind readStack fun b => ?_
      dsimp only
      split
      · exact stop
      · exact stop
      · exact stop
      · exact pure
  | succ level ih =>
    intro node
    refine get (fun s => by simp only [nodeLocal_putBack]) fun s => ?_
    split
    · exact stop
    · refine bind readStack fun b => ?_
      dsimp only
      split
      · exact stop
      · exact stop
      · exact ih _
      · exact pure

theorem contextCheck {ctx : Nat} {dva : BitVec 64} {kind : Nat} : Placeless own (contextCheck ctx dva kind) := by
  unfold Machine.contextCheck
  refine check _ stop fun _ => bind (upd (fun s => (Posts.refl s).coupledUse) fun s => coupledUse_putBack ..) fun _ =>
    get (fun _ => rfl) fun _ => ?_
  exact check _ stop fun _ => check _ stop fun _ => branch _ stop pure

theorem translatePlain {ctx : Nat} {dva : BitVec 64} {kind : Nat} : Placeless own (translatePlain ctx dva kind) :=
  bind contextCheck fun _ => get (fun _ => rfl) fun _ => bind (walk _ _) fun _ => pure

theorem xltUsed {t : TileRef} {ctx : Nat} {dva : BitVec 64} : Placeless own (xltUsed t ctx dva) := by
  refine get (fun s => by simp only [tile_putBack]) fun s => ?_
  split
  · exact pure
  · exact translatePlain

end Placeless

theorem Settles.translate {ctx : Nat} {dva : BitVec 64} {kind : Nat} : Settles own (translate own ctx dva kind) := by
  refine .after .contextCheck fun _ => .get (fun s => by simp only [tile_putBack]) fun s => ?_
  split
  · exact (Settles.modTile (by intro; rfl)).bind fun _ => .pure
  · exact (Settles.modTile (by intro; rfl)).bind fun _ => Calm.get.bind fun _ => (Placeless.walk _ _).calm.bind fun _ =>
      (Settles.modTile (by intro; rfl)).calm.bind fun _ => .pure

end Translation

end Sys2Proof.Proofs
end

section
/-! What a tile's accesses leave in place, and the times of its paths, wherever the tile stands (R105 to R109, R197, R281, R353 to R356). -/

namespace Sys2Proof.Proofs

open Sys2Proof Sys2Proof.Machine Sys2Proof.Laws Sys2Proof.Safety

/-! ### Accesses after a translation -/

namespace Calm

variable {own t : TileRef} {env : Env}

theorem upd {f : State → State} (hp : ∀ s, Posts s (f s)) (hf : ∀ s, putBack own s = s → putBack own (f s) = f s) :
    Calm own (M.upd f) := ⟨hp, hf⟩

theorem modTile {f : Tile → Tile} (hf : ∀ x, posted (f x) = posted x) : Calm own (M.upd fun s => s.modTile t f) :=
  upd (fun s => (Posts.refl s).modTile hf) fun s hs => by rw [← modTile_putBack, hs]

theorem modSlot {i : Nat} {f : DescSlot → DescSlot} (hf : ∀ d, (f d).desc = d.desc) : Calm own (M.upd fun s => s.modSlot t i f) :=
  upd (fun s => (Posts.refl s).modSlot hf) fun s hs => by rw [← modSlot_putBack, hs]

theorem readLocal {a n kind : Nat} : Calm own (readLocal a n kind) := by
  unfold Machine.readLocal
  split
  · exact Placeless.readStack.calm
  · exact bind get fun _ => pure
  · exact bind get fun _ => pure
  · exact bind get fun _ => pure
  · exact stop

theorem writeLocal {a kind : Nat} {bytes : List Byte} : Calm own (writeLocal a kind bytes) := by
  unfold Machine.writeLocal
  split
  · exact Placeless.writeStack.calm
  · exact stop
  · exact stop
  · exact stop
  · exact stop

theorem readAway {g n : Nat} {dva : BitVec 64} {kind : Nat} : Calm own (readAway env g n dva kind) := by
  unfold Machine.readAway
  split
  · exact stop
  · split
    · exact pure
    · refine bind get fun _ => ?_
      split
      · exact stop
      · exact throw

theorem readGlobal {g n : Nat} {dva : BitVec 64} {kind : Nat} : Calm own (readGlobal env g n dva kind) :=
  bind get fun _ => branch _ (bind (mapM (fun _ => atDva readLocal) _) fun _ => pure) (bind (mapM (fun _ => readAway) _) fun _ => pure)

theorem mirrorReadable {ctx : Nat} {dva : BitVec 64} {n kind : Nat} : Calm own (mirrorReadable ctx dva n kind) :=
  bind get fun _ => branch _ stop pure

theorem appendMark {e : XEntry} {dva : BitVec 64} {a b kind : Nat} : Calm own (appendMark e dva a b kind) :=
  bind Placeless.readStack.calm fun _ => check _ stop fun _ => branch _ Placeless.writeStack.calm pure

theorem meshBytes {dst : TileRef} {n : Nat} : Calm own (meshBytes t dst n) := branch _ pure (modTile (by intro; rfl))

theorem noteLanded {a n : Nat} : Calm own (noteLanded env a n) :=
  branch _ (bind meshBytes fun _ => branch _ (modSlot fun _ => rfl) pure) pure

theorem requestOf {m : Msg} {user : TxnUser} : Calm own (M.upd fun s => s.requestOf t m user) := by
  have hcount : Calm own (M.upd fun s => s.countSent t m) := by
    refine upd (fun s => .branch _ (.refl s) ((Posts.refl s).modTile (by intro; split_ifs <;> rfl))) fun s hs => ?_
    unfold State.countSent
    dsimp only
    split
    · exact hs
    · rw [← modTile_putBack, hs]
  have htiles (s : State) : (s.requestOf t m user).tiles = (s.countSent t m).tiles := (OnlyFlits.refl _).request.tiles
  exact upd (fun s => (hcount.posts s).of_tiles (htiles s)) fun s hs => putBack_of_tiles _ _ (hcount.settled s hs) (htiles s)

theorem queueMsg {m : Msg} {mirror : Bool} : Calm own (queueMsg env m mirror) := branch _ requestOf (modSlot fun _ => rfl)

theorem writeAway {g : Nat} {dva : BitVec 64} {kind : Nat} {bytes : List Byte} : Calm own (writeAway env g dva kind bytes) := by
  unfold Machine.writeAway
  split
  · exact stop
  · exact branch _ pure throw

theorem noteMirror {reason : Code} : Calm own (noteMirror env reason) := branch _ pure (modSlot fun _ => rfl)

theorem writeHere {mirrored : Bool} {a : Nat} {dva : BitVec 64} {kind : Nat} {bytes : List Byte} :
    Calm own (writeHere env mirrored a dva kind bytes) := by
  have hput : Calm own (do
      Machine.atDva dva (Machine.writeLocal a kind bytes)
      Machine.noteLanded env a bytes.length) := bind (atDva writeLocal) fun _ => noteLanded
  have htwin {x : State → TwinState} : Calm own (M.upd fun s => { s with twin := x s }) :=
    upd (fun s => (Posts.refl s).of_tiles rfl) fun s hs => putBack_of_tiles _ _ hs rfl
  refine branch _ hput (bind get fun s => ?_)
  dsimp only
  split
  · exact bind (bind hput fun _ => htwin) fun _ => branch _ noteMirror queueMsg
  · exact bind (bind hput fun _ => htwin) fun _ => noteMirror
  · exact branch _ (bind hput fun _ => htwin) stop

theorem writeGlobal {mirrored : Bool} {g : Nat} {dva : BitVec 64} {kind : Nat} {bytes : List Byte} :
    Calm own (writeGlobal env mirrored g dva kind bytes) := by
  refine bind get fun s => branch _ (forM (fun _ => writeHere) _) ?_
  split
  · exact stop
  · exact forM (fun _ => branch _ writeAway queueMsg) _

end Calm

/-! ### Accesses of a tile -/

namespace Placeless

variable {env : Env} {kind : Nat} {dva : BitVec 64}

theorem readParts {perm : Bool} (fuel : Nat) : ∀ dva n, Placeless env.t (readParts env perm kind fuel dva n) := by
  induction fuel with
  | zero => exact fun _ _ => pure
  | succ fuel ih =>
    intro dva n
    refine branch _ pure (Settles.bind Settles.translate.atDva fun e => ?_).toPlaceless
    exact .check _ .stop fun _ => .bind .get fun _ => .check _ .mirrorReadable fun _ => .bind .readGlobal fun _ =>
      .bind (ih _ _).calm fun _ => .pure

theorem readDva {n : Nat} : Placeless env.t (readDva env dva n kind) := readParts _ _ _

theorem readUnder {n : Nat} : Placeless env.t (readUnder env dva n kind) := readParts _ _ _

theorem writeParts (fuel : Nat) : ∀ dva bytes, Placeless env.t (writeParts env kind fuel dva bytes) := by
  induction fuel with
  | zero => exact fun _ _ => pure
  | succ fuel ih =>
    intro dva bytes
    refine branch _ pure (Settles.bind Settles.translate.atDva fun e => ?_).toPlaceless
    exact .check _ .stop fun _ => .check _ (.atDva .appendMark) fun _ => .bind .writeGlobal fun _ => (ih _ _).calm

theorem writeDva {bytes : List Byte} : Placeless env.t (writeDva env dva bytes kind) := writeParts _ _ _

variable {own t : TileRef}

theorem modTile {f : Tile → Tile} (hf : ∀ x, posted (f x) = posted x) : Placeless own (M.upd fun s => s.modTile t f) :=
  upd (fun s => (Posts.refl s).modTile hf) fun _ => modTile_putBack ..

theorem modSlot {i : Nat} {f : DescSlot → DescSlot} (hf : ∀ d, (f d).desc = d.desc) : Placeless own (M.upd fun s => s.modSlot t i f) :=
  upd (fun s => (Posts.refl s).modSlot hf) fun _ => modSlot_putBack ..

theorem readOnce {n : Nat} : Placeless env.t (readOnce env dva n kind) := by
  refine get (fun s => by simp only [tile_putBack]) fun s => ?_
  split
  · exact bind (tryCatch (bind readDva fun _ => pure) fun _ => pure) fun _ => pure
  · exact bind readDva fun _ => bind (modSlot fun _ => rfl) fun _ => pure

end Placeless

/-! ### Times of a tile's paths -/

section Times

variable (own : TileRef) (s : State) (t : TileRef) (ctx : Nat) (dva : BitVec 64)

@[simp] theorem reaches_putBack : (putBack own s).reaches t ctx dva = s.reaches t ctx dva := by
  unfold State.reaches
  rw [(Placeless.xltUsed (own := own)).moves]
  rfl

@[simp] theorem nearAt_putBack (a : Nat) : (putBack own s).nearAt a = s.nearAt a := by simp only [State.nearAt, tile_putBack]

@[simp] theorem latency_putBack (write : Bool) : (putBack own s).latency t write = s.latency t write := by
  funext a
  simp only [State.latency, nearAt_putBack]

@[simp] theorem walkReads_putBack (level : Nat) : ∀ node, (putBack own s).walkReads dva level node = s.walkReads dva level node := by
  induction level with
  | zero => simp only [State.walkReads, nodeLocal_putBack, implies_true]
  | succ level ih =>
    intro node
    simp only [State.walkReads, nodeLocal_putBack, ih]
    rfl

@[simp] theorem walkTime_putBack : (putBack own s).walkTime t ctx dva = s.walkTime t ctx dva := by
  simp only [State.walkTime, tile_putBack, walkReads_putBack, latency_putBack]
  rfl

@[simp] theorem dvaLatency_putBack (write : Bool) : (putBack own s).dvaLatency t ctx write dva = s.dvaLatency t ctx write dva := by
  simp only [State.dvaLatency, reaches_putBack, latency_putBack]

@[simp] theorem dvaPathTime_putBack (n : Nat) : (putBack own s).dvaPathTime t ctx dva n = s.dvaPathTime t ctx dva n := by
  simp only [State.dvaPathTime, reaches_putBack]
  rfl

@[simp] theorem openTime_putBack (tds : List (BitVec 64)) : (putBack own s).openTime t ctx tds = s.openTime t ctx tds := by
  simp only [State.openTime, walkTime_putBack, dvaLatency_putBack]

@[simp] theorem narrowExtra_putBack : (putBack own s).narrowExtra t = s.narrowExtra t := by
  funext a
  simp only [State.narrowExtra, nearAt_putBack]

@[simp] theorem narrowTime_putBack (l : List (Nat × Nat)) : (putBack own s).narrowTime t ctx l = s.narrowTime t ctx l := by
  have hp : (putBack own s).protectedAt = s.protectedAt := funext (protectedAt_putBack s)
  simp only [State.narrowTime, reaches_putBack, hp, narrowExtra_putBack]

@[simp] theorem slow_putBack (x : Tile) : (putBack own s).slow x = s.slow x := rfl

@[simp] theorem coreSpan_putBack (n : Nat) : (putBack own s).coreSpan t n = s.coreSpan t n := by
  simp only [State.coreSpan, tile_putBack, slow_putBack]

@[simp] theorem inCore_putBack (n : Nat) : (putBack own s).inCore t n = s.inCore t n := by
  simp only [State.inCore, tile_putBack, slow_putBack]

@[simp] theorem gemmLoad_putBack (x : TDesc) (first n : Nat) : (putBack own s).gemmLoad t ctx x first n = s.gemmLoad t ctx x first n := by
  simp only [State.gemmLoad, inCore_putBack, dvaLatency_putBack, dvaPathTime_putBack]

@[simp] theorem gemmStore_putBack (x : TDesc) (cols rows : Nat × Nat) :
    (putBack own s).gemmStore t ctx x cols rows = s.gemmStore t ctx x cols rows := by
  simp only [State.gemmStore, inCore_putBack, dvaLatency_putBack, dvaPathTime_putBack, narrowTime_putBack]

@[simp] theorem gemmPass_putBack (g : GemmShare) (row : Nat) : g.pass (putBack own s) t ctx row = g.pass s t ctx row := by
  have hblock : g.block (putBack own s) t ctx row = g.block s t ctx row := by
    funext cols q rows
    simp only [GemmShare.block, gemmLoad_putBack, gemmStore_putBack]
  funext q cols
  simp only [GemmShare.pass, hblock, gemmLoad_putBack]

@[simp] theorem gemmTimes_putBack (g : GemmShare) (d : DescSlot) (start : Nat) : g.times (putBack own s) t d start = g.times s t d start := by
  simp only [GemmShare.times, walkTime_putBack, inCore_putBack, openTime_putBack, gemmPass_putBack]

end Times

end Sys2Proof.Proofs
end

section
/-! Tensors and the work store (R179 to R206): what moves them does not depend on where the tile stands. -/

namespace Sys2Proof.Proofs

open Sys2Proof Sys2Proof.Machine Sys2Proof.Laws Sys2Proof.Safety

namespace Placeless

variable {own t : TileRef} {env : Env} {kind : Nat} {α β : Type}

/-- Two ways to what follows. -/
theorem join (c : Prop) {dec : Decidable c} {m n : M α} {f : α → M β} (hm : Placeless own m) (hn : Placeless own n)
    (hf : ∀ a, Placeless own (f a)) : Placeless own (@ite (M β) c dec (m >>= f) (n >>= f)) := branch c (hm.bind hf) (hn.bind hf)

theorem needs {ok : Bool} {st rs : Code} : Placeless own (M.check ok st rs) := branch _ pure stop

/-! ### Reading tensors (R180 to R184, R196) -/

theorem readTd {dva : BitVec 64} {fmts : Nat → Bool} : Placeless env.t (readTd env dva fmts) := by
  refine bind readOnce fun b => ?_
  dsimp only
  split
  · exact throw
  · exact pure

theorem readSpans {l : List (Nat × Nat)} : Placeless env.t (readSpans env kind l) := mapM (fun _ => bind readDva fun _ => pure) _

theorem readCodes {x : TDesc} {offs : List Int} : Placeless env.t (readCodes env kind x offs) := bind readSpans fun _ => pure

theorem readElems {x : TDesc} {ixs : List (List Nat)} : Placeless env.t (readElems env kind x ixs) :=
  bind readCodes fun _ => branch _ pure (bind readSpans fun _ => pure)

/-! ### The work store (R185 to R187) -/

theorem wsRead {a n : Nat} : Placeless own (wsRead t a n) :=
  bind (modTile (by intro; rfl)) fun _ => get (fun s => by simp only [tile_putBack]) fun _ => pure

theorem wsWrite {a : Nat} {bytes : List Byte} : Placeless own (wsWrite t a bytes) := modTile (by intro; rfl)

theorem wsCheck {w : WsSide} {n0 rows : Nat} : Placeless own (w.check n0 rows) :=
  branch _ (bind needs fun _ => bind needs fun _ => needs) (bind needs fun _ => bind needs fun _ => needs)

theorem putRow {w : WsSide} {rows r : Nat} {codes scales : List Nat} : Placeless own (w.putRow t rows r codes scales) :=
  branch _ (bind wsWrite fun _ => wsWrite) (forM (fun _ => bind wsWrite fun _ => branch _ wsWrite pure) _)

theorem mergeRun {fmt a len : Nat} {codes : List Nat} : Placeless own (mergeRun t fmt a len codes) := bind wsRead fun _ => wsWrite

theorem putPart {w : WsSide} {n0 rows r : Nat} {codes scales : List Nat} : Placeless own (w.putPart t n0 rows r codes scales) :=
  branch _ (bind mergeRun fun _ => wsWrite) (forM (fun _ => bind mergeRun fun _ => branch _ wsWrite pure) _)

theorem getRow {w : WsSide} {n0 r : Nat} : Placeless own (w.getRow t n0 r) :=
  bind wsRead fun _ => branch _ pure (bind wsRead fun _ => pure)

/-! ### Free choices (R203) -/

theorem choose {n : Nat} : Placeless own (choose n) := ⟨fun s => (Posts.refl s).of_tiles rfl, fun _ => rfl⟩

theorem insertFree {a : α} {l : List α} : Placeless own (insertFree a l) := bind choose fun _ => pure

theorem shuffle (l : List α) : Placeless own (shuffle l) := by
  induction l with
  | nil => exact pure
  | cons a l ih => exact bind ih fun _ => insertFree

theorem landOne {l : List Nat} : Placeless own (landOne l) := by
  unfold Machine.landOne
  split
  · exact pure
  · exact bind choose fun _ => pure

/-! ### Writing tensors (R193, R203) -/

theorem writeRuns {l : List (Nat × List Byte)} : Placeless env.t (writeRuns env kind l) := forM (fun _ => writeDva) _

theorem unitWrites {x : TDesc} {merge : Bool} {valid : Int → Nat} {l : List (Int × Nat)} :
    Placeless env.t (unitWrites env kind x merge valid l) :=
  branch _ pure (mapM (fun _ => join _ readUnder pure fun _ => pure) _)

theorem landPlain {x : TDesc} {distinct merge : Bool} {l : List Landing} : Placeless env.t (landPlain env kind x distinct merge l) := by
  refine join _ pure (mapM (fun _ => bind landOne fun _ => pure) _) fun _ => bind unitWrites fun _ => bind writeRuns fun _ => ?_
  exact branch _ (bind (mapM (fun _ => bind landOne fun _ => pure) _) fun _ => writeRuns) pure

theorem localOnly {a : Nat} : Placeless env.t (localOnly env kind a) :=
  (Settles.translate.atDva.bind fun _ => .bind .get fun _ => .branch _ .stop .pure).toPlaceless

theorem landCombine {mode : Nat} {sat : Bool} {x : TDesc} {l : List Landing} : Placeless env.t (landCombine env kind mode sat x l) := by
  refine bind (forM (fun _ => forM (fun _ => localOnly) _) _) fun _ => bind readCodes fun _ => bind (mapM (fun _ => ?_) _) fun _ =>
    bind unitWrites fun _ => bind writeRuns fun _ => pure
  exact join _ pure (shuffle _) fun _ => pure

theorem writeTensor {mode : Nat} {sat asIs distinct merge : Bool} {x : TDesc} {src : SideFmt}
    {rows : List (List (List Nat) × List (Nat × Nat))} : Placeless env.t (writeTensor env kind mode sat asIs distinct merge x src rows) :=
  branch _ (bind landPlain fun _ => pure) landCombine

theorem checkSides {a b : SideFmt} {asIs : Bool} : Placeless own (checkSides a b asIs) := bind needs fun _ => needs

/-! ### Runs, rates and paths (R196 to R198) -/

theorem countSlow {a b : Slow} : Placeless own (countSlow env a b) := modTile (by intro; rfl)

theorem openTds {tds : List (BitVec 64)} : Placeless own (openTds env tds) := get (fun s => by simp only [openTime_putBack]) fun _ => pure

theorem firstWalk {a : Nat} : Placeless own (firstWalk env a) := get (fun s => by simp only [walkTime_putBack]) fun _ => pure

theorem pathExcess {k a bytes : Nat} : Placeless own (pathExcess env k a bytes) :=
  get (fun s => by simp only [dvaPathTime_putBack, coreSpan_putBack]) fun _ => pure

theorem moveDone {head : Nat} {a b : SideFmt} {m : Moved} {half twice write : Bool} {first bytes narrow : Nat} {r : Done} :
    Placeless own (moveDone env head a b m half twice write first bytes narrow r) :=
  get (fun s => by simp only [dvaLatency_putBack]) fun _ => bind pathExcess fun _ => pure

end Placeless

/-! ### The bodies of the descriptors -/

namespace Placeless

variable {own : TileRef} {env : Env} {slot : DescSlot}

/-! LOAD and STORE (R186 to R190). -/

theorem loadTensor {x : TDesc} {w : WsSide} {tr sat : Bool} {part : Nat × Nat} : Placeless env.t (loadTensor env x w tr sat part) :=
  bind wsCheck fun _ => bind readElems fun _ => bind countSlow fun _ => bind (forM (fun _ => putRow) _) fun _ => pure

theorem storeTensor {x : TDesc} {w : WsSide} {tr sat : Bool} {mode : Nat} {part : Nat × Nat} :
    Placeless env.t (storeTensor env x w tr sat mode part) :=
  bind wsCheck fun _ => bind (mapM (fun _ => getRow) _) fun _ => bind countSlow fun _ => writeTensor

theorem loadBody : Placeless env.t (loadBody slot env) :=
  bind openTds fun _ => bind readTd fun _ => bind needs fun _ => bind checkSides fun _ => bind firstWalk fun _ => bind loadTensor fun _ =>
    moveDone

theorem storeBody : Placeless env.t (storeBody slot env) :=
  bind openTds fun _ => bind readTd fun _ => bind needs fun _ => bind checkSides fun _ => bind needs fun _ => bind firstWalk fun _ =>
    bind storeTensor fun _ => get (fun s => by simp only [narrowTime_putBack]) fun _ => moveDone

/-! COPY (R191). -/

theorem globalSpans {l : List (Nat × Nat)} : Placeless own (globalSpans env l) := mapM (fun _ => bind xltUsed fun _ => pure) _

theorem freeByteAt {p : Nat × Nat} : Placeless own (freeByteAt env p) where
  posts s := by
    refine Posts.modSlot (s := ite _ _ _) (.branch _ ?_ ?_) fun _ => rfl
    · exact (Posts.refl s).of_tiles rfl
    · exact (Posts.refl s).of_tiles rfl
  moves s := Prod.ext rfl (eq_putBack own (f := (State.modSlot · _ _ _)) (fun u => modSlot_putBack own u _ _ _) (ite_putBack own rfl rfl))

theorem copyBody : Placeless env.t (copyBody slot env) := by
  refine bind openTds fun _ => bind readTd fun _ => bind readTd fun _ => bind needs fun _ => bind needs fun _ => bind checkSides fun _ =>
    bind needs fun _ => bind firstWalk fun _ => bind readElems fun _ => bind countSlow fun _ => bind globalSpans fun _ =>
    bind writeTensor fun _ => bind globalSpans fun _ => bind (forM (fun _ => freeByteAt) _) fun _ => get (fun s => ?_) fun _ =>
    bind moveDone fun _ => bind pathExcess fun _ => pure
  simp only [narrowTime_putBack, dvaLatency_putBack]

/-! GATHER and SCATTER (R199 to R202). -/

variable {v : IndexedMove}

theorem indexedMove : Placeless env.t (indexedMove slot env) :=
  bind readTd fun _ => bind readTd fun _ => bind needs fun _ => pure

theorem pick {p : Nat} : Placeless env.t (v.pick env p) := by
  refine bind readOnce fun _ => ?_
  dsimp only
  split
  · exact stop
  · exact pure

theorem readSlice {i : Nat} : Placeless env.t (v.readSlice env i) := bind readElems fun _ => pure

theorem gatherSlices (fuel : Nat) : ∀ p cache, Placeless env.t (gatherSlices v env fuel p cache) := by
  induction fuel with
  | zero => exact fun _ _ => pure
  | succ fuel ih =>
    intro p cache
    have hone : Placeless env.t (do
        match ← v.pick env p with
        | .use i =>
          match cache.find? fun e => e.1 = i with
          | some e =>
            M.upd fun s => s.modTile env.t fun x => { x with reuse := x.reuse + 1 }
            Pure.pure (some e)
          | none => do Pure.pure (some (i, ← v.readSlice env i))
        | _ => Pure.pure none : M (Option (Nat × Slice))) := by
      refine bind pick fun k => ?_
      split
      · split
        · exact bind (modTile (by intro; rfl)) fun _ => pure
        · exact bind readSlice fun _ => pure
      · exact pure
    refine bind (tryCatch (bind hone fun _ => pure) fun _ => pure) fun r => ?_
    split
    · exact branch _ throw pure
    · exact bind (ih _ _) fun _ => pure
    · exact bind (ih _ _) fun _ => pure

theorem tally {w : WsSide} {l : List (Nat × SliceMove)} : Placeless own (v.tally env w l) := countSlow

theorem indexedDone {head : Nat} {w : WsSide} {mode : Nat} {l : List (Nat × SliceMove)} {narrow : Nat} {r : Done} :
    Placeless own (v.done env head w mode l narrow r) :=
  get (fun s => by simp only [dvaLatency_putBack]) fun _ => bind pathExcess fun _ => pure

theorem putSlices {w : WsSide} {sat : Bool} {l : List (Option Slice)} : Placeless own (putSlices v env w sat l) :=
  bind (forM (fun _ => putRow) _) fun _ => pure

theorem putElements {w : WsSide} {sat : Bool} {l : List (Option Slice)} : Placeless own (putElements v env w sat l) :=
  bind (forM (fun _ => branch _ putRow putPart) _) fun _ => pure

theorem gatherBody : Placeless env.t (gatherBody slot env) := by
  refine bind openTds fun _ => bind indexedMove fun _ => bind firstWalk fun _ => bind checkSides fun _ => bind wsCheck fun _ =>
    bind (gatherSlices _ _ _) fun _ => join _ putElements putSlices fun _ => bind tally fun _ => ?_
  split
  · exact throw
  · exact indexedDone

theorem scatterPicks (fuel : Nat) : ∀ p, Placeless env.t (scatterPicks v env fuel p) := by
  induction fuel with
  | zero => exact fun _ => pure
  | succ fuel ih =>
    intro p
    refine bind (tryCatch (bind pick fun _ => pure) fun _ => pure) fun r => ?_
    split
    · exact branch _ throw pure
    · exact bind (ih _) fun _ => pure

theorem scatterBody : Placeless env.t (scatterBody slot env) := by
  refine bind openTds fun _ => bind indexedMove fun _ => bind firstWalk fun _ => bind checkSides fun _ => bind needs fun _ =>
    bind wsCheck fun _ => bind (mapM (fun _ => getRow) _) fun _ => bind (scatterPicks _ _) fun _ => bind writeTensor fun _ =>
    bind tally fun _ => ?_
  split
  · exact throw
  · exact get (fun s => by simp only [narrowTime_putBack]) fun _ => indexedDone

/-! GEMM (R142 to R144). -/

theorem posted_setAcc (x : Tile) (row u : Nat) (v : BitVec 32) : posted (x.setAcc row u v) = posted x := rfl

theorem freeWindows {t : TileRef} {base n row rows : Nat} : Placeless own (freeWindows t base n row rows) := by
  refine upd (fun s => ?_) fun s => eq_putBack own (f := fun u : State => { u with free := _ }) (fun _ => rfl) (modTile_putBack ..)
  refine Posts.setFree ((Posts.refl s).modTile fun x => ?_)
  exact (foldl_keeps (g := posted) (fun y _ => posted_setAcc y ..) _ _).trans rfl

variable {a b c : TDesc} {scale : BitVec 32} {sat : Bool} {l mb : Nat}

theorem gemmRows {cols : Nat × Nat} {bs : List (List (List Lane))} (fuel : Nat) :
    ∀ m0 n, Placeless env.t (gemmRows env a b c scale sat l mb cols bs fuel m0 n) := by
  induction fuel with
  | zero => exact fun _ _ => pure
  | succ fuel ih =>
    exact fun _ _ => branch _ pure (bind (mapM (fun _ => readElems) _) fun _ => bind writeTensor fun _ =>
      bind (modTile (by intro; rfl)) fun _ => bind (ih _ _) fun _ => pure)

theorem gemmPasses {p : Nat} {rows : Nat × Nat} (fuel : Nat) :
    ∀ n0 n, Placeless env.t (gemmPasses env a b c scale sat l mb p rows fuel n0 n) := by
  induction fuel with
  | zero => exact fun _ _ => pure
  | succ fuel ih =>
    exact fun _ _ => branch _ pure (bind (mapM (fun _ => readElems) _) fun _ => bind (gemmRows _ _ _) fun _ => bind (ih _ _) fun _ => pure)

theorem gemmBody : Placeless env.t (gemmBody slot env) := by
  refine get (fun s => by simp only [tile_putBack]) fun s₀ => bind needs fun _ => get (fun s => by simp only [gemmTimes_putBack])
    fun before => bind readTd fun _ => bind readTd fun _ => bind readTd fun _ => bind needs fun _ => bind needs fun _ => ?_
  split
  · exact stop
  · exact get (fun s => by simp only [tile_putBack]) fun _ => bind freeWindows fun _ => bind (gemmPasses _ _ _) fun _ =>
      bind (modTile (by intro; rfl)) fun _ => pure

/-! MERGE (R247). -/

theorem mergeCount {rows dim records : Nat} : Placeless own (mergeCount env rows dim records) :=
  modTile fun _ => by split <;> rfl

theorem mergeSequence {d : BitVec 512} {sat : Bool} {n : Nat} : Placeless env.t (mergeSequence env d sat n) :=
  bind readDva fun _ => branch _ pure (branch _ pure (bind (mapM (fun _ => readDva) _) fun _ => bind writeDva fun _ =>
    bind writeDva fun _ => bind mergeCount fun _ => pure))

theorem mergeBody : Placeless env.t (mergeBody slot env) :=
  bind (mapM (fun _ => mergeSequence) _) fun _ =>
    get (fun s => by simp only [walkTime_putBack, dvaLatency_putBack, dvaPathTime_putBack]) fun _ => bind pathExcess fun _ => pure

end Placeless

end Sys2Proof.Proofs
end

section
/-! The stop of a data movement, the halt of its channel (R87, R111, R148, R204, R205), the request for what another package holds (R326),
and O35. -/

namespace Sys2Proof.Proofs

open Sys2Proof Sys2Proof.Machine Sys2Proof.Laws Sys2Proof.Safety

/-! ### From a tile put back to the tile where it stands -/

section PutBack

variable {own : TileRef} {s : State}

theorem time_advanceCore_putBack (c : Nat) : ((putBack own s).advanceCore own c).time = (s.advanceCore own c).time :=
  time_advanceCore_of_core (s := s) (u := putBack own s) rfl rfl
    (congrArg (fun x : Tile => (x.core, x.coreAt, x.droopSince)) (tile_putBack own s own)) c

theorem executed_putBack {u : State} {i : Nat} {d : DescSlot} {o : Outc} {last work : Nat} (h : Executed s u own i d o last work) :
    Executed (putBack own s) u own i d o last work := by
  unfold Executed at h ⊢
  dsimp only at h ⊢
  rwa [time_advanceCore_putBack]

theorem workEnd_putBack (d : DescSlot) (r : Done) : (putBack own s).workEnd own d r = s.workEnd own d r := by
  simp only [State.workEnd, tile_putBack, inCore_putBack]

end PutBack

/-- A slot that an engine finishes leaves the others. -/
theorem slot_finishSlot_other (s : State) (t : TileRef) {i j : Nat} (o : Outc) (h : j ≠ i) :
    ((s.finishSlot t i o).tile t).slot j = (s.tile t).slot j := by
  rw [State.finishSlot, tile_modTile_same]
  split
  · dsimp only
    unfold Tile.slot
    split_ifs <;> exact slot_setSlot_other _ _ h
  · rfl

/-- A tile but for its fault record and its counters. -/
def apartFault (x : Tile) : Tile := { x with fault := {}, faultCount := 0, counters := [], faultMark := none }

/-- A stop that is a fault enters its tile's record, and may raise an event (R110, R111). -/
theorem recordFault_cases (s : State) (t : TileRef) (e : Stop) (slot ctx step : Nat) :
    s.recordFault t e slot ctx step = s ∨
      ∃ x, apartFault x = apartFault (s.tile t) ∧ OnlyLogs (s.setTile t x) (s.recordFault t e slot ctx step) := by
  unfold State.recordFault
  split
  · exact .inl rfl
  · right
    extract_lets x r f y z mark u
    have hz : apartFault z = apartFault x := by
      unfold z
      split <;> rfl
    split
    · exact ⟨z, hz, .refl _⟩
    · refine ⟨{ z with faultMark := some mark }, hz, ?_⟩
      have hset : u.modTile t (fun x => { x with faultMark := some mark }) = s.setTile t { z with faultMark := some mark } := by
        rw [State.modTile, tile_setTile_same]
        simp only [u, State.setTile, kvPut_kvPut_same]
      rw [hset]
      exact (OnlyLogs.refl _).raise

/-! ### What a stop leaves for the end of the slot (R87, R111, R204, R205) -/

/-- From `v`, no more has changed than what a stop and the halt of a channel change: nothing that the end of slot `i` reads, but how far
the slot itself has come. -/
structure StopsAt (t : TileRef) (i : Nat) (v w : State) : Prop where
  rest : w = { v with tiles := w.tiles, host := w.host, events := w.events, out := w.out }
  core : ((w.tile t).core, (w.tile t).coreAt, (w.tile t).droopSince) = ((v.tile t).core, (v.tile t).coreAt, (v.tile t).droopSince)
  stores : ((w.tile t).ws, (w.tile t).eccCorrected, (w.tile t).eccUncorrected) =
    ((v.tile t).ws, (v.tile t).eccCorrected, (v.tile t).eccUncorrected)
  slot : ∀ z, (v.tile t).slot i = some z → ∃ ph o, (w.tile t).slot i = some { z with ph := ph, result := o }

namespace StopsAt

variable {t : TileRef} {i : Nat} {v w u : State}

theorem refl (t : TileRef) (i : Nat) (s : State) : StopsAt t i s s := ⟨rfl, rfl, rfl, fun z h => ⟨z.ph, z.result, h⟩⟩

theorem trans (h : StopsAt t i v w) (hu : StopsAt t i w u) : StopsAt t i v u where
  rest := by rw [hu.rest, h.rest]
  core := hu.core.trans h.core
  stores := hu.stores.trans h.stores
  slot z hz := by
    obtain ⟨ph, o, hw⟩ := h.slot z hz
    obtain ⟨ph', o', hx⟩ := hu.slot _ hw
    exact ⟨ph', o', hx⟩

theorem logs (h : StopsAt t i v w) (hu : OnlyLogs w u) : StopsAt t i v u := by
  have ht : u.tile t = w.tile t := by rw [State.tile, hu.tiles]; rfl
  refine h.trans ⟨?_, by rw [ht], by rw [ht], fun z hz => ⟨z.ph, z.result, by rw [ht]; exact hz⟩⟩
  rw [hu.rest]

/-- A change of the tile alone that the end of a slot does not read. -/
theorem setTile (h : StopsAt t i v w) {x : Tile}
    (hcore : (x.core, x.coreAt, x.droopSince) = ((w.tile t).core, (w.tile t).coreAt, (w.tile t).droopSince))
    (hstores : (x.ws, x.eccCorrected, x.eccUncorrected) = ((w.tile t).ws, (w.tile t).eccCorrected, (w.tile t).eccUncorrected))
    (hslots : x.slots = (w.tile t).slots) : StopsAt t i v (w.setTile t x) := by
  refine h.trans ⟨rfl, ?_, ?_, fun z hz => ⟨z.ph, z.result, ?_⟩⟩ <;> rw [tile_setTile_same]
  · exact hcore
  · exact hstores
  · exact (congrArg (kvFind · i) hslots).trans hz

theorem finishSlot (h : StopsAt t i v w) (j : Nat) (o : Outc) : StopsAt t i v (w.finishSlot t j o) := by
  have honly := OnlyWork.finishSlot w t j o
  refine h.trans ⟨rfl, honly.core, by rw [honly.ws, honly.eccCorrected, honly.eccUncorrected], fun z hz => ?_⟩
  by_cases hij : i = j
  · subst hij
    exact ⟨_, _, slot_finishSlot hz o⟩
  · exact ⟨z.ph, z.result, (slot_finishSlot_other w t o hij).trans hz⟩

theorem failChannel (h : StopsAt t i v w) (c n : Nat) : StopsAt t i v (w.failChannel t c n) := by
  unfold State.failChannel
  generalize List.filter _ _ = l
  induction l generalizing w with
  | nil => exact h
  | cons j l ih => exact ih (h.finishSlot j _)

theorem haltChannel (h : StopsAt t i v w) (c n : Nat) (dva : BitVec 64) : StopsAt t i v (w.haltChannel t c n dva) := by
  unfold State.haltChannel
  dsimp only
  split
  · exact h.failChannel c n
  · refine failChannel (logs ?_ (OnlyLogs.refl _).raise) c n
    exact h.setTile rfl rfl rfl

theorem dmaStop (h : StopsAt t i v w) (c n : Nat) (e : Stop) : StopsAt t i v (dmaStop t c n e w) := by
  unfold Machine.dmaStop
  split
  · exact h.haltChannel c n _
  · exact h

theorem recordFault (h : StopsAt t i v w) (e : Stop) (slot ctx step : Nat) : StopsAt t i v (w.recordFault t e slot ctx step) := by
  rcases recordFault_cases w t e slot ctx step with hsame | ⟨x, hx, hlogs⟩
  · rwa [hsame]
  · exact logs (h.setTile (x := x) (congrArg (fun x : Tile => (x.core, x.coreAt, x.droopSince)) hx :)
      (congrArg (fun x : Tile => (x.ws, x.eccCorrected, x.eccUncorrected)) hx :) (congrArg Tile.slots hx :)) hlogs

end StopsAt

/-! ### A halted channel (R204, R205) -/

section Halt

variable {s : State} {t : TileRef} {c n : Nat} {dva : BitVec 64}

theorem OnlyWork.failChannel (s : State) (t : TileRef) (c n : Nat) : OnlyWork (s.tile t) ((s.failChannel t c n).tile t) := by
  unfold State.failChannel
  generalize List.filter _ _ = l
  induction l generalizing s with
  | nil => exact .refl _
  | cons j l ih => exact (OnlyWork.finishSlot s t j _).trans (ih _)

theorem OnlyWork.halts {x y : Tile} (h : OnlyWork x y) : (y.dmaHalted, y.dmaPoison) = (x.dmaHalted, x.dmaPoison) := by rw [h.rest]

theorem getLsbD_setBit (x : BitVec 4) (hc : c < 4) : (x ||| BitVec.ofNat 4 (1 <<< c)).getLsbD c = true := by
  rw [BitVec.getLsbD_or, BitVec.getLsbD_ofNat, Nat.one_shiftLeft, Nat.testBit_two_pow_self, decide_eq_true hc, Bool.and_true, Bool.or_true]

/-- A channel that halts for the first time shows the address of the data. -/
theorem halts_haltChannel (h : (s.tile t).dmaHalted.getLsbD c = false) :
    (((s.haltChannel t c n dva).tile t).dmaHalted, ((s.haltChannel t c n dva).tile t).dmaPoison) =
      ((s.tile t).dmaHalted ||| BitVec.ofNat 4 (1 <<< c), kvPut (s.tile t).dmaPoison c dva) := by
  unfold State.haltChannel
  dsimp only
  rw [if_neg (by simp only [h, Bool.false_eq_true, not_false_iff]), (OnlyWork.failChannel ..).halts, State.tile, tiles_raise]
  change ((State.tile (State.setTile _ _ _) _).dmaHalted, (State.tile (State.setTile _ _ _) _).dmaPoison) = _
  rw [tile_setTile_same]

theorem halted_haltChannel (hc : c < 4) : ((s.haltChannel t c n dva).tile t).dmaHalted.getLsbD c = true := by
  cases h : (s.tile t).dmaHalted.getLsbD c with
  | true =>
    unfold State.haltChannel
    dsimp only
    rw [if_pos h, (Prod.mk.inj (OnlyWork.failChannel ..).halts).1, h]
  | false => rw [(Prod.mk.inj (halts_haltChannel h)).1, getLsbD_setBit _ hc]

end Halt

/-- What the engine of an opcode does at a stop: it leaves the slot to end, does nothing unless data was uncorrectable, and for a data
movement halts its channel. -/
structure HaltsAs (t : TileRef) (i op channel : Nat) (stopped : Stop → State → State) : Prop where
  leaves : ∀ e v, StopsAt t i v (stopped e v)
  still : ∀ e v, e.status ≠ St.poisoned → stopped e v = v
  halts : 0x20 ≤ op → ∀ e v, e.status = St.poisoned → e.kind ≠ 3 → ((stopped e v).tile t).dmaHalted.getLsbD channel = true
  shows : 0x20 ≤ op → ∀ e v, e.status = St.poisoned → e.kind ≠ 3 → (v.tile t).dmaHalted.getLsbD channel = false →
    kvFind ((stopped e v).tile t).dmaPoison channel = some e.dva

theorem dmaStop_of_poisoned {t : TileRef} {c n : Nat} {e : Stop} {v : State} (hst : e.status = St.poisoned) (hk : e.kind ≠ 3) :
    dmaStop t c n e v = v.haltChannel t c n e.dva := by
  unfold dmaStop
  rw [if_pos (by simp only [hst, hk, ne_eq, not_false_iff, decide_true, Bool.and_self])]

theorem dmaStop_of_not_poisoned {t : TileRef} {c n : Nat} {e : Stop} {v : State} (hst : e.status ≠ St.poisoned) : dmaStop t c n e v = v := by
  unfold dmaStop
  rw [if_neg (by simp only [hst, decide_false, Bool.false_and, Bool.false_eq_true, not_false_iff])]

theorem haltsAs_dmaStop (t : TileRef) (i op n : Nat) {c : Nat} (hc : c < 4) : HaltsAs t i op c (dmaStop t c n) where
  leaves e v := (StopsAt.refl t i v).dmaStop c n e
  still e v hst := dmaStop_of_not_poisoned hst
  halts _ e v hst hk := by
    rw [dmaStop_of_poisoned hst hk]
    exact halted_haltChannel hc
  shows _ e v hst hk hno := by
    rw [dmaStop_of_poisoned hst hk, (Prod.mk.inj (halts_haltChannel hno)).2, kvFind_kvPut_same]

theorem haltsAs_noStop (t : TileRef) (i channel : Nat) : HaltsAs t i 0x19 channel noStop where
  leaves _ v := StopsAt.refl t i v
  still _ _ _ := rfl
  halts h := absurd h (by decide)
  shows h := absurd h (by decide)

/-- What a GEMM does at a stop (R144, R148, R204). -/
def gemmStop (t : TileRef) (mask : Nat) (e : StoreErr) (k : Stop) (s : State) : State :=
  match gemmChannel mask with
  | some c => if e.bad.isSome || (s.tile t).maskHalted mask then s else dmaStop t c 256 k s
  | none => s

theorem haltsAs_gemmStop (t : TileRef) (i channel mask : Nat) (e : StoreErr) : HaltsAs t i 0x12 channel (gemmStop t mask e) where
  leaves k v := by
    unfold gemmStop
    split
    · split
      · exact .refl t i v
      · exact (StopsAt.refl t i v).dmaStop _ _ _
    · exact .refl t i v
  still k v hst := by
    unfold gemmStop
    split
    · rw [dmaStop_of_not_poisoned hst, ite_self]
    · rfl
  halts h := absurd h (by decide)
  shows h := absurd h (by decide)

/-! ### How a run ends -/

section Ends

variable {s q u v w : State} {t : TileRef} {i op channel : Nat} {d z : DescSlot} {stopped : Stop → State → State}
  {body : DescSlot → Env → M Done}

/-- A run that has come to `q` has ended in `u` with its memory, its outcome, and its cycles and latency after its engine is free. -/
def Answered (q u : State) (t : TileRef) (i : Nat) (z : DescSlot) (r : Done) : Prop :=
  u.mem = q.mem ∧ u.time = (q.advanceCore t (q.workEnd t z r)).time
    ∧ Finished u t i z r.outc (r.endAt.getD (q.advanceCore t (q.workEnd t z r)).time.now)
      (q.workEnd t z r + q.pauseOf (cc r.cycles + q.inCore t r.latency))

theorem answered_putBack {r : Done} (h : Answered q u t i z r) : Answered (putBack t q) u t i z r := by
  unfold Answered at h ⊢
  rwa [workEnd_putBack, time_advanceCore_putBack, inCore_putBack]

theorem mem_of_tilesAndTime (h : OnlyTilesAndTime s u) : u.mem = s.mem := by
  unfold OnlyTilesAndTime at h
  rw [h]

theorem answered_conclude (hz : (q.tile t).slot i = some z) (hq : Quiet z) (hw : z.waits = []) (hop : dOpcode z.desc ≠ 0x10) (r : Done) :
    Answered q (q.conclude t i r) t i z r := by
  have hmem : (q.conclude t i r).mem = q.mem := mem_of_tilesAndTime (conclude_tilesAndTime hz hq hw r)
  have htime := time_conclude hz hq hw r
  have hfin := finished_conclude hz hq hw r
  rw [atEnd, if_neg hop] at htime hfin
  exact ⟨hmem, htime, hfin⟩

/-- The end of a slot at a stop: where its engine is free, without work. -/
theorem stop_concludes (h : StopsAt t i q w) (hz : (q.tile t).slot i = some z) (hq : Quiet z) (hw : z.waits = [])
    (hop : dOpcode z.desc ≠ 0x10) (o : Outc) :
    Executed q (w.conclude t i { outc := o }) t i z o ((w.tile t).engineStart z) 0
      ∧ (w.conclude t i { outc := o }).mem = q.mem ∧ OnlyWork (w.tile t) ((w.conclude t i { outc := o }).tile t) := by
  obtain ⟨ph, p, hslot⟩ := h.slot z hz
  have hpower : w.power = q.power := by rw [h.rest]
  have htime : w.time = q.time := by rw [h.rest]
  have hpause : w.pauseOf 0 = q.pauseOf 0 := by rw [h.rest]; rfl
  have hruns := runsFor_conclude (r := { outc := o }) hslot hq hw hop rfl rfl rfl rfl
  refine ⟨?_, (mem_of_tilesAndTime (conclude_tilesAndTime hslot hq hw _)).trans (by rw [h.rest]), onlyWork_conclude hslot hq hw _⟩
  obtain ⟨hfin, hend⟩ := hruns
  rw [time_advanceCore_of_core htime hpower h.core] at hfin hend
  exact ⟨hpause ▸ hfin, hend⟩

/-- A run that stopped at `q` has ended in `u`: its fault recorded, its channel halted where it must be. -/
def Stopped (q u : State) (t : TileRef) (i op channel : Nat) (z : DescSlot) (e : Stop) : Prop :=
  ∃ last, Executed q u t i z (outc e.status e.reason) last 0 ∧ u.mem = q.mem
    ∧ (e.status ≠ St.poisoned → last = (q.tile t).engineStart z)
    ∧ (0x20 ≤ op → e.status = St.poisoned → e.kind ≠ 3 → (u.tile t).dmaHalted.getLsbD channel = true)

theorem stopped_putBack {e : Stop} (h : Stopped q u t i op channel z e) : Stopped (putBack t q) u t i op channel z e := by
  obtain ⟨last, hex, hmem, hlast, hhalt⟩ := h
  exact ⟨last, executed_putBack hex, hmem, by rwa [tile_putBack], hhalt⟩

theorem engineStart_recordFault (s : State) (t : TileRef) (e : Stop) (slot ctx step : Nat) (z : DescSlot) :
    ((s.recordFault t e slot ctx step).tile t).engineStart z = (s.tile t).engineStart z := by
  rcases recordFault_cases s t e slot ctx step with hsame | ⟨x, hx, hlogs⟩
  · rw [hsame]
  · rw [State.tile, hlogs.tiles]
    change ((s.setTile t x).tile t).engineStart z = _
    rw [tile_setTile_same]
    exact (congrArg (fun x : Tile => x.engineStart z) hx :)

theorem stopped_conclude (hs : HaltsAs t i op channel stopped) (hz : (q.tile t).slot i = some z) (hq : Quiet z) (hw : z.waits = [])
    (hop : dOpcode z.desc ≠ 0x10) (e : Stop) (slot ctx step : Nat) :
    Stopped q ((stopped e (q.recordFault t e slot ctx step)).conclude t i { outc := outc e.status e.reason }) t i op channel z e := by
  obtain ⟨hex, hmem, hwork⟩ := stop_concludes (((StopsAt.refl t i q).recordFault e slot ctx step).trans (hs.leaves e _)) hz hq hw hop
    (outc e.status e.reason)
  refine ⟨_, hex, hmem, fun hst => ?_, fun hge hst hk => ?_⟩
  · rw [hs.still e _ hst, engineStart_recordFault]
  · rw [(Prod.mk.inj hwork.halts).1]
    exact hs.halts hge e _ hst hk

/-- A slot that asks another package runs on and waits; memory is as it was (R326). -/
theorem asks (hz : (s.tile t).slot i = some d) (ran : State) (n : Need) :
    ∃ z, ((s.askFor (d.env t i) ran n).tile t).slot i = some z ∧ z.ph = .running ∧ z.waits ≠ []
      ∧ (s.askFor (d.env t i) ran n).mem = s.mem := by
  have hcount (m : Msg) : ((s.countSent t m).tile t).slots = (s.tile t).slots ∧ (s.countSent t m).mem = s.mem := by
    unfold State.countSent
    dsimp only
    split
    · exact ⟨rfl, rfl⟩
    · rw [tile_modTile_same]
      exact ⟨by split_ifs <;> rfl, rfl⟩
  have hask (m : Msg) (user : TxnUser) : ((s.requestOf t m user).tile t).slot i = some d ∧ (s.requestOf t m user).mem = s.mem := by
    have hflits := (OnlyFlits.refl (s.countSent t m)).request (m := m) (user := user)
    refine ⟨?_, hflits.mem.trans (hcount m).2⟩
    rw [← hz, State.tile, State.requestOf, hflits.tiles]
    exact congrArg (kvFind · i) (hcount m).1
  exact ⟨_, slot_modSlot (hask _ _).1 _, rfl, by simp only [ne_eq, List.append_eq_nil_iff, List.cons_ne_nil, and_false, not_false_iff],
    (hask _ _).2⟩

end Ends

end Sys2Proof.Proofs
end

section
/-! GEMM, MERGE, LOAD, STORE, COPY, GATHER and SCATTER to their end (R142 to R144, R188, R190, R191, R199 to R201, R247), and O35. -/

namespace Sys2Proof.Proofs

open Sys2Proof Sys2Proof.Machine Sys2Proof.Laws Sys2Proof.Safety

/-! ### The seven instructions -/

/-- An instruction runs the body of its opcode; one that reads the work store meets the store's errors first. -/
structure Moves (t : TileRef) (i op channel : Nat) (d : DescSlot) (body : DescSlot → Env → M Done) (c : StoreErr → Instr) (s : State) :
    Prop where
  opcode : op ≠ 0x10
  placeless : ∀ env, Placeless env.t (body d env)
  reads : op ≠ 0x19 ∧ op ≠ 0x22 → ∀ e, ∃ stopped, HaltsAs t i op channel stopped
    ∧ exec (c e) s = .next ((s.meetStore t i op e).runDesc t i op stopped (guardStore e body))
  plain : ¬(op ≠ 0x19 ∧ op ≠ 0x22) → ∀ e, ∃ stopped, HaltsAs t i op channel stopped
    ∧ exec (c e) s = .next (s.runDesc t i op stopped body)

theorem fld_lt (d : BitVec 512) (byte hi lo : Nat) : fld d byte hi lo < 2 ^ (8 * byte + hi + 1 - (8 * byte + lo)) :=
  Nat.mod_lt _ (Nat.two_pow_pos _)

section Instructions

variable {s : State} {t : TileRef} {i op channel : Nat} {d : DescSlot} {body : DescSlot → Env → M Done} {c : StoreErr → Instr}

/-- A descriptor of a DMA channel that reads the work store. -/
theorem moves_of_dma (hs : (s.tile t).slot i = some d) (hop : op ≠ 0x10) (hr : op ≠ 0x19 ∧ op ≠ 0x22) {hi byte lo : Nat}
    (hc : hi + 1 - lo = 2) (hb : ∀ env, Placeless env.t (body d env))
    (hx : ∀ e, exec (c e) s = .next ((s.meetStore t i op e).runDesc t i op
      (dmaStop t ((((s.tile t).slot i).map fun d => fld d.desc byte hi lo).getD 0) i) (guardStore e body))) :
    Moves t i op (fld d.desc byte hi lo) d body c s where
  opcode := hop
  placeless := hb
  reads _ e := by
    have hlt := fld_lt d.desc byte hi lo
    rw [show 8 * byte + hi + 1 - (8 * byte + lo) = 2 by omega] at hlt
    refine ⟨_, haltsAs_dmaStop t i op i hlt, ?_⟩
    rw [hx, hs]
    rfl
  plain h := absurd hr h

theorem moves_load (hs : (s.tile t).slot i = some d) :
    Moves t i 0x20 (fld d.desc 34 5 4) d loadBody (fun e => .load t i e) s :=
  moves_of_dma hs (by decide) (by decide) rfl (fun _ => .loadBody) fun _ => rfl

theorem moves_store (hs : (s.tile t).slot i = some d) :
    Moves t i 0x21 (fld d.desc 34 5 4) d storeBody (fun e => .store t i e) s :=
  moves_of_dma hs (by decide) (by decide) rfl (fun _ => .storeBody) fun _ => rfl

theorem moves_gather (hs : (s.tile t).slot i = some d) :
    Moves t i 0x23 (fld d.desc 42 3 2) d gatherBody (fun e => .gather t i e) s :=
  moves_of_dma hs (by decide) (by decide) rfl (fun _ => .gatherBody) fun _ => rfl

theorem moves_scatter (hs : (s.tile t).slot i = some d) :
    Moves t i 0x24 (fld d.desc 42 3 2) d scatterBody (fun e => .scatter t i e) s :=
  moves_of_dma hs (by decide) (by decide) rfl (fun _ => .scatterBody) fun _ => rfl

theorem moves_copy (hs : (s.tile t).slot i = some d) : Moves t i 0x22 (fld d.desc 32 1 0) d copyBody (fun _ => .copy t i) s where
  opcode := by decide
  placeless _ := .copyBody
  reads h := absurd rfl h.2
  plain _ _ := by
    refine ⟨_, haltsAs_dmaStop t i 0x22 i (fld_lt d.desc 32 1 0), ?_⟩
    show execCopy t i s = _
    rw [execCopy, hs]
    rfl

theorem moves_merge (channel : Nat) : Moves t i 0x19 channel d mergeBody (fun _ => .merge t i) s where
  opcode := by decide
  placeless _ := .mergeBody
  reads h := absurd rfl h.1
  plain _ _ := ⟨noStop, haltsAs_noStop t i channel, rfl⟩

theorem moves_gemm (channel : Nat) : Moves t i 0x12 channel d gemmBody (fun e => .gemm t i e) s where
  opcode := by decide
  placeless _ := .gemmBody
  reads _ e := ⟨_, haltsAs_gemmStop t i channel _ e, rfl⟩
  plain h := absurd (by decide) h

end Instructions

/-! ### Their ends -/

section Ends

variable {s s0 q : State} {t : TileRef} {i op channel k : Nat} {d z : DescSlot} {body : DescSlot → Env → M Done} {c : StoreErr → Instr}

/-- The tile's work store has met `k` errors that its code corrects (R148). -/
def corrected (s : State) (t : TileRef) (k : Nat) : State :=
  s.modTile t fun x => { x with eccCorrected := x.eccCorrected + BitVec.ofNat 32 k }

/-- Counting corrected errors gives the state that has met them, but for the place of the tile. -/
theorem corrected_eq (s : State) (t : TileRef) (k : Nat) :
    corrected s t k = s.countStore t ⟨k, none⟩ ∨ corrected s t k = putBack t (s.countStore t ⟨k, none⟩) := by
  by_cases hk : k = 0
  · subst hk
    right
    rw [corrected, State.modTile, BitVec.add_zero]
    rfl
  · left
    unfold State.countStore
    rw [if_neg (by simp [hk])]
    rfl

/-- The instruction without an uncorrectable error runs the body from a state that is the statement's but for the place of the tile. -/
theorem Moves.runs (hm : Moves t i op channel d body c s0) (h : s0.runnable t i op = some d)
    (hs : s = if op ≠ 0x19 ∧ op ≠ 0x22 then corrected s0 t k else s0) :
    ∃ s1 stopped, (s = s1 ∨ s = putBack t s1) ∧ s1.runnable t i op = some d ∧ HaltsAs t i op channel stopped
      ∧ exec (c ⟨k, none⟩) s0 = .next (s1.runDesc t i op stopped body) := by
  by_cases hr : op ≠ 0x19 ∧ op ≠ 0x22
  · obtain ⟨stopped, hh, hx⟩ := hm.reads hr ⟨k, none⟩
    rw [if_pos hr] at hs
    rw [meetStore_eq h, guardStore_none] at hx
    exact ⟨_, stopped, hs ▸ corrected_eq s0 t k, ((ran_countStore s0 t _).runnable i op).trans h, hh, hx⟩
  · obtain ⟨stopped, hh, hx⟩ := hm.plain hr ⟨k, none⟩
    rw [if_neg hr] at hs
    exact ⟨s0, stopped, .inl hs, h, hh, hx⟩

/-- A slot keeps its descriptor over a run. -/
theorem desc_of_run (hb : Placeless t (body d (d.env t i))) (hs : (s.tile t).slot i = some d)
    (hz : (((body d (d.env t i)).result s).2.tile t).slot i = some z) : z.desc = d.desc := by
  have hp := congrFun (congrArg Prod.snd ((hb.posts s).tile t)) i
  simp only [posted, hs, hz, Option.map_some, Option.some.injEq] at hp
  exact hp

/-- A run from a state is the run from the one without the tile put back. -/
theorem result_of_putBack {α : Type} {m : M α} {s1 : State} {a : Except Stop α} (hb : Placeless t m) (hs : s = s1 ∨ s = putBack t s1)
    (hr : m.result s = (a, q)) : ∃ q0, m.result s1 = (a, q0) ∧ (q = q0 ∨ q = putBack t q0) := by
  rcases hs with rfl | rfl
  · exact ⟨q, hr, .inl rfl⟩
  · rw [hb.moves, Prod.mk.injEq] at hr
    obtain ⟨rfl, rfl⟩ := hr
    exact ⟨_, rfl, .inr rfl⟩

/-- Its slot's opcode is no MATMUL's at the end of a run. -/
theorem Moves.opcode_ne (hm : Moves t i op channel d body c s0) {s1 : State} {a : Except Stop Done} (h1 : s1.runnable t i op = some d)
    (hr : (body d (d.env t i)).result s1 = (a, q)) (hz : (q.tile t).slot i = some z) : dOpcode z.desc ≠ 0x10 := by
  obtain ⟨hslot, hop, -, -, -⟩ := slot_of_runnable h1
  have hb : Placeless t (body d (d.env t i)) := hm.placeless (d.env t i)
  rw [desc_of_run hb hslot (by rwa [hr]), hop]
  exact hm.opcode

section Runs

variable (hm : Moves t i op channel d body c s0) (h : s0.runnable t i op = some d)
  (hs : s = if op ≠ 0x19 ∧ op ≠ 0x22 then corrected s0 t k else s0)

include hm h hs

/-- A run that answers ends with its outcome. -/
theorem Moves.answers {r : Done} (hr : (body d (d.env t i)).result s = (.ok r, q)) (hz : (q.tile t).slot i = some z) (hq : Quiet z)
    (hw : z.waits = []) : ∃ u, exec (c ⟨k, none⟩) s0 = .next u ∧ Answered q u t i z r := by
  obtain ⟨s1, stopped, hs1, h1, -, hx⟩ := hm.runs h hs
  obtain ⟨q0, hr0, hq0⟩ := result_of_putBack (hm.placeless (d.env t i)) hs1 hr
  have hz0 : (q0.tile t).slot i = some z := by
    rcases hq0 with rfl | rfl
    · exact hz
    · rwa [tile_putBack] at hz
  have hend := answered_conclude hz0 hq hw (hm.opcode_ne h1 hr0 hz0) r
  refine ⟨_, hx.trans (congrArg Host.Outcome.next (runDesc_ok h1 hr0)), ?_⟩
  rcases hq0 with rfl | rfl
  · exact hend
  · exact answered_putBack hend

/-- A run that stops ends with its status and reason. -/
theorem Moves.stops {e : Stop} (hr : (body d (d.env t i)).result s = (.error e, q)) (hn : e.need = none)
    (hz : (q.tile t).slot i = some z) (hq : Quiet z) (hw : z.waits = []) :
    ∃ u, exec (c ⟨k, none⟩) s0 = .next u ∧ Stopped q u t i op channel z e := by
  obtain ⟨s1, stopped, hs1, h1, hh, hx⟩ := hm.runs h hs
  obtain ⟨q0, hr0, hq0⟩ := result_of_putBack (hm.placeless (d.env t i)) hs1 hr
  have hz0 : (q0.tile t).slot i = some z := by
    rcases hq0 with rfl | rfl
    · exact hz
    · rwa [tile_putBack] at hz
  have hend := stopped_conclude hh hz0 hq hw (hm.opcode_ne h1 hr0 hz0) e i (d.env t i).ctx (d.env t i).step
  refine ⟨_, hx.trans (congrArg Host.Outcome.next (runDesc_stop h1 hr0 hn)), ?_⟩
  rcases hq0 with rfl | rfl
  · exact hend
  · exact stopped_putBack hend

/-- A run that needs what another package holds asks for it. -/
theorem Moves.asks {e : Stop} {n : Need} (hr : (body d (d.env t i)).result s = (.error e, q)) (hn : e.need = some n) :
    ∃ u z, exec (c ⟨k, none⟩) s0 = .next u ∧ (u.tile t).slot i = some z ∧ z.ph = .running ∧ z.waits ≠ [] ∧ u.mem = s.mem := by
  obtain ⟨s1, stopped, hs1, h1, -, hx⟩ := hm.runs h hs
  obtain ⟨q0, hr0, -⟩ := result_of_putBack (hm.placeless (d.env t i)) hs1 hr
  obtain ⟨z, hz, hph, hw, hmem⟩ := Proofs.asks (slot_of_runnable h1).1 q0 n
  have hmem1 : s1.mem = s.mem := by rcases hs1 with rfl | rfl <;> rfl
  exact ⟨_, z, hx.trans (congrArg Host.Outcome.next (runDesc_need h1 hr0 hn)), hz, hph, hw, hmem.trans hmem1⟩

end Runs

/-- An uncorrectable error of the work store stops the descriptor before it does anything, and halts its channel (R148, R204, R205). -/
theorem Moves.lost (hm : Moves t i op channel d body c s0) (h : s0.runnable t i op = some d) (hr : op ≠ 0x19 ∧ op ≠ 0x22) (hq : Quiet d)
    (a : Nat) : ∃ u last, exec (c ⟨k, some a⟩) s0 = .next u ∧ Executed (corrected s0 t k) u t i d (outc St.poisoned 0) last 0
      ∧ u.mem = (corrected s0 t k).mem ∧ (u.tile t).ws = ((corrected s0 t k).tile t).ws
      ∧ (u.tile t).eccCorrected = ((corrected s0 t k).tile t).eccCorrected
      ∧ (u.tile t).eccUncorrected = ((corrected s0 t k).tile t).eccUncorrected + 1
      ∧ (0x20 ≤ op → ((corrected s0 t k).tile t).dmaHalted.getLsbD channel = false → (u.tile t).dmaHalted.getLsbD channel = true
        ∧ kvFind (u.tile t).dmaPoison channel = some (BitVec.allOnes 64)) := by
  obtain ⟨stopped, hh, hx⟩ := hm.reads hr ⟨k, some a⟩
  rw [meetStore_eq h] at hx
  have h1 := ((ran_countStore s0 t ⟨k, some a⟩).runnable i op).trans h
  have htile : ((s0.countStore t ⟨k, some a⟩).tile t) = eccCounted ⟨k, some a⟩ (s0.tile t) := tile_countStore ..
  have hran : Ran t (corrected s0 t k) (s0.countStore t ⟨k, some a⟩) := by
    unfold State.countStore corrected
    rw [if_neg (by simp)]
    refine ⟨rfl, ?_⟩
    rw [tile_modTile_same, tile_modTile_same]
  have hcorrected : (corrected s0 t k).tile t =
      { s0.tile t with eccCorrected := (s0.tile t).eccCorrected + BitVec.ofNat 32 k } := tile_modTile_same ..
  generalize s0.countStore t ⟨k, some a⟩ = s1 at hx h1 htile hran
  obtain ⟨hslot, hop, -, hw, -⟩ := slot_of_runnable h1
  have hbad := guardStore_bad (body := body) (e := ⟨k, some a⟩) rfl d (d.env t i) s1
  rw [runDesc_stop h1 hbad rfl, recordFault_of_kind_zero rfl] at hx
  have hleaves := hh.leaves { status := St.poisoned, dva := BitVec.allOnes 64 } s1
  obtain ⟨hex, hmem, hwork⟩ := stop_concludes hleaves hslot hq hw (hop ▸ hm.opcode) (outc St.poisoned 0)
  obtain ⟨hws, hecc⟩ := Prod.mk.inj hleaves.stores
  obtain ⟨hcorr, huncorr⟩ := Prod.mk.inj hecc
  refine ⟨_, _, hx, hran.executed hex, hmem.trans hran.mem, ?_, ?_, ?_, fun hge hno => ?_⟩
  · rw [hwork.ws, hws, htile, hcorrected]
    rfl
  · rw [hwork.eccCorrected, hcorr, htile, hcorrected]
    rfl
  · rw [hwork.eccUncorrected, huncorr, htile, hcorrected]
    rfl
  · obtain ⟨hhalted, hpoison⟩ := Prod.mk.inj hwork.halts
    rw [hhalted, hpoison]
    have hno1 : (s1.tile t).dmaHalted.getLsbD channel = false := by
      rw [htile]
      rw [hcorrected] at hno
      exact hno
    exact ⟨hh.halts hge _ s1 rfl (by decide), hh.shows hge _ s1 rfl (by decide) hno1⟩

end Ends

/-- Settles O35: a run does the same wherever its tile stands in the list of tiles, and leaves its slot's descriptor. -/
theorem movementDescriptorsRunToTheirEnd : Obligations.MovementDescriptorsRunToTheirEnd := by
  unfold Obligations.MovementDescriptorsRunToTheirEnd
  intro s0 t i op k body c hmem d h reads s channel
  have hslot : (s0.tile t).slot i = some d := (slot_of_runnable h).1
  have hm : Moves t i op channel d body c s0 := by
    simp only [List.mem_cons, List.not_mem_nil, or_false, Prod.mk.injEq] at hmem
    rcases hmem with ⟨rfl, rfl, rfl⟩ | ⟨rfl, rfl, rfl⟩ | ⟨rfl, rfl, rfl⟩ | ⟨rfl, rfl, rfl⟩ | ⟨rfl, rfl, rfl⟩ | ⟨rfl, rfl, rfl⟩ |
      ⟨rfl, rfl, rfl⟩
    · exact moves_gemm _
    · exact moves_merge _
    · exact moves_load hslot
    · exact moves_store hslot
    · exact moves_copy hslot
    · exact moves_gather hslot
    · exact moves_scatter hslot
  have hs : s = if op ≠ 0x19 ∧ op ≠ 0x22 then corrected s0 t k else s0 := rfl
  refine ⟨fun r q z hr hz hq hw _ => hm.answers h hs hr hz hq hw, fun e q z hr hn hz hq hw => ?_, fun e q n hr hn => hm.asks h hs hr hn,
    fun hreads hq _ a => ?_⟩
  · obtain ⟨u, hx, last, hend⟩ := hm.stops h hs hr hn hz hq hw
    exact ⟨u, last, hx, hend⟩
  · rw [if_pos hreads] at hs
    rw [hs]
    exact hm.lost h hreads hq a

end Sys2Proof.Proofs
end

section
/-! Number formats (R152, R155 to R157, R165, R166): a value that a format holds is its own rounding, and O11. -/

namespace Sys2Proof.Proofs

open Sys2Proof Sys2Proof.Machine

/-! ### Values that a floating-point format holds (R152) -/

/-- Exponent and mantissa wide enough that the largest finite value is a normal value (R152). -/
structure Ample (f : FFmt) : Prop where
  ebits : 2 ≤ f.ebits
  mbits : 1 ≤ f.mbits

/-- The format holds n × 2^q with q its unit in the last place: a subnormal value at the least exponent, or a normal one, up to the
largest finite value. -/
structure Holds (f : FFmt) (n : Nat) (q : Int) : Prop where
  mantissa : n < 2 ^ (f.mbits + 1)
  least : 1 - (f.bias : Int) - f.mbits ≤ q
  subnormal : n < 2 ^ f.mbits → q = 1 - (f.bias : Int) - f.mbits
  greatest : q ≤ f.maxFin.2
  top : q = f.maxFin.2 → n ≤ f.maxFin.1

section Formats

variable {f : FFmt} {fmt code n m e : Nat} {q : Int}

theorem ample_of_ffmt (hf : ffmt fmt = some f) : Ample f := by
  match fmt, hf with
  | 0, rfl | 1, rfl | 2, rfl | 3, rfl | 4, rfl | 5, rfl | 6, rfl => exact ⟨by decide, by decide⟩

theorem fmtBits_of_ffmt (hf : ffmt fmt = some f) : fmtBits fmt = f.ebits + f.mbits + 1 := by
  match fmt, hf with
  | 0, rfl | 1, rfl | 2, rfl | 3, rfl | 4, rfl | 5, rfl | 6, rfl => rfl

theorem two_pow_le_maxFin (ha : Ample f) : 2 ^ f.mbits ≤ f.maxFin.1 := by
  have htwo : 2 ≤ 2 ^ f.mbits := Nat.le_self_pow (by have := ha.mbits; omega) 2
  have hsucc : 2 ^ (f.mbits + 1) = 2 * 2 ^ f.mbits := Nat.pow_succ'
  unfold FFmt.maxFin
  split_ifs <;> simp only <;> omega

theorem four_le_two_pow_ebits (ha : Ample f) : 4 ≤ 2 ^ f.ebits := Nat.pow_le_pow_right (by decide : 0 < 2) ha.ebits

/-- The codes with exponent 0 (R156). -/
theorem holds_subnormal (ha : Ample f) (hm : m < 2 ^ f.mbits) : Holds f m (1 - (f.bias : Int) - f.mbits) := by
  have hsucc : 2 ^ (f.mbits + 1) = 2 * 2 ^ f.mbits := Nat.pow_succ'
  have hfour := four_le_two_pow_ebits ha
  refine ⟨by omega, le_rfl, fun _ => rfl, ?_, fun _ => hm.le.trans (two_pow_le_maxFin ha)⟩
  unfold FFmt.maxFin
  split_ifs <;> simp only <;> omega

/-- The codes with another exponent, but those of the infinities and the NaNs. -/
theorem holds_normal (he0 : e ≠ 0) (he : e < 2 ^ f.ebits) (hm : m < 2 ^ f.mbits) (hinf : f.hasInf = true → e ≠ 2 ^ f.ebits - 1)
    (hnan : f.hasNan = true → e = 2 ^ f.ebits - 1 → m ≠ 2 ^ f.mbits - 1) :
    Holds f (2 ^ f.mbits + m) ((e : Int) - f.bias - f.mbits) := by
  have hsucc : 2 ^ (f.mbits + 1) = 2 * 2 ^ f.mbits := Nat.pow_succ'
  refine ⟨by omega, by omega, fun h => by omega, ?_, ?_⟩ <;> unfold FFmt.maxFin <;> split_ifs with hi hn <;> simp only
  · have := hinf hi
    omega
  · omega
  · omega
  · omega
  · have := hnan hn
    omega
  · omega

/-- Rounding leaves a value that the format holds (R165). -/
theorem round_of_holds (h : Holds f n q) (hn : n ≠ 0) : f.round n q = (n, q) := by
  have hlog : max (q + (Nat.log2 n : Int)) (1 - (f.bias : Int)) - f.mbits = q := by
    have hle : Nat.log2 n ≤ f.mbits := Nat.lt_succ_iff.mp ((Nat.log2_lt hn).2 h.mantissa)
    have hleast := h.least
    by_cases hsub : n < 2 ^ f.mbits
    · have := h.subnormal hsub
      omega
    · have : f.mbits ≤ Nat.log2 n := (Nat.le_log2 hn).2 (by omega)
      omega
  simp [FFmt.round, hlog]

/-- A value that the format holds does not overflow it (R166). -/
theorem maxFin_not_lt_of_holds (ha : Ample f) (h : Holds f n q) :
    (Fv.fin false f.maxFin.1 f.maxFin.2).lt (.fin false n q) = false := by
  obtain ⟨k, hk⟩ := Int.le.dest h.greatest
  have hle : n ≤ f.maxFin.1 * 2 ^ k := by
    rcases Nat.eq_zero_or_pos k with rfl | hpos
    · simpa using h.top (by simpa using hk)
    · calc n ≤ 2 ^ f.mbits * 2 ^ 1 := by rw [← Nat.pow_add]; exact h.mantissa.le
        _ ≤ f.maxFin.1 * 2 ^ k := Nat.mul_le_mul (two_pow_le_maxFin ha) (Nat.pow_le_pow_right (by decide) hpos)
  have hmin : min f.maxFin.2 q = q := min_eq_right h.greatest
  have hdiff : f.maxFin.2 - q = k := by omega
  simp only [Fv.lt, alignFin, hmin, hdiff, sub_self, Int.toNat_natCast, Int.toNat_zero, pow_zero, mul_one, Bool.false_eq_true,
    if_false, decide_eq_false_iff_not, not_lt]
  exact_mod_cast hle

theorem pack_subnormal (hm : m < 2 ^ f.mbits) (q : Int) : f.pack m q = m := by
  have hsucc : 2 ^ (f.mbits + 1) = 2 * 2 ^ f.mbits := Nat.pow_succ'
  simp [FFmt.pack, show m ≠ 2 ^ (f.mbits + 1) by omega, hm]

theorem pack_normal (hm : m < 2 ^ f.mbits) :
    f.pack (2 ^ f.mbits + m) ((e : Int) - f.bias - f.mbits) = e * 2 ^ f.mbits + m := by
  have hsucc : 2 ^ (f.mbits + 1) = 2 * 2 ^ f.mbits := Nat.pow_succ'
  simp [FFmt.pack, show 2 ^ f.mbits + m ≠ 2 ^ (f.mbits + 1) by omega]

/-- Converting a value that the format holds packs it under its sign and clamps nothing (R165 to R167). -/
theorem convert_of_holds (hf : ffmt fmt = some f) (h : Holds f n q) (sat neg : Bool) :
    convert fmt sat (.fin neg n q) = (f.signBit neg + f.pack n q, {}) := by
  by_cases hn : n = 0
  · subst hn
    simp [convert, hf, pack_subnormal (Nat.two_pow_pos _)]
  · simp [convert, hf, hn, round_of_holds h hn, maxFin_not_lt_of_holds (ample_of_ffmt hf) h]

/-! ### The values of codes (R152) -/

/-- A code is its sign bit, its exponent and its mantissa. -/
theorem code_eq_fields (hc : code < 2 ^ (f.ebits + f.mbits + 1)) :
    code = f.signBit (decide (code / 2 ^ (f.ebits + f.mbits) % 2 = 1))
      + (code / 2 ^ f.mbits % 2 ^ f.ebits * 2 ^ f.mbits + code % 2 ^ f.mbits) := by
  have hsign : f.signBit (decide (code / 2 ^ (f.ebits + f.mbits) % 2 = 1))
      = code / 2 ^ (f.ebits + f.mbits) * 2 ^ (f.ebits + f.mbits) := by
    have hlt : code / 2 ^ (f.ebits + f.mbits) < 2 := Nat.div_lt_of_lt_mul (by rwa [← Nat.pow_succ])
    interval_cases code / 2 ^ (f.ebits + f.mbits) <;> simp [FFmt.signBit]
  have htail : code / 2 ^ f.mbits % 2 ^ f.ebits * 2 ^ f.mbits + code % 2 ^ f.mbits = code % 2 ^ (f.ebits + f.mbits) := by
    rw [Nat.add_comm f.ebits, Nat.pow_add, Nat.mod_mul]
    ring
  rw [hsign, htail, Nat.div_add_mod']

/-- The value of a code that is no NaN is an infinity, or a value that the format holds and that packs to the code (R152, R156). -/
theorem decodeNum_float (hf : ffmt fmt = some f) (hc : code < 2 ^ fmtBits fmt) (hv : (decodeNum fmt code).isNan = false) :
    ∃ neg, (decodeNum fmt code = .inf neg ∧ f.hasInf = true ∧ code = f.signBit neg + f.infCode)
      ∨ ∃ n q, Holds f n q ∧ decodeNum fmt code = .fin neg n q ∧ code = f.signBit neg + f.pack n q := by
  have hfields := code_eq_fields (f := f) (fmtBits_of_ffmt hf ▸ hc)
  have he : code / 2 ^ f.mbits % 2 ^ f.ebits < 2 ^ f.ebits := Nat.mod_lt _ (Nat.two_pow_pos _)
  have hm : code % 2 ^ f.mbits < 2 ^ f.mbits := Nat.mod_lt _ (Nat.two_pow_pos _)
  simp only [decodeNum, hf] at hv ⊢
  generalize decide (code / 2 ^ (f.ebits + f.mbits) % 2 = 1) = neg at hfields hv ⊢
  generalize code / 2 ^ f.mbits % 2 ^ f.ebits = e at hfields hv he ⊢
  generalize code % 2 ^ f.mbits = m at hfields hv hm ⊢
  refine ⟨neg, ?_⟩
  simp only [Bool.and_eq_true, decide_eq_true_eq] at hv ⊢
  split_ifs at hv ⊢ with hinf hm0 hnan he0
  · obtain ⟨rfl, hi⟩ := hinf
    exact .inl ⟨rfl, hi, by rw [hfields, hm0]; rfl⟩
  · cases hv
  · cases hv
  · exact .inr ⟨_, _, holds_subnormal (ample_of_ffmt hf) hm, rfl, by rw [hfields, he0, pack_subnormal hm, Nat.zero_mul, Nat.zero_add]⟩
  · exact .inr ⟨_, _, holds_normal he0 he hm (fun hi h => hinf ⟨h, hi⟩) (fun hn h hm1 => hnan ⟨⟨h, hn⟩, hm1⟩), rfl,
      by rw [hfields, pack_normal hm]⟩

theorem convert_decodeNum_float (hf : ffmt fmt = some f) (hc : code < 2 ^ fmtBits fmt) (hv : (decodeNum fmt code).isNan = false) :
    convert fmt false (decodeNum fmt code) = (code, {}) := by
  obtain ⟨neg, ⟨hd, hi, hcode⟩ | ⟨n, q, hh, hd, hcode⟩⟩ := decodeNum_float hf hc hv
  · rw [hd, hcode]
    simp [convert, hf, hi]
  · rw [hd, convert_of_holds hf hh, ← hcode]

end Formats

/-! ### Integers (R155) -/

section Integers

variable {fmt code : Nat} {z : Int}

theorem signedOf_bounds (w n : Nat) : -(2 ^ w) ≤ 2 * signedOf w n ∧ 2 * signedOf w n < 2 ^ w := by
  have hmod : n % 2 ^ w < 2 ^ w := Nat.mod_lt _ (Nat.two_pow_pos _)
  have hcast : ((2 ^ w : Nat) : Int) = 2 ^ w := by push_cast; rfl
  rw [← hcast]
  unfold signedOf
  split_ifs <;> omega

theorem signedOf_emod (w n : Nat) : signedOf w n % 2 ^ w = (n % 2 ^ w : Nat) := by
  have hmod : ((n % 2 ^ w : Nat) : Int) % 2 ^ w = (n % 2 ^ w : Nat) := by
    push_cast
    exact Int.emod_emod_of_dvd _ dvd_rfl
  unfold signedOf
  split_ifs
  · exact hmod
  · rw [show ((2 ^ w : Nat) : Int) = 2 ^ w by push_cast; rfl, Int.sub_emod_right, hmod]

/-- An integer in the range of an integer format converts to its low bits and clamps nothing (R155, R167). -/
theorem convert_ofInt (hf : ffmt fmt = none) (hw : 1 ≤ fmtBits fmt) (hlo : -(2 ^ fmtBits fmt) ≤ 2 * z) (hhi : 2 * z < 2 ^ fmtBits fmt)
    (sat : Bool) : convert fmt sat (.ofInt z) = ((z % 2 ^ fmtBits fmt).toNat, {}) := by
  have hz : (if decide (z < 0) = true then -((z.natAbs : Nat) : Int) else z.natAbs) = z := by
    split_ifs with h <;> simp only [decide_eq_true_eq] at h <;> omega
  have hpow : (2 : Int) ^ fmtBits fmt = 2 * 2 ^ (fmtBits fmt - 1) := by
    rw [← pow_succ', Nat.sub_add_cancel hw]
  simp only [convert, hf, Fv.ofInt, le_refl, if_true, Int.toNat_zero, pow_zero, mul_one, hz]
  rw [if_neg (by omega), if_neg (by omega)]

theorem convert_decodeNum_int (hf : ffmt fmt = none) (hw : 1 ≤ fmtBits fmt) (hc : code < 2 ^ fmtBits fmt) :
    convert fmt false (decodeNum fmt code) = (code, {}) := by
  obtain ⟨hlo, hhi⟩ := signedOf_bounds (fmtBits fmt) code
  have hd : decodeNum fmt code = .ofInt (signedOf (fmtBits fmt) code) := by simp only [decodeNum, hf]
  rw [hd, convert_ofInt hf hw hlo hhi, signedOf_emod, Int.toNat_natCast, Nat.mod_eq_of_lt hc]

end Integers

theorem fmtBits_pos {fmt : Nat} (h : fmt < 10) : 1 ≤ fmtBits fmt := by
  interval_cases fmt <;> decide

/-- Settles O11: a code's value is an infinity, a value that the format holds, or an integer in its range. -/
theorem numberFormatsRoundTrip : Obligations.NumberFormatsRoundTrip := by
  unfold Obligations.NumberFormatsRoundTrip
  refine ⟨fun fmt hfmt code hc hv => ?_, rfl, rfl, rfl, rfl, rfl⟩
  cases hf : ffmt fmt with
  | some f => exact convert_decodeNum_float hf hc hv
  | none => exact convert_decodeNum_int hf (fmtBits_pos hfmt) hc

end Sys2Proof.Proofs
end

section
/-! The accesses of a KV_APPEND at its issuer (R207 to R211, R217 to R220, R228) do not depend on where the tile stands. -/

namespace Sys2Proof.Proofs

open Sys2Proof Sys2Proof.Machine Sys2Proof.Laws Sys2Proof.Safety

/-! ### A fault's record (R110, R111) -/

theorem recordFault_putBack (own : TileRef) (s : State) (t : TileRef) (e : Stop) (slot ctx step : Nat) :
    (putBack own s).recordFault t e slot ctx step = putBack own (s.recordFault t e slot ctx step) := by
  have hmark : (putBack own s).stepMark t = s.stepMark t := by
    unfold State.stepMark
    rw [tile_putBack]
    rfl
  unfold State.recordFault
  simp only [tile_putBack, hmark, setTile_putBack, modTile_putBack]
  exact ite_putBack own rfl (ite_putBack own rfl (raise_putBack ..))

/-- A fault's record and counters are nothing that a tile has posted. -/
theorem posted_of_apartFault {x y : Tile} (h : apartFault x = apartFault y) : posted x = posted y :=
  (congrArg posted h : posted (apartFault x) = posted (apartFault y))

theorem Posts.recordFault (s : State) (t : TileRef) (e : Stop) (slot ctx step : Nat) :
    Posts s (s.recordFault t e slot ctx step) := by
  rcases recordFault_cases s t e slot ctx step with hsame | ⟨x, hx, hlogs⟩
  · rw [hsame]
    exact .refl s
  · exact ((Posts.refl s).setTile (posted_of_apartFault hx)).of_tiles hlogs.tiles

namespace Placeless

variable {own : TileRef} {env : Env}

theorem recordFault {t : TileRef} {e : Stop} {slot ctx step : Nat} :
    Placeless own (M.upd fun s => s.recordFault t e slot ctx step) :=
  upd (fun s => .recordFault s ..) fun _ => recordFault_putBack ..

/-! ### Page tables (R207 to R209) -/

theorem protectedGlobal_putBack (s : State) (g : Nat) : (putBack own s).protectedGlobal g = s.protectedGlobal g := by
  simp only [State.protectedGlobal, protectedAt_putBack]
  rfl

theorem kvRange_putBack (s : State) (pkg fuel : Nat) :
    ∀ dva n, (putBack env.t s).kvRange env pkg fuel dva n = s.kvRange env pkg fuel dva n := by
  induction fuel with
  | zero => exact fun _ _ => rfl
  | succ fuel ih =>
    intro dva n
    simp only [State.kvRange, Settles.translate.moves, protectedGlobal_putBack, ih]

theorem kvPlace {dva : BitVec 64} : Placeless env.t (kvPlace env dva) :=
  bind Settles.translate.atDva.toPlaceless fun _ => get (fun s => by simp only [protectedGlobal_putBack]) fun _ => branch _ throw pure

theorem readHeader {pt : BitVec 64} : Placeless env.t (readHeader env pt) :=
  bind readDva fun _ => check _ throw fun _ => bind kvPlace fun _ => bind kvPlace fun _ => bind kvPlace fun _ =>
    get (fun s => by simp only [State.kvPlaced, kvRange_putBack]) fun _ => check _ throw fun _ => check _ throw fun _ => pure

theorem readDir {h : KvHeader} {plane : Nat} : Placeless env.t (readDir env h plane) :=
  bind readDva fun _ => check _ throw fun _ => pure

/-! ### Entries at the issuer (R220, R228) -/

theorem tileUp_putBack (s : State) (t : TileRef) : (putBack own s).tileUp t = s.tileUp t := by
  simp only [State.tileUp, tile_putBack]
  rfl

theorem issueEntry {mode : Nat} {e : BitVec 256} : Placeless env.t (issueEntry env mode e) := by
  refine bind readHeader fun ⟨h, pkg⟩ => check _ throw fun _ => bind readDir fun d => check _ throw fun _ => check _ throw fun _ =>
    check _ throw fun _ => get (fun s => ?_) fun s => check _ throw fun _ => branch _ ?_ ?_
  · simp only [tileUp_putBack]
    rfl
  · exact check _ throw fun _ => bind wsRead fun _ => pure
  · exact check _ throw fun _ => bind wsRead fun _ => bind wsRead fun _ => join _ wsRead pure fun _ => pure

theorem entryTry {i : Nat} {m : M AppendGo} (hm : Placeless own m) : Placeless own (entryTry env i m) :=
  tryCatch (bind hm fun _ => pure) fun _ => check _ throw fun _ => bind recordFault fun _ => pure

theorem issueAll {d : DescSlot} {mode : Nat} : Placeless env.t (issueAll d env mode) :=
  mapM (fun _ => bind readDva fun _ => bind (entryTry issueEntry) fun _ => pure) _

end Placeless

end Sys2Proof.Proofs
end

section
/-! COMMIT, STAGE and ACCEPT at the issuer, APPEND_ROWS_ARRIVE at the home (R148, R214, R217 to R220, R224, R226 to R228), and O36. -/

namespace Sys2Proof.Proofs

open Sys2Proof Sys2Proof.Machine Sys2Proof.Laws Sys2Proof.Safety

/-! ### Issue (R217 to R220) -/

section Issue

variable {s q : State} {t : TileRef} {i mode : Nat} {k : StoreErr} {d : DescSlot}

/-- The tile has counted what its stores' code has found (R114, R148). -/
def storeMet (s : State) (t : TileRef) (k : StoreErr) : State := s.modTile t (eccCounted k)

/-- Counting gives the state that has counted, but for the place of the tile. -/
theorem storeMet_eq (s : State) (t : TileRef) (k : StoreErr) :
    storeMet s t k = s.countStore t k ∨ storeMet s t k = putBack t (s.countStore t k) := by
  unfold State.countStore
  split
  · next hnone =>
    right
    simp only [Bool.and_eq_true, decide_eq_true_eq, Option.isNone_iff_eq_none] at hnone
    rw [storeMet, putBack, State.modTile, eccCounted, hnone.1, hnone.2]
    simp
  · exact .inl rfl

/-- The slot of a KV_APPEND whose entries go: out of its queue, running until they are answered. -/
def issued (s : State) (t : TileRef) (i : Nat) : State :=
  (s.modTile t fun x => x.dequeue i).modSlot t i fun d => { d with ph := .running, split := true }

theorem issued_putBack (s : State) (t : TileRef) (i : Nat) : issued (putBack t s) t i = issued s t i := by
  rw [issued, modTile_putBack, State.modTile, putBack_setTile]
  rfl

/-- Every entry goes, in order, with what the issue gave for it. -/
def sendAll (s : State) (t : TileRef) (i mode : Nat) (d : DescSlot) (k : StoreErr) (l : List (BitVec 256 × Except Outc AppendGo)) :
    State :=
  ((List.range l.length).zip l).foldl (fun (s : State) e => s.sendEntry t i mode d (k.bad = some e.1) e.1 e.2) s

/-- An instruction that issues a KV_APPEND of a mode. -/
theorem exec_append {c : Instr} (hc : (mode, c) ∈ [(0, Instr.commit t i k), (1, .stage t i k), (2, .accept t i k)]) (s : State) :
    exec c s = .next (s.runAppend t i mode k) := by
  simp only [List.mem_cons, List.not_mem_nil, or_false, Prod.mk.injEq] at hc
  rcases hc with ⟨rfl, rfl⟩ | ⟨rfl, rfl⟩ | ⟨rfl, rfl⟩ <;> rfl

theorem runAppend_other (h : s.runnable t i 0x30 = some d) (hm : fld d.desc 34 1 0 ≠ mode) : s.runAppend t i mode k = s := by
  simp only [State.runAppend, h, hm, ne_eq, not_false_iff, decide_true, Bool.true_or, if_true]

section Mode

variable (h : s.runnable t i 0x30 = some d) (he : d.entries = []) (hm : fld d.desc 34 1 0 = mode)

include h he hm

theorem runAppend_sends {l : List (BitVec 256 × Except Outc AppendGo)}
    (hr : (issueAll d (d.env t i) mode).result (s.countStore t k) = (.ok l, q)) :
    s.runAppend t i mode k = sendAll (issued q t i) t i mode d k l := by
  simp [State.runAppend, h, he, hm, hr, sendAll, issued]

theorem runAppend_stops {e : Stop} (hr : (issueAll d (d.env t i) mode).result (s.countStore t k) = (.error e, q)) (hn : e.need = none) :
    s.runAppend t i mode k = (q.recordFault t e i (d.env t i).ctx (d.env t i).step).conclude t i { outc := outc e.status e.reason } := by
  simp [State.runAppend, h, he, hm, hr, hn]

/-- What the issue leaves goes on from the tile as it stood. -/
theorem issue_sends {l : List (BitVec 256 × Except Outc AppendGo)}
    (hr : (issueAll d (d.env t i) mode).result (storeMet s t k) = (.ok l, q)) :
    s.runAppend t i mode k = sendAll (issued q t i) t i mode d k l := by
  obtain ⟨q0, hr0, hq⟩ := result_of_putBack (t := t) (Placeless.issueAll (env := d.env t i)) (storeMet_eq s t k) hr
  rw [runAppend_sends h he hm hr0]
  rcases hq with rfl | rfl
  · rfl
  · rw [issued_putBack]

/-- A stop of the issue ends the slot where its engine is free. -/
theorem issue_stops {e : Stop} {z : DescSlot} (hr : (issueAll d (d.env t i) mode).result (storeMet s t k) = (.error e, q))
    (hn : e.need = none) (hz : (q.tile t).slot i = some z) (hq : Quiet z) (hw : z.waits = []) :
    RunsFor q (s.runAppend t i mode k) t i z (outc e.status e.reason) 0 ∧ (s.runAppend t i mode k).mem = q.mem := by
  obtain ⟨hslot, hop, -, -, -⟩ := slot_of_runnable (((ran_countStore s t k).runnable i 0x30).trans h)
  obtain ⟨q0, hr0, hq0⟩ := result_of_putBack (t := t) (Placeless.issueAll (env := d.env t i)) (storeMet_eq s t k) hr
  have hz0 : (q0.tile t).slot i = some z := by
    rcases hq0 with rfl | rfl
    · exact hz
    · rwa [tile_putBack] at hz
  have hdesc : z.desc = d.desc := by
    have hposts := (Placeless.issueAll (env := d.env t i) (d := d) (mode := mode)).posts (s.countStore t k)
    have hp := congrFun (congrArg Prod.snd (hposts.tile t)) i
    simpa only [posted, hslot, hr0, hz0, Option.map_some, Option.some.injEq] using hp
  have hleaves : StopsAt t i q0 (q0.recordFault t e i (d.env t i).ctx (d.env t i).step) := (StopsAt.refl t i q0).recordFault ..
  obtain ⟨hex, hmem, -⟩ := stop_concludes hleaves hz0 hq hw (by rw [hdesc, hop]; decide) (outc e.status e.reason)
  rw [engineStart_recordFault] at hex
  rw [runAppend_stops h he hm hr0 hn]
  unfold RunsFor
  rcases hq0 with rfl | rfl
  · exact ⟨hex, hmem⟩
  · rw [tile_putBack]
    exact ⟨executed_putBack hex, hmem⟩

end Mode

end Issue

/-! ### Entries on the meshes (R220, R515) -/

section Meshes

variable (s : State)

theorem le_foldl_due (l : List MeshMsg) (a : Nat) : a ≤ l.foldl (fun a m => max a m.due) a := by
  induction l generalizing a with
  | nil => exact le_rfl
  | cons m l ih => exact (Nat.le_max_left a _).trans (ih _)

/-- No message is due after the latest. -/
theorem due_le_foldl {m : MeshMsg} (l : List MeshMsg) (a : Nat) (h : m ∈ l) : m.due ≤ l.foldl (fun a m => max a m.due) a := by
  induction l generalizing a with
  | nil => cases h
  | cons m' l ih =>
    rcases List.mem_cons.1 h with rfl | h
    · exact (Nat.le_max_right a _).trans (le_foldl_due l _)
    · exact ih _ h

/-- A message sent behind others comes no earlier than its path allows, and none of them after it. -/
theorem meshSendAfter_due (home : TileRef) (delay : Nat) (b : MeshBody) (p : MeshBody → Bool) :
    ∃ due, s.meshSendAfter home delay b p = { s with mesh := s.mesh ++ [{ dest := home, due := due, body := b }] }
      ∧ s.time.now + delay ≤ due ∧ ((∀ m ∈ s.mesh, m.dest ≠ home) → due = s.time.now + delay)
      ∧ ∀ m ∈ s.mesh, m.dest = home → p m.body = true → m.due ≤ due := by
  unfold State.meshSendAfter
  extract_lets last
  refine ⟨_, rfl, Nat.add_le_add_left (Nat.le_max_left ..) _, fun hnone => ?_, fun m hm hdest hp => ?_⟩
  · have hlast : last = 0 := by
      have hempty : (s.mesh.filter fun m => m.dest = home && p m.body) = [] :=
        List.filter_eq_nil_iff.2 fun m hm => by simp [hnone m hm]
      simp only [last, hempty, List.foldl_nil]
    rw [hlast, Nat.zero_sub, Nat.max_eq_left (Nat.zero_le _)]
  · have hle : m.due ≤ last := due_le_foldl _ 0 (List.mem_filter.2 ⟨hm, by simp [hdest, hp]⟩)
    omega

/-- The rows of an entry that its issuer sent: a later one of this issuer stays behind them. -/
def rowsOfIssuer (t : TileRef) : MeshBody → Bool
  | .rows r => r.remote.isNone && r.issuer = t
  | _ => false

variable {s} {t : TileRef} {i mode : Nat} {d : DescSlot} {k : StoreErr} {b : BitVec 256} {g : AppendGo}

/-- The rows of the only entry of a KV_APPEND, as they travel. -/
def onlyRows (t : TileRef) (i mode : Nat) (d : DescSlot) (k : StoreErr) (b : BitVec 256) (g : AppendGo) : AppendRows :=
  { entry := b, entryNo := 0, mode := mode, issuer := t, slot := i, job := d.job, step := d.step, rows := g.rows, aux := g.aux
    poisoned := k.bad = some 0 }

/-- They go over the meshes to a home in this package. -/
theorem sendAll_home (h : unitPkg g.home = s.self) :
    sendAll s t i mode d k [(b, .ok g)] = s.meshSendAfter (unitTileRef g.home)
      (meshDelay t (unitTileRef g.home) + s.pathTimeTo t (pageAddr (unitTileRef g.home) 0) (g.rows.length + g.aux.length))
      (.rows (onlyRows t i mode d k b g)) (rowsOfIssuer t) := if_pos h

/-- One of another package whose source rows cannot be read is answered POISONED. -/
theorem sendAll_unread (h : unitPkg g.home ≠ s.self) (hbad : k.bad = some 0) : sendAll s t i mode d k [(b, .ok g)] =
    s.entryDone t i 0 (outc St.poisoned 0) (recordOf (outc St.poisoned 0) 0 0 false false false) :=
  (if_neg h).trans (if_pos (decide_eq_true hbad))

end Meshes

/-! ### Arrival at the home (R214, R220, R228) -/

section Arrival

variable {s q : State} {t : TileRef} {r : AppendRows} {again : State} {bad : Bool}

/-- The rows that a message carries. -/
def rowsOf : MeshBody → Option AppendRows
  | .rows r => some r
  | _ => none

theorem exec_appendRowsArrive {m : MeshMsg} {rest : List MeshMsg} (h : meshTake t rowsOf s.mesh = some (r, m, rest))
    (hrun : s.clocksRun = true) (hw : (s.tile t).frontWaits = []) (k : StoreErr) :
    exec (.appendRowsArrive t k) s = .next ((messageTaken s m rest).rowsArrive t r (s.advanceTo m.due) k.bad.isSome) := by
  show execAppendRowsArrive t k s = _
  unfold execAppendRowsArrive
  split
  · next hnone => cases hnone.symm.trans h
  · next hsome =>
    cases hsome.symm.trans h
    rw [hrun, hw]
    rfl

/-- What the front end awaited has been used. -/
def frontDone (s : State) (t : TileRef) : State := s.modTile t fun x => { x with frontFetched := [], frontFails := [] }

section Last

variable (hs : r.since = 0) (hl : r.last = true)

include hs hl

/-- An entry that came in one piece and has tokens for the twin goes there (R229). -/
theorem partDone_mirrored {a : Applied} {bytes : List Byte} (ha : a.send = some bytes) (s : State) (t : TileRef) :
    s.partDone t r a = s.mirrorCommit t r a bytes := by
  simp only [State.partDone, hs, hl, ha, Bool.not_true, Bool.false_eq_true, if_true, if_false]

/-- Another is answered. -/
theorem partDone_answered {a : Applied} (ha : a.send = none) (s : State) (t : TileRef) :
    s.partDone t r a = (if a.unmirrored = true then s.countPartial else s).answerEntry r a.outc a.record := by
  simp only [State.partDone, hs, hl, ha, Bool.not_true, Bool.false_eq_true, if_true, if_false]

/-- An entry that stops has applied nothing. -/
theorem partDone_stopped (s : State) (t : TileRef) (o : Outc) :
    s.partDone t r { outc := o } = s.answerEntry r o (recordOf o 0 0 false false false) := partDone_answered hs hl rfl s t

end Last

theorem rowsArrive_down (hs : r.since = 0) (hl : r.last = true) (h : s.tileUp t = false) : s.rowsArrive t r again bad =
    s.answerEntry r (outc St.notReady 0) (recordOf (outc St.notReady 0) 0 0 false false false) := by
  simp [State.rowsArrive, hs, h, partDone_stopped hs hl]

section Up

variable (hs : r.since = 0) (h : s.tileUp t = true)

include hs h

theorem rowsArrive_applied {a : Applied} (hr : (applyRows bad (s.frontEnv t r.job r.step true) r).result s = (.ok a, q)) :
    s.rowsArrive t r again bad = (frontDone q t).partDone t r a := by
  simp [State.rowsArrive, hs, h, hr, frontDone]

theorem rowsArrive_stops (hl : r.last = true) {e : Stop}
    (hr : (applyRows bad (s.frontEnv t r.job r.step true) r).result s = (.error e, q)) (hn : e.need = none) :
    let env := s.frontEnv t r.job r.step true
    let o := outc e.status e.reason
    s.rowsArrive t r again bad = (frontDone (q.recordFault t e r.slot env.ctx env.step) t).answerEntry r o
      (recordOf o 0 0 false false false) := by
  simp [State.rowsArrive, hs, h, hr, hn, frontDone, partDone_stopped hs hl]

theorem rowsArrive_asks {e : Stop} {n : Need} (hr : (applyRows bad (s.frontEnv t r.job r.step true) r).result s = (.error e, q))
    (hn : e.need = some n) :
    s.rowsArrive t r again bad = (again.askNeed (s.frontEnv t r.job r.step true) n (.front t)).modTile t fun y =>
      { y with frontWaits := y.frontWaits ++ [again.freshTxn] } := by
  simp [State.rowsArrive, hs, h, hr, hn]

end Up

/-- A request to another package leaves memory. -/
theorem mem_requestOf (s : State) (t : TileRef) (m : Msg) (user : TxnUser) : (s.requestOf t m user).mem = s.mem := by
  have hcount : (s.countSent t m).mem = s.mem := by
    unfold State.countSent
    dsimp only
    split <;> rfl
  exact ((OnlyFlits.refl _).request.mem).trans hcount

end Arrival

/-- Settles O36: what an entry does at its issuer and at its home, on from what the accesses of the issue and of the front end leave. -/
theorem appendEntriesGoHomeAndAreApplied : Obligations.AppendEntriesGoHomeAndAreApplied := by
  unfold Obligations.AppendEntriesGoHomeAndAreApplied
  intro s t i
  refine ⟨fun mode k c hc d h he => ⟨fun hm => ?_, fun hm => ⟨fun l q hr => ⟨?_, ?_, ?_⟩, fun e q z hr hn hz hq hw => ?_⟩⟩, ?_⟩
  · rw [exec_append hc, runAppend_other h hm]
  · rw [exec_append hc, issue_sends h he hm hr]
    rfl
  · rintro b g rfl - hhome home first
    obtain ⟨due, hsend, hdue⟩ := meshSendAfter_due (issued q t i) home
      (meshDelay t home + (issued q t i).pathTimeTo t (pageAddr home 0) (g.rows.length + g.aux.length))
      (.rows (onlyRows t i mode d k b g)) (rowsOfIssuer t)
    rw [← Nat.add_assoc] at hdue
    obtain ⟨hfirst, hlone, hbehind⟩ := hdue
    have hsent := (issue_sends h he hm hr).trans ((sendAll_home hhome).trans hsend)
    refine ⟨_, due, (exec_append hc s).trans (congrArg Host.Outcome.next hsent), rfl, hfirst, hlone,
      fun m hmesh r hdest hbody hown hissuer => hbehind m hmesh hdest ?_, rfl⟩
    simp [hbody, rowsOfIssuer, hown, hissuer]
  · rintro b g rfl haway hbad
    rw [exec_append hc, issue_sends h he hm hr]
    exact congrArg Host.Outcome.next (sendAll_unread haway hbad)
  · exact ⟨_, exec_append hc s, issue_stops h he hm hr hn hz hq hw⟩
  · intro rows r m rest k htake hrun hw hs hl bad s1 env
    have hexec := exec_appendRowsArrive htake hrun hw k
    have hup : s1.tileUp t = s.tileUp t := tileUp_messageTaken ..
    rw [← hup, hexec]
    refine ⟨fun hdown => ?_, fun a q hin hr hsend => ?_, fun a q bytes hin hr hsend => ?_, fun e q hin hr hn => ?_,
      fun e q n hin hr hn => ?_⟩
    · exact congrArg Host.Outcome.next (rowsArrive_down hs hl hdown)
    · exact congrArg Host.Outcome.next ((rowsArrive_applied hs hin hr).trans (partDone_answered hs hl hsend ..))
    · exact congrArg Host.Outcome.next ((rowsArrive_applied hs hin hr).trans (partDone_mirrored hs hl hsend ..))
    · exact congrArg Host.Outcome.next (rowsArrive_stops hs hin hl hr hn)
    · refine ⟨_, congrArg Host.Outcome.next (rowsArrive_asks hs hin hr hn), ?_, ?_⟩
      · rw [tile_modTile_same]
        exact List.append_ne_nil_of_right_ne_nil _ (List.cons_ne_nil _ _)
      · exact (mem_requestOf ..).trans (by rw [advanceTo_eq])

end Sys2Proof.Proofs
end

section
/-! O37 refuted: the reads of a block wait for the boundary of a Pewter slice (R269), which the time of the item's next block does not. -/

namespace Sys2Proof.Proofs

open Sys2Proof Sys2Proof.Machine Sys2Proof.Laws Sys2Proof.Safety

/-- A page table of one head of 64 INT4 elements and of two blocks, its entries at 2 MiB: a block's image is one slice page (R207, R212). -/
def awayHeader : BitVec 512 := BitVec.ofNat 512 (2 ^ 89 + 2 ^ 104 + 2 * 2 ^ 128 + 2 ^ 21 * 2 ^ 192)

/-- A started item of two blocks, for which the entry of the first has come from package 1: its image lies at 2048 (R211, R326). -/
def answeredItem : AttnItem :=
  { lead := 0, leadSlot := 0, seq := 0, slotNo := 0, kind := .span, lo := 0, hi := 0, desc := 0, batch := 0, header := awayHeader, g0 := 0
    lb := 0, ctx := 0, job := 0, step := 0, todo := [0, 1], started := true, fetched := [(2 ^ 46 + 2 ^ 21, bytesLE 16 2048)] }

/-- Its tile, which has the translations of the image and of the entries, and of which a Pewter bank reads the image's page until
1,000,000. -/
def readingItemTile : Tile :=
  { unit := .ready, items := [answeredItem], pewter := { busy := [(0, 1, 1000000, 0)] }
    xlt := [{ ctx := 0, dva := 0, size := 21, base := 0, prot := 1, leaf := 0 },
      { ctx := 0, dva := 2 ^ 21, size := 21, base := 2 ^ 46 + 2 ^ 21, prot := 1, leaf := 0 }] }

/-- A running package with that tile. -/
def busyItem : State :=
  { State.reset with
    bu := { State.reset.bu with powered := true, good := true, s0 := true, done := 13, ready := true }
    units := { State.reset.units with stackSt := [(0, .ready, 0)], contexts := [(0, { root := 4096, pos := 512 })] }
    tiles := [(0, readingItemTile)] }

/-- What the accesses to the first block give, and the state they leave. -/
def firstBlock : Except Stop (List KvToken) × State :=
  (blockTokens false (answeredItem.env 0) answeredItem 0).result (busyItem.advanceTo (busyItem.blockDue 0 answeredItem 0))

/-- Time of the next block of the head item after an answer. -/
def nextAfter : Host.Outcome State Fault Refusal → Option Nat
  | .next u => ((u.tile 0).items.head?).map (·.nextAt)
  | _ => none

theorem firstBlock_answers : firstBlock.1 = .ok [] := by decide +kernel

theorem firstBlock_waits : firstBlock.2.time.now = 1000000 := by decide +kernel

theorem firstBlock_items : (firstBlock.2.tile 0).items = [answeredItem] := by decide +kernel

theorem due_firstBlock : busyItem.blockDue 0 answeredItem 0 < 1000000 := by decide +kernel

theorem nextAfter_blockArrival :
    nextAfter (exec (.blockArrival 0 ⟨0, none⟩) busyItem) = some (busyItem.blockDue 0 answeredItem 0) := by decide +kernel

/-- Refutes O37: BLOCK_ARRIVAL takes the time of the next block from the clock before the block's accesses, where the statement asks for
the clock after them; an item whose block waited for another package's bytes, and whose image then waits for a Pewter slice, tells them
apart. -/
theorem not_attentionItemsRunBlockByBlock : ¬ Obligations.AttentionItemsRunBlockByBlock := by
  unfold Obligations.AttentionItemsRunBlockByBlock
  intro h
  obtain ⟨-, -, harrival, -⟩ := h busyItem 0 0
  obtain ⟨hnext, -⟩ := harrival answeredItem [] rfl (by decide +kernel) rfl rfl
  have hrun : firstBlock = (.ok [], firstBlock.2) := by rw [← firstBlock_answers]
  obtain ⟨u, hu, -, hitems⟩ := hnext ⟨0, none⟩ 0 1 [] [] firstBlock.2 rfl hrun firstBlock_items
  have hclock := nextAfter_blockArrival
  rw [hu, nextAfter, hitems] at hclock
  have hfetched : answeredItem.fetched ≠ [] := List.cons_ne_nil _ _
  simp only [List.head?_cons, Option.map_some, if_neg hfetched, firstBlock_waits, Option.some.injEq] at hclock
  have hdue := due_firstBlock
  omega

end Sys2Proof.Proofs
end

section
/-! The Pewter queue and the start of a sequence (R116, R148, R256 to R259). -/

namespace Sys2Proof.Proofs

open Sys2Proof Sys2Proof.Machine Sys2Proof.Laws Sys2Proof.Safety

/-! ### The queue (R116, R256, R264) -/

section Queue

variable {s : State} {t : TileRef} {i : Nat} {d : DescSlot}

/-- A descriptor of own work that may run and has room joins the Pewter queue. -/
theorem dispatch_pewter (hup : s.tileUp t = true) (hslot : (s.tile t).slot i = some d) (hph : d.ph = .waiting)
    (hwait : (s.tile t).waitMet d = true) (hown : s.ownWork t d = true) (hkey : (queueOf d).key = 7)
    (hdown : (s.tile t).channelDown (queueOf d) = false) (hroom : (s.tile t).room 7 = true) :
    s.dispatch t i = s.queueSlot t i d 7 := by
  simp [State.dispatch, hslot, hup, hwait, hown, hph, hdown, hkey, hroom]

/-- A descriptor as it stands in the Pewter queue, which numbers what it takes. -/
def queuedSlot (s : State) (t : TileRef) (d : DescSlot) : DescSlot :=
  { d with ph := .queued, dispatchAt := s.time.now, dispatchCore := s.coreNow (s.tile t), order := (s.tile t).pewter.nextOrder }

theorem queueSlot_pewter (s : State) (t : TileRef) (i : Nat) (d : DescSlot) :
    ((s.queueSlot t i d 7).tile t).queue_ 7 = (s.tile t).queue_ 7 ++ [i]
      ∧ ((s.queueSlot t i d 7).tile t).slot i = some (queuedSlot s t d) := by
  rw [State.queueSlot, tile_modTile_same]
  exact ⟨kvGet_kvPut_same .., kvFind_kvPut_same ..⟩

theorem exec_pewterMv (hslot : (s.tile t).slot i = some d) (hop : dOpcode d.desc = 0x40) :
    exec (.pewterMv t i) s = .next (s.dispatch t i) := by
  have hexec : exec (.pewterMv t i) s = execPewterMv t i s := rfl
  simp only [hexec, execPewterMv, hslot, hop, if_pos]

end Queue

/-! ### The start (R257 to R259) -/

section Start

variable {s q : State} {t : TileRef} {k : Nat} {d : DescSlot} {e : StoreErr}

theorem exec_pewterSequenceStart (s : State) (t : TileRef) (e : StoreErr) :
    exec (.pewterSequenceStart t e) s = execPewterSequenceStart t e s := rfl

theorem exec_pewterSequenceStart_waits (hhead : (s.tile t).pewterHead = some (k, d)) (hmay : (s.tile t).pewter.mayStart d.desc = false) :
    exec (.pewterSequenceStart t e) s = .next s := by
  simp [exec_pewterSequenceStart, execPewterSequenceStart, hhead, hmay]

/-- What the load of a start meets of the work store counts (R148, R258). -/
def loadCounted (q : State) (t : TileRef) (d : DescSlot) (e : StoreErr) : State := if pvLoad d.desc then q.countStore t e else q

theorem exec_pewterSequenceStart_ok {r : List (Nat × Nat × Nat) × List XEntry × List XEntry} (hup : s.tileUp t = true)
    (hhead : (s.tile t).pewterHead = some (k, d)) (hmay : (s.tile t).pewter.mayStart d.desc = true)
    (hr : (startChecks d.desc (d.env t k)).result s = (.ok r, q)) :
    exec (.pewterSequenceStart t e) s = .next ((loadCounted q t d e).startSequence t k d r.1 r.2.1 r.2.2 e) := by
  simp [exec_pewterSequenceStart, execPewterSequenceStart, hhead, hup, hmay, hr, loadCounted]

theorem exec_pewterSequenceStart_error {c : Stop} (hup : s.tileUp t = true)
    (hhead : (s.tile t).pewterHead = some (k, d)) (hmay : (s.tile t).pewter.mayStart d.desc = true)
    (hr : (startChecks d.desc (d.env t k)).result s = (.error c, q)) :
    exec (.pewterSequenceStart t e) s =
      .next ((q.recordFault t c k (d.env t k).ctx (d.env t k).step).finishSlot t k (outc c.status c.reason)) := by
  simp [exec_pewterSequenceStart, execPewterSequenceStart, hhead, hup, hmay, hr]

/-- A tile whose head sequence has started (R258, R259). -/
def startedTile (x : Tile) (now k : Nat) (d : DescSlot) (pages : List (Nat × Nat × Nat)) (outs maps : List XEntry) (e : StoreErr) : Tile :=
  let p := x.pewter
  { (x.setSlot k { d with ph := .running }).dequeue k with pewter := { p with
      vslots := if pvLoad d.desc then kvPut p.vslots (fld d.desc 34 4 4) (loadVectors x d.desc now e) else p.vslots
      seqs := p.seqs ++ [{
        slot := k, tag := fld d.desc 34 3 0, half := if pvRows d.desc = 0 then none else p.freeHalf
        vslot := fld d.desc 34 4 4, desc := d.desc, job := d.job, order := d.order, outs := outs
        maps := maps.map fun e => (e.dva, 2 ^ e.size), twinMaps := (maps.filter (·.mirrored)).map fun e => (e.dva, 2 ^ e.size)
        todo := pages, startAt := now, lastEnd := now }] } }

theorem tile_startSequence (h : (s.tile t).slot k = some d) (pages : List (Nat × Nat × Nat)) (outs maps : List XEntry) (e : StoreErr) :
    (s.startSequence t k d pages outs maps e).tile t = startedTile (s.tile t) s.time.now k d pages outs maps e := by
  rw [State.startSequence, tile_modTile_same, tile_modSlot h]
  rfl

theorem ran_loadCounted (q : State) (t : TileRef) (d : DescSlot) (e : StoreErr) : Ran t q (loadCounted q t d e) := by
  unfold loadCounted
  split
  · exact ran_countStore ..
  · exact .refl ..

theorem tile_loadCounted (q : State) (t : TileRef) (d : DescSlot) (e : StoreErr) :
    (loadCounted q t d e).tile t = if pvLoad d.desc then eccCounted e (q.tile t) else q.tile t := by
  unfold loadCounted
  split
  · exact tile_countStore ..
  · rfl

theorem slot_startedTile (x : Tile) (now k : Nat) (d : DescSlot) (pages : List (Nat × Nat × Nat)) (outs maps : List XEntry) (e : StoreErr) :
    (startedTile x now k d pages outs maps e).slot k = some { d with ph := .running } := kvFind_kvPut_same ..

/-- The head sequence starts from the tile whose load has counted what it met. -/
theorem tile_started (h : (q.tile t).slot k = some d) (pages : List (Nat × Nat × Nat)) (outs maps : List XEntry) (e : StoreErr) :
    ((loadCounted q t d e).startSequence t k d pages outs maps e).tile t =
      startedTile (if pvLoad d.desc then eccCounted e (q.tile t) else q.tile t) q.time.now k d pages outs maps e := by
  have hran := ran_loadCounted q t d e
  rw [tile_startSequence ((hran.slot k).trans h), tile_loadCounted, hran.time]

/-- A fault's record leaves the slots. -/
theorem slot_recordFault (s : State) (t : TileRef) (c : Stop) (slot ctx step i : Nat) :
    ((s.recordFault t c slot ctx step).tile t).slot i = (s.tile t).slot i := by
  rcases recordFault_cases s t c slot ctx step with h | ⟨x, hx, hlogs⟩
  · rw [h]
  · rw [State.tile, hlogs.tiles]
    refine (congrArg (fun y : Tile => y.slot i) (tile_setTile_same s t x)).trans ?_
    exact (congrArg (fun y : Tile => y.slot i) hx :)

end Start

end Sys2Proof.Proofs
end

section
/-! Pewter slices (R260 to R262, R267, R271, R273, R279, R280, R288, R301): what a page command does, by the state of the page it is for. -/

namespace Sys2Proof.Proofs

open Sys2Proof Sys2Proof.Machine Sys2Proof.Laws Sys2Proof.Safety

/-! ### Narrow writes ahead of a slice (R288) -/

/-- From `v`, no more has changed than the narrow writes of a page of tile `t` change as they meet its verdict: the clock, the pause ratio,
the power state and the tile's Pewter units stand, and no page is left undefined that was not. -/
structure Merges (t : TileRef) (v s : State) : Prop where
  rest : (s.time, s.tick, s.power) = (v.time, v.tick, v.power)
  pewter : (s.tile t).pewter = (v.tile t).pewter
  marched : ∀ page ∈ (s.tile t).mem.marched, page ∈ (v.tile t).mem.marched

namespace Merges

variable {v s : State} {t : TileRef} {page : Nat}

theorem refl (t : TileRef) (s : State) : Merges t s s := ⟨rfl, rfl, fun _ => id⟩

theorem logs (h : Merges t v s) {u : State} (hu : OnlyLogs s u) : Merges t v u := by
  rw [hu.rest]
  exact { h with }

theorem setMem (h : Merges t v s) {x : List Host.Cell} : Merges t v { s with mem := x } := { h with }

/-- A change of the tile that leaves its Pewter units, and no more pages undefined. -/
theorem modTile_subset (h : Merges t v s) {f : Tile → Tile}
    (hf : ∀ x, (f x).pewter = x.pewter ∧ (f x).mem.marched ⊆ x.mem.marched) : Merges t v (s.modTile t f) where
  rest := h.rest
  pewter := by rw [tile_modTile_same, (hf _).1, h.pewter]
  marched p hmem := by
    rw [tile_modTile_same] at hmem
    exact h.marched p ((hf _).2 hmem)

theorem modTile (h : Merges t v s) {f : Tile → Tile} (hf : ∀ x, ((f x).pewter, (f x).mem.marched) = (x.pewter, x.mem.marched)) :
    Merges t v (s.modTile t f) :=
  h.modTile_subset fun x =>
    have hm : (f x).mem.marched = x.mem.marched := congrArg Prod.snd (hf x)
    ⟨congrArg Prod.fst (hf x), fun _ hp => hm ▸ hp⟩

theorem branch (c : Prop) {dec : Decidable c} {a b : State} (ha : Merges t v a) (hb : Merges t v b) :
    Merges t v (@ite State c dec a b) := by
  split
  · exact ha
  · exact hb

theorem raise (h : Merges t v s) {code : BitVec 16} {unit : BitVec 32} {items : List Word} : Merges t v (s.raise code unit items) :=
  h.logs (OnlyLogs.refl s).raise

theorem pageMoved (h : Merges t v s) {write : Bool} : Merges t v (s.pageMoved t page write) :=
  h.modTile (by intro; rfl)

theorem poisonPage (h : Merges t v s) {kind : Nat} : Merges t v (s.poisonPage t page kind) :=
  branch _ h (h.modTile (by intro; rfl)).raise

theorem correctedPage (h : Merges t v s) {bits : Nat} : Merges t v (s.correctedPage t page bits) :=
  branch _ ((h.modTile (by intro; rfl)).modTile (by intro; rfl)).raise (h.modTile (by intro; rfl))

theorem putPage (h : Merges t v s) {data : List Byte} : Merges t v (s.putPage t page data) :=
  h.setMem.pageMoved.modTile_subset (by intro; exact ⟨rfl, List.filter_subset_self _⟩)

theorem rewritePage (h : Merges t v s) {data : List Byte} : Merges t v (s.rewritePage t page data) :=
  h.setMem.pageMoved.modTile (by intro; rfl)

theorem loseNarrow (h : Merges t v s) : Merges t v (s.loseNarrow t page) :=
  (h.modTile (by intro; rfl) : Merges t v (s.modTile t _)).logs (OnlyLogs.refl _).hostFault

theorem mergeNarrow (h : Merges t v s) {counted : Bool} : Merges t v (s.mergeNarrow t page counted) := by
  unfold State.mergeNarrow
  split
  · exact h
  · refine branch _ h (branch _ (h.putPage.modTile (by intro; rfl)) (branch _ h.loseNarrow ?_))
    split
    · exact h.poisonPage.loseNarrow
    · exact (branch _ h.pageMoved h.pageMoved.correctedPage).rewritePage.modTile (by intro; rfl)

end Merges

/-- The use of a region pair leaves no more than an event (R408). -/
theorem onlyLogs_useRegion (s : State) (t : TileRef) (page : Nat) : OnlyLogs s (s.useRegion t page) :=
  have h := OnlyLogs.refl s
  .branch _ h.setEvents (.branch _ h h.setEvents.raise)

theorem tile_useRegion (s : State) (t u : TileRef) (page : Nat) : (s.useRegion t page).tile u = s.tile u := by
  rw [State.tile, (onlyLogs_useRegion s t page).tiles, State.tile]

theorem mem_useRegion (s : State) (t : TileRef) (page : Nat) : (s.useRegion t page).mem = s.mem := (onlyLogs_useRegion s t page).mem

theorem twin_useRegion (s : State) (t : TileRef) (page : Nat) : (s.useRegion t page).twin = s.twin := by
  rw [(onlyLogs_useRegion s t page).rest]

/-! ### The branches of a page command (R260, R262, R271, R279, R280, R301, R356) -/

/-- An idle bank, its unit in service or its layer's reducer free, is to take a page next. -/
structure TakesPage (s : State) (t : TileRef) (bank : Nat) (q : PewSeq) (page sp : Nat) : Prop where
  up : s.tileUp t = true
  idle : kvFind (s.tile t).pewter.busy bank = none
  reader : (s.tile t).bankUp bank = true ∨ (s.tile t).reducerBusy (bank / 16) = false
  next : (s.tile t).pewter.nextPage bank = some (q, page, sp)

/-- A page that nothing but a held layer or its sequence's vectors keeps from being read. -/
structure Readable (s : State) (t : TileRef) (q : PewSeq) (page sp : Nat) : Prop where
  sound : ¬ ((s.tile t).poisoned sp = true ∨ (s.tile t).pageFailing sp = true)
  agrees : (s.tile t).ilvAgrees (regionOf sp) = true
  settled : ((s.tile t).region (regionOf sp)).init = false
  mirror : q.twinStops s.twin page = false

theorem exec_pewterSlice (s : State) (t : TileRef) (bank : Nat) (e : StoreErr) :
    exec (.pewterSlice t bank e) s = execPewterSlice t bank e s := rfl

section Branches

variable {s : State} {t : TileRef} {bank page sp : Nat} {q : PewSeq} {w : VecSlot} {e : StoreErr}

theorem TakesPage.begins (h : TakesPage s t bank q page sp) :
    (!s.tileUp t || (kvFind (s.tile t).pewter.busy bank).isSome
      || (!(s.tile t).bankUp bank && (s.tile t).reducerBusy (bank / 16))) = false := by
  rcases h.reader with hr | hr <;> simp [h.up, h.idle, hr]

/-- A poisoned page, or one on a failing channel, is not read (R262). -/
theorem exec_pewterSlice_of_poisoned (h : TakesPage s t bank q page sp)
    (hbad : (s.tile t).poisoned sp = true ∨ (s.tile t).pageFailing sp = true) :
    exec (.pewterSlice t bank e) s = .next ((s.useRegion t sp).skipPage t q page) := by
  simp [exec_pewterSlice, execPewterSlice, h.begins, h.next, hbad]

/-- A page of a region that disagrees with its pair stops its sequence (R279). -/
theorem exec_pewterSlice_of_disagreeing (h : TakesPage s t bank q page sp)
    (hbad : ¬ ((s.tile t).poisoned sp = true ∨ (s.tile t).pageFailing sp = true))
    (hagree : ¬ (s.tile t).ilvAgrees (regionOf sp) = true) :
    exec (.pewterSlice t bank e) s = .next ((s.useRegion t sp).stopPage t q page bank St.configMismatch 0) := by
  simp [exec_pewterSlice, execPewterSlice, h.begins, h.next, hbad, hagree]

/-- A page of a region under reinitialisation stops its sequence (R280). -/
theorem exec_pewterSlice_of_init (h : TakesPage s t bank q page sp)
    (hbad : ¬ ((s.tile t).poisoned sp = true ∨ (s.tile t).pageFailing sp = true))
    (hagree : (s.tile t).ilvAgrees (regionOf sp) = true) (hinit : ((s.tile t).region (regionOf sp)).init = true) :
    exec (.pewterSlice t bank e) s = .next ((s.useRegion t sp).stopPage t q page bank St.rejected Rs.notComputable) := by
  simp [exec_pewterSlice, execPewterSlice, h.begins, h.next, hbad, hagree, hinit]

/-- A mirrored page that a resync holds back stops its sequence (R356). -/
theorem exec_pewterSlice_of_mirror (h : TakesPage s t bank q page sp)
    (hbad : ¬ ((s.tile t).poisoned sp = true ∨ (s.tile t).pageFailing sp = true))
    (hagree : (s.tile t).ilvAgrees (regionOf sp) = true) (hinit : ((s.tile t).region (regionOf sp)).init = false)
    (htwin : q.twinStops s.twin page = true) :
    exec (.pewterSlice t bank e) s = .next ((s.useRegion t sp).stopPage t q page bank St.notReady Rs.twinResync) := by
  simp [exec_pewterSlice, execPewterSlice, h.begins, h.next, hbad, hagree, hinit, twin_useRegion, htwin]

/-- The units of a held layer take no page commands (R301). -/
theorem exec_pewterSlice_of_hold (h : TakesPage s t bank q page sp) (hread : Readable s t q page sp)
    (hhold : (s.tile t).mem.hold = some (bank / 16)) : exec (.pewterSlice t bank e) s = .next (s.useRegion t sp) := by
  simp [exec_pewterSlice, execPewterSlice, h.begins, h.next, hread.sound, hread.agrees, hread.settled, twin_useRegion, hread.mirror, hhold]

/-- Any other page is read when the sequence's vectors are there (R261). -/
theorem exec_pewterSlice_of_readable (h : TakesPage s t bank q page sp) (hread : Readable s t q page sp)
    (hhold : (s.tile t).mem.hold ≠ some (bank / 16)) (hvec : kvFind (s.tile t).pewter.vslots q.vslot = some w) :
    exec (.pewterSlice t bank e) s = .next ((s.useRegion t sp).beginSlice t bank q w page sp e) := by
  simp [exec_pewterSlice, execPewterSlice, h.begins, h.next, hread.sound, hread.agrees, hread.settled, twin_useRegion,
    hread.mirror, hhold, hvec]

end Branches

/-! ### What each branch leaves (R261, R262, R267, R273, R279) -/

section Effects

variable {s : State} {t : TileRef} {bank page sp : Nat} {q : PewSeq} {w : VecSlot} {e : StoreErr}

/-- The sequences of a tile once one of an order number has changed. -/
def seqsChanged (l : List PewSeq) (order : Nat) (f : PewSeq → PewSeq) : List PewSeq := l.map fun k => if k.order = order then f k else k

theorem tile_modSeq (s : State) (t : TileRef) (order : Nat) (f : PewSeq → PewSeq) : (s.modSeq t order f).tile t =
    { s.tile t with pewter := { (s.tile t).pewter with seqs := seqsChanged (s.tile t).pewter.seqs order f } } :=
  tile_modTile_same ..

theorem skipPage_spec (s : State) (t : TileRef) (q : PewSeq) (page : Nat) :
    (s.skipPage t q page).mem = s.mem ∧ ((s.skipPage t q page).tile t).pewter.poison = pvDva q.desc page
      ∧ ((s.skipPage t q page).tile t).pewter.seqs = seqsChanged (s.tile t).pewter.seqs q.order fun k => { k with
        todo := k.todo.filter fun e => e.1 ≠ page, nanRows := insertRising (page / fld k.desc 38 15 0) k.nanRows
        status := St.poisoned } := by
  refine ⟨rfl, ?_⟩
  rw [State.skipPage, tile_modTile_same, tile_modSeq]
  exact ⟨rfl, rfl⟩

/-- How far a sequence has come: which pages are to read, and its outcome so far. -/
def progress (k : PewSeq) : Nat × List (Nat × Nat × Nat) × Code × Code := (k.order, k.todo, k.status, k.reason)

theorem progress_seqsChanged (l : List PewSeq) (order : Nat) {f g : PewSeq → PewSeq} (h : ∀ k, progress (f k) = progress (g k)) :
    (seqsChanged l order f).map progress = (seqsChanged l order g).map progress := by
  simp only [seqsChanged, List.map_map]
  refine List.map_congr_left fun k _ => ?_
  simp only [Function.comp_apply, apply_ite progress, h]

theorem stopPage_spec (s : State) (t : TileRef) (q : PewSeq) (page bank : Nat) (st rs : Code) :
    (s.stopPage t q page bank st rs).mem = s.mem
      ∧ ((s.stopPage t q page bank st rs).tile t).pewter.seqs.map progress =
        (seqsChanged (s.tile t).pewter.seqs q.order fun k => { k with
          todo := k.todo.filter fun e => e.1 ≠ page, status := if k.status = St.ok then st else k.status
          reason := if k.status = St.ok then rs else k.reason }).map progress := by
  refine ⟨rfl, ?_⟩
  rw [State.stopPage, tile_modSeq]
  exact progress_seqsChanged _ _ fun _ => rfl

/-- The state in which a bank reads its page: the narrow writes that waited are merged, and the bank may begin (R260, R273, R288). -/
def sliceStart (s : State) (t : TileRef) (bank : Nat) (q : PewSeq) (w : VecSlot) (page sp : Nat) : State :=
  (s.mergeNarrow t sp).advanceTo (s.sliceReady (s.tile t).pewter q w page bank)

/-- How long a bank reads a page of a sequence (R267). -/
def sliceTime (q : PewSeq) : Nat := ceilDiv (7 * pvPageBytes q.desc) 2

/-- A sequence of which a bank reads a page until a time (R261, R262). -/
def slicedSeq (w : VecSlot) (data : List Byte) (page bank fin : Nat) (e : StoreErr) (k : PewSeq) : PewSeq :=
  { (k.reduce w data page bank).spoil w page bank e with todo := k.todo.filter fun e => e.1 ≠ page, lastEnd := max k.lastEnd fin }

/-- The bank is busy with its page, which is reduced into the sequence's sums, and rests after it (R261, R267, R273). -/
theorem beginSlice_of_data {s1 u : State} {bytes : List Byte} {p : Pewter} (hstart : sliceStart s t bank q w page sp = s1)
    (hdata : s1.sliceData t sp = (bytes, s1)) (hp : (s1.tile t).pewter = p) (hu : u = s.beginSlice t bank q w page sp e) :
    u.time = s1.time
      ∧ (u.tile t).pewter.seqs = seqsChanged p.seqs q.order (slicedSeq w bytes page bank (s1.time.now + sliceTime q) e)
      ∧ (u.tile t).pewter.busy = kvPut p.busy bank (sp, s1.time.now + sliceTime q, q.order)
      ∧ (u.tile t).pewter.rests = if s1.sliceShare (sliceTime q) ≤ sliceTime q then p.rests
          else kvPut p.rests bank (s1.time.now + s1.sliceShare (sliceTime q)) := by
  unfold State.beginSlice at hu
  extract_lets r1 time fin data r2 r3 r4 at hu
  have hr1 : r1 = s1 := hstart
  clear_value r1
  subst hr1
  have hread : data = (bytes, r1) := hdata
  clear_value data
  subst hread
  have hr2 : r2.time = r1.time ∧ (r2.tile t).pewter = { p with seqs := seqsChanged p.seqs q.order (slicedSeq w bytes page bank fin e) } :=
    ⟨rfl, hp ▸ congrArg Tile.pewter (tile_modSeq ..)⟩
  have hr3 : r3.time = r1.time ∧ (r3.tile t).pewter = { (r2.tile t).pewter with
      vslots := kvPut (r2.tile t).pewter.vslots q.vslot (w.mark q page bank e)
      busy := kvPut (r2.tile t).pewter.busy bank (sp, fin, q.order)
      rests := if r1.sliceShare time ≤ time then (r2.tile t).pewter.rests
        else kvPut (r2.tile t).pewter.rests bank (r1.time.now + r1.sliceShare time) } :=
    ⟨rfl, congrArg Tile.pewter (tile_modTile_same ..)⟩
  clear_value r3
  have hr4 : r4.time = r3.time ∧ ∃ pages fallback,
      (r4.tile t).pewter = { (r3.tile t).pewter with pages := pages, fallback := fallback } := by
    unfold r4
    split
    · refine ⟨rfl, (r3.tile t).pewter.pages + 1, (r3.tile t).pewter.fallback, ?_⟩
      exact congrArg Tile.pewter (tile_modTile_same ..)
    · refine ⟨rfl, (r3.tile t).pewter.pages, (r3.tile t).pewter.fallback + 1, (congrArg Tile.pewter (tile_modTile_same ..)).trans ?_⟩
      rw [State.pageMoved, tile_modTile_same]
      rfl
  obtain ⟨htime, pages, fallback, hpewter⟩ := hr4
  have hnote : (u.tile t).pewter = (r4.tile t).pewter := by rw [hu, tile_modTile_same]; rfl
  rw [hnote, hpewter, hr3.2, hr2.2, hu]
  exact ⟨htime.trans hr3.1, rfl, rfl, rfl⟩

theorem marched_sliceStart (h : (s.tile t).mem.marched.contains sp = false) :
    ((sliceStart s t bank q w page sp).tile t).mem.marched.contains sp = false := by
  rw [sliceStart, tile_advanceTo]
  refine Bool.eq_false_iff.2 fun hin => Bool.eq_false_iff.1 h (List.contains_iff_mem.2 ?_)
  exact (Merges.refl t s).mergeNarrow.marched sp (List.contains_iff_mem.1 hin)

theorem pewter_sliceStart : ((sliceStart s t bank q w page sp).tile t).pewter = (s.tile t).pewter := by
  rw [sliceStart, tile_advanceTo]
  exact (Merges.refl t s).mergeNarrow.pewter

/-- A segment cannot be read in a layer's store when it holds a column lost in every store or in this one (R258, R262). -/
theorem badSegment_iff (k : PewSeq) (w : VecSlot) (page bank : Nat) :
    let segment := page % fld k.desc 38 15 0
    let inSegment := fun (c : Nat) => segment * pvKs k.desc ≤ c ∧ c < (segment + 1) * pvKs k.desc
    k.badSegment w page bank = true ↔ (∃ c ∈ w.bad, inSegment c) ∨ ∃ e ∈ w.badAt, e.1 = bank / 16 ∧ inSegment e.2 := by
  intro segment inSegment
  simp only [PewSeq.badSegment, List.any_append, Bool.or_eq_true, List.any_eq_true, List.mem_map, List.mem_filter, decide_eq_true_eq,
    Bool.and_eq_true]
  constructor
  · rintro (h | ⟨c, ⟨e, ⟨he, hlayer⟩, rfl⟩, hc⟩)
    · exact .inl h
    · exact .inr ⟨e, he, hlayer, hc⟩
  · rintro (h | ⟨e, he, hlayer, hc⟩)
    · exact .inl h
    · exact .inr ⟨e.2, ⟨e, ⟨he, hlayer⟩, rfl⟩, hc⟩

/-- What the errors that a slice meets make of its sequence: the row is lost with the vector's segment, one result with its entry (R262). -/
theorem spoil_eq (z : PewSeq) (w : VecSlot) (page bank : Nat) (e : StoreErr) {hit : Prop} [Decidable hit]
    (hhit : hit ↔ e.bad = some 0 ∨ z.badSegment w page bank = true) :
    z.spoil w page bank e = { z with
      nanRows := if hit then insertRising (page / fld z.desc 38 15 0) z.nanRows else z.nanRows
      status := if hit ∨ e.bad.isSome = true then St.poisoned else z.status
      sums := match e.bad with
        | some (v + 1) => kvPut z.sums (sumKey bank (page / fld z.desc 38 15 0) v) 0x7FC00000
        | _ => z.sums } := by
  unfold PewSeq.spoil
  by_cases hb : z.badSegment w page bank = true
  · obtain ⟨n, _ | _ | v⟩ := e <;> simp [hhit, hb]
  · obtain ⟨n, _ | _ | v⟩ := e <;> simp [hhit, hb]

theorem slicedSeq_eq (w : VecSlot) (data : List Byte) (page bank fin : Nat) (e : StoreErr) (k : PewSeq) {hit : Prop} [Decidable hit]
    (hhit : hit ↔ e.bad = some 0 ∨ k.badSegment w page bank = true) :
    slicedSeq w data page bank fin e k = { k.reduce w data page bank with
      nanRows := if hit then insertRising (page / fld k.desc 38 15 0) k.nanRows else k.nanRows
      status := if hit ∨ e.bad.isSome = true then St.poisoned else k.status
      sums := match e.bad with
        | some (v + 1) => kvPut (k.reduce w data page bank).sums (sumKey bank (page / fld k.desc 38 15 0) v) 0x7FC00000
        | _ => (k.reduce w data page bank).sums
      todo := k.todo.filter fun e => e.1 ≠ page, lastEnd := max k.lastEnd fin } := by
  unfold slicedSeq
  rw [spoil_eq (k.reduce w data page bank) w page bank e hhit]
  rfl

/-- What a bank leaves of the tile and the clock when it takes up a readable page. -/
theorem useRegion_beginSlice_spec {s1 u : State} {p : Pewter} (hp : (s.tile t).pewter = p)
    (hs1 : ((s.useRegion t sp).mergeNarrow t sp).advanceTo (s.sliceReady p q w page bank) = s1)
    (hu : u = (s.useRegion t sp).beginSlice t bank q w page sp e) (hmarched : (s.tile t).mem.marched.contains sp = false) :
    u.time = s1.time
      ∧ (u.tile t).pewter.seqs = seqsChanged p.seqs q.order
          (slicedSeq w (cellRead s1.mem (pageAddr t sp) pageSize) page bank (s1.time.now + sliceTime q) e)
      ∧ (u.tile t).pewter.busy = kvPut p.busy bank (sp, s1.time.now + sliceTime q, q.order)
      ∧ (u.tile t).pewter.rests = if s1.sliceShare (sliceTime q) ≤ sliceTime q then p.rests
          else kvPut p.rests bank (s1.time.now + s1.sliceShare (sliceTime q)) := by
  have htile : (s.useRegion t sp).tile t = s.tile t := tile_useRegion ..
  have hready : (s.useRegion t sp).sliceReady p q w page bank = s.sliceReady p q w page bank := by
    simp only [State.sliceReady, State.paced, (onlyLogs_useRegion s t sp).tick]
  have hstart : sliceStart (s.useRegion t sp) t bank q w page sp = s1 := by rw [sliceStart, htile, hp, hready, hs1]
  have hpewter : (s1.tile t).pewter = p := by
    rw [← hstart, pewter_sliceStart, htile, hp]
  have hdata : s1.sliceData t sp = (cellRead s1.mem (pageAddr t sp) pageSize, s1) := by
    have hnot : (s1.tile t).mem.marched.contains sp = false := by
      rw [← hstart]
      exact marched_sliceStart (by rwa [htile])
    exact if_neg (Bool.eq_false_iff.1 hnot)
  exact beginSlice_of_data hstart hdata hpewter hu

end Effects

end Sys2Proof.Proofs
end

section
/-! The end of a Pewter slice and sequence (R262, R267, R268), and FENCE (R148, R263 to R266). -/

namespace Sys2Proof.Proofs

open Sys2Proof Sys2Proof.Machine Sys2Proof.Laws Sys2Proof.Safety

/-! ### The boundary of a slice (R267, R268) -/

theorem exec_pewterSliceEnd {s : State} {t : TileRef} {bank : Nat} {b : Nat × Nat × Nat}
    (hbusy : kvFind (s.tile t).pewter.busy bank = some b) (hrun : s.clocksRun = true) :
    exec (.pewterSliceEnd t bank) s = .next ((s.advanceTo b.2.1).modTile t fun x => { x with pewter := { x.pewter with
      busy := kvErase x.pewter.busy bank, deferred := x.pewter.deferred.filter (· ≠ bank) } }) := by
  have hexec : exec (.pewterSliceEnd t bank) s = execPewterSliceEnd t bank s := rfl
  simp [hexec, execPewterSliceEnd, hbusy, hrun]

/-! ### The end of a sequence (R259, R262) -/

section Complete

variable {s : State} {t : TileRef} {tag : Nat} {q : PewSeq} {d : DescSlot}

theorem exec_pewterSequenceComplete (hup : s.tileUp t = true)
    (hfind : ((s.tile t).pewter.seqs.find? fun q => q.tag = tag && !q.done && (s.tile t).pewter.readThrough q) = some q) :
    exec (.pewterSequenceComplete t tag) s = .next (s.endSequence t q) := by
  have hexec : exec (.pewterSequenceComplete t tag) s = execPewterSequenceComplete t tag s := rfl
  simp only [hexec, execPewterSequenceComplete, hfind, if_pos hup]

theorem OnlyWork.pewter {x y : Tile} (h : OnlyWork x y) : y.pewter = x.pewter := by rw [h.rest]

/-- A sequence ends at its time: its slot finishes with its outcome, and it waits for its fence or, with nothing to fence, is gone. -/
theorem endSequence_spec (hslot : (s.tile t).slot q.slot = some d) :
    (s.endSequence t q).time.now = max s.time.now (s.sequenceEnd q)
      ∧ ((s.endSequence t q).tile t).slot q.slot = some { d with ph := .finished, result := outc q.status q.reason }
      ∧ ((s.endSequence t q).tile t).pewter.seqs = ((s.tile t).pewter.seqs.map fun k => if k.order = q.order then { k with
          done := true, status := (s.asCompleted (outc q.status q.reason)).status } else k).filter
        fun k => k.order ≠ q.order || k.half.isSome := by
  have hcompleted (o : Outc) : (s.advanceTo (s.sequenceEnd q)).asCompleted o = s.asCompleted o := by
    rw [advanceTo_eq]
    rfl
  refine ⟨?_, ?_, ?_⟩
  · exact advanceTo_now ..
  · refine slot_finishSlot ?_ _
    rw [tile_modTile_same, tile_advanceTo]
    exact hslot
  · unfold State.endSequence
    rw [(OnlyWork.finishSlot ..).pewter, tile_modTile_same, tile_advanceTo, hcompleted]

end Complete

/-! ### One sequence of a fence (R148, R265) -/

/-- The accesses of the fence of one sequence: its results, and a free value for a destination word that cannot be read. -/
def fencePut (t : TileRef) (env : Env) (q : PewSeq) (k : StoreErr) : M Unit := do
  putResults env q
  M.upd fun s => s.countStore t k
  if k.bad.isSome then wsWrite t (k.bad.getD 0) (← freeBytes 4)

section FenceOne

variable {s r w : State} {t : TileRef} {i : Nat} {env : Env} {q : PewSeq} {d : DescSlot} {e k : StoreErr}

/-- What is made of a tile whose fence has met something in the work store: the count, and at most the four bytes of one word. -/
theorem fencePut_result (hr : (putResults env q).result s = (.ok (), r)) :
    ∃ w, (fencePut t env q k).result s = (.ok (), w) ∧ w.mem = r.mem
      ∧ (∃ ws activity, w.tile t = { eccCounted k (r.tile t) with ws := ws, activity := activity })
      ∧ (k.bad = none → (w.tile t).ws = (r.tile t).ws)
      ∧ ∀ a, k.bad = some a → ∀ b, b < a ∨ a + 4 ≤ b → cellGet (w.tile t).ws b = cellGet (r.tile t).ws b := by
  have htile := tile_countStore r t k
  have hmem := (ran_countStore r t k).mem
  have hput : (fencePut t env q k).result s = M.result (if k.bad.isSome then do wsWrite t (k.bad.getD 0) (← freeBytes 4) else pure ())
      (r.countStore t k) := result_bind_ok hr
  have hws : ((r.countStore t k).tile t).ws = (r.tile t).ws := by rw [htile]; rfl
  cases hbad : k.bad with
  | none =>
    rw [hbad] at hput
    exact ⟨_, hput, hmem, ⟨_, _, htile⟩, fun _ => hws, fun _ h => nomatch h⟩
  | some a =>
    rw [hbad] at hput
    let v : State := { r.countStore t k with free := (r.countStore t k).free + 4 }
    let bytes := (List.range 4).map fun j => BitVec.ofNat 8 (Config.freeBits 8 ((r.countStore t k).free + j))
    let w := v.modTile t fun x => { x.act 10 bytes.length with ws := cellWrite x.ws a bytes }
    have hw : w.tile t = { ((r.countStore t k).tile t).act 10 bytes.length with
      ws := cellWrite ((r.countStore t k).tile t).ws a bytes } := tile_modTile_same ..
    refine ⟨w, hput, hmem, ⟨_, _, by rw [hw, htile]; rfl⟩, (nomatch ·), fun c hc b hb => ?_⟩
    cases hc
    rw [hw, hws]
    exact (cellGet_write ..).trans (byteAfter_outside hb _)

/-- The outcome of a sequence's fence (R148, R266). -/
def fencedOutc (q : PewSeq) (k : StoreErr) : Outc := if k.bad.isSome then outc St.poisoned 0 else outc q.status q.reason

/-- The slot of a fence that has noted a sequence's outcome. -/
def fencedSlot (d : DescSlot) (ready : Nat) (o : Outc) : DescSlot :=
  { d with ph := .running, readyAt := ready, members := d.members ++ [{ unit := 0, pos := d.members.length, report := some o }] }

/-- The fence of a sequence whose results could be written frees its half, and notes its outcome with the slot (R264 to R266). -/
theorem fenceOne_spec (hq : q.status ≠ St.aborted) (hput : (fencePut t env q (q.found e)).result s = (.ok (), w))
    (hslot : (w.tile t).slot i = some d) :
    (s.fenceOne t i env e q).mem = w.mem ∧ ∃ ready, (s.fenceOne t i env e q).tile t =
      ({ w.tile t with pewter := { (w.tile t).pewter with
          seqs := (w.tile t).pewter.seqs.filter fun k => k.order ≠ q.order } } : Tile).setSlot i
        (fencedSlot d ready (fencedOutc q (q.found e))) := by
  obtain ⟨u, hu⟩ : ∃ u, u = s.fenceOne t i env e q := ⟨_, rfl⟩
  rw [← hu]
  unfold State.fenceOne at hu
  extract_lets k put r o w' freed at hu
  have hr : r = (.ok (), w) := (if_neg hq).trans hput
  clear_value r
  subst hr hu
  have hfreed : freed.tile t = { w.tile t with pewter := { (w.tile t).pewter with
      seqs := (w.tile t).pewter.seqs.filter fun k => k.order ≠ q.order } } := tile_modTile_same ..
  have hslot' : (freed.tile t).slot i = some d := by
    rw [hfreed]
    exact hslot
  refine ⟨rfl, max (max d.readyAt d.dispatchAt) (freed.sequenceEnd q) + freed.paced (freed.fenceTime t q), ?_⟩
  rw [tile_modSlot hslot', hfreed]
  rfl

end FenceOne

/-! ### FENCE (R263 to R266) -/

section Fence

variable {s r : State} {t : TileRef} {i : Nat} {d f : DescSlot} {e : StoreErr} {q : PewSeq}

/-- The sequences that a fence covers (R264). -/
def fenceCovers (d : DescSlot) (q : PewSeq) : Bool := q.half.isSome && q.order < d.order && (fld d.desc 16 15 0).testBit q.tag

/-- A fence that may run: its slot, in its queue, of a tile in service. -/
structure FenceReady (s : State) (t : TileRef) (i : Nat) (d : DescSlot) : Prop where
  up : s.tileUp t = true
  slot : (s.tile t).slot i = some d
  opcode : dOpcode d.desc = 0x41
  fresh : d.applied = false
  queued : d.ph = .queued

theorem exec_fence (s : State) (t : TileRef) (i : Nat) (e : StoreErr) : exec (.fence t i e) s = execFence t i e s := rfl

theorem exec_fence_waits (h : FenceReady s t i d)
    (hall : s.fenceAll t i (fld d.desc 16 15 0) d.order (d.env t i) e 3 = (r, false)) : exec (.fence t i e) s = .next r := by
  simp [exec_fence, execFence, h.slot, h.up, h.opcode, h.fresh, h.queued, hall]

theorem exec_fence_ends (h : FenceReady s t i d)
    (hall : s.fenceAll t i (fld d.desc 16 15 0) d.order (d.env t i) e 3 = (r, true)) (hslot : (r.tile t).slot i = some f) :
    exec (.fence t i e) s =
      .next (r.conclude t i { outc := fenceOutcome f, endAt := some (max f.readyAt s.time.now) }) := by
  simp [exec_fence, execFence, h.slot, h.up, h.opcode, h.fresh, h.queued, hall, hslot]

theorem fenceAll_none {env : Env} {n : Nat} (hfind : (s.tile t).pewter.seqs.find? (fenceCovers d) = none) :
    s.fenceAll t i (fld d.desc 16 15 0) d.order env e (n + 1) = (s, !(s.tile t).coveredWaiting (fld d.desc 16 15 0) d.order) := by
  have hfind' : ((s.tile t).pewter.seqs.find? fun q =>
      q.half.isSome && q.order < d.order && (fld d.desc 16 15 0).testBit q.tag) = none := hfind
  simp only [State.fenceAll, hfind']

theorem fenceAll_some {env : Env} {n : Nat} (hfind : (s.tile t).pewter.seqs.find? (fenceCovers d) = some q) :
    s.fenceAll t i (fld d.desc 16 15 0) d.order env e (n + 1) =
      if q.done then (s.fenceOne t i env e q).fenceAll t i (fld d.desc 16 15 0) d.order env (q.leaves e) n else (s, false) := by
  have hfind' : ((s.tile t).pewter.seqs.find? fun q =>
      q.half.isSome && q.order < d.order && (fld d.desc 16 15 0).testBit q.tag) = some q := hfind
  simp only [State.fenceAll, hfind']

/-- A fence that covers nothing finishes OK, FENCE_EMPTY (R264, R266). -/
theorem fence_empty (h : FenceReady s t i d) (hq : Quiet d) (hwaits : d.waits = []) (hmembers : d.members = [])
    (hfind : (s.tile t).pewter.seqs.find? (fenceCovers d) = none)
    (hnone : (s.tile t).coveredWaiting (fld d.desc 16 15 0) d.order = false) :
    ∃ u, exec (.fence t i e) s = .next u
      ∧ Finished u t i d (outc St.ok Rs.fenceEmpty) (max d.readyAt s.time.now) ((s.tile t).engineStart d + s.pauseOf 0) := by
  have hall := fenceAll_none (i := i) (e := e) (env := d.env t i) (n := 2) hfind
  rw [hnone] at hall
  refine ⟨_, exec_fence_ends h hall h.slot, ?_⟩
  have hfin := finished_conclude h.slot hq hwaits { outc := fenceOutcome d, endAt := some (max d.readyAt s.time.now) }
  rw [workEnd_of_cycles rfl rfl rfl, inCore_zero] at hfin
  simpa [fenceOutcome, hmembers, cc] using hfin

/-- The outcome of a fence of one sequence has that sequence's status, where it is OK or a failure (R84, R266). -/
theorem status_combine_one {o : Outc} (h : o.status = St.ok ∨ o.status = St.poisoned) : (combine 1 [(0, o)]).status = o.status := by
  obtain ⟨st, rs, map⟩ := o
  rcases h with h | h <;> cases h <;> rfl

/-- What the fence of the one sequence there is leaves, from `s` and, once its results are written, `r`: the sequence is gone, and what the
work store's code found is counted and, where a destination word was lost, made of that word alone. -/
structure FencedAll (t : TileRef) (k : StoreErr) (s r u : State) : Prop where
  mem : u.mem = r.mem
  seqs : (u.tile t).pewter.seqs = []
  corrected : (u.tile t).eccCorrected = (s.tile t).eccCorrected + BitVec.ofNat 32 k.corrected
  uncorrected : (u.tile t).eccUncorrected = if k.bad.isSome then (s.tile t).eccUncorrected + 1 else (s.tile t).eccUncorrected
  kept : k.bad = none → (u.tile t).ws = (r.tile t).ws
  word : ∀ a, k.bad = some a → ∀ b, b < a ∨ a + 4 ≤ b → cellGet (u.tile t).ws b = cellGet (r.tile t).ws b

/-- The end of the engine's work adds nothing to it. -/
theorem FencedAll.work {k : StoreErr} {u w : State} (h : FencedAll t k s r u) (hmem : w.mem = u.mem)
    (hwork : OnlyWork (u.tile t) (w.tile t)) :
    FencedAll t k s r w where
  mem := hmem.trans h.mem
  seqs := by rw [hwork.pewter, h.seqs]
  corrected := hwork.eccCorrected.trans h.corrected
  uncorrected := hwork.eccUncorrected.trans h.uncorrected
  kept hbad := hwork.ws.trans (h.kept hbad)
  word a hbad b hb := by rw [hwork.ws, h.word a hbad b hb]

/-- The one sequence there is, covered and completed: its results are written, and the fence has nothing left to cover. -/
theorem fenceAll_single (h : FenceReady s t i d) (hseqs : (s.tile t).pewter.seqs = [q]) (hcovers : fenceCovers d q = true)
    (hdone : q.done = true) (hok : q.status = St.ok) (hqueue : (s.tile t).queue_ 7 = [i])
    (hput : (putResults (d.env t i) q).result s = (.ok (), r))
    (hr : r.tile t = { s.tile t with
      ws := (r.tile t).ws, activity := (r.tile t).activity, xlt := (r.tile t).xlt, counters := (r.tile t).counters }) :
    ∃ v ready, s.fenceAll t i (fld d.desc 16 15 0) d.order (d.env t i) e 3 = (v, true)
      ∧ (v.tile t).slot i = some (fencedSlot d ready (fencedOutc q (q.found e))) ∧ FencedAll t (q.found e) s r v := by
  obtain ⟨w, hw, hmem, ⟨ws, activity, htile⟩, hnone, hsome⟩ := fencePut_result (k := q.found e) hput
  have hslot : (w.tile t).slot i = some d := by
    rw [htile, hr]
    exact h.slot
  obtain ⟨hmem1, ready, htile1⟩ := fenceOne_spec (e := e) (by rw [hok]; decide) hw hslot
  have hall : s.fenceAll t i (fld d.desc 16 15 0) d.order (d.env t i) e 3 =
      (s.fenceOne t i (d.env t i) e q).fenceAll t i (fld d.desc 16 15 0) d.order (d.env t i) (q.leaves e) 2 := by
    rw [fenceAll_some (q := q) (by simp [hseqs, hcovers]), if_pos hdone]
  generalize s.fenceOne t i (d.env t i) e q = v at *
  have hslot1 : (v.tile t).slot i = some (fencedSlot d ready (fencedOutc q (q.found e))) := by
    rw [htile1]
    exact slot_setSlot_same ..
  have hqueue1 : (v.tile t).queue_ 7 = [i] := by
    rw [htile1, htile, hr]
    exact hqueue
  have hseqs1 : (v.tile t).pewter.seqs = [] := by
    rw [htile1, htile, hr]
    change (s.tile t).pewter.seqs.filter (fun k => k.order ≠ q.order) = []
    simp [hseqs]
  have hleft : (v.tile t).coveredWaiting (fld d.desc 16 15 0) d.order = false := by
    simp [Tile.coveredWaiting, hqueue1, hslot1, fencedSlot, h.opcode]
  have hws : (v.tile t).ws = (w.tile t).ws := by rw [htile1]; rfl
  refine ⟨v, ready, ?_, hslot1, hmem1.trans hmem, hseqs1, ?_, ?_, fun hbad => hws.trans (hnone hbad), fun a hbad b hb => ?_⟩
  · rw [hall, fenceAll_none (by rw [hseqs1]; rfl), hleft]
    rfl
  · rw [htile1, htile, hr]
    rfl
  · rw [htile1, htile, hr]
    rfl
  · rw [hws, hsome a hbad b hb]

/-- A fence of the one sequence there is ends with that sequence's status, or POISONED for a lost word. -/
theorem fence_single (h : FenceReady s t i d) (hq : Quiet d) (hwaits : d.waits = []) (hmembers : d.members = [])
    (hseqs : (s.tile t).pewter.seqs = [q]) (hcovers : fenceCovers d q = true) (hdone : q.done = true) (hok : q.status = St.ok)
    (hqueue : (s.tile t).queue_ 7 = [i]) (hput : (putResults (d.env t i) q).result s = (.ok (), r))
    (hr : r.tile t = { s.tile t with
      ws := (r.tile t).ws, activity := (r.tile t).activity, xlt := (r.tile t).xlt, counters := (r.tile t).counters }) :
    ∃ u z, exec (.fence t i e) s = .next u ∧ (u.tile t).slot i = some z ∧ z.ph = .finished
      ∧ z.result.status = (if (q.found e).bad.isSome then St.poisoned else St.ok) ∧ FencedAll t (q.found e) s r u := by
  obtain ⟨v, ready, hall, hslot, hfenced⟩ := fenceAll_single (e := e) h hseqs hcovers hdone hok hqueue hput hr
  have hquiet : Quiet (fencedSlot d ready (fencedOutc q (q.found e))) := hq
  refine ⟨_, _, exec_fence_ends h hall hslot, finished_conclude hslot hquiet hwaits _, rfl, ?_,
    hfenced.work (mem_of_tilesAndTime (conclude_tilesAndTime hslot hquiet hwaits _)) (onlyWork_conclude hslot hquiet hwaits _)⟩
  have houtc : fenceOutcome (fencedSlot d ready (fencedOutc q (q.found e))) = combine 1 [(0, fencedOutc q (q.found e))] := by
    simp [fenceOutcome, fencedSlot, hmembers]
  have hstatus : (fencedOutc q (q.found e)).status = if (q.found e).bad.isSome then St.poisoned else St.ok := by
    unfold fencedOutc
    split
    · rfl
    · exact hok
  rw [← hstatus, houtc]
  refine status_combine_one ?_
  rw [hstatus]
  split
  · exact .inr rfl
  · exact .inl rfl

/-- A fence adds to a word of the work store where it writes a result (R148, R265). -/
def addsTo (q : PewSeq) (a : Nat) : Prop :=
  (pvOutWs q.desc = true ∧ pvAdd q.desc = true) ∧ ∃ n < pvRows q.desc, ∃ v < pvV q.desc, a = fld q.desc 24 63 0 + pvOut q.desc n v

theorem corrected_found (hok : q.status = St.ok) (e : StoreErr) :
    (q.found e).corrected = if pvOutWs q.desc = true ∧ pvAdd q.desc = true then e.corrected else 0 := by
  have hne : q.status ≠ St.aborted := by rw [hok]; decide
  simp only [PewSeq.found, hne, ne_eq, not_false_eq_true, decide_true, Bool.true_and, Bool.and_eq_true]
  split <;> rfl

theorem bad_found_iff (hok : q.status = St.ok) (e : StoreErr) (a : Nat) : (q.found e).bad = some a ↔ e.bad = some a ∧ addsTo q a := by
  have hne : q.status ≠ St.aborted := by rw [hok]; decide
  simp only [PewSeq.found, hne, ne_eq, not_false_eq_true, decide_true, Bool.true_and, Bool.and_eq_true, addsTo]
  split
  · next h => simp [Option.filter_eq_some_iff, h, List.any_eq_true]
  · next h => simp [h]

end Fence

end Sys2Proof.Proofs
end

section
/-! Pewter sequences from their queue to their fence (R148, R256 to R267, R271, R273, R279, R280, R301): O38. -/

namespace Sys2Proof.Proofs

open Sys2Proof Sys2Proof.Machine Sys2Proof.Laws Sys2Proof.Safety

/-- Settles O38: each arm is the spec lemma of its instruction; a slice turns on what the narrow writes ahead of it leave of the tile's
Pewter units, a fence on what the word it lost leaves of the others. -/
theorem pewterSequencesRunSliceBySlice : Obligations.PewterSequencesRunSliceBySlice := by
  unfold Obligations.PewterSequencesRunSliceBySlice
  intro s t i hup x
  refine ⟨?_, ?_, ?_, ?_, ?_, ?_⟩
  · intro d hslot hop hph hwait hown hkey hdown hroom
    have hexec := exec_pewterMv hslot hop
    rw [dispatch_pewter hup hslot hph hwait hown hkey hdown hroom] at hexec
    obtain ⟨hqueue, hqueued⟩ := queueSlot_pewter s t i d
    exact ⟨_, hexec, hqueue, rfl, hqueued⟩
  · intro k d hhead hslot e
    refine ⟨fun hmay => exec_pewterSequenceStart_waits hhead hmay, fun r q hmay hr => ?_, fun c q hmay hr hy => ?_⟩
    · intro y hy
      have htile := tile_started hy r.1 r.2.1 r.2.2 e
      refine ⟨_, exec_pewterSequenceStart_ok hup hhead hmay hr, ?_⟩
      rw [htile]
      cases hload : pvLoad d.desc with
      | true => exact ⟨slot_startedTile .., rfl, if_pos hload, fun _ => ⟨rfl, fun hbad => if_pos hbad⟩⟩
      | false => exact ⟨slot_startedTile .., rfl, if_neg (Bool.eq_false_iff.1 hload), (nomatch ·)⟩
    · refine ⟨_, exec_pewterSequenceStart_error hup hhead hmay hr, slot_finishSlot ?_ _⟩
      rw [slot_recordFault]
      exact hy
  · intro e bank q page sp hidle hnext hreader seqs bad agrees stops
    have htakes : TakesPage s t bank q page sp := ⟨hup, hidle, hreader, hnext⟩
    have hstops (st rs : Code) (h : exec (.pewterSlice t bank e) s = .next ((s.useRegion t sp).stopPage t q page bank st rs)) :
        stops st rs := by
      obtain ⟨hmem, hseqs⟩ := stopPage_spec (s.useRegion t sp) t q page bank st rs
      rw [tile_useRegion] at hseqs
      exact ⟨_, h, hmem.trans (mem_useRegion ..), hseqs⟩
    refine ⟨fun hbad => ?_, fun hbad hagree => hstops _ _ (exec_pewterSlice_of_disagreeing htakes hbad hagree),
      fun hbad hagree hinit => hstops _ _ (exec_pewterSlice_of_init htakes hbad hagree hinit),
      fun hbad hagree hinit htwin => hstops _ _ (exec_pewterSlice_of_mirror htakes hbad hagree hinit htwin),
      fun hbad hagree hinit htwin hhold => exec_pewterSlice_of_hold htakes ⟨hbad, hagree, hinit, htwin⟩ hhold, ?_⟩
    · obtain ⟨hmem, hpoison, hseqs⟩ := skipPage_spec (s.useRegion t sp) t q page
      rw [tile_useRegion] at hseqs
      exact ⟨_, exec_pewterSlice_of_poisoned htakes hbad, hmem.trans (mem_useRegion ..), hpoison, hseqs⟩
    · intro w hbad hagree hinit htwin hhold hmarched hvec s1 time fin
      obtain ⟨htime, hseqs, hbusy, hrests⟩ := useRegion_beginSlice_spec (s1 := s1) (e := e) rfl rfl rfl hmarched
      clear_value s1
      refine ⟨_, exec_pewterSlice_of_readable htakes ⟨hbad, hagree, hinit, htwin⟩ hhold hvec, congrArg TimeState.now htime, ?_, ?_, ?_⟩
      · rw [hbusy]
        exact kvFind_kvPut_same ..
      · rw [hrests]
        change kvGet (if s1.sliceShare time ≤ time then x.pewter.rests else _) bank 0 = _
        rw [apply_ite (kvGet · bank 0), kvGet_kvPut_same]
        rfl
      · rw [hseqs]
        refine List.map_congr_left fun k _ => ?_
        split
        · exact slicedSeq_eq w _ page bank _ e k (or_congr_right (badSegment_iff k w page bank).symm)
        · rfl
  · intro bank b hbusy hrun
    refine ⟨_, exec_pewterSliceEnd hbusy hrun, advanceTo_now .., ?_, ?_⟩
    · rw [tile_modTile_same]
      exact (kvFind_kvErase ..).trans (if_pos rfl)
    · rw [tile_modTile_same]
      simp
  · intro tag q d hfind hslot
    exact ⟨_, exec_pewterSequenceComplete hup hfind, endSequence_spec hslot⟩
  · intro d hslot hop hfresh hph hq hwaits hmembers covers e
    have hready : FenceReady s t i d := ⟨hup, hslot, hop, hfresh, hph⟩
    refine ⟨fun hnone hleft => fence_empty hready hq hwaits hmembers hnone hleft, fun q hfind hdone => ?_, ?_⟩
    · refine exec_fence_waits hready ((fenceAll_some hfind).trans ?_)
      rw [hdone]
      rfl
    · intro q r hseqs hcovers hdone hok hqueue hput hr
      obtain ⟨u, z, hexec, hz, hfinished, hstatus, hfenced⟩ :=
        fence_single (e := e) hready hq hwaits hmembers hseqs hcovers hdone hok hqueue hput hr
      refine ⟨u, z, hexec, hfenced.mem, hfenced.seqs, hz, hfinished, ?_⟩
      intro reads meets
      have hmeets (a : Nat) : (q.found e).bad = some a ↔ e.bad = some a ∧ meets a := bad_found_iff hok e a
      have hcorrected := hfenced.corrected
      rw [corrected_found hok] at hcorrected
      refine ⟨?_, fun hnone => ?_, fun a hbad hmeet => ?_⟩
      · rw [hcorrected, apply_ite (BitVec.ofNat 32)]
        rfl
      · have hbad : (q.found e).bad = none := Option.eq_none_iff_forall_ne_some.2 fun a ha => hnone ⟨a, (hmeets a).1 ha⟩
        rw [hbad] at hstatus
        exact ⟨hstatus, hfenced.kept hbad, by rw [hfenced.uncorrected, hbad]; rfl⟩
      · have hbad' : (q.found e).bad = some a := (hmeets a).2 ⟨hbad, hmeet⟩
        rw [hbad'] at hstatus
        exact ⟨hstatus, by rw [hfenced.uncorrected, hbad']; rfl, hfenced.word a hbad'⟩

end Sys2Proof.Proofs
end

section
/-! O39 refuted: the trap of a code fetch from a failing page ends the tile's plan, whose completion log (R128) may lie in a page that MARCH
left undefined, and writing that log finds the page's verdict uncorrectable and sets its poison bit (R292, R301). -/

namespace Sys2Proof.Proofs

open Sys2Proof Sys2Proof.Machine Sys2Proof.Laws Sys2Proof.Safety

/-- The first code page of a slice that is not degraded: layer 0. -/
def failingCodePage : Nat := 1044480

/-- A tile whose running plan has one descriptor left, layer 0 failing, and the log buffer in page 16, of layer 1, as MARCH left it. -/
def trappingTile : Tile :=
  { unit := .ready, running := some { step := 0, job := 0, descs := [1], energyUj := 0 }, cplBase := 32768
    mem := { channels := [(0, { state := 2 })], marched := [16] } }

/-- A running package with that tile. -/
def undefinedLogPage : State :=
  { State.reset with
    bu := { State.reset.bu with powered := true, good := true, s0 := true, done := 13, ready := true }
    units := { State.reset.units with stackSt := [(0, (.ready, 0))] }
    tiles := [(0, trappingTile)] }

/-- The poisoned pages of tile 0 after an answer. -/
def poisonAfter : Host.Outcome State Fault Refusal → List Nat
  | .next u => (u.tile 0).mem.poison
  | _ => []

theorem undefinedLogPage_poisons :
    poisonAfter (exec (.pageVerdict 0 failingCodePage 9 .clean) undefinedLogPage) = [16] := by decide +kernel

/-- Refutes O39: PAGE_VERDICT of a code fetch from a failing page poisons page 16 where the statement asks that the poison bits stay. The
statement lacks a premise that no plan runs whose completion log lies in an undefined page. -/
theorem not_stackMemoryActsOnItsVerdicts : ¬ Obligations.StackMemoryActsOnItsVerdicts := by
  unfold Obligations.StackMemoryActsOnItsVerdicts
  intro h
  obtain ⟨-, hfailing, -⟩ := h undefinedLogPage 0 (by decide +kernel) (by decide +kernel)
  obtain ⟨htrap, -⟩ := hfailing failingCodePage .clean (by decide +kernel) (by decide +kernel) (by decide +kernel)
  obtain ⟨u, hu, -, hkept⟩ := htrap (by decide +kernel) (by decide +kernel)
  have hpoison := undefinedLogPage_poisons
  rw [hu, poisonAfter, hkept] at hpoison
  revert hpoison
  decide +kernel

end Sys2Proof.Proofs
end

section
/-! The memory after reset (O59, R277, R280). -/

namespace Sys2Proof.Proofs

open Sys2Proof Sys2Proof.Machine Sys2Proof.Laws Sys2Proof.Safety

theorem cellRead_nil (a n : Nat) : cellRead [] a n = List.replicate n 0 := by
  apply List.ext_getElem
  · simp [cellRead]
  · intro i h₁ h₂
    simp [cellRead, cellGet]

/-- Settles O59: reset lists no byte and no tile, so every read gives the value of what is not listed. -/
theorem theMemoryAfterResetIsCanonical : Obligations.TheMemoryAfterResetIsCanonical :=
  ⟨rfl, rfl, cellRead_nil, fun _ => ⟨rfl, rfl, rfl, rfl, rfl⟩⟩

end Sys2Proof.Proofs
end

section
/-! O58: the canonical form of the stacks' memory is kept by every operation of the model, and so is the queue of commands (O57 says that
of the commands). What is proved of an operation is `Keeps` for a change of the state, `Sound` for a run of accesses and `Answers` for the
meaning of a command: one lemma for each operation, in the order of the model, each from those of the operations it calls. Here: the rules for the
ways in which operations are put together. -/

namespace Sys2Proof.Proofs

open Sys2Proof Sys2Proof.Machine Sys2Proof.Laws Sys2Proof.Safety

/-- From `v` to `s` the queue of commands stands, and the canonical form of the stacks' memory has been kept. -/
structure Keeps (v s : State) : Prop where
  queue : s.pending = v.pending
  mem : Memory.wf v.mem = true → Memory.wf s.mem = true

namespace Keeps

variable {v s : State}

section

variable {free : Nat} {time : TimeState} {tick : TickState} {units : UnitsState} {tiles : KV Tile} {mesh : List MeshMsg}
  {cornis : CornisState} {twin : TwinState} {host : HostState} {events : EventState} {bu : BringUp} {sec : SecState}
  {power : PowerState} {therm : ThermState} {fac : FacState} {guest0 guest1 : Guest} {tap : TapState} {out : Outputs}

/-- An update of the memory, and of whatever else but the queue. -/
theorem setMem {mem : List Host.Cell} (h : Keeps v s) (hm : Memory.wf s.mem = true → Memory.wf mem = true) :
    Keeps v ⟨s.pending, free, time, tick, units, tiles, mem, mesh, cornis, twin, host, events, bu, sec, power, therm, fac, guest0,
      guest1, tap, out⟩ := ⟨h.queue, fun hv => hm (h.mem hv)⟩

/-- An update of neither the queue nor the memory. -/
theorem set (h : Keeps v s) :
    Keeps v ⟨s.pending, free, time, tick, units, tiles, s.mem, mesh, cornis, twin, host, events, bu, sec, power, therm, fac, guest0,
      guest1, tap, out⟩ := h.setMem id

end

theorem branch {c : Prop} {dec : Decidable c} {a b : State} (ha : Keeps v a) (hb : Keeps v b) : Keeps v (@ite State c dec a b) := by
  split
  · exact ha
  · exact hb

/-- The same for a state that stands beside an answer. -/
theorem branchFst {c : Prop} {dec : Decidable c} {α : Type} {a b : State × α} (ha : Keeps v a.1) (hb : Keeps v b.1) :
    Keeps v (@ite (State × α) c dec a b).1 := by
  split
  · exact ha
  · exact hb

theorem foldl {α : Type} {f : State → α → State} {l : List α} (hf : ∀ {s} a, Keeps v s → Keeps v (f s a)) (h : Keeps v s) :
    Keeps v (l.foldl f s) := by
  induction l generalizing s with
  | nil => exact h
  | cons a l ih => exact ih (hf a h)

/-- The same for a fold that carries an answer beside the state. -/
theorem foldlFst {α β : Type} {f : State × β → α → State × β} {l : List α} {b : β} (hf : ∀ {p} a, Keeps v p.1 → Keeps v (f p a).1)
    (h : Keeps v s) : Keeps v (l.foldl f (s, b)).1 := by
  induction l generalizing s b with
  | nil => exact h
  | cons a l ih => exact ih (s := (f (s, b) a).1) (b := (f (s, b) a).2) (hf a h)

theorem branchSnd {c : Prop} {dec : Decidable c} {α : Type} {a b : α × State} (ha : Keeps v a.2) (hb : Keeps v b.2) :
    Keeps v (@ite (α × State) c dec a b).2 := by
  split
  · exact ha
  · exact hb

/-- A state given beside an answer. -/
theorem beside {α : Type} {a : α} (h : Keeps v s) : Keeps v (s, a).1 := h

theorem of_fst {α : Type} {p : State × α} {a : α} (h : Keeps v p.1) (hp : p = (s, a)) : Keeps v s := by
  rwa [hp] at h

theorem of_snd {α : Type} {p : α × State} {a : α} (h : Keeps v p.2) (hp : p = (a, s)) : Keeps v s := by
  rwa [hp] at h

end Keeps

/-! ### Runs of accesses -/

/-- A run of accesses that keeps them, however it ends. -/
def Sound {α : Type} (m : M α) : Prop := ∀ ⦃v s : State⦄, Keeps v s → Keeps v (m.result s).2

/-- Where an outcome is a next state, it keeps them. -/
def Answers (v : State) : Host.Outcome State Fault Refusal → Prop
  | .next s => Keeps v s
  | _ => True

namespace Answers

variable {v s : State}

theorem next (h : Keeps v s) : Answers v (.next s) := h

theorem branch {c : Prop} {dec : Decidable c} {a b : Host.Outcome State Fault Refusal} (ha : Answers v a) (hb : Answers v b) :
    Answers v (@ite (Host.Outcome State Fault Refusal) c dec a b) := by
  split
  · exact ha
  · exact hb

end Answers

theorem Keeps.run {v s : State} {α : Type} {m : M α} (h : Keeps v s) (hm : Sound m) : Keeps v (m.result s).2 := hm h

theorem Keeps.of_result {v s s' : State} {α : Type} {m : M α} {r : Except Stop α} (h : Keeps v s) (hm : Sound m)
    (he : m.result s = (r, s')) : Keeps v s' := by
  simpa only [he] using hm h

namespace Sound

variable {α β : Type}

theorem pure {a : α} : Sound (Pure.pure a : M α) := fun _ _ => id

theorem throw {e : Stop} : Sound (MonadExcept.throw e : M α) := fun _ _ => id

theorem stop {st rs : Code} {kind : Nat} {dva : BitVec 64} : Sound (M.stop st rs kind dva : M α) := throw

theorem get : Sound (MonadState.get : M State) := fun _ _ => id

theorem upd {f : State → State} (hf : ∀ {v s}, Keeps v s → Keeps v (f s)) : Sound (M.upd f) := fun _ _ h => hf h

theorem bind {m : M α} {f : α → M β} (hm : Sound m) (hf : ∀ a, Sound (f a)) : Sound (m >>= f) := by
  intro v s h
  have hs := hm h
  rw [result_bind]
  split
  · next a s' heq => exact hf a (by simpa only [heq] using hs)
  · next e s' heq => simpa only [heq] using hs

/-- A state taken, changed, and put back. -/
theorem getSet {f : State → State} {g : State → M α} (hf : ∀ {v s}, Keeps v s → Keeps v (f s)) (hg : ∀ s, Sound (g s)) :
    Sound (MonadState.get >>= fun s => (MonadStateOf.set (f s) : M PUnit) >>= fun _ => g s) := fun _ _ h => hg _ (hf h)

theorem branch {c : Prop} {dec : Decidable c} {m n : M α} (hm : Sound m) (hn : Sound n) : Sound (@ite (M α) c dec m n) := by
  split
  · exact hm
  · exact hn

/-- A step taken under a condition, ahead of what follows either way. -/
theorem optional {c : Prop} {dec : Decidable c} {m : M Unit} {f : Unit → M α} (hm : Sound m) (hf : ∀ u, Sound (f u)) :
    Sound (@ite (M α) c dec (m >>= f) (f ())) := branch (hm.bind hf) (hf ())

/-- Two ways to what follows. -/
theorem join {c : Prop} {dec : Decidable c} {m n : M α} {f : α → M β} (hm : Sound m) (hn : Sound n) (hf : ∀ a, Sound (f a)) :
    Sound (@ite (M β) c dec (m >>= f) (n >>= f)) := branch (hm.bind hf) (hn.bind hf)

theorem peek {d : α} {m : M α} : Sound (M.peek d m) := by
  refine bind get fun s => ?_
  split
  · exact pure
  · exact branch throw pure

theorem checked {ok : Bool} {st rs : Code} : Sound (M.check ok st rs) := branch pure stop

theorem tryCatch {m : M α} {f : Stop → M α} (hm : Sound m) (hf : ∀ e, Sound (f e)) : Sound (EStateM.tryCatch m f) := by
  intro v s h
  have hs := hm h
  unfold M.result EStateM.run at hs ⊢
  unfold EStateM.tryCatch
  cases hr : m s with
  | ok a s' => simpa only [hr] using hs
  | error e s' => exact hf e (show Keeps v s' by simpa only [hr] using hs)

/-- A run whose stop is told in other words. -/
theorem adapt {f : Stop → Stop} {m : M α} (hm : Sound m) : Sound (EStateM.adaptExcept f m) := by
  intro v s h
  have hs := hm h
  unfold M.result EStateM.run at hs ⊢
  unfold EStateM.adaptExcept
  cases hr : m s <;> simpa only [hr] using hs

theorem atDva {dva : BitVec 64} {m : M α} (hm : Sound m) : Sound (Machine.atDva dva m) := adapt hm

theorem mapM {γ : Type} {f : γ → M α} {l : List γ} (hf : ∀ c, Sound (f c)) : Sound (l.mapM f) := by
  induction l with
  | nil => rw [List.mapM_nil]; exact pure
  | cons c l ih =>
    rw [List.mapM_cons]
    exact (hf c).bind fun _ => ih.bind fun _ => pure

theorem forM {γ : Type} {f : γ → M PUnit} {l : List γ} (hf : ∀ c, Sound (f c)) : Sound (l.forM f) := by
  induction l with
  | nil => exact pure
  | cons c l ih => exact (hf c).bind fun _ => ih

theorem foldlM {γ : Type} {f : β → γ → M β} {l : List γ} {b : β} (hf : ∀ b c, Sound (f b c)) : Sound (l.foldlM f b) := by
  induction l generalizing b with
  | nil => exact pure
  | cons c l ih =>
    rw [List.foldlM_cons]
    exact (hf b c).bind fun _ => ih

theorem anyM {γ : Type} {f : γ → M Bool} {l : List γ} (hf : ∀ c, Sound (f c)) : Sound (l.anyM f) := by
  induction l with
  | nil => exact pure
  | cons c l ih =>
    refine (hf c).bind fun b => ?_
    cases b
    · exact ih
    · exact pure

end Sound
end Sys2Proof.Proofs
end

section
/-! The operations that every unit shares, and accesses to memory, keep the queue and the canonical form (O58, continued). -/

namespace Sys2Proof.Proofs

open Sys2Proof Sys2Proof.Machine Sys2Proof.Laws Sys2Proof.Safety

/-! ### The shared operations -/

namespace Keeps

variable {v s : State}

theorem advanceTo {u : Nat} (h : Keeps v s) : Keeps v (s.advanceTo u) := branch h.set h

theorem advanceInvar {target : Nat} (h : Keeps v s) : Keeps v (s.advanceInvar target) := branch h.set h

theorem idle (h : Keeps v s) : Keeps v s.idle := branch h.advanceTo h

theorem setTile {t : TileRef} {x : Tile} (h : Keeps v s) : Keeps v (s.setTile t x) := h.set

theorem modTile {t : TileRef} {f : Tile → Tile} (h : Keeps v s) : Keeps v (s.modTile t f) := h.setTile

theorem advanceCore {t : TileRef} {c : Nat} (h : Keeps v s) : Keeps v (s.advanceCore t c) := h.advanceTo

theorem interrupt {w : BitVec 6} (h : Keeps v s) : Keeps v (s.interrupt w) := branch h (branch h.set h.set)

theorem logEvent {e : Event} (h : Keeps v s) : Keeps v (s.logEvent e) := h.set

theorem postEvent {e : Event} (h : Keeps v s) : Keeps v (s.postEvent e) :=
  branch (branch h.set.set h.set).interrupt (branch h.set.set h.set)

theorem postOverflow (h : Keeps v s) : Keeps v s.postOverflow := by
  unfold State.postOverflow
  split
  · exact h
  · exact branch (branch h.logEvent.set.postEvent h.logEvent.set) h

theorem raise0 {code : BitVec 16} {unit : BitVec 32} {items : List Word} (h : Keeps v s) : Keeps v (s.raise0 code unit items) :=
  branch h.postOverflow.logEvent (branch h.postOverflow.logEvent.set h.postOverflow.logEvent.postEvent)

theorem hostFault {status reason : Code} {space addr : Nat} (h : Keeps v s) : Keeps v (s.hostFault status reason space addr) :=
  branch h.set.raise0.set h.set

theorem raise {code : BitVec 16} {unit : BitVec 32} {items : List Word} (h : Keeps v s) : Keeps v (s.raise code unit items) :=
  branch h.set.raise0.hostFault h.raise0

theorem raiseP {code : BitVec 16} {items : List Word} (h : Keeps v s) : Keeps v (s.raiseP code items) := h.raise

theorem forgetPair {key : Nat} (h : Keeps v s) : Keeps v (s.forgetPair key) := h.set

theorem pairWritten {key : Nat} {agree : Bool} (h : Keeps v s) : Keeps v (s.pairWritten key agree) := branch h.forgetPair h

theorem coupledUse {key : Nat} {agree : Bool} {a b : Nat} {unit : BitVec 32} (h : Keeps v s) : Keeps v (s.coupledUse key agree a b unit) :=
  branch h.forgetPair (branch h h.set.raise)

theorem bump {slots : List Nat} (h : Keeps v s) : Keeps v (s.bump slots) := h.set

theorem bumpTile {t : TileRef} (h : Keeps v s) : Keeps v (s.bumpTile t) := h.bump

theorem bumpStack {st : Nat} (h : Keeps v s) : Keeps v (s.bumpStack st) := h.bump

theorem bumpUnder {st : Nat} (h : Keeps v s) : Keeps v (s.bumpUnder st) := h.bump

theorem bumpPkg (h : Keeps v s) : Keeps v s.bumpPkg := h.bump

theorem bumpRemote {p : Nat} (h : Keeps v s) : Keeps v (s.bumpRemote p) := h.bump

theorem noteStates {old : State} {l : List (BitVec 32)} {cause : Nat} (h : Keeps v s) : Keeps v (s.noteStates old l cause) :=
  foldl (fun _ h => branch h h.raise) h

theorem noteGroups {old : State} {cause : Nat} (h : Keeps v s) : Keeps v (s.noteGroups old cause) := h.noteStates

theorem noteAbove {old : State} {cause : Nat} (h : Keeps v s) : Keeps v (s.noteAbove old cause) := h.noteStates

theorem notePackage {old : State} {p : Nat} (h : Keeps v s) : Keeps v (s.notePackage old p) := (branch h h.noteStates).noteAbove

theorem tileState {t : TileRef} {new : UnitSt} {cause : Nat} (h : Keeps v s) : Keeps v (s.tileState t new cause) :=
  branch (branch h h.setTile.bumpTile) h.raise.modTile.bumpTile.noteGroups

theorem setStackState {st : Nat} {new : UnitSt} {cause : Nat} (h : Keeps v s) : Keeps v (s.setStackState st new cause) :=
  branch (branch h h.set.bumpStack) (branch h.raise.set.bumpStack h.raise.set.bumpUnder).noteGroups

theorem setPackageState {new : UnitSt} {cause : Nat} (h : Keeps v s) : Keeps v (s.setPackageState new cause) :=
  branch h h.raise.set.bumpPkg.noteAbove

theorem settle {st cause : Nat} (h : Keeps v s) : Keeps v (s.settle st cause) :=
  branch (branch h.setStackState h).setPackageState (branch h.setStackState h)

theorem settlePkg {cause : Nat} (h : Keeps v s) : Keeps v (s.settlePkg cause) := branch h.setPackageState h

theorem meshSend {dest : TileRef} {delay : Nat} {b : MeshBody} (h : Keeps v s) : Keeps v (s.meshSend dest delay b) := h.set

theorem meshSendAfter {dest : TileRef} {delay : Nat} {b : MeshBody} {p : MeshBody → Bool} (h : Keeps v s) :
    Keeps v (s.meshSendAfter dest delay b p) :=
  h.meshSend

theorem modCmd {c : Cmd} {f : CmdSlot → CmdSlot} (h : Keeps v s) : Keeps v (s.modCmd c f) := h.set

theorem finish {c : Cmd} {k : Machine.Compl} (h : Keeps v s) : Keeps v (s.finish c k) := h.modCmd

theorem finishWith {c : Cmd} {status reason : Code} (h : Keeps v s) : Keeps v (s.finishWith c status reason) := h.finish

theorem finishOk {c : Cmd} {r0 r1 : Word} (h : Keeps v s) : Keeps v (s.finishOk c r0 r1) := h.finish

theorem finishData {c : Cmd} {bytes : List Byte} {k : Machine.Compl} (h : Keeps v s) : Keeps v (s.finishData c bytes k) :=
  branch h.finish (branch h.finish h.modCmd)

theorem freeVal {w : Nat} (h : Keeps v s) : Keeps v (s.freeVal w).2 := h.set

end Keeps

/-! ### Accesses to pages (R277 to R293) -/

namespace Keeps

variable {v s : State}

theorem writeCode {t : TileRef} (h : Keeps v s) : Keeps v (s.writeCode t) := h.setMem fun hm => wf_cellWrite _ hm _

theorem poisonPage {t : TileRef} {page kind : Nat} (h : Keeps v s) : Keeps v (s.poisonPage t page kind) := branch h h.modTile.raise

theorem correctedPage {t : TileRef} {page bits : Nat} (h : Keeps v s) : Keeps v (s.correctedPage t page bits) :=
  branch h.modTile.modTile.raise h.modTile

theorem pageMoved {t : TileRef} {page : Nat} {write : Bool} (h : Keeps v s) : Keeps v (s.pageMoved t page write) := h.modTile

theorem useRegion {t : TileRef} {page : Nat} (h : Keeps v s) : Keeps v (s.useRegion t page) := h.coupledUse

theorem putPage {t : TileRef} {page : Nat} {data : List Byte} (h : Keeps v s) : Keeps v (s.putPage t page data) :=
  (h.setMem fun hm => wf_cellWrite _ hm _).pageMoved.modTile

theorem rewritePage {t : TileRef} {page : Nat} {data : List Byte} (h : Keeps v s) : Keeps v (s.rewritePage t page data) :=
  (h.setMem fun hm => wf_cellWrite _ hm _).pageMoved.modTile

theorem loseNarrow {t : TileRef} {page : Nat} (h : Keeps v s) : Keeps v (s.loseNarrow t page) := h.modTile.hostFault

theorem mergeNarrow {t : TileRef} {page : Nat} {counted : Bool} (h : Keeps v s) : Keeps v (s.mergeNarrow t page counted) := by
  unfold State.mergeNarrow
  split
  · exact h
  · refine branch h (branch h.putPage.modTile (branch h.loseNarrow ?_))
    split
    · exact h.poisonPage.loseNarrow
    · exact (branch h.pageMoved h.pageMoved.correctedPage).rewritePage.modTile

theorem awaitSlice {t : TileRef} {page : Nat} (h : Keeps v s) : Keeps v (s.awaitSlice t page) := by
  unfold State.awaitSlice
  split
  · exact h
  · exact branch h.modTile.advanceTo h

theorem meetPage {t : TileRef} {page : Nat} (h : Keeps v s) : Keeps v (s.meetPage t page) := h.useRegion.awaitSlice.mergeNarrow

theorem correctPage {t : TileRef} {page : Nat} {data : List Byte} {bits : Nat} {always : Bool} (h : Keeps v s) :
    Keeps v (s.correctPage t page data bits always) :=
  branch h.correctedPage.rewritePage h.correctedPage

end Keeps

namespace Sound

theorem readPage {t : TileRef} {page off len kind : Nat} : Sound (readPage t page off len kind) := by
  refine bind (upd fun h => h.meetPage) fun _ => bind get fun _ => ?_
  split
  · exact stop
  · refine branch stop (bind (upd fun h => h.pageMoved) fun _ => branch pure ?_)
    split
    · exact bind (upd fun h => h.poisonPage) fun _ => stop
    · refine optional (upd fun h => h.correctPage) fun _ => ?_
      exact pure

end Sound

namespace Keeps

variable {v s : State}

theorem holdWrite {a : Nat} {bytes : List Byte} (h : Keeps v s) : Keeps v (s.holdWrite a bytes) := h.set

end Keeps

namespace Sound

theorem writePage {t : TileRef} {page off kind : Nat} {bytes : List Byte} : Sound (writePage t page off kind bytes) := by
  refine bind (upd fun h => h.meetPage) fun _ => bind get fun _ => ?_
  split
  · exact stop
  · refine branch (upd fun h => h.holdWrite) (branch stop (branch (upd fun h => h.putPage) (branch stop ?_)))
    split
    · exact bind (upd fun h => h.poisonPage) fun _ => stop
    · refine optional (upd fun h => h.correctedPage) fun _ => bind (upd fun h => h.setMem fun hm => ?_) fun _ =>
        upd fun h => (h.setMem fun hm => wf_cellWrite _ hm _).pageMoved.pageMoved.modTile
      split
      · exact wf_cellWrite _ hm _
      · exact hm

end Sound

namespace Keeps

variable {v s : State}

theorem waitNarrow {t : TileRef} {page off : Nat} {bytes : List Byte} (h : Keeps v s) : Keeps v (s.waitNarrow t page off bytes) := by
  unfold State.waitNarrow
  dsimp only
  split
  · exact branch h.modTile.mergeNarrow h.modTile
  · exact h.modTile

end Keeps

namespace Sound

theorem readStack {a n kind : Nat} : Sound (readStack a n kind) := bind (mapM (fun _ => readPage)) fun _ => pure

theorem writeStack {a kind : Nat} {bytes : List Byte} : Sound (writeStack a kind bytes) := forM (fun _ => writePage)

end Sound

/-! ### Translation (R96 to R105) -/

namespace Keeps

variable {v s : State}

theorem useContext {ctx : Nat} (h : Keeps v s) : Keeps v (s.useContext ctx) := h.coupledUse

end Keeps

namespace Sound

theorem walk {dva : BitVec 64} {kind level node : Nat} : Sound (walk dva kind level node) := by
  induction level generalizing node with
  | zero =>
    refine bind get fun _ => ?_
    split
    · exact stop
    · refine bind readStack fun _ => ?_
      dsimp only
      split
      · exact stop
      · exact stop
      · exact stop
      · exact pure
  | succ level ih =>
    refine bind get fun _ => ?_
    split
    · exact stop
    · refine bind readStack fun _ => ?_
      dsimp only
      split
      · exact stop
      · exact stop
      · exact ih
      · exact pure

theorem contextCheck {ctx : Nat} {dva : BitVec 64} {kind : Nat} : Sound (contextCheck ctx dva kind) := by
  unfold Machine.contextCheck
  refine optional stop fun _ => ?_
  refine bind (upd fun h => h.useContext) fun _ => bind get fun _ => optional stop fun _ => ?_
  refine optional stop fun _ => ?_
  exact branch stop pure

theorem translate {t : TileRef} {ctx : Nat} {dva : BitVec 64} {kind : Nat} : Sound (Machine.translate t ctx dva kind) := by
  refine bind contextCheck fun _ => bind get fun _ => ?_
  split
  · exact bind (upd fun h => h.modTile) fun _ => pure
  · exact bind (upd fun h => h.modTile) fun _ => bind get fun _ => bind walk fun _ => bind (upd fun h => h.modTile) fun _ => pure

theorem translatePlain {ctx : Nat} {dva : BitVec 64} {kind : Nat} : Sound (translatePlain ctx dva kind) :=
  bind contextCheck fun _ => bind get fun _ => bind walk fun _ => pure

end Sound

namespace Keeps

variable {v s : State}

theorem invalidateContext {ctx : Nat} (h : Keeps v s) : Keeps v (s.invalidateContext ctx) := h.set

end Keeps

namespace Sound

theorem appendMark {e : XEntry} {dva : BitVec 64} {a b kind : Nat} : Sound (appendMark e dva a b kind) := by
  refine bind readStack fun _ => optional stop fun _ => ?_
  exact branch writeStack pure

end Sound

/-! ### Tensor descriptors -/

namespace Sound

theorem xltUsed {t : TileRef} {ctx : Nat} {dva : BitVec 64} : Sound (xltUsed t ctx dva) := by
  refine bind get fun _ => ?_
  split
  · exact pure
  · exact translatePlain

end Sound

/-! ### Units and their records (R66 to R82) -/

namespace Keeps

variable {v s : State}

theorem replicateAt {leaf : State → TileRef → State × Outc} {d : Nat} {u : BitVec 32} {path : Path} (h : Keeps v s)
    (hleaf : ∀ {s} t, Keeps v s → Keeps v (leaf s t).1) : Keeps v (State.replicateAt leaf d s u path).1 := by
  induction d generalizing s u path with
  | zero => exact h
  | succ d ih => exact branchFst (hleaf _ h) (foldlFst (fun _ h => branchFst h (ih h)) h)

theorem replicate {leaf : State → TileRef → State × Outc} {d : Nat} {u : BitVec 32} (h : Keeps v s)
    (hleaf : ∀ {s} a1, Keeps v s → Keeps v (leaf s a1).1) :
    Keeps v (State.replicate leaf d s u).1 :=
  h.replicateAt (fun _ h => hleaf _ h)

theorem setDetail {c : Cmd} {l : List (Path × Outc)} (h : Keeps v s) : Keeps v (s.setDetail c l) := h.set

end Keeps

/-! ### Messages that leave (R321 to R325) -/

namespace Keeps

variable {v s : State}

theorem modPort {p : Nat} {f : Port → Port} (h : Keeps v s) : Keeps v (s.modPort p f) := h.set

theorem usePort {p : Nat} (h : Keeps v s) : Keeps v (s.usePort p) := h.coupledUse

theorem emitFlit {p : Nat} {k : FlitKind} {body : List Byte} (h : Keeps v s) : Keeps v (s.emitFlit p k body) := h.modPort.set

theorem idleFlits {p : Nat} (h : Keeps v s) : Keeps v (s.idleFlits p) := foldl (fun _ h => branch h h.emitFlit) (branch h.emitFlit h)

theorem noteSent {m : Msg} (h : Keeps v s) : Keeps v (s.noteSent m) := h.set

theorem sendFlit {p vc : Nat} (h : Keeps v s) : Keeps v (s.sendFlit p vc) := by
  unfold State.sendFlit
  split
  · exact h
  · exact have h₁ := (branch h.set.noteSent h).emitFlit.modPort; branch h₁.set h₁

theorem pumpFor {fuel p : Nat} (h : Keeps v s) : Keeps v (State.pumpFor fuel s p) := by
  induction fuel generalizing s with
  | zero => exact h
  | succ fuel ih =>
    unfold State.pumpFor
    split
    · exact ih h.sendFlit
    · exact h

theorem pump {p : Nat} (h : Keeps v s) : Keeps v (s.pump p) := branch h h.pumpFor

theorem replayFlits {p : Nat} (h : Keeps v s) : Keeps v (s.replayFlits p) := by
  unfold State.replayFlits
  split
  · exact h
  · exact foldl (fun _ h => h.emitFlit) h.modPort

theorem transmit {p : Nat} {m : Msg} (h : Keeps v s) : Keeps v (s.transmit p m) := h.set.pump

theorem sendMsg {m : Msg} (h : Keeps v s) : Keeps v (s.sendMsg m) := by
  unfold State.sendMsg
  split
  · exact h.transmit
  · exact h

theorem request {m : Msg} {user : TxnUser} (h : Keeps v s) : Keeps v (s.request m user) := h.set.sendMsg

theorem takeTxn {n : BitVec 16} {x : Txn} {s' : State} (h : Keeps v s) (ht : s.takeTxn n = some (x, s')) : Keeps v s' := by
  unfold State.takeTxn at ht
  split at ht
  · cases ht
  · cases ht
    exact h.set

theorem respond {r : Msg} (h : Keeps v s) : Keeps v (s.respond r) := branch h.sendMsg h

theorem forward {c : Cmd} {pkg : Nat} {unit : BitVec 32} {pos : Nat} (h : Keeps v s) : Keeps v (s.forward c pkg unit pos).1 := by
  unfold State.forward
  split
  · exact h
  · exact h.request

theorem forwardAs {c : Cmd} {pkg pos : Nat} {member : BitVec 32} {param : List Byte} (h : Keeps v s) :
    Keeps v (s.forwardAs c pkg pos member param).1 := by
  unfold State.forwardAs
  split
  · exact h
  · exact h.request

theorem passOn {c : Cmd} {pkg : Nat} {param : List Byte} (h : Keeps v s) : Keeps v (s.passOn c pkg param) := by
  unfold State.passOn
  dsimp only
  split
  · exact h.forwardAs.modCmd.finishWith
  · exact h.forwardAs.modCmd

theorem finishEnergy {c : Cmd} {ms : List Member} {k : Machine.Compl} (h : Keeps v s) : Keeps v (s.finishEnergy c ms k) :=
  branch h.finish (branch (branch h.finish h.finish) h.modCmd)

theorem finishReturn {c : Cmd} {ms : List Member} {k : Machine.Compl} (h : Keeps v s) : Keeps v (s.finishReturn c ms k) :=
  branch h.finish (branch h.finish h.finishData)

theorem finishMembers {c : Cmd} {n : Nat} (h : Keeps v s) : Keeps v (s.finishMembers c n) := by
  unfold State.finishMembers
  split
  · exact h
  · refine branch h.setDetail.finishEnergy ?_
    split
    · exact branch h.setDetail.finish h.setDetail.finishData
    · exact h.setDetail.finishReturn

theorem finishTree {c : Cmd} (h : Keeps v s) : Keeps v (s.finishTree c) := by
  unfold State.finishTree
  split
  · exact h
  · exact branch h.setDetail.finishEnergy h.setDetail.finishReturn

theorem runUnits {c : Cmd} {units : List (BitVec 32 × Path)} {leaf : State → BitVec 32 → State × LeafOut} (h : Keeps v s)
    (hleaf : ∀ {s} a1, Keeps v s → Keeps v (leaf s a1).1) :
    Keeps v (s.runUnits c units leaf) := by
  unfold State.runUnits
  extract_lets +onlyGivenNames r s₁
  have h₁ : Keeps v s₁ := modCmd (foldlFst (fun _ h => branchFst (hleaf _ h) h.forward) h)
  exact branch h₁.finishTree h₁

theorem runReplicatedOver {c : Cmd} {units : List (BitVec 32 × Path)} {leaf : State → BitVec 32 → State × LeafOut} (h : Keeps v s)
    (hleaf : ∀ {s} a1, Keeps v s → Keeps v (leaf s a1).1) :
    Keeps v (s.runReplicatedOver c units leaf) :=
  branch (branch h.forward.modCmd.finishMembers h.forward.modCmd)
    (branch (branch (hleaf _ h).setDetail.finish (hleaf _ h).setDetail.finishData) (h.runUnits (fun _ h => hleaf _ h)))

theorem runReplicated {c : Cmd} {leaf : State → BitVec 32 → State × LeafOut} (h : Keeps v s)
    (hleaf : ∀ {s} a1, Keeps v s → Keeps v (leaf s a1).1) :
    Keeps v (s.runReplicated c leaf) :=
  h.runReplicatedOver (fun _ h => hleaf _ h)

theorem runPackages {c : Cmd} {leaf : State → State × Outc × List Byte} (h : Keeps v s) (hleaf : ∀ {s}, Keeps v s → Keeps v (leaf s).1) :
    Keeps v (s.runPackages c leaf) :=
  h.runReplicatedOver (fun _ h => hleaf h)

theorem runTiles {c : Cmd} {leaf : State → TileRef → State × Outc} (h : Keeps v s) (hleaf : ∀ {s} a1, Keeps v s → Keeps v (leaf s a1).1) :
    Keeps v (s.runTiles c leaf) :=
  h.runReplicated (fun _ h => h.replicate (fun _ h => hleaf _ h))

theorem runAt {c : Cmd} {here : State → State} (h : Keeps v s) (hhere : ∀ {s}, Keeps v s → Keeps v (here s)) : Keeps v (s.runAt c here) :=
  branch (hhere h) (branch h.forward.modCmd.finishMembers h.forward.modCmd)

theorem memberBack {c : Cmd} {unit : BitVec 32} {o : Outc} {results : BitVec 64 × BitVec 64} {data : List Byte} (h : Keeps v s) :
    Keeps v (s.memberBack c unit o results data) := by
  unfold State.memberBack
  dsimp only
  split
  · exact h.modCmd
  · exact branch h.modCmd (branch h.modCmd.finishWith (branch h.modCmd.finishMembers h.modCmd.finishTree))

theorem memberDone {c : Cmd} {unit : BitVec 32} {o : Outc} {data : List Byte} (h : Keeps v s) : Keeps v (s.memberDone c unit o data) :=
  h.memberBack

theorem runOver {c : Cmd} {leaves : List (BitVec 32 × Path)} {leaf : State → TileRef → State × Option Outc}
    {results : TileRef → BitVec 64 × BitVec 64} (h : Keeps v s) (hleaf : ∀ {s} a1, Keeps v s → Keeps v (leaf s a1).1) :
    Keeps v (s.runOver c leaves leaf results) := by
  unfold State.runOver
  extract_lets +onlyGivenNames r s₁
  have h₁ : Keeps v s₁ := modCmd (foldlFst (fun _ h => branchFst h (branchFst (hleaf _ h) h.forward)) h)
  exact branch (branch h₁.finishMembers h₁.finishTree) h₁

theorem runLater {c : Cmd} {leaf : State → TileRef → State × Option Outc} (h : Keeps v s)
    (hleaf : ∀ {s} a1, Keeps v s → Keeps v (leaf s a1).1) :
    Keeps v (s.runLater c leaf) :=
  h.runOver (fun _ h => hleaf _ h)

theorem endDemand {t : TileRef} (h : Keeps v s) : Keeps v (s.endDemand t) := foldl (fun _ h => h.memberDone) h.modTile

theorem onCmd {op : Nat} {c : Cmd} {f : State → State} (h : Keeps v s) (hf : ∀ {s}, Keeps v s → Keeps v (f s)) : Keeps v (s.onCmd op c f) :=
  branch (hf h) h

end Keeps

/-! ### Registers that a read changes -/

namespace Keeps

variable {v s : State}

theorem modRing {r : Nat} {f : Machine.Ring → Machine.Ring} (h : Keeps v s) : Keeps v (s.modRing r f) := h.set

theorem setGuest {g : Nat} {x : Guest} (h : Keeps v s) : Keeps v (s.setGuest g x) := branch h.set h.set

end Keeps

namespace Sound

theorem readLocal {a n kind : Nat} : Sound (readLocal a n kind) := by
  unfold Machine.readLocal
  split
  · exact readStack
  · exact bind get fun _ => pure
  · exact bind get fun _ => pure
  · exact bind get fun _ => pure
  · exact stop

theorem writeLocal {a kind : Nat} {bytes : List Byte} : Sound (writeLocal a kind bytes) := by
  unfold Machine.writeLocal
  split
  · exact writeStack
  · exact stop
  · exact stop
  · exact stop
  · exact stop

end Sound

/-! ### Accesses by device virtual address (R105 to R109) -/

namespace Keeps

variable {v s : State}

theorem modSlot {t : TileRef} {i : Nat} {f : DescSlot → DescSlot} (h : Keeps v s) : Keeps v (s.modSlot t i f) := h.modTile

theorem recordFault {t : TileRef} {e : Stop} {slot ctx step : Nat} (h : Keeps v s) : Keeps v (s.recordFault t e slot ctx step) :=
  branch h (branch h.setTile h.setTile.modTile.raise)

theorem arrive {t : TileRef} {ctr step : Nat} (h : Keeps v s) : Keeps v (s.arrive t ctr step) :=
  branch h.setTile (branch h.setTile (branch h.setTile h.setTile.raise))

end Keeps

namespace Sound

theorem readAway {env : Env} {g n : Nat} {dva : BitVec 64} {kind : Nat} : Sound (readAway env g n dva kind) := by
  unfold Machine.readAway
  split
  · exact stop
  · split
    · exact pure
    · refine bind get fun _ => ?_
      split
      · exact stop
      · exact throw

theorem readGlobal {env : Env} {g n : Nat} {dva : BitVec 64} {kind : Nat} : Sound (readGlobal env g n dva kind) :=
  bind get fun _ => branch (bind (mapM (fun _ => atDva readLocal)) fun _ => pure) (bind (mapM (fun _ => readAway)) fun _ => pure)

theorem mirrorReadable {ctx : Nat} {dva : BitVec 64} {n kind : Nat} : Sound (mirrorReadable ctx dva n kind) :=
  bind get fun _ => branch stop pure

theorem readParts {env : Env} {perm : Bool} {kind fuel : Nat} {dva : BitVec 64} {n : Nat} :
    Sound (readParts env perm kind fuel dva n) := by
  induction fuel generalizing dva n with
  | zero => exact pure
  | succ fuel ih =>
    refine branch pure (bind (atDva translate) fun _ => ?_)
    refine optional stop fun _ => bind get fun _ => ?_
    exact optional mirrorReadable fun _ => bind readGlobal fun _ => bind ih fun _ => pure

theorem readDva {env : Env} {dva : BitVec 64} {n kind : Nat} : Sound (readDva env dva n kind) := readParts

theorem readOnce {env : Env} {dva : BitVec 64} {n kind : Nat} : Sound (readOnce env dva n kind) := by
  refine bind get fun _ => ?_
  split
  · exact bind (tryCatch (bind readDva fun _ => pure) fun _ => pure) fun _ => pure
  · exact bind readDva fun _ => bind (upd fun h => h.modSlot) fun _ => pure

theorem readUnder {env : Env} {dva : BitVec 64} {n kind : Nat} : Sound (readUnder env dva n kind) := readParts

theorem meshBytes {src dst : TileRef} {n : Nat} : Sound (meshBytes src dst n) := branch pure (upd fun h => h.modTile)

theorem noteLanded {env : Env} {a n : Nat} : Sound (noteLanded env a n) :=
  branch (bind meshBytes fun _ => branch (upd fun h => h.modSlot) pure) pure

end Sound

namespace Keeps

variable {v s : State}

theorem countSent {t : TileRef} {m : Msg} (h : Keeps v s) : Keeps v (s.countSent t m) := branch h h.modTile

theorem requestOf {t : TileRef} {m : Msg} {user : TxnUser} (h : Keeps v s) : Keeps v (s.requestOf t m user) := h.countSent.request

end Keeps

namespace Sound

theorem queueMsg {env : Env} {m : Msg} {mirror : Bool} : Sound (queueMsg env m mirror) :=
  branch (upd fun h => h.requestOf) (upd fun h => h.modSlot)

theorem writeAway {env : Env} {g : Nat} {dva : BitVec 64} {kind : Nat} {bytes : List Byte} : Sound (writeAway env g dva kind bytes) := by
  unfold Machine.writeAway
  split
  · exact stop
  · exact branch pure throw

theorem noteMirror {env : Env} {reason : Code} : Sound (noteMirror env reason) := branch pure (upd fun h => h.modSlot)

theorem writeHere {env : Env} {mirrored : Bool} {a : Nat} {dva : BitVec 64} {kind : Nat} {bytes : List Byte} :
    Sound (writeHere env mirrored a dva kind bytes) := by
  unfold Machine.writeHere
  refine branch (bind (atDva writeLocal) fun _ => noteLanded) (bind get fun _ => ?_)
  dsimp only
  split
  · exact bind (bind (bind (atDva writeLocal) fun _ => noteLanded) fun _ => upd fun h => h.set) fun _ => branch noteMirror queueMsg
  · exact bind (bind (bind (atDva writeLocal) fun _ => noteLanded) fun _ => upd fun h => h.set) fun _ => noteMirror
  · exact branch (bind (bind (atDva writeLocal) fun _ => noteLanded) fun _ => upd fun h => h.set) stop

theorem writeGlobal {env : Env} {mirrored : Bool} {g : Nat} {dva : BitVec 64} {kind : Nat} {bytes : List Byte} :
    Sound (writeGlobal env mirrored g dva kind bytes) := by
  refine bind get fun _ => branch (forM (fun _ => writeHere)) ?_
  split
  · exact stop
  · exact forM (fun _ => branch writeAway queueMsg)

theorem writeParts {env : Env} {kind fuel : Nat} {dva : BitVec 64} {bytes : List Byte} : Sound (writeParts env kind fuel dva bytes) := by
  induction fuel generalizing dva bytes with
  | zero => exact pure
  | succ fuel ih =>
    refine branch pure (bind (atDva translate) fun _ => ?_)
    refine optional stop fun _ => ?_
    exact optional (atDva appendMark) fun _ => bind writeGlobal fun _ => ih

theorem writeDva {env : Env} {dva : BitVec 64} {bytes : List Byte} {kind : Nat} : Sound (writeDva env dva bytes kind) := writeParts

end Sound

namespace Keeps

variable {v s : State}

theorem askNeed {env : Env} {n : Need} {user : TxnUser} (h : Keeps v s) : Keeps v (s.askNeed env n user) := h.requestOf

theorem sendQueued {t : TileRef} {slot : Nat} {msgs : List (Msg × Bool)} (h : Keeps v s) : Keeps v (s.sendQueued t slot msgs) :=
  foldl (fun _ h => h.requestOf.modSlot) h.modSlot

theorem askFor {env : Env} {ran : State} {n : Need} (h : Keeps v s) : Keeps v (s.askFor env ran n) := h.askNeed.modSlot

end Keeps

/-! ### The life of a descriptor (R116 to R128) -/

namespace Keeps

variable {v s : State}

theorem finishSlot {t : TileRef} {i : Nat} {o : Outc} (h : Keeps v s) : Keeps v (s.finishSlot t i o) := h.modTile

theorem failChannel {t : TileRef} {c except : Nat} (h : Keeps v s) : Keeps v (s.failChannel t c except) := foldl (fun _ h => h.finishSlot) h

theorem haltChannel {t : TileRef} {c slot : Nat} {dva : BitVec 64} (h : Keeps v s) : Keeps v (s.haltChannel t c slot dva) :=
  (branch h h.setTile.raise).failChannel

theorem countPartial (h : Keeps v s) : Keeps v s.countPartial := h.set

theorem settleSlot {t : TileRef} {i : Nat} (h : Keeps v s) : Keeps v (s.settleSlot t i) := by
  unfold State.settleSlot
  split
  · exact h
  · exact branch (branch h.countPartial h).finishSlot h

theorem slotAnswer {t : TileRef} {i : Nat} {txn : BitVec 16} {o : Outc} {gaddr : Nat} {dva : BitVec 64} {mirror : Bool} (h : Keeps v s) :
    Keeps v (s.slotAnswer t i txn o gaddr dva mirror) := by
  unfold State.slotAnswer
  extract_lets +onlyGivenNames _ s₁
  have h₁ : Keeps v s₁ := by
    dsimp only [s₁]
    split
    · exact branch h.modSlot.haltChannel h.modSlot
    · exact h.modSlot
  exact h₁.settleSlot

theorem conclude {t : TileRef} {i : Nat} {r : Done} (h : Keeps v s) : Keeps v (s.conclude t i r) := by
  unfold State.conclude
  split
  · exact h
  · extract_lets +onlyGivenNames no last pause _ s₁
    have h₁ : Keeps v s₁ := branch h.modTile h.modTile.advanceCore
    extract_lets +onlyGivenNames msgs s₂
    have h₂ : Keeps v s₂ := by
      dsimp only [s₂]
      split
      · exact branch (foldl (fun _ h => h.arrive) h₁) h₁
      · exact h₁
    exact h₂.modSlot.sendQueued.settleSlot

theorem runDesc {t : TileRef} {i op : Nat} {stopped : Stop → State → State} {body : DescSlot → Env → M Done} (h : Keeps v s)
    (hstopped : ∀ {s} a0, Keeps v s → Keeps v (stopped a0 s)) (hbody : ∀ a0 a1, Sound (body a0 a1)) :
    Keeps v (s.runDesc t i op stopped body) := by
  unfold State.runDesc
  split
  · exact h
  · dsimp only
    split
    · next heq => exact (h.of_result (hbody _ _) heq).conclude
    · next heq =>
      split
      · exact h.askFor
      · exact (hstopped _ (h.of_result (hbody _ _) heq).recordFault).conclude

theorem noStop {x0 : Stop} (h : Keeps v s) : Keeps v (noStop x0 s) := h

theorem countStore {t : TileRef} {e : StoreErr} (h : Keeps v s) : Keeps v (s.countStore t e) := branch h h.modTile

theorem meetStore {t : TileRef} {i op : Nat} {e : StoreErr} (h : Keeps v s) : Keeps v (s.meetStore t i op e) := branch h.countStore h

end Keeps

namespace Sound

theorem guardStore {e : StoreErr} {body : DescSlot → Env → M Done} (hbody : ∀ d env, Sound (body d env)) {d : DescSlot} {env : Env} :
    Sound (guardStore e body d env) := by
  unfold Machine.guardStore
  split
  · exact stop
  · exact hbody d env

end Sound

namespace Keeps

variable {v s : State}

theorem planDone {t : TileRef} {p : Plan} (h : Keeps v s) : Keeps v (s.planDone t p) := branch h.setTile.modTile h.setTile

theorem countDone {t : TileRef} {index : Nat} {o : Outc} (h : Keeps v s) : Keeps v (s.countDone t index o) := by
  unfold State.countDone
  dsimp only
  split
  · exact branch h.modTile.planDone h.modTile
  · exact h.modTile

theorem writeLog {t : TileRef} {d : DescSlot} {index : Nat} {o : Outc} (h : Keeps v s) : Keeps v (s.writeLog t d index o) :=
  h.run .writeStack

theorem signal {t : TileRef} {sem amount : Nat} {fail : Bool} (h : Keeps v s) : Keeps v (s.signal t sem amount fail).1 :=
  branchFst (beside h.modTile) (beside h.modTile)

theorem reportShare {t : TileRef} {sh : Share} {o : Outc} (h : Keeps v s) : Keeps v (s.reportShare t sh o) := by
  unfold State.reportShare
  split
  · exact h.respond
  · exact h.meshSend

theorem completeOne {t : TileRef} {i : Option Nat} {d : DescSlot} {o : Outc} (h : Keeps v s) :
    Keeps v (s.completeOne t i d o).1 := by
  have hfree {u : State} (hu : Keeps v u) : Keeps v (match i with
      | some n => u.modTile t fun x => { x.dequeue n with slots := kvErase x.slots n }
      | none => u) := by
    cases i with
    | none => exact hu
    | some n => exact hu.modTile
  unfold State.completeOne
  extract_lets +onlyGivenNames o s₁ free
  have h₁ : Keeps v s₁ := h.modTile
  split
  · exact (hfree h₁).reportShare
  · exact hfree h₁
  · extract_lets +onlyGivenNames s₂ fail s₃ r
    have h₂ : Keeps v s₂ := h₁.writeLog
    split
    · exact (hfree h₂).countDone
    · split
      · cases i with dsimp only
        | none => exact h₂.meshSend.modTile
        | some n => exact h₂.meshSend.modTile.modSlot
      · exact (hfree h₂.signal).countDone

theorem completeSlots {t : TileRef} {fuel : Nat} {l : List (Nat × Outc)} (h : Keeps v s) : Keeps v (s.completeSlots t fuel l) := by
  induction fuel generalizing s l with
  | zero =>
    unfold State.completeSlots
    exact h
  | succ fuel ih =>
    cases l with
    | nil => exact h
    | cons e l =>
      unfold State.completeSlots
      split
      · exact ih h
      · exact branch (ih h) (ih h.completeOne)

theorem memberReport {t : TileRef} {i : Nat} {unit : BitVec 32} {o : Outc} (h : Keeps v s) : Keeps v (s.memberReport t i unit o) := by
  unfold State.memberReport
  dsimp only
  split
  · exact h.modSlot
  · exact branch h.modSlot.finishSlot h.modSlot

theorem reportItem {t : TileRef} {it : AttnItem} {o : Outc} {wrote : Bool} {poison : BitVec 64} (h : Keeps v s) :
    Keeps v (s.reportItem t it o wrote poison) := by
  unfold State.reportItem
  split
  · exact h.meshSend
  · exact h.respond

end Keeps

end Sys2Proof.Proofs
end

section
/-! The engines of a tile and its sequencer keep them (O58, continued). -/

namespace Sys2Proof.Proofs

open Sys2Proof Sys2Proof.Machine Sys2Proof.Laws Sys2Proof.Safety

/-! ### Tensors (R179 to R188) -/

namespace Sound

theorem refuse {α : Type} {o : Outc} : Sound (refuse o : M α) := throw

theorem readTd {env : Env} {dva : BitVec 64} {fmts : Nat → Bool} : Sound (readTd env dva fmts) := by
  refine bind readOnce fun _ => ?_
  dsimp only
  split
  · exact refuse
  · exact pure

theorem needField {ok : Bool} : Sound (needField ok) := checked

theorem readSpans {env : Env} {kind : Nat} {l : List (Nat × Nat)} : Sound (readSpans env kind l) :=
  mapM (fun _ => bind readDva fun _ => pure)

theorem readCodes {env : Env} {kind : Nat} {t : TDesc} {offs : List Int} : Sound (readCodes env kind t offs) :=
  bind readSpans fun _ => pure

theorem readElems {env : Env} {kind : Nat} {t : TDesc} {ixs : List (List Nat)} : Sound (readElems env kind t ixs) :=
  bind readCodes fun _ => branch pure (bind readSpans fun _ => pure)

theorem checkSides {src dst : SideFmt} {asIs : Bool} : Sound (checkSides src dst asIs) := bind needField fun _ => needField

theorem wsRead {t : TileRef} {a n : Nat} : Sound (wsRead t a n) := bind (upd fun h => h.modTile) fun _ => bind get fun _ => pure

theorem wsWrite {t : TileRef} {a : Nat} {bytes : List Byte} : Sound (wsWrite t a bytes) := upd fun h => h.modTile

theorem freeBytes {n : Nat} : Sound (freeBytes n) := bind get fun _ => bind (upd fun h => h.set) fun _ => pure

theorem check {w : WsSide} {n0 rows : Nat} : Sound (w.check n0 rows) :=
  branch (bind needField fun _ => bind checked fun _ => checked) (bind needField fun _ => bind checked fun _ => checked)

theorem putRow {w : WsSide} {t : TileRef} {rows r : Nat} {codes scales : List Nat} : Sound (w.putRow t rows r codes scales) :=
  branch (bind wsWrite fun _ => wsWrite) (forM (fun _ => bind wsWrite fun _ => branch wsWrite pure))

theorem mergeRun {t : TileRef} {fmt a len : Nat} {codes : List Nat} : Sound (mergeRun t fmt a len codes) := bind wsRead fun _ => wsWrite

theorem putPart {w : WsSide} {t : TileRef} {n0 rows r : Nat} {codes scales : List Nat} : Sound (w.putPart t n0 rows r codes scales) :=
  branch (bind mergeRun fun _ => wsWrite) (forM (fun _ => bind mergeRun fun _ => branch wsWrite pure))

theorem getRow {w : WsSide} {t : TileRef} {n0 r : Nat} : Sound (w.getRow t n0 r) :=
  bind wsRead fun _ => branch pure (bind wsRead fun _ => pure)

theorem choose {n : Nat} : Sound (choose n) := getSet (fun h => h.freeVal) fun _ => pure

theorem insertFree {α : Type} {a : α} {l : List α} : Sound (insertFree a l) := bind choose fun _ => pure

theorem shuffle {α : Type} {l : List α} : Sound (shuffle l) := by
  induction l with
  | nil => exact pure
  | cons a l ih => exact bind ih fun _ => insertFree

theorem landOne {l : List Nat} : Sound (landOne l) := by
  unfold Machine.landOne
  split
  · exact pure
  · exact bind choose fun _ => pure

theorem writeRuns {env : Env} {kind : Nat} {l : List (Nat × List Byte)} : Sound (writeRuns env kind l) := forM (fun _ => writeDva)

theorem unitWrites {env : Env} {kind : Nat} {t : TDesc} {merge : Bool} {valid : Int → Nat} {l : List (Int × Nat)} :
    Sound (unitWrites env kind t merge valid l) := by
  unfold Machine.unitWrites
  refine branch pure (mapM (fun _ => join readUnder pure fun _ => ?_))
  exact pure

theorem landPlain {env : Env} {kind : Nat} {t : TDesc} {distinct merge : Bool} {l : List Landing} :
    Sound (landPlain env kind t distinct merge l) := by
  unfold Machine.landPlain
  refine join pure (mapM (fun _ => bind landOne fun _ => pure)) fun _ => ?_
  exact bind unitWrites fun _ => bind writeRuns fun _ => branch (bind (mapM (fun _ => bind landOne fun _ => pure)) fun _ => writeRuns) pure

theorem localOnly {env : Env} {kind a : Nat} : Sound (localOnly env kind a) :=
  bind (atDva translate) fun _ => bind get fun _ => branch stop pure

theorem landCombine {env : Env} {kind mode : Nat} {sat : Bool} {t : TDesc} {l : List Landing} :
    Sound (landCombine env kind mode sat t l) := by
  refine bind (forM (fun _ => forM (fun _ => localOnly))) fun _ => bind readCodes fun _ => bind
    (mapM (fun _ => join pure shuffle fun _ => ?_)) fun _ => bind unitWrites fun _ => bind writeRuns fun _ => pure
  exact pure

theorem checkMode {mode : Nat} {src dst : SideFmt} : Sound (checkMode mode src dst) := needField

theorem writeTensor {env : Env} {kind mode : Nat} {sat asIs distinct merge : Bool} {t : TDesc} {src : SideFmt}
    {rows : List (List (List Nat) × List (Nat × Nat))} :
    Sound (writeTensor env kind mode sat asIs distinct merge t src rows) :=
  branch (bind landPlain fun _ => pure) landCombine

theorem countSlow {env : Env} {a b : Slow} : Sound (countSlow env a b) := upd fun h => h.modTile

theorem openTds {env : Env} {tds : List (BitVec 64)} : Sound (openTds env tds) := bind get fun _ => pure

theorem firstWalk {env : Env} {dva : Nat} : Sound (firstWalk env dva) := bind get fun _ => pure

theorem pathExcess {env : Env} {k dva bytes : Nat} : Sound (pathExcess env k dva bytes) := bind get fun _ => pure

end Sound

/-! ### Data movement (R188 to R206) -/

namespace Keeps

variable {v s : State}

theorem dmaStop {t : TileRef} {c slot : Nat} {e : Stop} (h : Keeps v s) : Keeps v (dmaStop t c slot e s) := branch h.haltChannel h

end Keeps

namespace Sound

theorem moveDone {env : Env} {head : Nat} {a b : SideFmt} {m : Moved} {half twice write : Bool} {first bytes narrow : Nat} {r : Done} :
    Sound (moveDone env head a b m half twice write first bytes narrow r) :=
  bind get fun _ => bind pathExcess fun _ => pure

theorem loadTensor {env : Env} {t : TDesc} {w : WsSide} {tr sat : Bool} {part : Nat × Nat} : Sound (loadTensor env t w tr sat part) :=
  bind check fun _ => bind readElems fun _ => bind countSlow fun _ => bind (forM (fun _ => putRow)) fun _ => pure

theorem storeTensor {env : Env} {t : TDesc} {w : WsSide} {tr sat : Bool} {mode : Nat} {part : Nat × Nat} :
    Sound (storeTensor env t w tr sat mode part) :=
  bind check fun _ => bind (mapM (fun _ => getRow)) fun _ => bind countSlow fun _ => writeTensor

theorem loadDone {env : Env} {head : Nat} {t : TDesc} {w : WsSide} {tr : Bool} {part : Nat × Nat} {r : Done} :
    Sound (loadDone env head t w tr part r) :=
  moveDone

theorem storeDone {env : Env} {head : Nat} {t : TDesc} {w : WsSide} {tr : Bool} {mode : Nat} {part : Nat × Nat} {r : Done} :
    Sound (storeDone env head t w tr mode part r) :=
  bind get fun _ => moveDone

theorem loadBody {slot : DescSlot} {env : Env} : Sound (loadBody slot env) :=
  bind openTds fun _ => bind readTd fun _ => bind needField fun _ => bind checkSides fun _ => bind firstWalk fun _ => bind loadTensor fun _
    => loadDone

theorem storeBody {slot : DescSlot} {env : Env} : Sound (storeBody slot env) :=
  bind openTds fun _ => bind readTd fun _ => bind needField fun _ => bind checkSides fun _ => bind checkMode fun _ => bind firstWalk fun _
    => bind storeTensor fun _ => storeDone

end Sound

namespace Keeps

variable {v s : State}

theorem execLoad {t : TileRef} {slot : Nat} {e : StoreErr} (h : Keeps v s) : Answers v (execLoad t slot e s) :=
  h.meetStore.runDesc (fun _ h => h.dmaStop) (fun _ _ => .guardStore (fun _ _ => .loadBody))

theorem execStore {t : TileRef} {slot : Nat} {e : StoreErr} (h : Keeps v s) : Answers v (execStore t slot e s) :=
  h.meetStore.runDesc (fun _ h => h.dmaStop) (fun _ _ => .guardStore (fun _ _ => .storeBody))

end Keeps

namespace Sound

theorem globalSpans {env : Env} {l : List (Nat × Nat)} : Sound (globalSpans env l) := mapM (fun _ => bind xltUsed fun _ => pure)

theorem freeByteAt {env : Env} {p : Nat × Nat} : Sound (freeByteAt env p) := by
  refine getSet (fun h => h.freeVal) fun _ => upd fun h => Keeps.modSlot ?_
  exact Keeps.branch (h.setMem fun hm => wf_cellSet hm _ _) h

theorem copyBody {slot : DescSlot} {env : Env} : Sound (copyBody slot env) :=
  bind openTds fun _ => bind readTd fun _ => bind readTd fun _ => bind needField fun _ => bind checked fun _ => bind checkSides fun _ =>
    bind checkMode fun _ => bind firstWalk fun _ => bind readElems fun _ => bind countSlow fun _ => bind globalSpans fun _ => bind
    writeTensor fun _ => bind globalSpans fun _ => bind (forM (fun _ => freeByteAt)) fun _ => bind get fun _ => bind moveDone fun _ => bind
    pathExcess fun _ => pure

end Sound

namespace Keeps

variable {v s : State}

theorem execCopy {t : TileRef} {slot : Nat} (h : Keeps v s) : Answers v (execCopy t slot s) :=
  h.runDesc (fun _ h => h.dmaStop) (fun _ _ => .copyBody)

end Keeps

namespace Sound

theorem indexedMove {slot : DescSlot} {env : Env} : Sound (indexedMove slot env) :=
  bind readTd fun _ => bind readTd fun _ => bind needField fun _ => pure

theorem pick {w : IndexedMove} {env : Env} {p : Nat} : Sound (w.pick env p) := by
  refine bind readOnce fun _ => ?_
  dsimp only
  split
  · exact stop
  · exact pure

theorem readSlice {w : IndexedMove} {env : Env} {i : Nat} : Sound (w.readSlice env i) := bind readElems fun _ => pure

theorem gatherSlices {i : IndexedMove} {env : Env} {fuel p : Nat} {cache : List (Nat × Slice)} :
    Sound (gatherSlices i env fuel p cache) := by
  induction fuel generalizing p cache with
  | zero => exact pure
  | succ fuel ih =>
    refine bind (tryCatch (bind (bind pick fun _ => ?_) fun _ => pure) fun _ => pure) fun _ => ?_
    · split
      · split
        · exact bind (upd fun h => h.modTile) fun _ => pure
        · exact bind readSlice fun _ => pure
      · exact pure
    · split
      · exact branch throw pure
      · exact bind ih fun _ => pure
      · exact bind ih fun _ => pure

theorem tally {k : IndexedMove} {env : Env} {w : WsSide} {l : List (Nat × SliceMove)} : Sound (k.tally env w l) := countSlow

theorem done {k : IndexedMove} {env : Env} {head : Nat} {w : WsSide} {mode : Nat} {l : List (Nat × SliceMove)} {narrow : Nat} {r : Done} :
    Sound (k.done env head w mode l narrow r) :=
  bind get fun _ => bind pathExcess fun _ => pure

theorem putSlices {k : IndexedMove} {env : Env} {w : WsSide} {sat : Bool} {l : List (Option Slice)} : Sound (putSlices k env w sat l) :=
  bind (forM (fun _ => putRow)) fun _ => pure

theorem putElements {k : IndexedMove} {env : Env} {w : WsSide} {sat : Bool} {l : List (Option Slice)} : Sound (putElements k env w sat l) :=
  bind (forM (fun _ => branch putRow putPart)) fun _ => pure

theorem gatherBody {slot : DescSlot} {env : Env} : Sound (gatherBody slot env) := by
  refine bind openTds fun _ => bind indexedMove fun _ => bind firstWalk fun _ => bind checkSides fun _ => bind check fun _ => bind
    gatherSlices fun _ => join putElements putSlices fun _ => ?_
  refine bind tally fun _ => ?_
  split
  · exact throw
  · exact done

theorem scatterPicks {i : IndexedMove} {env : Env} {fuel p : Nat} : Sound (scatterPicks i env fuel p) := by
  induction fuel generalizing p with
  | zero => exact pure
  | succ fuel ih =>
    refine bind (tryCatch (bind pick fun _ => pure) fun _ => pure) fun _ => ?_
    split
    · exact branch throw pure
    · exact bind ih fun _ => pure

theorem scatterBody {slot : DescSlot} {env : Env} : Sound (scatterBody slot env) := by
  refine bind openTds fun _ => bind indexedMove fun _ => bind firstWalk fun _ => bind checkSides fun _ => bind checkMode fun _ => bind check
    fun _ => bind (mapM (fun _ => getRow)) fun _ => bind scatterPicks fun _ => bind writeTensor fun _ => bind tally fun _ => ?_
  split
  · exact throw
  · exact bind get fun _ => done

end Sound

namespace Keeps

variable {v s : State}

theorem execGather {t : TileRef} {slot : Nat} {e : StoreErr} (h : Keeps v s) : Answers v (execGather t slot e s) :=
  h.meetStore.runDesc (fun _ h => h.dmaStop) (fun _ _ => .guardStore (fun _ _ => .gatherBody))

theorem execScatter {t : TileRef} {slot : Nat} {e : StoreErr} (h : Keeps v s) : Answers v (execScatter t slot e s) :=
  h.meetStore.runDesc (fun _ h => h.dmaStop) (fun _ _ => .guardStore (fun _ _ => .scatterBody))

end Keeps

/-! ### The matrix engine (R129 to R144) -/

namespace Sound

theorem slotLanes {t : TileRef} {fmt smode l valid elemAt sclAt : Nat} : Sound (slotLanes t fmt smode l valid elemAt sclAt) := by
  refine bind wsRead fun _ => join pure wsRead fun _ => ?_
  exact pure

theorem matColumn {t : TileRef} {a : MatArgs} {rows : List (List (List Lane))} {nb u : Nat} : Sound (matColumn t a rows nb u) :=
  bind (mapM (fun _ => slotLanes)) fun _ => upd fun h => h.modTile

theorem matProduct {t : TileRef} {a : MatArgs} : Sound (matProduct t a) :=
  bind (mapM (fun _ => mapM (fun _ => slotLanes))) fun _ => bind (forM (fun _ => forM (fun _ => matColumn))) fun _ => upd fun h => h.modTile

theorem matmulBody {slot : DescSlot} {env : Env} : Sound (matmulBody slot env) :=
  bind matProduct fun _ => getSet (fun h => h.setTile) fun _ => pure

theorem freeRows {t : TileRef} {rows : List Nat} : Sound (freeRows t rows) := upd fun h => h.modTile.set

theorem matmulWith {e : StoreErr} {slot : DescSlot} {env : Env} : Sound (matmulWith e slot env) := by
  unfold Machine.matmulWith
  split
  · exact matmulBody
  · exact bind matmulBody fun _ => bind freeRows fun _ => pure

end Sound

namespace Keeps

variable {v s : State}

theorem execMatmul {t : TileRef} {slot : Nat} {e : StoreErr} (h : Keeps v s) : Answers v (execMatmul t slot e s) :=
  h.meetStore.runDesc (fun _ h => h.noStop) (fun _ _ => .matmulWith)

theorem execHoldExpiry {t : TileRef} (h : Keeps v s) : Answers v (execHoldExpiry t s) := by
  unfold Machine.execHoldExpiry
  split
  · exact h
  · exact branch h.advanceCore.modTile h

end Keeps

namespace Sound

theorem drainRows {t : TileRef} {a : DrainArgs} {sat : Bool} {rows : List (List Fv)} : Sound (drainRows t a sat rows) :=
  bind (forM (fun _ => bind wsWrite fun _ => wsWrite)) fun _ => pure

theorem drainBcast {t : TileRef} {a : DrainArgs} {sat : Bool} {rows : List (List Fv)} : Sound (drainBcast t a sat rows) := by
  refine bind (mapM (fun _ => bind wsWrite fun _ => optional wsWrite fun _ => ?_)) fun _ => pure
  exact pure

theorem drainBody {slot : DescSlot} {env : Env} : Sound (drainBody slot env) := by
  refine bind get fun _ => join drainBcast drainRows fun _ => ?_
  exact bind (upd fun h => h.modTile) fun _ => pure

end Sound

namespace Keeps

variable {v s : State}

theorem execAccDrain {t : TileRef} {slot : Nat} {e : StoreErr} (h : Keeps v s) : Answers v (execAccDrain t slot e s) :=
  h.meetStore.runDesc (fun _ h => h.noStop) (fun _ _ => .guardStore (fun _ _ => .drainBody))

end Keeps

namespace Sound

theorem freeWindows {t : TileRef} {base n row rows : Nat} : Sound (freeWindows t base n row rows) := upd fun h => h.modTile.set

theorem gemmRows {env : Env} {a b c : TDesc} {scale : BitVec 32} {sat : Bool} {l mb : Nat} {cols : Nat × Nat}
    {bs : List (List (List Lane))} {fuel m0 n : Nat} : Sound (gemmRows env a b c scale sat l mb cols bs fuel m0 n) := by
  induction fuel generalizing m0 n with
  | zero => exact pure
  | succ fuel ih =>
    exact branch pure (bind (mapM fun _ => readElems) fun _ => bind writeTensor fun _ =>
      bind (upd fun h => h.modTile) fun _ => bind ih fun _ => pure)

theorem gemmPasses {env : Env} {a b c : TDesc} {scale : BitVec 32} {sat : Bool} {l mb p : Nat} {rows : Nat × Nat} {fuel n0 n : Nat} :
    Sound (gemmPasses env a b c scale sat l mb p rows fuel n0 n) := by
  induction fuel generalizing n0 n with
  | zero => exact pure
  | succ fuel ih =>
    exact branch pure (bind (mapM fun _ => readElems) fun _ => bind gemmRows fun _ => bind ih fun _ => pure)

theorem gemmBody {slot : DescSlot} {env : Env} : Sound (gemmBody slot env) := by
  refine bind get fun _ => bind checked fun _ => bind get fun _ => bind readTd fun _ => bind readTd fun _ => bind readTd fun _ => bind
    needField fun _ => bind checked fun _ => ?_
  split
  · exact stop
  · exact bind get fun _ => bind freeWindows fun _ => bind gemmPasses fun _ => bind (upd fun h => h.modTile) fun _ => pure

end Sound

namespace Keeps

variable {v s : State}

theorem execGemm {t : TileRef} {slot : Nat} {e : StoreErr} (h : Keeps v s) : Answers v (execGemm t slot e s) := by
  unfold Machine.execGemm
  refine h.meetStore.runDesc (fun _ h => ?_) (fun _ _ => .guardStore (fun _ _ => .gemmBody))
  split
  · exact branch h h.dmaStop
  · exact h

end Keeps

/-! ### The vector unit (R145 to R147) -/

namespace Sound

theorem vecRow {t : TileRef} {base fmt n r : Nat} : Sound (vecRow t base fmt n r) := bind wsRead fun _ => pure

theorem vecB {t : TileRef} {w : VecArgs} {r : Nat} : Sound (vecB t w r) := branch pure (branch (bind vecRow fun _ => pure) vecRow)

theorem vecRowOut {t : TileRef} {w : VecArgs} {sat : Bool} {r : Nat} : Sound (vecRowOut t w sat r) := by
  refine bind vecRow fun _ => branch ?_ (bind vecB fun _ => join vecRow pure fun _ => ?_)
  · split
    · exact pure
    · exact pure
  · exact pure

theorem vectorBody {slot : DescSlot} {env : Env} : Sound (vectorBody slot env) := by
  refine bind (mapM (fun _ => vecRowOut)) fun _ => bind (forM (fun _ => join freeBytes pure fun _ => ?_)) fun _ => bind
    (upd fun h => h.modTile) fun _ => pure
  exact wsWrite

end Sound

namespace Keeps

variable {v s : State}

theorem execVector {t : TileRef} {slot : Nat} {e : StoreErr} (h : Keeps v s) : Answers v (execVector t slot e s) :=
  h.meetStore.runDesc (fun _ h => h.noStop) (fun _ _ => .guardStore (fun _ _ => .vectorBody))

end Keeps

/-! ### The sequencer (R114 to R127) -/

namespace Sound

theorem splitExtent {d : DescSlot} {env : Env} : Sound (splitExtent d env) := by
  unfold Machine.splitExtent
  split
  · exact pure
  · dsimp only
    split
    · exact bind readTd fun _ => bind needField fun _ => pure
    · exact pure
    · exact branch pure (bind readTd fun _ => pure)
    · exact bind readTd fun _ => pure
    · exact bind readTd fun _ => bind readTd fun _ => pure
    · exact bind readTd fun _ => pure
    · exact bind readTd fun _ => pure
    · exact pure

end Sound

namespace Keeps

variable {v s : State}

theorem sendShare {t : TileRef} {i : Nat} {sh : Share} {path : Path} {k : Nat} (h : Keeps v s) : Keeps v (s.sendShare t i sh path k).1 := by
  unfold State.sendShare
  refine branchFst h.meshSend ?_
  split
  · exact h
  · exact h.requestOf

theorem splitSlot {t : TileRef} {i : Nat} {d : DescSlot} {w : Option Nat} (h : Keeps v s) : Keeps v (s.splitSlot t i d w) := by
  unfold State.splitSlot
  extract_lets +onlyGivenNames u leaves origin base splitNo _ r s₁
  have h₁ : Keeps v s₁ := modSlot (foldlFst (fun _ h => h.sendShare) (branch h.modTile h))
  exact branch h₁.finishSlot h₁

theorem admitSlot {t : TileRef} {i : Nat} {d : DescSlot} (h : Keeps v s) : Keeps v (s.admitSlot t i d) := by
  unfold State.admitSlot
  dsimp only
  split
  · exact h.modTile.completeSlots
  · exact branch h.modTile.completeSlots h.modTile

theorem admitPlan {t : TileRef} {i : Nat} (h : Keeps v s) : Keeps v (s.admitPlan t i) := by
  unfold State.admitPlan
  dsimp only
  split
  · exact h
  · split
    · exact h
    · exact branch h h.advanceCore.setTile.admitSlot

theorem execDescriptorAdmit {t : TileRef} (h : Keeps v s) : Answers v (execDescriptorAdmit t s) := by
  unfold Machine.execDescriptorAdmit
  refine .branch h ?_
  dsimp only
  split
  · exact h
  · exact h.setTile.admitSlot
  · exact h.admitPlan

theorem haltOn {t : TileRef} {i : Nat} {e : Stop} (h : Keeps v s) : Keeps v (s.haltOn t i e) := by
  unfold State.haltOn
  split
  · exact branch h.haltChannel h
  · exact h

theorem dispatchSplit {t : TileRef} {i : Nat} {d : DescSlot} (h : Keeps v s) : Keeps v (s.dispatchSplit t i d) := by
  unfold State.dispatchSplit
  refine branch h.finishSlot ?_
  dsimp only
  split
  · next heq => exact (h.of_result .splitExtent heq).splitSlot
  · next heq =>
    split
    · exact h.askFor
    · exact (h.of_result .splitExtent heq).recordFault.haltOn.finishSlot

theorem queueSlot {t : TileRef} {i : Nat} {d : DescSlot} {k : Nat} (h : Keeps v s) : Keeps v (s.queueSlot t i d k) := h.modTile

theorem dispatch {t : TileRef} {slot : Nat} (h : Keeps v s) : Keeps v (s.dispatch t slot) := by
  unfold State.dispatch
  dsimp only
  split
  · exact h
  · exact branch h (branch (branch h (branch h.completeSlots (branch h.modSlot (branch h h.queueSlot)))) (branch h.dispatchSplit h))

theorem execDescriptorDispatch {t : TileRef} {slot : Nat} (h : Keeps v s) : Answers v (execDescriptorDispatch t slot s) := h.dispatch

theorem execDescriptorComplete {t : TileRef} {slot : Nat} (h : Keeps v s) : Answers v (execDescriptorComplete t slot s) := by
  unfold Machine.execDescriptorComplete
  split
  · exact h
  · exact .branch h.advanceTo.advanceCore.completeSlots h

theorem signalled {t : TileRef} {i : Nat} (h : Keeps v s) : Keeps v (s.signalled t i) := by
  unfold State.signalled
  split
  · dsimp only
    split
    · exact h.modTile.countDone
    · exact h.modTile
  · split
    · exact branch h h.modTile.countDone
    · exact h

theorem execRemoteSignal {t : TileRef} (h : Keeps v s) : Answers v (execRemoteSignal t s) := by
  unfold Machine.execRemoteSignal
  split
  · exact h
  · exact .branch h h.set.advanceTo.signal.signalled.completeSlots

theorem takeShare {t : TileRef} {sh : Share} (h : Keeps v s) : Keeps v (s.takeShare t sh) :=
  branch h.reportShare (branch h.reportShare (branch h.modTile h.setTile))

theorem execShareArrival {t : TileRef} (h : Keeps v s) : Answers v (execShareArrival t s) := by
  unfold Machine.execShareArrival
  split
  · exact h
  · exact branch h.set.advanceTo.takeShare h

theorem execShareRetry {t : TileRef} (h : Keeps v s) : Answers v (execShareRetry t s) := by
  unfold Machine.execShareRetry
  refine .branch h ?_
  split
  · exact h
  · exact foldl (fun _ h => h.meshSend) h.advanceTo.modTile

theorem execShareReport {t : TileRef} (h : Keeps v s) : Answers v (execShareReport t s) := by
  unfold Machine.execShareReport
  split
  · exact h
  · exact branch h.set.advanceTo.memberReport h

theorem execNop {t : TileRef} {slot : Nat} (h : Keeps v s) : Answers v (execNop t slot s) :=
  h.runDesc (fun _ h => h.noStop) (fun _ _ => .pure)

theorem execReceiveFence {t : TileRef} {slot : Nat} (h : Keeps v s) : Answers v (execReceiveFence t slot s) := by
  unfold Machine.execReceiveFence
  split
  · exact h
  · exact branch h.conclude h

theorem atDeadline {t : TileRef} {d : DescSlot} (h : Keeps v s) : Keeps v (s.atDeadline t d) := branch h.advanceInvar h.advanceTo

theorem execReceiveFenceDeadline {t : TileRef} {slot : Nat} (h : Keeps v s) : Answers v (execReceiveFenceDeadline t slot s) := by
  unfold Machine.execReceiveFenceDeadline
  split
  · exact h
  · exact .branch h (.branch h.conclude h.atDeadline.conclude)

theorem execXltInvalidateDesc {t : TileRef} {slot : Nat} (h : Keeps v s) : Answers v (execXltInvalidateDesc t slot s) := by
  unfold Machine.execXltInvalidateDesc
  split
  · exact h
  · exact .branch h h.modTile.conclude

end Keeps

end Sys2Proof.Proofs
end

section
/-! Caches, attention, Pewter sequences and stopped tiles keep them (O58, continued). -/

namespace Sys2Proof.Proofs

open Sys2Proof Sys2Proof.Machine Sys2Proof.Laws Sys2Proof.Safety

/-! ### Key-value caches (R207 to R229) -/

namespace Sound

theorem kvRefuse {α : Type} {status reason : Code} : Sound (kvRefuse status reason : M α) := throw

theorem kvPlace {env : Env} {dva : BitVec 64} : Sound (kvPlace env dva) :=
  bind (atDva translate) fun _ => bind get fun _ => branch kvRefuse pure

theorem readHeader {env : Env} {pt : BitVec 64} : Sound (readHeader env pt) := by
  refine bind readDva fun _ => optional kvRefuse fun _ => ?_
  refine bind kvPlace fun _ => bind kvPlace fun _ => bind kvPlace fun _ => bind get fun _ => optional kvRefuse fun _ => ?_
  refine optional kvRefuse fun _ => ?_
  exact pure

theorem readDir {env : Env} {w : KvHeader} {plane : Nat} : Sound (readDir env w plane) := by
  refine bind readDva fun _ => optional kvRefuse fun _ => ?_
  exact pure

theorem readBlockDva {env : Env} {w : KvHeader} {plane b : Nat} : Sound (readBlockDva env w plane b) := by
  unfold Machine.readBlockDva
  refine optional stop fun _ => ?_
  refine bind readDva fun _ => optional kvRefuse fun _ => ?_
  exact pure

theorem writeDir {env : Env} {w : KvHeader} {plane : Nat} {d : KvDir} : Sound (writeDir env w plane d) :=
  bind writeDva fun _ => writeDva

theorem imageMark {leaf : Option Nat} {dva : BitVec 64} {off size : Nat} : Sound (imageMark leaf dva off size) := by
  unfold Machine.imageMark
  split
  · exact pure
  · exact bind readStack fun _ => branch writeStack (branch stop pure)

theorem resolveImage {env : Env} {w : KvHeader} {plane b : Nat} : Sound (resolveImage env w plane b) := by
  refine bind readBlockDva fun _ => optional stop fun _ => ?_
  refine optional stop fun _ => ?_
  refine bind (atDva translate) fun _ => optional stop fun _ => ?_
  refine optional stop fun _ => ?_
  exact pure

theorem writePieces {env : Env} {w : KvHeader} {i : ImageAt} {pieces : List (Nat × List Byte)} : Sound (writePieces env w i pieces) :=
  bind imageMark fun _ => forM (fun _ => writeGlobal)

theorem writeImage {env : Env} {w : KvHeader} {i : ImageAt} {image : List Byte} : Sound (writeImage env w i image) :=
  bind imageMark fun _ => writeGlobal

theorem readImage {env : Env} {w : KvHeader} {i : ImageAt} : Sound (readImage env w i) := by
  refine bind (atDva translate) fun _ => optional stop fun _ => ?_
  refine bind get fun _ => optional mirrorReadable fun _ => ?_
  exact readGlobal

theorem flushTail {env : Env} {w : KvHeader} {k : KvSlot} : Sound (flushTail env w k) := writePieces

theorem beginSpill {env : Env} {p : Plane} {b : Nat} {i : ImageAt} : Sound (beginSpill env p b i) := upd fun h => h.modTile

theorem secureTail {env : Env} {p : Plane} {c : Commit} {b i : Nat} : Sound (secureTail env p c b i) := by
  refine bind get fun _ => bind get fun _ => ?_
  extract_lets +onlyGivenNames rest
  have hrest : ∀ a, Sound (rest a) := by
    intro a
    dsimp only [rest]
    refine bind get fun _ => branch pure (branch pure (bind resolveImage fun _ => bind get fun _ => branch (join pure readImage fun _ => ?_)
      (bind beginSpill fun _ => bind writeDva fun _ => pure)))
    exact bind (upd fun h => h.modTile) fun _ => pure
  split
  · exact branch (bind pure fun _ => hrest _) (bind flushTail fun _ => bind (upd fun h => h.modTile) fun _ => bind writeDva fun _ => bind
      pure fun _ => hrest _)
  · exact bind pure fun _ => hrest _

theorem placeToken {env : Env} {p : Plane} {b i : Nat} {tok : List Byte} : Sound (placeToken env p b i tok) := by
  refine bind get fun _ => ?_
  dsimp only
  split
  · exact upd fun h => h.modTile
  · split
    · exact pure
    · exact bind writePieces fun _ => upd fun h => h.modTile

theorem finishBlock {env : Env} {p : Plane} {b : Nat} {c : Commit} : Sound (finishBlock env p b c) := by
  refine bind get fun _ => ?_
  dsimp only
  split
  · exact bind writeImage fun _ => bind (upd fun h => h.modTile) fun _ => bind writeDir fun _ => pure
  · exact bind (upd fun h => h.modTile) fun _ => bind writeDir fun _ => pure

theorem commitOne {env : Env} {p : Plane} {c : Commit} {tok : Nat → List Byte} : Sound (commitOne env p c tok) :=
  bind secureTail fun _ => bind placeToken fun _ => bind writeDir fun _ => branch finishBlock pure

theorem commitAll {env : Env} {p : Plane} {toks : List (Nat → List Byte)} {c : Commit} : Sound (commitAll env p toks c) := by
  induction toks generalizing c with
  | nil => exact pure
  | cons tok toks ih =>
    refine bind get fun _ => bind (tryCatch (bind commitOne fun _ => pure) fun _ => pure) fun _ => ?_
    split
    · exact ih
    · exact branch throw (bind readDir fun _ => bind get fun _ => pure)

theorem blockMirrored {env : Env} {p : Plane} {b : Nat} : Sound (blockMirrored env p b) := by
  refine bind get fun _ => ?_
  dsimp only
  split
  · exact pure
  · exact pure
  · exact peek

theorem commitMirrored {env : Env} {p : Plane} {d : KvDir} {n : Nat} : Sound (commitMirrored env p d n) :=
  anyM (fun _ => blockMirrored)

theorem applyCommit {env : Env} {p : Plane} {d : KvDir} {mirrorIt : Bool} {toks : List (Nat → List Byte)} :
    Sound (Machine.applyCommit env p d mirrorIt toks) := by
  refine bind get fun _ => join commitMirrored pure fun mirrored => bind get fun s => ?_
  dsimp only
  generalize (if mirrored = true then _ else MirrorWay.both) = way
  cases way with
  | refuse => exact kvRefuse
  | both =>
    refine optional writeDva fun _ => bind commitAll fun (_, e) => ?_
    cases e with
    | none => exact branch pure pure
    | some _ => exact bind (upd fun h => h.recordFault) fun _ => branch pure pure
  | alone =>
    refine optional writeDva fun _ => bind commitAll fun (_, e) => ?_
    have hmark {a b : Applied} {c : Prop} {dec : Decidable c} {env : Env} {h : KvHeader} {plane : Nat} {d : KvDir} :
        Sound (ite c (Pure.pure a) (Machine.writeDir env h plane d >>= fun _ => Pure.pure b)) := branch pure (bind writeDir fun _ => pure)
    cases e with
    | none => exact branch pure hmark
    | some _ => exact bind (upd fun h => h.recordFault) fun _ => branch pure hmark

theorem applyStage {env : Env} {p : Plane} {d : KvDir} {n : Nat} {r : AppendRows} : Sound (applyStage env p d n r) := by
  unfold Machine.applyStage
  refine optional kvRefuse fun _ => ?_
  refine optional kvRefuse fun _ => ?_
  refine optional kvRefuse fun _ => ?_
  refine bind get fun _ => optional kvRefuse fun _ => ?_
  refine optional kvRefuse fun _ => ?_
  exact bind (upd fun h => h.modTile) fun _ => bind writeDva fun _ => pure

theorem applyAccept {env : Env} {p : Plane} {d : KvDir} {n : Nat} {r : AppendRows} : Sound (applyAccept env p d n r) := by
  unfold Machine.applyAccept
  refine optional kvRefuse fun _ => ?_
  refine bind get fun _ => ?_
  split
  · refine optional kvRefuse fun _ => ?_
    exact bind (bind (upd fun h => h.modTile) fun _ => writeDva) fun _ => pure
  · refine optional kvRefuse fun _ => ?_
    refine optional kvRefuse fun _ => ?_
    refine optional kvRefuse fun _ => ?_
    refine bind applyCommit fun _ => ?_
    extract_lets +onlyGivenNames rest
    have hrest : ∀ a, Sound (rest a) := fun _ => pure
    exact branch (bind readDir fun _ => bind (bind (upd fun h => h.modTile) fun _ => writeDva) fun _ => hrest ()) (hrest ())

theorem applyEntryCommit {env : Env} {p : Plane} {d : KvDir} {n : Nat} {r : AppendRows} : Sound (applyEntryCommit env p d n r) := by
  unfold Machine.applyEntryCommit
  dsimp only
  split
  · refine optional kvRefuse fun _ => ?_
    exact applyCommit
  · refine optional kvRefuse fun _ => ?_
    refine optional kvRefuse fun _ => ?_
    refine optional kvRefuse fun _ => ?_
    exact applyCommit

theorem sameTail {env : Env} {p : Plane} {b n : Nat} {image : List Byte} : Sound (sameTail env p b n image) := by
  refine bind get fun _ => ?_
  extract_lets +onlyGivenNames x rest
  have hrest : ∀ a, Sound (rest a) := fun _ => pure
  split
  · exact bind pure fun _ => hrest _
  · refine bind (tryCatch (bind readGlobal fun _ => pure) fun _ => optional throw fun _ => ?_) fun _ => hrest _
    exact pure
  · exact bind pure fun _ => hrest _

theorem applyTail {env : Env} {p : Plane} {d : KvDir} {r : AppendRows} : Sound (applyTail env p d r) := by
  refine bind get fun _ => bind get fun _ => join pure sameTail fun _ => ?_
  refine branch pure (branch kvRefuse (bind get fun _ => ?_))
  extract_lets +onlyGivenNames me rest
  have hrest : ∀ a, Sound (rest a) := fun _ => bind writeDir fun _ => bind (upd fun h => h.set.raise) fun _ => pure
  exact branch (bind pure fun _ => hrest _) (bind resolveImage fun _ => bind (upd fun h => h.modTile) fun _ => bind get fun _ => branch
    (bind (upd fun h => h.modTile) fun _ => bind pure fun _ => hrest _)
    (bind writeImage fun _ => bind beginSpill fun _ => bind pure fun _ => hrest _))

theorem applyRows {bad : Bool} {env : Env} {r : AppendRows} : Sound (Machine.applyRows bad env r) := by
  have hmode {mode : Nat} {env front : Env} {p : Plane} {d : KvDir} {toks : Nat} {r : AppendRows} :
      Sound (match mode with
        | 0 => Machine.applyEntryCommit env p d toks r
        | 1 => Machine.applyStage front p d toks r
        | _ => Machine.applyAccept front p d toks r) := by
    split
    · exact applyEntryCommit
    · exact applyStage
    · exact applyAccept
  refine bind readHeader fun _ => bind get fun _ => optional kvRefuse fun _ => optional kvRefuse fun _ => ?_
  refine bind readDir fun _ => branch applyTail (bind get fun _ => optional kvRefuse fun _ => bind get fun _ => ?_)
  exact branch (bind (upd fun h => h.modTile) fun _ => bind kvRefuse fun _ => bind get fun _ => hmode) (bind get fun _ => hmode)

theorem issueEntry {env : Env} {mode : Nat} {e : BitVec 256} : Sound (issueEntry env mode e) := by
  refine bind readHeader fun _ => optional kvRefuse fun _ => ?_
  refine bind readDir fun _ => optional kvRefuse fun _ => ?_
  refine optional kvRefuse fun _ => ?_
  refine optional kvRefuse fun _ => ?_
  refine bind get fun _ => optional kvRefuse fun _ => ?_
  refine branch (optional kvRefuse fun _ => ?_) (optional kvRefuse fun _ => ?_)
  · exact bind wsRead fun _ => pure
  · refine bind wsRead fun _ => bind wsRead fun _ => join wsRead pure fun _ => ?_
    exact pure

theorem entryTry {env : Env} {i : Nat} {m : M AppendGo} (hm : Sound m) : Sound (entryTry env i m) := by
  unfold Machine.entryTry
  refine tryCatch (bind hm fun _ => pure) fun _ => optional throw fun _ => ?_
  exact bind (upd fun h => h.recordFault) fun _ => pure

theorem issueAll {d : DescSlot} {env : Env} {mode : Nat} : Sound (issueAll d env mode) :=
  mapM (fun _ => bind readDva fun _ => bind (entryTry issueEntry) fun _ => pure)

end Sound

namespace Keeps

variable {v s : State}

theorem sendFragments {t : TileRef} {dst : Nat} {job : BitVec 16} {step hi hi2 : Nat} {bytes : List Byte} {user : TxnUser} (h : Keeps v s) :
    Keeps v (s.sendFragments t dst job step hi hi2 bytes user) :=
  foldl (fun _ h => h.countSent.sendMsg) h.requestOf

theorem finishAppend {t : TileRef} {i : Nat} (h : Keeps v s) : Keeps v (s.finishAppend t i) := by
  unfold State.finishAppend
  split
  · exact h
  · refine branch h ?_
    dsimp only
    split
    · next heq => exact (h.of_result .writeDva heq).modSlot.conclude
    · next heq => exact (h.of_result .writeDva heq).recordFault.modSlot.conclude

theorem entryDone {t : TileRef} {i entry : Nat} {o : Outc} {record : BitVec 64} (h : Keeps v s) :
    Keeps v (s.entryDone t i entry o record) :=
  h.modSlot.finishAppend

theorem sendEntry {t : TileRef} {i mode : Nat} {d : DescSlot} {bad : Bool} {n : Nat} {e : BitVec 256 × Except Outc AppendGo} (h : Keeps v s)
    :
    Keeps v (s.sendEntry t i mode d bad n e) := by
  unfold State.sendEntry
  split
  · exact h.entryDone
  · refine branch h.meshSendAfter (branch h.entryDone ?_)
    split
    · exact h.entryDone
    · exact h.sendFragments

theorem runAppend {t : TileRef} {i mode : Nat} {k : StoreErr} (h : Keeps v s) : Keeps v (s.runAppend t i mode k) := by
  unfold State.runAppend
  split
  · exact h
  · refine branch h ?_
    dsimp only
    split
    · next heq =>
      split
      · exact h.countStore.askFor
      · exact (h.countStore.of_result .issueAll heq).recordFault.conclude
    · next heq => exact foldl (fun _ h => h.sendEntry) (h.countStore.of_result .issueAll heq).modTile.modSlot

theorem execCommit {t : TileRef} {slot : Nat} {e : StoreErr} (h : Keeps v s) : Answers v (execCommit t slot e s) := h.runAppend

theorem execStage {t : TileRef} {slot : Nat} {e : StoreErr} (h : Keeps v s) : Answers v (execStage t slot e s) := h.runAppend

theorem execAccept {t : TileRef} {slot : Nat} {e : StoreErr} (h : Keeps v s) : Answers v (execAccept t slot e s) := h.runAppend

theorem answerEntry {r : AppendRows} {o : Outc} {record : BitVec 64} (h : Keeps v s) : Keeps v (s.answerEntry r o record) := by
  unfold State.answerEntry
  split
  · exact h.entryDone
  · exact h.respond

end Keeps

namespace Sound

theorem markUnmirrored {env : Env} {pt : BitVec 64} {plane : Nat} : Sound (markUnmirrored env pt plane) :=
  bind readHeader fun _ => bind readDir fun _ => writeDva

end Sound

namespace Keeps

variable {v s : State}

theorem mirrorCommit {t : TileRef} {r : AppendRows} {a : Applied} {bytes : List Byte} (h : Keeps v s) :
    Keeps v (s.mirrorCommit t r a bytes) :=
  branch (branch h.answerEntry (h.countPartial.run .markUnmirrored).answerEntry) h.sendFragments

theorem partDone {t : TileRef} {r : AppendRows} {a : Applied} (h : Keeps v s) : Keeps v (s.partDone t r a) := by
  have hrest {c : CornisState} : Keeps v (if r.since = 0 then s else { s with cornis := c }) := branch h h.set
  unfold State.partDone
  cases a.send with
  | none => exact branch h.set (answerEntry (branch (countPartial hrest) hrest))
  | some bytes => exact branch h.set (mirrorCommit hrest)

theorem rowsArrive {t : TileRef} {r : AppendRows} {again : State} {bad : Bool} (h : Keeps v s) (hagain : Keeps v again) :
    Keeps v (s.rowsArrive t r again bad) := by
  refine branch h.partDone (branch h.partDone ?_)
  extract_lets before done
  split
  · next hr => exact (h.of_result .applyRows hr).modTile.partDone
  · next hr =>
    split
    · exact hagain.askNeed.modTile
    · exact (h.of_result .applyRows hr).recordFault.modTile.partDone

theorem execAppendRowsArrive {t : TileRef} {e : StoreErr} (h : Keeps v s) : Answers v (Machine.execAppendRowsArrive t e s) := by
  unfold Machine.execAppendRowsArrive
  split
  · exact h
  · exact .branch h (h.set.advanceTo.rowsArrive h.advanceTo)

theorem kvRun {m : M Outc} (h : Keeps v s) (hm : Sound m) : Keeps v (kvRun m s).2 := by
  unfold Machine.kvRun
  split
  · next heq => exact (h.of_result hm heq)
  · next heq =>
    split
    · exact (h.of_result hm heq)
    · exact (h.of_result hm heq)

end Keeps

namespace Sound

theorem kvTile {d : KvDir} : Sound (kvTile d) := by
  unfold Machine.kvTile
  refine optional kvRefuse fun _ => ?_
  refine bind get fun _ => optional kvRefuse fun _ => ?_
  exact pure

theorem flushPlane {w : KvHeader} {pt : BitVec 64} {plane : Nat} {env : Env} : Sound (flushPlane w pt plane env) := by
  unfold Machine.flushPlane
  refine optional kvRefuse fun _ => ?_
  refine bind readDir fun _ => optional kvRefuse fun _ => ?_
  refine bind kvTile fun _ => bind get fun _ => optional kvRefuse fun _ => ?_
  refine bind get fun _ => bind get fun _ => ?_
  extract_lets +onlyGivenNames rest
  have hrest : ∀ a, Sound (rest a) := fun _ => bind (upd fun h => h.modTile) fun _ => bind writeDva fun _ => pure
  split
  · exact branch (bind kvRefuse fun _ => hrest ()) (bind flushTail fun _ => hrest ())
  · exact hrest ()

theorem releasePlane {w : KvHeader} {pt : BitVec 64} {plane : Nat} {env : Env} : Sound (releasePlane w pt plane env) := by
  unfold Machine.releasePlane
  refine optional kvRefuse fun _ => ?_
  refine bind readDir fun _ => bind kvTile fun _ => bind get fun _ => optional kvRefuse fun _ => ?_
  exact bind get fun _ => bind (upd fun h => h.modTile) fun _ => bind writeDva fun _ => pure

end Sound

namespace Keeps

variable {v s : State}

theorem askCmdRead {c : Cmd} {env : Env} {n : Need} (h : Keeps v s) : Keeps v (s.askCmdRead c env n) := branch h h.askNeed

end Keeps

namespace Sound

theorem tablePkg {env : Env} {pt : BitVec 64} : Sound (tablePkg env pt) := bind (atDva translate) fun _ => pure

end Sound

namespace Keeps

variable {v s : State}

theorem atTable {c : Cmd} {here : State → State} (h : Keeps v s) (hhere : ∀ {s}, Keeps v s → Keeps v (here s)) :
    Keeps v (s.atTable c here) := by
  unfold State.atTable
  split
  · next heq => exact (h.of_result .tablePkg heq).finishWith
  · next heq => exact branch (hhere (h.of_result .tablePkg heq)) (branch h (h.of_result .tablePkg heq).passOn)

theorem planePass {act : Nat → M Outc} {planes : List Nat} {acc : List (Nat × Outc)} (h : Keeps v s) (hact : ∀ k, Sound (act k)) :
    Keeps v (planePass act planes s acc).2 := by
  induction planes generalizing s acc with
  | nil => exact h
  | cons k planes ih =>
    unfold Machine.planePass
    split
    · next heq => exact ih ((h.kvRun (hact k)).of_snd heq)
    · next heq => exact (h.kvRun (hact k)).of_snd heq

theorem overPlanes {c : Cmd} {act : KvHeader → BitVec 64 → Nat → Env → M Outc} (h : Keeps v s)
    (hact : ∀ a0 a1 a2 a3, Sound (act a0 a1 a2 a3)) :
    Keeps v (s.overPlanes c act) := by
  unfold State.overPlanes
  refine h.atTable (fun h => ?_)
  dsimp only
  split
  · next heq => exact (h.of_result .readHeader heq).finishWith
  · next heq =>
    split
    · next heq1 => exact h.askCmdRead
    · next heq1 => exact (((h.of_result .readHeader heq).planePass (fun _ => hact _ _ _ _)).of_snd heq1).finish

theorem execKvFlush {c : Cmd} (h : Keeps v s) : Answers v (execKvFlush c s) := h.onCmd (fun h => h.overPlanes (fun _ _ _ _ => .flushPlane))

theorem execKvRelease {c : Cmd} (h : Keeps v s) : Answers v (execKvRelease c s) :=
  h.onCmd (fun h => h.overPlanes (fun _ _ _ _ => .releasePlane))

end Keeps

namespace Sound

theorem tailData {pt : BitVec 64} {plane : Nat} {env : Env} : Sound (tailData pt plane env) := by
  refine bind readHeader fun _ => optional kvRefuse fun _ => ?_
  refine bind readDva fun _ => optional kvRefuse fun _ => ?_
  refine bind kvTile fun _ => bind get fun _ => optional kvRefuse fun _ => ?_
  exact pure

end Sound

namespace Keeps

variable {v s : State}

theorem execKvTailRead {c : Cmd} (h : Keeps v s) : Answers v (execKvTailRead c s) := by
  unfold Machine.execKvTailRead
  refine h.onCmd (fun h => h.atTable (fun h => ?_))
  split
  · next heq => exact (h.of_result .tailData heq).finishData
  · next heq => exact (h.of_result .tailData heq).finishWith

theorem execKvBufferRead {c : Cmd} (h : Keeps v s) : Answers v (execKvBufferRead c s) := h.onCmd (fun h => h.runReplicated (fun _ h => h))

end Keeps

/-! ### Attention (R231 to R248) -/

namespace Sound

theorem freeParents {n : Nat} : Sound (freeParents n) := mapM (fun _ => getSet (fun h => h.freeVal) fun _ => pure)

theorem stagedParents {home : BitVec 32} {pt : BitVec 64} {plane seq n : Nat} : Sound (stagedParents home pt plane seq n) := by
  refine bind get fun _ => ?_
  dsimp only
  split
  · exact pure
  · exact freeParents

theorem seqTry {α : Type} {env : Env} {m : M α} (hm : Sound m) : Sound (seqTry env m) := by
  unfold Machine.seqTry
  refine tryCatch (bind hm fun _ => pure) fun _ => optional throw fun _ => ?_
  exact bind (upd fun h => h.recordFault) fun _ => pure

theorem planSequence {env : Env} {a : AttnArgs} {n : Nat} {e : BitVec 256} : Sound (planSequence env a n e) := by
  refine bind readHeader fun _ => bind readDva fun _ => bind (seqTry (optional kvRefuse fun _ => ?_)) fun _ => ?_
  · refine optional kvRefuse fun _ => ?_
    exact readDir
  · split
    · exact pure
    · refine join pure stagedParents fun _ => ?_
      exact pure

theorem placementPieces {env : Env} {a : AttnArgs} {p : SeqPlan} {targets : List (BitVec 32)} :
    Sound (placementPieces env a p targets) := by
  refine bind readDva fun _ => optional kvRefuse fun _ => ?_
  refine optional kvRefuse fun _ => ?_
  exact pure

theorem memoryPieces {env : Env} {a : AttnArgs} {p : SeqPlan} {targets : List (BitVec 32)} : Sound (memoryPieces env a p targets) := by
  unfold Machine.memoryPieces
  extract_lets +onlyGivenNames span rest
  have hrest : ∀ a, Sound (rest a) := fun _ => pure
  split
  · exact bind pure fun _ => hrest _
  · exact bind pure fun _ => hrest _
  · exact bind pure fun _ => hrest _
  · exact bind placementPieces fun _ => hrest _

theorem planAll {env : Env} {a : AttnArgs} : Sound (planAll env a) :=
  mapM (fun _ => bind readDva fun _ => bind (seqTry planSequence) fun _ => pure)

theorem dealOne {env : Env} {a : AttnArgs} {d : DescSlot} {targets : List (BitVec 32)} {p : SeqPlan} {loads : List (BitVec 32 × Nat)} :
    Sound (dealOne env a d targets p loads) :=
  bind memoryPieces fun _ => bind (forM (fun _ => branch writeDva pure)) fun _ => pure

theorem dealAll {env : Env} {a : AttnArgs} {d : DescSlot} {targets : List (BitVec 32)} {plans : List SeqPlan}
    {loads : List (BitVec 32 × Nat)} : Sound (dealAll env a d targets plans loads) := by
  induction plans generalizing loads with
  | nil => exact pure
  | cons p plans ih =>
    refine bind (seqTry dealOne) fun _ => ?_
    split
    · exact bind ih fun _ => pure
    · exact bind ih fun _ => pure

theorem leadAttention {env : Env} {d : DescSlot} {targets : List (BitVec 32)} : Sound (leadAttention env d targets) :=
  bind planAll fun _ => bind dealAll fun _ => pure

end Sound

namespace Keeps

variable {v s : State}

theorem writeSeqHeader {t : TileRef} {i : Nat} {d : DescSlot} {q : SeqRun} (h : Keeps v s) : Keeps v (s.writeSeqHeader t i d q) := by
  unfold State.writeSeqHeader
  extract_lets env put away
  have hput (env : Env) : Keeps v (put env).2 := h.run .writeDva
  split
  · next hr => 
    have hs := (hput _).of_snd hr
    exact branch hs.sendQueued hs
  · next hr => exact ((hput _).of_snd hr).recordFault.modSlot

theorem settleAttention {t : TileRef} {i : Nat} (h : Keeps v s) : Keeps v (s.settleAttention t i) := by
  unfold State.settleAttention
  split
  · exact h
  · exact branch h h.modTile.finishSlot

theorem leadAnswer {t : TileRef} {i : Nat} {txn : BitVec 16} {o : Outc} (h : Keeps v s) : Keeps v (s.leadAnswer t i txn o) :=
  h.modSlot.settleAttention

theorem itemReported {t : TileRef} {i seq slotNo : Nat} {o : Outc} {wrote : Bool} {poison : BitVec 64} (h : Keeps v s) :
    Keeps v (s.itemReported t i seq slotNo o wrote poison) := by
  unfold State.itemReported
  dsimp only
  split
  · exact (branch h.modTile.writeSeqHeader h.modTile).settleAttention
  · exact h.modTile

theorem sendItem {t : TileRef} {i k : Nat} {e : BitVec 32 × AttnItem} (h : Keeps v s) : Keeps v (s.sendItem t i k e) := by
  unfold State.sendItem
  refine branch h.meshSend ?_
  split
  · exact h.itemReported
  · exact h.requestOf

theorem sendItems {t : TileRef} {i : Nat} {d : DescSlot} (h : Keeps v s) : Keeps v (s.sendItems t i d) :=
  settleAttention (foldl (fun _ h => h.writeSeqHeader) (foldl (fun _ h => h.sendItem) h.modTile.modTile.modSlot))

end Keeps

namespace Sound

theorem recheckGen {env : Env} {l : List SeqRun} : Sound (recheckGen env l) :=
  mapM (fun _ => branch pure (bind readDva fun _ => branch pure pure))

end Sound

namespace Keeps

variable {v s : State}

theorem attnSecond {t : TileRef} {i : Nat} {d : DescSlot} (h : Keeps v s) : Keeps v (s.attnSecond t i d) := by
  unfold State.attnSecond
  dsimp only
  split
  · next heq => exact (h.modSlot.of_result .recheckGen heq).modTile.sendItems
  · next heq =>
    split
    · exact h.modSlot.askFor
    · exact (h.modSlot.of_result .recheckGen heq).recordFault.modTile.finishSlot

theorem runAttention {t : TileRef} {i : Nat} (h : Keeps v s) : Keeps v (s.runAttention t i) := by
  unfold State.runAttention
  split
  · exact h
  · refine branch h.attnSecond (branch h.finishSlot (branch h.finishSlot ?_))
    dsimp only
    split
    · next heq => exact have h₁ := (h.of_result .leadAttention heq).modTile.modSlot; branch h₁.modSlot h₁.sendItems
    · next heq =>
      split
      · exact h.askFor
      · exact (h.of_result .leadAttention heq).recordFault.finishSlot

theorem execAttention {t : TileRef} {slot : Nat} (h : Keeps v s) : Answers v (execAttention t slot s) := h.runAttention

end Keeps

namespace Sound

theorem poisonSlot {it : AttnItem} : Sound (poisonSlot it) := bind (mapM (fun _ => bind freeBytes fun _ => pure)) fun _ => pure

theorem notBlock {α : Type} {m : M α} (hm : Sound m) : Sound (notBlock m) := adapt hm

theorem checkGen {env : Env} {it : AttnItem} : Sound (checkGen env it) := bind (notBlock readDva) fun _ => pure

theorem startItem {env : Env} {it : AttnItem} : Sound (startItem env it) := by
  refine bind get fun _ => join pure checkGen fun _ => ?_
  exact bind (notBlock readDva) fun _ => branch (bind (notBlock readDva) fun _ => pure) pure

theorem ofBlock {α : Type} {dva : BitVec 64} {m : M α} (hm : Sound m) : Sound (ofBlock dva m) := adapt hm

theorem blockDva {env : Env} {it : AttnItem} {b : Nat} : Sound (blockDva env it b) := by
  unfold Machine.blockDva
  dsimp only
  split
  · exact pure
  · exact notBlock readBlockDva

theorem blockImage {bad : Bool} {env : Env} {it : AttnItem} {b : Nat} : Sound (blockImage bad env it b) := by
  refine bind get fun _ => ?_
  dsimp only
  split
  · exact branch (bind (upd fun h => h.modTile) fun _ => stop) pure
  · refine bind blockDva fun _ => optional stop fun _ => ?_
    refine optional stop fun _ => ?_
    refine bind (atDva translate) fun _ => optional stop fun _ => ?_
    exact ofBlock readDva

theorem blockTokens {bad : Bool} {env : Env} {it : AttnItem} {b : Nat} : Sound (Machine.blockTokens bad env it b) := by
  unfold Machine.blockTokens
  refine branch (bind get fun _ => ?_) (bind blockImage fun _ => pure)
  dsimp only
  split
  · exact branch (bind stop fun _ => pure) (bind pure fun _ => pure)
  · exact bind freeBytes fun _ => pure

end Sound

namespace Keeps

variable {v s : State}

theorem endItem {t : TileRef} {it : AttnItem} {o : Outc} {wrote : Bool} {poison : BitVec 64} (h : Keeps v s) :
    Keeps v (s.endItem t it o wrote poison) :=
  h.modTile.reportItem

theorem askItem {t : TileRef} {it : AttnItem} {n : Need} (h : Keeps v s) : Keeps v (s.askItem t it n) := by
  unfold State.askItem
  exact h.askNeed.modTile

theorem stopItem {t : TileRef} {it : AttnItem} {e : Stop} (h : Keeps v s) : Keeps v (s.stopItem t it e) := by
  unfold State.stopItem
  refine branch ?_ h.recordFault.endItem
  dsimp only
  split
  · next heq => exact (h.of_result (.bind .poisonSlot fun _ => .writeDva) heq).endItem
  · next heq =>
    split
    · exact h.askItem
    · exact (h.of_result (.bind .poisonSlot fun _ => .writeDva) heq).recordFault.endItem

theorem itemStep {t : TileRef} {it : AttnItem} {m : Env → M AttnItem} (h : Keeps v s) (hm : ∀ a0, Sound (m a0)) :
    Keeps v (s.itemStep t it m) := by
  unfold State.itemStep
  split
  · next heq => exact (h.of_result (hm _) heq).modTile
  · next heq =>
    split
    · exact h.askItem
    · exact (h.of_result (hm _) heq).stopItem

theorem startHead {t : TileRef} (h : Keeps v s) : Keeps v (s.startHead t) := by
  unfold State.startHead
  split
  · exact h
  · exact branch h (h.itemStep (fun _ => .bind .startItem fun _ => .bind .get fun _ => .pure))

theorem itemRest {t : TileRef} {it : AttnItem} (h : Keeps v s) : Keeps v (s.itemRest t it) := h.modTile.advanceTo

theorem finishItem {t : TileRef} (h : Keeps v s) : Keeps v (s.finishItem t) := by
  unfold State.finishItem
  split
  · exact h
  · refine branch h ?_
    dsimp only
    split
    · next heq => exact (h.itemRest.of_result (.bind .checkGen fun _ => .bind .writeDva fun _ => .pure) heq).advanceTo.endItem
    · next heq =>
      split
      · exact h.itemRest.askItem
      · exact (h.itemRest.of_result (.bind .checkGen fun _ => .bind .writeDva fun _ => .pure) heq).stopItem

theorem nextBlock {t : TileRef} {bad : Bool} (h : Keeps v s) : Keeps v (s.nextBlock t bad) := by
  unfold State.nextBlock
  split
  · exact h
  · refine branch h.startHead ?_
    split
    · exact h
    · exact h.advanceTo.itemStep (fun _ => .bind .blockTokens fun _ => .bind (.upd fun h => h.modTile) fun _ => .pure)

theorem execAttentionItem {t : TileRef} (h : Keeps v s) : Answers v (execAttentionItem t s) := by
  unfold Machine.execAttentionItem
  split
  · exact h.startHead
  · exact .branch h (.branch h.set.advanceTo.reportItem h.set.advanceTo.modTile.startHead)

theorem execBlockArrival {t : TileRef} {e : StoreErr} (h : Keeps v s) : Answers v (execBlockArrival t e s) := h.nextBlock.finishItem

theorem execItemReport {t : TileRef} (h : Keeps v s) : Answers v (execItemReport t s) := by
  unfold Machine.execItemReport
  split
  · exact h
  · exact branch h.set.advanceTo.itemReported h

end Keeps

namespace Sound

theorem mergeCount {env : Env} {rows dim records : Nat} : Sound (mergeCount env rows dim records) := upd fun h => h.modTile

theorem mergeSequence {env : Env} {d : BitVec 512} {sat : Bool} {n : Nat} : Sound (mergeSequence env d sat n) :=
  bind readDva fun _ => branch pure (branch pure (bind (mapM (fun _ => readDva)) fun _ => bind writeDva fun _ => bind writeDva fun _ => bind
    mergeCount fun _ => pure))

theorem mergeBody {slot : DescSlot} {env : Env} : Sound (mergeBody slot env) :=
  bind (mapM (fun _ => mergeSequence)) fun _ => bind get fun _ => bind pathExcess fun _ => pure

end Sound

namespace Keeps

variable {v s : State}

theorem execMerge {t : TileRef} {slot : Nat} (h : Keeps v s) : Answers v (execMerge t slot s) :=
  h.runDesc (fun _ h => h.noStop) (fun _ _ => .mergeBody)

end Keeps

/-! ### The Pewter units (R256 to R276) -/

namespace Sound

theorem startEntry {env : Env} {l : List XEntry} {dva : BitVec 64} {check : XEntry → M Unit} (hcheck : ∀ a0, Sound (check a0)) :
    Sound (startEntry env l dva check) := by
  unfold Machine.startEntry
  split
  · exact pure
  · exact bind (atDva translate) fun _ => bind (hcheck _) fun _ => pure

theorem localTo {env : Env} {own : Bool} {g : Nat} {dva : BitVec 64} : Sound (localTo env own g dva) := by
  refine bind get fun _ => optional stop fun _ => ?_
  exact branch stop pure

theorem checkPage {env : Env} {d : BitVec 512} {acc : List XEntry × List (Nat × Nat × Nat)} {page : Nat} :
    Sound (checkPage env d acc page) := by
  refine bind (startEntry (fun _ => bind localTo fun _ => optional stop fun _ => ?_)) fun _ => bind localTo fun _ => optional mirrorReadable
    fun _ => ?_
  · exact branch stop pure
  · refine bind (upd fun h => h.useRegion) fun _ => bind get fun _ => ?_
    dsimp only
    split
    · exact branch stop stop
    · refine optional stop fun _ => ?_
      exact pure

theorem startChecks {d : BitVec 512} {env : Env} : Sound (startChecks d env) := by
  refine bind get fun _ => optional stop fun _ => ?_
  extract_lets +onlyGivenNames rest
  have hrest : ∀ a, Sound (rest a) := by
    intro a
    dsimp only [rest]
    refine bind (foldlM (fun _ _ => checkPage)) fun _ => branch pure
      (bind (foldlM (fun _ _ => startEntry (fun _ => bind localTo fun _ => optional stop fun _ => ?_))) fun _ => pure)
    exact branch stop pure
  refine branch ?_ (hrest ())
  split
  · exact bind stop fun _ => hrest ()
  · exact branch (bind stop fun _ => hrest ()) (hrest ())

end Sound

namespace Keeps

variable {v s : State}

theorem startSequence {t : TileRef} {i : Nat} {d : DescSlot} {pages : List (Nat × Nat × Nat)} {outs maps : List XEntry} {e : StoreErr}
    (h : Keeps v s) :
    Keeps v (s.startSequence t i d pages outs maps e) :=
  h.modSlot.modTile

theorem execPewterMv {t : TileRef} {slot : Nat} (h : Keeps v s) : Answers v (execPewterMv t slot s) := by
  unfold Machine.execPewterMv
  split
  · exact h
  · exact branch h.dispatch h

theorem execPewterSequenceStart {t : TileRef} {e : StoreErr} (h : Keeps v s) : Answers v (execPewterSequenceStart t e s) := by
  unfold Machine.execPewterSequenceStart
  split
  · exact h
  · refine .branch h ?_
    dsimp only
    split
    · next heq => exact (branch (h.of_result .startChecks heq).countStore (h.of_result .startChecks heq)).startSequence
    · next heq => exact (h.of_result .startChecks heq).recordFault.finishSlot

theorem modSeq {t : TileRef} {order : Nat} {f : PewSeq → PewSeq} (h : Keeps v s) : Keeps v (s.modSeq t order f) := h.modTile

theorem skipPage {t : TileRef} {q : PewSeq} {page : Nat} (h : Keeps v s) : Keeps v (s.skipPage t q page) := h.modSeq.modTile

theorem stopPage {t : TileRef} {q : PewSeq} {page bank : Nat} {st rs : Code} (h : Keeps v s) : Keeps v (s.stopPage t q page bank st rs) :=
  h.set.modSeq

theorem sliceData {t : TileRef} {sp : Nat} (h : Keeps v s) : Keeps v (s.sliceData t sp).2 := branchSnd h.set h

theorem beginSlice {t : TileRef} {bank : Nat} {q : PewSeq} {w : VecSlot} {page sp : Nat} {e : StoreErr} (h : Keeps v s) :
    Keeps v (s.beginSlice t bank q w page sp e) := by
  unfold State.beginSlice
  extract_lets +onlyGivenNames s₁ time fin data s₂ s₃ s₄
  have h₁ : Keeps v s₁ := h.mergeNarrow.advanceTo
  have h₂ : Keeps v s₂ := h₁.sliceData.modSeq
  have h₃ : Keeps v s₃ := h₂.modTile
  exact (branch h₃.modTile h₃.pageMoved.modTile : Keeps v s₄).modTile

theorem execPewterSlice {t : TileRef} {bank : Nat} {e : StoreErr} (h : Keeps v s) : Answers v (execPewterSlice t bank e s) := by
  unfold Machine.execPewterSlice
  refine .branch h ?_
  split
  · exact h
  · refine .branch h.useRegion.skipPage (.branch h.useRegion.stopPage
      (.branch h.useRegion.stopPage (.branch h.useRegion.stopPage (.branch h.useRegion ?_))))
    split
    · exact h.useRegion
    · exact h.useRegion.beginSlice

theorem execPewterSliceEnd {t : TileRef} {bank : Nat} (h : Keeps v s) : Answers v (execPewterSliceEnd t bank s) := by
  unfold Machine.execPewterSliceEnd
  split
  · exact h
  · exact .branch h h.advanceTo.modTile

theorem endSequence {t : TileRef} {q : PewSeq} (h : Keeps v s) : Keeps v (s.endSequence t q) := h.advanceTo.modTile.finishSlot

theorem execPewterSequenceComplete {t : TileRef} {tag : Nat} (h : Keeps v s) : Answers v (execPewterSequenceComplete t tag s) := by
  unfold Machine.execPewterSequenceComplete
  dsimp only
  split
  · exact h
  · exact branch h.endSequence h

end Keeps

namespace Sound

theorem putResult {env : Env} {q : PewSeq} {row w : Nat} : Sound (putResult env q row w) := by
  unfold Machine.putResult
  refine branch (bind wsRead fun _ => wsWrite) ?_
  dsimp only
  split
  · exact pure
  · refine optional mirrorReadable fun _ => ?_
    refine join readGlobal pure fun _ => ?_
    refine optional (atDva appendMark) fun _ => ?_
    exact writeGlobal

theorem putResults {env : Env} {q : PewSeq} : Sound (putResults env q) := forM (fun _ => forM (fun _ => putResult))

end Sound

namespace Keeps

variable {v s : State}

theorem fenceOne {t : TileRef} {i : Nat} {env : Env} {e : StoreErr} {q : PewSeq} (h : Keeps v s) : Keeps v (s.fenceOne t i env e q) := by
  unfold State.fenceOne
  extract_lets +onlyGivenNames k put r o s₁
  have h₁ : Keeps v s₁ := by
    dsimp only [s₁]
    split
    · exact branchSnd h (h.run (.bind .putResults fun _ => .bind (.upd fun h => h.countStore) fun _ => .branch
        (.bind .freeBytes fun _ => .wsWrite) .pure))
    · exact recordFault (branchSnd h (h.run (.bind .putResults fun _ => .bind (.upd fun h => h.countStore) fun _ => .branch
        (.bind .freeBytes fun _ => .wsWrite) .pure)))
  exact h₁.modTile.modSlot

theorem fenceAll {t : TileRef} {i tags order : Nat} {env : Env} {e : StoreErr} {n : Nat} (h : Keeps v s) :
    Keeps v (s.fenceAll t i tags order env e n).1 := by
  induction n generalizing s e with
  | zero => exact h
  | succ n ih =>
    unfold State.fenceAll
    split
    · exact h
    · exact branchFst (ih h.fenceOne) h

theorem execFence {t : TileRef} {slot : Nat} {e : StoreErr} (h : Keeps v s) : Answers v (execFence t slot e s) := by
  unfold Machine.execFence
  split
  · exact h
  · refine .branch h (.branch h.fenceAll ?_)
    split
    · exact h.fenceAll
    · exact h.fenceAll.conclude

end Keeps

/-! ### A tile that stops (R514) -/

namespace Keeps

variable {v s : State}

theorem blend {ran : State} {t : TileRef} {k : Nat} (h : Keeps v s) (hran : Keeps v ran) : Keeps v (s.blend ran t k) := by
  unfold State.blend
  extract_lets page
  refine modTile ⟨h.queue, fun hv => ?_⟩
  exact wf_blendCells (h.mem hv) (hran.mem hv) fun a => Config.stopKeeps k 2 (a / pageSize)

end Keeps

namespace Sound

theorem engineBody {op : Nat} {body : DescSlot → Env → M Done} (h : Machine.engineBody op = some body) {d : DescSlot} {env : Env} :
    Sound (body d env) := by
  unfold Machine.engineBody at h
  split at h <;> cases h
  · exact matmulBody
  · exact drainBody
  · exact gemmBody
  · exact vectorBody
  · exact mergeBody
  · exact loadBody
  · exact storeBody
  · exact copyBody
  · exact gatherBody
  · exact scatterBody

end Sound

namespace Keeps

variable {v s : State}

theorem cutShort {t : TileRef} {i : Nat} (h : Keeps v s) : Keeps v (s.cutShort t i) := by
  unfold State.cutShort
  split
  · exact h
  · split
    · exact h
    · next hbody =>
      extract_lets ran msgs s₁ a
      have hran : Keeps v ran := h.run (.engineBody hbody)
      have h₁ : Keeps v s₁ := sendQueued (blend h.set hran)
      exact branch (h₁.run .freeRows) h₁

theorem abortRest {t : TileRef} {o : Outc} (h : Keeps v s) : Keeps v (s.abortRest t o) := by
  unfold State.abortRest
  split
  · exact h
  · exact foldl (fun _ h => h.completeOne.completeSlots) h.setTile

theorem stopTile {t : TileRef} {reason : Code} (h : Keeps v s) : Keeps v (s.stopTile t reason) := by
  unfold State.stopTile
  extract_lets +onlyGivenNames o s₁
  have h₁ : Keeps v s₁ := foldl (fun _ h => h.cutShort) h
  exact abortRest (foldl (fun _ h => h.reportItem) (foldl (fun _ h => h.reportShare) (h₁.run .freeRows).setTile.completeSlots))

theorem dropPlans {t : TileRef} (h : Keeps v s) : Keeps v (s.dropPlans t) := h.modTile

theorem retire {t : TileRef} (h : Keeps v s) : Keeps v (s.retire t) := h.stopTile.dropPlans.modTile

theorem trapTile {t : TileRef} {code : Nat} {info : Word} (h : Keeps v s) : Keeps v (s.trapTile t code info) :=
  have h₁ := h.modTile.retire.tileState.settle.endDemand; h₁.raise

theorem takeTrap {t : TileRef} {code : Nat} {info : Word} (h : Keeps v s) : Keeps v (s.takeTrap t code info) := branch h.trapTile h

theorem execSeqWatchdog {t : TileRef} {info : Word} (h : Keeps v s) : Answers v (execSeqWatchdog t info s) := h.takeTrap

theorem execStoreControl {t : TileRef} {info : Word} (h : Keeps v s) : Answers v (execStoreControl t info s) := h.takeTrap

theorem execFwCheck {t : TileRef} {info : Word} (h : Keeps v s) : Answers v (execFwCheck t info s) := h.takeTrap

end Keeps

end Sys2Proof.Proofs
end

section
/-! The commands of units, the stack memory, the fabric and the twin keep them (O58, continued). -/

namespace Sys2Proof.Proofs

open Sys2Proof Sys2Proof.Machine Sys2Proof.Laws Sys2Proof.Safety

/-! ### Parameters and results of commands (R390, R391) -/

namespace Sound

theorem readOwn {a n kind : Nat} : Sound (readOwn a n kind) := bind (mapM (fun _ => readLocal)) fun _ => pure

theorem writeOwn {a kind : Nat} {bytes : List Byte} : Sound (writeOwn a kind bytes) := forM (fun _ => writeLocal)

end Sound

namespace Keeps

variable {v s : State}

theorem hostFailed {c : Cmd} {addr : Nat} {poisoned : Bool} (h : Keeps v s) : Keeps v (s.hostFailed c addr poisoned) :=
  h.hostFault.finishWith

theorem askHost {addr len : Nat} {use : HostUse} (h : Keeps v s) : Keeps v (s.askHost addr len use) := h.set

theorem askParam {c : Cmd} {z : CmdSlot} {addr len : Nat} (h : Keeps v s) : Keeps v (s.askParam c z addr len) := by
  unfold State.askParam
  refine branch h ?_
  dsimp only
  split
  · exact h.finishWith
  · exact h.request

theorem withParam {c : Cmd} {addr len : Nat} {k : State → List Byte → State} (h : Keeps v s) (hk : ∀ {s} a1, Keeps v s → Keeps v (k s a1)) :
    Keeps v (s.withParam c addr len k) := by
  unfold State.withParam
  split
  · exact h
  · split
    · exact branch h.hostFailed (hk _ h)
    · exact h.hostFailed
    · exact h.hostFailed
    · refine branch (hk _ h) (branch (branch h.hostFailed (branch h h.askHost))
        (branch h.finishWith (branch ?_ (branch (hk _ h.modCmd) h.askParam))))
      split
      · next heq => exact hk _ (h.of_result .readOwn heq).modCmd
      · next heq => exact (h.of_result .readOwn heq).finishWith

end Keeps

/-! ### Commands of units, groups and translation (R112) -/

namespace Keeps

variable {v s : State}

theorem execUnitRead {c : Cmd} (h : Keeps v s) : Answers v (execUnitRead c s) :=
  h.onCmd (fun h => branch h.finishData (h.runAt (fun h => h.finishData)))

theorem execStateDump {c : Cmd} (h : Keeps v s) : Answers v (execStateDump c s) := h.onCmd (fun h => h.runReplicated (fun _ h => h))

theorem execMemberStatus {c : Cmd} (h : Keeps v s) : Answers v (execMemberStatus c s) := by
  unfold Machine.execMemberStatus
  refine h.onCmd (fun h => ?_)
  split
  · exact h.finishWith
  · exact h.finishData

theorem sendRecords {dst : Nat} (h : Keeps v s) : Keeps v (s.sendRecords dst) := foldl (fun _ h => h.sendMsg) h.set

theorem execRecordSend (h : Keeps v s) : Answers v (execRecordSend s) := branch h (foldl (fun _ h => h.sendRecords) h)

theorem askGroup {c : Cmd} {u : BitVec 32} (h : Keeps v s) : Keeps v (s.askGroup c u) := by
  unfold State.askGroup
  refine modCmd ?_
  split
  · exact h
  · exact h.request

theorem writeGroup {c : Cmd} {g count : Nat} {new : List (BitVec 32)} (h : Keeps v s) : Keeps v (s.writeGroup c g count new) := by
  unfold State.writeGroup
  split
  · exact h
  · refine branch h (branch h.finishWith (branch (foldl (fun _ h => h.askGroup) h) ?_))
    split
    · exact h.finishWith
    · exact h.set.bump.noteGroups.finish

theorem execGroupWrite {c : Cmd} (h : Keeps v s) : Answers v (execGroupWrite c s) :=
  h.onCmd (fun h => h.withParam (fun _ h => h.writeGroup))

theorem execGroupDelete {c : Cmd} (h : Keeps v s) : Answers v (execGroupDelete c s) :=
  h.onCmd (fun h => branch h.finishWith (branch h.finishWith h.set.finish))

theorem execGroupRead {c : Cmd} (h : Keeps v s) : Answers v (execGroupRead c s) := by
  unfold Machine.execGroupRead
  refine h.onCmd (fun h => ?_)
  split
  · exact h.finishWith
  · exact h.finishData

theorem removeTile {t : TileRef} {cause : Nat} (h : Keeps v s) : Keeps v (s.removeTile t cause) :=
  branch h h.retire.tileState.endDemand

theorem removeStack {st : Nat} {cause : Nat} (h : Keeps v s) : Keeps v (s.removeStack st cause) :=
  branch h (settlePkg (setStackState (foldl (fun _ h => h.removeTile) h)))

theorem execUnitRemove {c : Cmd} (h : Keeps v s) : Answers v (execUnitRemove c s) :=
  h.onCmd (fun h => h.runAt (fun h => branch h.removeStack.finish h.removeTile.settle.finish))

theorem restoreTile {t : TileRef} (h : Keeps v s) : Keeps v (s.restoreTile t) := h.modTile.writeCode.tileState

theorem restoreStack {c : Cmd} {st : Nat} {headFails : List Nat} {tileFails : List TileRef} (h : Keeps v s) :
    Keeps v (s.restoreStack c st headFails tileFails) := by
  unfold State.restoreStack
  split
  · exact h.finishWith
  · refine branch h.finishWith ?_
    extract_lets +onlyGivenNames s₁ s₂ s₃
    have h₁ : Keeps v s₁ := foldl (fun _ h => h.tileState) h
    have h₂ : Keeps v s₂ := foldl (fun _ h => h.restoreTile) h₁
    have h₃ : Keeps v s₃ := h₂.setStackState.settlePkg
    exact h₃.setDetail.finish

theorem execUnitRestore {c : Cmd} {headFails : List Nat} {tileFails : List TileRef} (h : Keeps v s) :
    Answers v (execUnitRestore c headFails tileFails s) := by
  unfold Machine.execUnitRestore
  refine h.onCmd (fun h => h.runAt (fun h => branch h.restoreStack ?_))
  split
  · exact h.finishWith
  · exact branch h.finishWith (branch h.finishWith h.restoreTile.settle.finish)

theorem setContext {ctx : Nat} {f : Machine.Context → Machine.Context} (h : Keeps v s) : Keeps v (s.setContext ctx f) :=
  h.set.invalidateContext.pairWritten

theorem execXltSetBase {c : Cmd} (h : Keeps v s) : Answers v (execXltSetBase c s) :=
  h.onCmd (fun h => h.runPackages (fun h => branchFst h (beside h.setContext)))

theorem execXltSetLimit {c : Cmd} (h : Keeps v s) : Answers v (execXltSetLimit c s) :=
  h.onCmd (fun h => h.runPackages (fun h => branchFst h (beside h.setContext)))

theorem execXltInvalidate {c : Cmd} (h : Keeps v s) : Answers v (execXltInvalidate c s) :=
  h.onCmd (fun h => branch h (h.runTiles (fun _ h => beside h.modTile)))

theorem execXltRead {c : Cmd} (h : Keeps v s) : Answers v (execXltRead c s) := h.onCmd (fun h => h.finishData)

end Keeps

namespace Sound

theorem probe {t : TileRef} {ctx : Nat} {dva : BitVec 64} : Sound (probe t ctx dva) := by
  refine bind contextCheck fun _ => bind get fun _ => ?_
  split
  · exact pure
  · exact bind translatePlain fun _ => pure

end Sound

namespace Keeps

variable {v s : State}

theorem execXltProbe {c : Cmd} (h : Keeps v s) : Answers v (execXltProbe c s) := by
  unfold Machine.execXltProbe
  refine h.onCmd (fun h => h.runAt (fun h => branch h.finishWith ?_))
  split
  · next heq => exact (h.of_result .probe heq).finishOk
  · next heq => exact (h.of_result .probe heq).finishWith

theorem execFaultRead {c : Cmd} (h : Keeps v s) : Answers v (execFaultRead c s) := h.onCmd (fun h => h.runReplicated (fun _ h => h))

theorem execFaultStatusClear {t : TileRef} {w : Word} (h : Keeps v s) : Answers v (execFaultStatusClear t w s) := .branch h h.modTile

end Keeps

/-! ### The stack memory as an agent (R280 to R301) -/

namespace Keeps

variable {v s : State}

theorem dropNarrow {t : TileRef} {page : Nat} (h : Keeps v s) : Keeps v (s.dropNarrow t page) := by
  unfold State.dropNarrow
  split
  · exact h
  · exact branch h.mergeNarrow h.loseNarrow

theorem applyVerdict {t : TileRef} {page kind : Nat} {w : Verdict} {always : Bool} (h : Keeps v s) :
    Keeps v (s.applyVerdict t page kind w always) := by
  unfold State.applyVerdict
  split
  · exact h.mergeNarrow
  · exact h.poisonPage.dropNarrow
  · extract_lets +onlyGivenNames s₁
    have h₁ : Keeps v s₁ := by
      dsimp only [s₁]
      split
      · exact h.correctPage
      · exact h
    exact h₁.mergeNarrow

theorem fillCode {t : TileRef} {page : Nat} (h : Keeps v s) : Keeps v (s.fillCode t page) := branch h.takeTrap h.modTile

theorem execPageVerdict {t : TileRef} {page kind : Nat} {w : Verdict} (h : Keeps v s) : Answers v (execPageVerdict t page kind w s) :=
  .branch h (have h₁ := branch (branch h.pageMoved h).applyVerdict (branch h.pageMoved h); branch h₁.fillCode h₁)

theorem execRefresh {t : TileRef} {layer bank : Nat} (h : Keeps v s) : Answers v (execRefresh t layer bank s) := .branch h h.modTile

theorem scrubRead {t : TileRef} {page : Nat} {w : Verdict} (h : Keeps v s) : Keeps v (s.scrubRead t page w) :=
  branch h.useRegion.awaitSlice h.useRegion.awaitSlice.pageMoved.applyVerdict

theorem scrubDemand {t : TileRef} {c : Cmd} {heads : List Nat} {rest : List (Cmd × List Nat)} {w : Verdict} (h : Keeps v s) :
    Keeps v (s.scrubDemand t c heads rest w) := by
  unfold State.scrubDemand
  split
  · exact h.modTile.memberDone
  · dsimp only
    split
    · exact h.modTile
    · exact branch h.scrubRead.modTile.modTile.memberDone h.scrubRead.modTile

theorem scrubPeriodic {t : TileRef} {w : Verdict} (h : Keeps v s) : Keeps v (s.scrubPeriodic t w) := by
  unfold State.scrubPeriodic
  dsimp only
  split
  · exact h.modTile
  · exact branch h.scrubRead.modTile h.scrubRead.modTile

theorem execScrubPage {t : TileRef} {w : Verdict} (h : Keeps v s) : Answers v (execScrubPage t w s) := by
  unfold Machine.execScrubPage
  refine .branch h ?_
  dsimp only
  split
  · exact branch h.scrubPeriodic.modTile h.scrubDemand.modTile
  · exact branch h h.scrubPeriodic

theorem execReinitialisationEnd {t : TileRef} {region : Nat} (h : Keeps v s) : Answers v (execReinitialisationEnd t region s) :=
  .branch h (h.setMem fun hm => wf_cellZero hm _ _).modTile.raise

theorem modChannel {t : TileRef} {l : Nat} {f : Channel → Channel} (h : Keeps v s) : Keeps v (s.modChannel t l f) := h.modTile

theorem failChannelAt {t : TileRef} {l : Nat} (h : Keeps v s) : Keeps v (s.failChannelAt t l) :=
  have h₁ := branch h.modChannel.tileState h.modChannel.bumpTile; h₁.settle.raise

theorem execConnectionSpareSwitch {t : TileRef} {layer conn : Nat} (h : Keeps v s) : Answers v (execConnectionSpareSwitch t layer conn s) :=
  .branch h (.branch h.modChannel.modChannel.raise (.branch h.modChannel.modChannel.raise h.modChannel.failChannelAt))

theorem repairEnd {t : TileRef} {op result : Nat} (h : Keeps v s) : Keeps v (s.repairEnd t op result) := h.modTile

theorem repairOp {t : TileRef} {op : Nat} {f : State → Nat → Nat → Nat → Nat → State} (h : Keeps v s)
    (hf : ∀ {s} a1 a2 a3 a4, Keeps v s → Keeps v (f s a1 a2 a3 a4)) :
    Keeps v (s.repairOp t op f) :=
  branch h (branch h.repairEnd (branch h.repairEnd (hf _ _ _ _ h)))

theorem execRepairCtlWrite {t : TileRef} {w : Word} (h : Keeps v s) : Answers v (execRepairCtlWrite t w s) :=
  .branch h (.branch h.setTile (.branch h.setTile h))

theorem freeBytes {n : Nat} (h : Keeps v s) : Keeps v (s.freeBytes n).2 := h.set

theorem rawRow {t : TileRef} {page : Option Nat} (h : Keeps v s) : Keeps v (s.rawRow t page).2 := by
  unfold State.rawRow
  split
  · exact h.freeBytes
  · exact branchSnd h.freeBytes h

theorem execRawRead {t : TileRef} (h : Keeps v s) : Answers v (execRawRead t s) := h.repairOp (fun _ _ _ _ h => h.rawRow.modTile.repairEnd)

theorem execRawWrite {t : TileRef} (h : Keeps v s) : Answers v (execRawWrite t s) := by
  refine h.repairOp fun _ _ _ _ h => ?_
  dsimp only
  split
  · exact h.repairEnd
  · exact (h.setMem fun hm => wf_cellWrite _ hm _).modTile.repairEnd

theorem repair {t : TileRef} {op l b n : Nat} {col fuse : Bool} (h : Keeps v s) : Keeps v (s.repair t op l b n col fuse) := by
  unfold State.repair
  dsimp only
  split
  · exact branch h.repairEnd (branch h.repairEnd h.modTile.repairEnd)
  · exact branch h.repairEnd h.modTile.repairEnd

theorem execSoftRow {t : TileRef} (h : Keeps v s) : Answers v (execSoftRow t s) := h.repairOp (fun _ _ _ _ h => h.repair)

theorem execSoftCol {t : TileRef} (h : Keeps v s) : Answers v (execSoftCol t s) := h.repairOp (fun _ _ _ _ h => branch h.repairEnd h.repair)

theorem execFuseRow {t : TileRef} (h : Keeps v s) : Answers v (execFuseRow t s) := h.repairOp (fun _ _ _ _ h => h.repair)

theorem execFuseCol {t : TileRef} (h : Keeps v s) : Answers v (execFuseCol t s) := h.repairOp (fun _ _ _ _ h => branch h.repairEnd h.repair)

theorem execClearSoft {t : TileRef} (h : Keeps v s) : Answers v (execClearSoft t s) := h.repairOp (fun _ _ _ _ h => h.modTile.repairEnd)

theorem execMarch {t : TileRef} (h : Keeps v s) : Answers v (execMarch t s) := h.repairOp (fun _ _ _ _ h => h.modTile.repairEnd)

theorem execMarchComplete {t : TileRef} {errs : BitVec 32} (h : Keeps v s) : Answers v (execMarchComplete t errs s) := .branch h h.modTile

theorem modRegion {t : TileRef} {r : Nat} {f : Region → Region} (h : Keeps v s) : Keeps v (s.modRegion t r f) := h.modTile

theorem execRegionSetCode {c : Cmd} (h : Keeps v s) : Answers v (execRegionSetCode c s) :=
  h.onCmd (fun h => branch h.finishWith (h.runTiles (fun _ h => branchFst h (foldl (fun _ h => h.modRegion) h))))

theorem setInterleave {t : TileRef} {rs : List Nat} {ilv : BitVec 2} (h : Keeps v s) : Keeps v (s.setInterleave t rs ilv) :=
  foldl (fun _ h => branch h.modRegion.modRegion h) (foldl (fun _ h => h.pairWritten) (foldl (fun _ h => h.modRegion) h))

theorem execRegionSetInterleave {c : Cmd} (h : Keeps v s) : Answers v (execRegionSetInterleave c s) :=
  h.onCmd (fun h => branch h.finishWith (h.runTiles (fun _ h => branchFst h (branchFst h h.setInterleave))))

theorem readTiles {c : Cmd} {part : State → TileRef → List Byte} (h : Keeps v s) : Keeps v (s.readTiles c part) :=
  h.runReplicated (fun _ h => h)

theorem execRegionRead {c : Cmd} (h : Keeps v s) : Answers v (execRegionRead c s) := h.onCmd (fun h => h.readTiles)

theorem execScrubNow {c : Cmd} (h : Keeps v s) : Answers v (execScrubNow c s) :=
  h.onCmd (fun h => branch (h.runLater (fun _ h => branchFst h (beside h.modTile))) h)

theorem execMemPoisonRead {c : Cmd} (h : Keeps v s) : Answers v (execMemPoisonRead c s) :=
  h.onCmd (fun h => h.runAt (fun h => branch h.finishWith h.finishData))

theorem execChannelRead {c : Cmd} (h : Keeps v s) : Answers v (execChannelRead c s) := h.onCmd (fun h => h.readTiles)

end Keeps

/-! ### The pair state and its messages (R347 to R355) -/

namespace Keeps

variable {v s : State}

theorem sendHello {leaving : Bool} (h : Keeps v s) : Keeps v (s.sendHello leaving) := branch h.set.request h

theorem setPair {st : PairSt} {gen : BitVec 32} {cause : Code} (h : Keeps v s) : Keeps v (s.setPair st gen cause) :=
  branch h (branch h.set.bump h.set.bump.sendHello)

theorem enterStale {gen : BitVec 32} {cause : Code} (h : Keeps v s) : Keeps v (s.enterStale gen cause) := h.set.setPair.raiseP

theorem exempt {any : Bool} (h : Keeps v s) : Keeps v (s.exempt any) := h.set

theorem enterPaired {gen : BitVec 32} (h : Keeps v s) : Keeps v (s.enterPaired gen) := h.set.setPair.raiseP

theorem resyncDone (h : Keeps v s) : Keeps v s.resyncDone := h.enterPaired.raiseP

theorem diverged {t : TileRef} {job : BitVec 16} {pt : BitVec 64} {plane : Nat} {event : Bool} (h : Keeps v s) :
    Keeps v (s.diverged t job pt plane event) :=
  branch (h.run .markUnmirrored).raise (h.run .markUnmirrored)

theorem commitAnswer {t : TileRef} {r : AppendRows} {record : BitVec 64} {o : Outc} (h : Keeps v s) :
    Keeps v (s.commitAnswer t r record o) :=
  branch h.answerEntry h.countPartial.diverged.answerEntry

theorem detach (h : Keeps v s) : Keeps v s.detach := by
  unfold State.detach
  extract_lets +onlyGivenNames was idle s₁ s₂ s₃
  have h₁ : Keeps v s₁ := h.set
  have h₃ : Keeps v s₃ := branch h₁.setPair h₁.setPair.raiseP
  split
  · exact h₃.set.memberDone
  · exact h₃

theorem endLeave (h : Keeps v s) : Keeps v s.endLeave := branch h (branch h.sendHello.set.detach h.sendHello.set)

theorem tailAnswer {t : TileRef} {pt : BitVec 64} {plane : Nat} {job : BitVec 16} {o : Outc} (h : Keeps v s) :
    Keeps v (s.tailAnswer t pt plane job o) :=
  have h₁ := branch h.modTile (branch h.diverged h); branch h₁.set (branch h₁.set.endLeave (branch h₁.set.resyncDone h₁.set))

theorem thirdAnswer {src : Nat} {txn : BitVec 16} {unit : BitVec 32} {o : Outc} (h : Keeps v s) : Keeps v (s.thirdAnswer src txn unit o) :=
  (branch h h.countPartial).respond

theorem mirrorAnswer {x : Txn} {o : Outc} (h : Keeps v s) : Keeps v (s.mirrorAnswer x o) := by
  unfold State.mirrorAnswer
  split
  · exact h.slotAnswer
  · exact h.commitAnswer
  · exact h.thirdAnswer
  · exact h.tailAnswer
  · exact h

theorem loseTwin {cause : Code} (h : Keeps v s) : Keeps v (s.loseTwin cause) :=
  branch h (foldl (fun _ h => h.mirrorAnswer) h.set.setPair.raiseP)

theorem hearTwin {pkg : Nat} (h : Keeps v s) : Keeps v (s.hearTwin pkg) := branch h.set h

theorem suspectTwin (h : Keeps v s) : Keeps v s.suspectTwin := h.set.loseTwin

end Keeps

/-! ### Answers to requests (R328 to R338) -/

namespace Keeps

variable {v s : State}

theorem suspectHost (h : Keeps v s) : Keeps v s.suspectHost := branch h h.set.raiseP

theorem hostViolation {reason : Code} {bar off : Nat} (h : Keeps v s) : Keeps v (s.hostViolation reason bar off) :=
  (branch h.set.raiseP.set h.set).suspectHost

theorem apertureEnd {write : Bool} {off g n : Nat} {o : Outc} {data : List Byte} (h : Keeps v s) :
    Keeps v (s.apertureEnd write off g n o data) :=
  branch (branch h h.set) (branch (branch h.hostFault (branch h h.set))
    (branch (branch h h.set).hostViolation (branch h.hostFault (branch h h.set).hostFault)))

theorem readAnswer {t : TileRef} {i : Nat} {x : Txn} {o : Outc} {data : List Byte} (h : Keeps v s) : Keeps v (s.readAnswer t i x o data) :=
  h.modSlot

theorem itemAnswer {t : TileRef} {x : Txn} {o : Outc} {data : List Byte} (h : Keeps v s) : Keeps v (s.itemAnswer t x o data) := h.modTile

theorem frontAnswer {t : TileRef} {x : Txn} {o : Outc} {data : List Byte} (h : Keeps v s) : Keeps v (s.frontAnswer t x o data) := h.modTile

theorem shareAnswer {t : TileRef} {i : Nat} {unit : BitVec 32} {x : Txn} {o : Outc} {r : Msg} (h : Keeps v s) :
    Keeps v (s.shareAnswer t i unit x o r) := by
  unfold State.shareAnswer
  split
  · exact h
  · exact branch h.itemReported h.memberReport

theorem commandAnswer {ring : Nat} {tag : BitVec 16} {unit : BitVec 32} {o : Outc} {data : List Byte} (h : Keeps v s) :
    Keeps v (s.commandAnswer ring tag unit o data) := by
  unfold State.commandAnswer
  split
  · exact h
  · exact (branch h.enterStale.exempt h).memberBack

theorem paramAnswer {ring : Nat} {tag : BitVec 16} {o : Outc} {data : List Byte} (h : Keeps v s) :
    Keeps v (s.paramAnswer ring tag o data) := by
  unfold State.paramAnswer
  split
  · exact h
  · exact branch h.modCmd h.finishWith

theorem retAnswer {ring : Nat} {tag : BitVec 16} {o : Outc} (h : Keeps v s) : Keeps v (s.retAnswer ring tag o) := h.set

theorem cmdReadAnswer {ring : Nat} {tag : BitVec 16} {x : Txn} {o : Outc} {data : List Byte} (h : Keeps v s) :
    Keeps v (s.cmdReadAnswer ring tag x o data) := by
  unfold State.cmdReadAnswer
  split
  · exact h
  · exact h.modCmd

theorem landPage {a : Nat} {o : Outc} {data : List Byte} (h : Keeps v s) : Keeps v (s.landPage a o data).1 := by
  unfold State.landPage
  extract_lets held src s₁ lay whole rest w
  have h₁ : Keeps v s₁ := h.set
  have hw : Sound w := .join .pure .readStack fun _ => .writeStack
  refine branchFst ?_ (branchFst h₁ (beside (h₁.run hw)))
  split
  · next hr => exact h₁.of_result .writeStack hr
  · next hr => exact h₁.of_result .writeStack hr

theorem txnDone {x : Txn} {r : Msg} (h : Keeps v s) : Keeps v (s.txnDone x r) := by
  unfold State.txnDone
  dsimp only
  split
  case h_8 =>
    split
    · exact h
    · exact branch h.finishOk h.finishWith
  case h_13 => 
    split
    · exact h.landPage
    · exact h.landPage.memberDone
  · exact branch h.leadAnswer (branch h.readAnswer h.slotAnswer)
  · exact h.itemAnswer
  · exact h.shareAnswer
  · exact h.entryDone
  · exact h.frontAnswer
  · exact h.commandAnswer
  · exact h.paramAnswer
  · exact h.retAnswer
  · exact h.cmdReadAnswer
  · exact h.apertureEnd
  · exact branch h h.set
  · exact branch h.set h
  · exact h.mirrorAnswer
  · exact h.mirrorAnswer
  · exact h.mirrorAnswer
  · exact h.mirrorAnswer
  · exact h

theorem txnFails {x : Txn} {status reason : Code} (h : Keeps v s) : Keeps v (s.txnFails x status reason) := h.txnDone

theorem retryHeld (h : Keeps v s) : Keeps v s.retryHeld := by
  unfold State.retryHeld
  extract_lets +onlyGivenNames s₁
  have h₁ : Keeps v s₁ := by
    dsimp only [s₁]
    refine foldl (fun _ h => branch h ?_) h
    split
    · exact h.set
    · exact h
  exact foldl (fun _ h => h.pump) h₁

end Keeps

/-! ### Ports and links (R311 to R342) -/

namespace Keeps

variable {v s : State}

theorem negative {m : Msg} {status reason : Code} (h : Keeps v s) : Keeps v (s.negative m status reason) := branch h.respond h

theorem msgLost {m : Msg} {status reason : Code} (h : Keeps v s) : Keeps v (s.msgLost m status reason) := by
  unfold State.msgLost
  refine branch h.negative (branch h ?_)
  split
  · exact h
  · next heq => exact (h.takeTxn heq).txnFails

theorem endStranded {mismatch : Bool} (h : Keeps v s) : Keeps v (s.endStranded mismatch) := foldl (fun _ h => h.msgLost) h.set

theorem modGroups {p : Nat} {f : Nat → LaneGroup → LaneGroup} (h : Keeps v s) : Keeps v (s.modGroups p f) := h.set

theorem idleGroups {p : Nat} (h : Keeps v s) : Keeps v (s.idleGroups p) := h.modGroups

theorem dropPort {p : Nat} {mismatch : Bool} {why : Code} (h : Keeps v s) : Keeps v (s.dropPort p mismatch why) := by
  unfold State.dropPort
  extract_lets +onlyGivenNames x _ _ s₁
  have h₁ : Keeps v s₁ := retryHeld (endStranded (foldl (fun _ h => h.msgLost) h.idleGroups.modPort))
  split
  · exact h₁.finishWith
  · exact h₁

theorem portDown {p cause : Nat} (h : Keeps v s) : Keeps v (s.portDown p cause) := branch h h.raiseP.dropPort

theorem markParty {key : Nat} (h : Keeps v s) : Keeps v (s.markParty key) :=
  branch h (branch (branch h (branch h.set.raiseP.suspectTwin h.set.raiseP)) (branch h h.modPort.raiseP.portDown))

theorem logViolation {key port peer kind : Nat} {reason : Code} (h : Keeps v s) : Keeps v (s.logViolation key port peer kind reason) :=
  (branch h.set.raiseP h.set).markParty

theorem msgViolation {pkg port kind : Nat} {reason : Code} (h : Keeps v s) : Keeps v (s.msgViolation pkg port kind reason) :=
  h.set.logViolation

theorem linkViolation {p kind : Nat} (h : Keeps v s) : Keeps v (s.linkViolation p kind) := h.set.logViolation

theorem startTraining {p : Nat} {again : Bool} {cmd : Option Cmd} (h : Keeps v s) : Keeps v (s.startTraining p again cmd) := by
  unfold State.startTraining
  extract_lets +onlyGivenNames back _ s₁
  have h₁ : Keeps v s₁ := branch (settlePkg (foldl (fun _ h => h.bumpStack) h.modGroups)) h.modGroups
  exact h₁.modPort

theorem trainGroups {p : Nat} {failed : List Nat} (h : Keeps v s) : Keeps v (s.trainGroups p failed) :=
  branch h.modGroups (settlePkg (foldl (fun _ h => h.bumpStack) h.modGroups))

theorem portUp {p : Nat} {r : TrainResult} {narrow : Option Nat} (h : Keeps v s) : Keeps v (s.portUp p r narrow) := by
  have hhello {u : State} (hu : Keeps v u) : Keeps v (if p = 8 then u.sendHello false else u) := branch hu.sendHello hu
  unfold State.portUp
  cases narrow with
  | some g =>
    cases (s.port p).trainCmd with
    | some c => exact (replayFlits (finish (hhello h.modPort.raiseP))).retryHeld
    | none => exact (replayFlits (hhello h.modPort.raiseP)).retryHeld
  | none =>
    cases (s.port p).trainCmd with
    | some c => exact (replayFlits (finish (hhello h.modPort.raiseP))).retryHeld
    | none => exact (replayFlits (hhello h.modPort.raiseP)).retryHeld

theorem trainEnd {p : Nat} {r : TrainResult} (h : Keeps v s) : Keeps v (s.trainEnd p r) :=
  have h₁ := (branch h h.advanceTo).trainGroups; branch h₁.raiseP.dropPort (branch h₁.raiseP.dropPort h₁.portUp)

theorem execPortTrainEnd {p : Nat} {r : TrainResult} (h : Keeps v s) : Answers v (execPortTrainEnd p r s) := branch h.trainEnd h

theorem reassign {old : State} (h : Keeps v s) : Keeps v (s.reassign old) :=
  branch h (foldl (fun _ h => have h₁ := branch h.usePort.portDown h.usePort; branch h₁.startTraining h₁) h.set)

theorem setAssignment {off : Nat} {w : Word} (h : Keeps v s) : Keeps v (s.setAssignment off w) := by
  unfold State.setAssignment
  split
  · exact h.set
  · split
    · exact h.modPort
    · exact h

theorem execCnsAssignmentWrite {off : Nat} {w : Word} (h : Keeps v s) : Answers v (execCnsAssignmentWrite off w s) :=
  branch h.setAssignment.reassign h

theorem takeFlit {p : Nat} {hdr : Word} (h : Keeps v s) : Keeps v (s.takeFlit p hdr) :=
  branch (branch h.modPort.linkViolation h.modPort) (branch h (branch (branch h.modPort (branch h h.modPort)) h.modPort.linkViolation))

theorem takeEarly {p fuel : Nat} (h : Keeps v s) : Keeps v (s.takeEarly p fuel) := by
  induction fuel generalizing s with
  | zero => exact h
  | succ fuel ih =>
    unfold State.takeEarly
    split
    · exact ih h.modPort.takeFlit
    · exact h

theorem modFirstGroup {p : Nat} {f : LaneGroup → LaneGroup} (h : Keeps v s) : Keeps v (s.modFirstGroup p f) := by
  unfold State.modFirstGroup
  split
  · exact h.set
  · exact h

theorem receiveFlit {p : Nat} {hdr : Word} {intact : Bool} (h : Keeps v s) : Keeps v (s.receiveFlit p hdr intact) :=
  branch h.modFirstGroup.modPort.idleFlits (branch h.modPort.linkViolation.idleFlits
    (have h₁ := branch h.modPort.modPort h.modPort; have h₂ := branch h₁ h₁.takeFlit.takeEarly; have h₃ :=
    (branch h₂.startTraining h₂.replayFlits).retryHeld; branch h₃.idleFlits h₃))

theorem execFlitReceive {p : Nat} {hdr : Word} {intact : Bool} {corrected : Nat} (h : Keeps v s) :
    Answers v (execFlitReceive p hdr intact corrected s) :=
  branch (branch h h.modFirstGroup).receiveFlit h

theorem forwardMsg {m : Msg} (h : Keeps v s) : Keeps v (s.forwardMsg m) := by
  unfold State.forwardMsg
  refine branch h.negative ?_
  dsimp only
  split
  · exact h.negative
  · exact h.transmit

theorem discardStalled {e : Msg × Nat} (h : Keeps v s) : Keeps v (s.discardStalled e) :=
  (branch h.advanceTo.set.raiseP.set h.advanceTo.set).negative

theorem execCreditStallDiscard {i : Nat} (h : Keeps v s) : Answers v (execCreditStallDiscard i s) := by
  unfold Machine.execCreditStallDiscard
  refine branch h ?_
  split
  · exact h.discardStalled
  · exact h

theorem freeCredit {p vc n : Nat} (h : Keeps v s) : Keeps v (s.freeCredit p vc n) := h.modPort.idleFlits

theorem freeFlits {m : Msg} (h : Keeps v s) : Keeps v (s.freeFlits m) := h.freeCredit

theorem ownSource {p : Nat} (h : Keeps v s) : Keeps v (s.ownSource p) := h.modPort.linkViolation.idleFlits

theorem refuseMsg {m : Msg} {kind : Nat} {reason : Code} (h : Keeps v s) : Keeps v (s.refuseMsg m kind reason) :=
  branch h.msgViolation.respond h.msgViolation

theorem admitMsg {m : Msg} {k : State → State} (h : Keeps v s) (hk : ∀ {s}, Keeps v s → Keeps v (k s)) : Keeps v (s.admitMsg m k) :=
  branch h (branch h.freeFlits.msgViolation (branch h.freeFlits.ownSource
    (branch h.freeFlits.hearTwin.forwardMsg (hk h.freeFlits.hearTwin))))

theorem admitRequest {op : BitVec 8} {m : Msg} {k : State → State} (h : Keeps v s) (hk : ∀ {s}, Keeps v s → Keeps v (k s)) :
    Keeps v (s.admitRequest op m k) :=
  branch h (h.admitMsg (fun h => branch h.refuseMsg (branch h.respond (branch h.respond (branch h.refuseMsg (branch h.respond (hk h)))))))

end Keeps

/-! ### The halt after a thermal shutdown (R473) -/

namespace Keeps

variable {v s : State}

theorem haltTile {t : TileRef} (h : Keeps v s) : Keeps v (s.haltTile t) := branch h h.tileState.endDemand

theorem haltStack {st : Nat} (h : Keeps v s) : Keeps v (s.haltStack st) := by
  unfold State.haltStack
  extract_lets +onlyGivenNames s₁
  have h₁ : Keeps v s₁ := foldl (fun _ h => h.haltTile) h
  exact branch h₁ h₁.setStackState

theorem guestExit {g : Nat} {new : GuestSt} {cause : Code} (h : Keeps v s) : Keeps v (s.guestExit g new cause) :=
  branch h.setGuest h.setGuest.set

theorem stopGuests (h : Keeps v s) : Keeps v s.stopGuests := foldl (fun _ h => branch h h.guestExit) h

theorem halt (h : Keeps v s) : Keeps v s.halt := by
  unfold State.halt
  extract_lets +onlyGivenNames _ s₁
  have h₁ : Keeps v s₁ := stopGuests (foldl (fun _ h => h.portDown) (setPackageState (foldl (fun _ h => h.haltStack) h)))
  exact h₁.set.raiseP

theorem afterLeave (h : Keeps v s) : Keeps v s.afterLeave := branch h.halt h

end Keeps

/-! ### Requests at their destination (R320, R329 to R335) -/

namespace Sound

theorem malformed {α : Type} : Sound (M.malformed : M α) := stop

theorem physAt {m : Msg} : Sound (physAt m) := bind get fun _ => branch pure stop

theorem remoteXlt {m : Msg} {checked : Bool} : Sound (remoteXlt m checked) := by
  refine bind (atDva translatePlain) fun _ => optional stop fun _ => ?_
  refine optional malformed fun _ => ?_
  refine bind get fun _ => optional stop fun _ => ?_
  exact pure

end Sound

namespace Keeps

variable {v s : State}

theorem stopMsg {m : Msg} {e : Stop} (h : Keeps v s) : Keeps v (s.stopMsg m e) := branch h.refuseMsg (branch h.recordFault h).respond

end Keeps

namespace Sound

theorem readMarked {a n kind : Nat} : Sound (readMarked a n kind) := by
  unfold Machine.readMarked
  refine foldlM (fun _ _ => bind (tryCatch (bind readLocal fun _ => pure) fun _ => branch pure throw) fun _ => ?_)
  split
  · exact pure
  · exact pure

theorem readAsked {m : Msg} : Sound (readAsked m) := by
  unfold Machine.readAsked
  refine branch (bind physAt fun _ => readMarked) (bind get fun _ => bind remoteXlt fun _ => optional stop fun _ => ?_)
  refine optional mirrorReadable fun _ => ?_
  exact atDva readMarked

end Sound

namespace Keeps

variable {v s : State}

theorem execRead {m : Msg} (h : Keeps v s) : Answers v (execRead m s) := by
  unfold Machine.execRead
  refine h.admitRequest (fun h => ?_)
  split
  · next heq => exact (h.of_result .readAsked heq).respond
  · next heq => exact (h.of_result .readAsked heq).stopMsg

end Keeps

namespace Sound

theorem writeMirrored {m : Msg} {base : Nat} {acc : Wrote} {p : Nat × Nat} : Sound (writeMirrored m base acc p) := by
  refine bind get fun _ => ?_
  dsimp only
  split
  · exact bind (bind (atDva writeLocal) fun _ => upd fun h => h.set) fun _ => pure
  · exact bind (bind (atDva writeLocal) fun _ => upd fun h => h.set) fun _ => pure
  · exact stop

theorem writeOrdinary {m : Msg} : Sound (writeOrdinary m) := by
  unfold Machine.writeOrdinary
  refine branch (bind physAt fun _ => bind writeOwn fun _ => pure) (bind remoteXlt fun _ => optional stop fun _ => ?_)
  refine optional (atDva appendMark) fun _ => ?_
  exact bind get fun _ => branch (foldlM (fun _ _ => writeMirrored)) (bind (atDva writeOwn) fun _ => pure)

end Sound

namespace Keeps

variable {v s : State}

theorem ackWrite {m : Msg} {w : Wrote} (h : Keeps v s) : Keeps v (s.ackWrite m w) := by
  unfold State.ackWrite
  dsimp only
  split
  · exact (branch h h.request).countPartial.respond
  · exact branch h.respond (branch h.countPartial.respond h.request)

theorem track {m : Msg} (h : Keeps v s) : Keeps v (s.track m) := branch h.setTile.arrive h.setTile

theorem takeWrite {m : Msg} (h : Keeps v s) : Keeps v (s.takeWrite m) := by
  unfold State.takeWrite
  refine branch h.respond ?_
  split
  · next heq => exact (branch (h.of_result .writeOrdinary heq).track (h.of_result .writeOrdinary heq)).ackWrite
  · next heq => exact (h.of_result .writeOrdinary heq).stopMsg

end Keeps

namespace Sound

theorem writeMirror {m : Msg} : Sound (writeMirror m) := by
  refine bind remoteXlt fun _ => optional stop fun _ => ?_
  refine optional (atDva appendMark) fun _ => ?_
  exact atDva writeOwn

end Sound

namespace Keeps

variable {v s : State}

theorem takeMirror {m : Msg} (h : Keeps v s) : Keeps v (s.takeMirror m) := by
  unfold State.takeMirror
  refine branch h.respond (branch h.respond ?_)
  split
  · next heq => exact (h.of_result .writeMirror heq).respond
  · next heq => exact (h.of_result .writeMirror heq).stopMsg

end Keeps

namespace Sound

theorem writeCopy {m : Msg} : Sound (writeCopy m) := by
  refine bind (tryCatch translatePlain fun _ => stop) fun _ => bind get fun _ => optional stop fun _ => ?_
  extract_lets +onlyGivenNames a rest
  have hrest : ∀ a, Sound (rest a) := fun _ => branch (bind readStack fun _ => writeStack) pure
  exact branch (branch (bind (upd fun h => h.poisonPage) fun _ => hrest ()) (hrest ())) (bind writeOwn fun _ => hrest ())

end Sound

namespace Keeps

variable {v s : State}

theorem copyFault {m : Msg} (h : Keeps v s) : Keeps v (s.copyFault m) := branch h.set.set.raiseP h.set

theorem takeCopy {m : Msg} (h : Keeps v s) : Keeps v (s.takeCopy m) := by
  unfold State.takeCopy
  refine branch h.refuseMsg (branch h.respond ?_)
  dsimp only
  split
  · exact (h.run .writeCopy).set.respond
  · exact (branch (h.run .writeCopy).set.copyFault (h.run .writeCopy).set).respond

theorem execWrite {m : Msg} (h : Keeps v s) : Answers v (execWrite m s) := by
  unfold Machine.execWrite
  refine h.admitRequest (fun h => ?_)
  split
  · exact h.takeWrite
  · exact h.takeMirror
  · exact h.takeCopy

end Keeps

namespace Sound

theorem applyAtomic {m : Msg} : Sound (Machine.applyAtomic m) := by
  unfold Machine.applyAtomic
  extract_lets n rest
  have hrest (p : Nat × Option XEntry) : Sound (rest p) := by
    obtain ⟨a, page⟩ := p
    refine optional stop fun _ => bind readLocal fun _ => ?_
    cases page with
    | none => exact bind writeLocal fun _ => pure
    | some e => exact optional (atDva appendMark) fun _ => bind writeLocal fun _ => pure
  exact branch (bind physAt fun _ => bind pure hrest)
    (bind remoteXlt fun _ => optional stop fun _ => optional stop fun _ => bind pure hrest)

end Sound

namespace Keeps

variable {v s : State}

theorem execAtomic {m : Msg} (h : Keeps v s) : Answers v (execAtomic m s) := by
  unfold Machine.execAtomic
  refine h.admitRequest (fun h => ?_)
  split
  · next heq => exact (h.of_result .applyAtomic heq).respond
  · next heq => exact (h.of_result .applyAtomic heq).stopMsg

theorem giveRows {t : TileRef} {r : AppendRows} (h : Keeps v s) : Keeps v (s.giveRows t r) := h.set

theorem refuseAppend {m : Msg} {status reason : Code} (h : Keeps v s) : Keeps v (s.refuseAppend m status reason) := h.respond

theorem ordinaryAppend {m : Msg} {b : List Byte} {since : Nat} {upTo : Option Nat} (h : Keeps v s) :
    Keeps v (s.ordinaryAppend m b since upTo) := by
  unfold State.ordinaryAppend
  extract_lets entry a mode rest rows env find
  have hfind : Sound find := .bind .readHeader fun _ => .optional .kvRefuse fun _ => .bind .readDir fun _ => .pure
  split
  · next hr => exact (h.of_result hfind hr).refuseAppend
  · next hr =>
    have hs := h.of_result hfind hr
    exact branch hs.refuseAppend hs.giveRows

theorem mirrorAppend {m : Msg} {b : List Byte} {since : Nat} {upTo : Option Nat} (h : Keeps v s) :
    Keeps v (s.mirrorAppend m b since upTo) :=
  branch h.refuseMsg (branch h.set h).giveRows

theorem takeFragment {m : Msg} (h : Keeps v s) : Keeps v (s.takeFragment m) :=
  branch h.set (branch h.set.refuseMsg (branch h.set.refuseMsg
    (branch h.set.refuseAppend (branch h.set.refuseAppend (branch
    (have h₁ := branch (branch h.set.mirrorAppend h.set.ordinaryAppend) h.set; branch h₁ h₁.set)
    (branch h.set.mirrorAppend h.set.ordinaryAppend))))))

theorem execAppendFwd {m : Msg} (h : Keeps v s) : Answers v (execAppendFwd m s) := h.admitRequest (fun h => h.takeFragment)

theorem takeShareMsg {m : Msg} (h : Keeps v s) : Keeps v (s.takeShareMsg m) := by
  unfold State.takeShareMsg
  refine branch h.refuseMsg (branch (branch h.respond h.meshSend) ?_)
  split
  · exact h.respond
  · exact h.meshSend

theorem execShare {m : Msg} (h : Keeps v s) : Answers v (execShare m s) := h.admitRequest (fun h => h.takeShareMsg)

theorem takeControl {m : Msg} (h : Keeps v s) : Keeps v (s.takeControl m) := by
  unfold State.takeControl
  refine branch h.refuseMsg ?_
  dsimp only
  split
  · exact h.respond
  · exact h.set

theorem joinPart {m : Msg} (h : Keeps v s) : Keeps v (s.joinPart m).1 := branchFst h (branchFst h.set h.set)

theorem execControl {m : Msg} (h : Keeps v s) : Answers v (execControl m s) := by
  unfold Machine.execControl
  refine h.admitRequest (fun h => ?_)
  split
  · next heq => exact (h.joinPart.of_fst heq).takeControl
  · next heq => exact (h.joinPart.of_fst heq)

theorem takeResponse {m : Msg} (h : Keeps v s) : Keeps v (s.takeResponse m) := by
  unfold State.takeResponse
  split
  · exact branch h.set h.msgViolation
  · next heq => exact branch h.msgViolation (branch (h.takeTxn heq).set.txnFails
      (branch (h.takeTxn heq).txnFails.retryHeld.afterLeave (branch (h.takeTxn heq).set (h.takeTxn heq).txnDone.retryHeld.afterLeave)))

theorem admitResponse {op : BitVec 8} {m : Msg} (h : Keeps v s) : Keeps v (s.admitResponse op m) := by
  unfold State.admitResponse
  refine branch h (h.admitMsg (fun h => branch h.msgViolation (branch h.msgViolation (branch h.takeResponse ?_))))
  split
  · next heq => exact (h.joinPart.of_fst heq).takeResponse
  · next heq => exact (h.joinPart.of_fst heq)

theorem execReadData {m : Msg} (h : Keeps v s) : Answers v (execReadData m s) := h.admitResponse

theorem execWriteAck {m : Msg} (h : Keeps v s) : Answers v (execWriteAck m s) := h.admitResponse

theorem execAtomicAck {m : Msg} (h : Keeps v s) : Answers v (execAtomicAck m s) := h.admitResponse

theorem execAppendAck {m : Msg} (h : Keeps v s) : Answers v (execAppendAck m s) := h.admitResponse

theorem execShareDone {m : Msg} (h : Keeps v s) : Answers v (execShareDone m s) := h.admitResponse

theorem execControlReply {m : Msg} (h : Keeps v s) : Answers v (execControlReply m s) := h.admitResponse

theorem timeOut {txn : BitVec 16} (h : Keeps v s) : Keeps v (s.timeOut txn) := by
  unfold State.timeOut
  split
  · exact h
  · next heq => exact branch h (have h₁ := (h.takeTxn heq).advanceTo.set; (branch h₁.bumpRemote.notePackage h₁).txnFails.afterLeave)

theorem execRequestTimeout {txn : BitVec 16} (h : Keeps v s) : Answers v (execRequestTimeout txn s) := branch h.timeOut h

theorem execArrResend {txn : BitVec 16} (h : Keeps v s) : Answers v (execArrResend txn s) := by
  unfold Machine.execArrResend
  refine branch h ?_
  split
  · exact h
  · dsimp only
    split
    · split
      · next heq => exact (h.advanceTo.takeTxn heq).txnFails.afterLeave
      · exact h.advanceTo
    · exact h.advanceTo.set.sendMsg

theorem execTrackerTimeout {t : TileRef} {srcUnit : BitVec 32} {arrId : BitVec 16} {step : Nat} (h : Keeps v s) :
    Answers v (execTrackerTimeout t srcUnit arrId step s) := by
  unfold Machine.execTrackerTimeout
  refine branch h ?_
  dsimp only
  split
  · exact h
  · exact h.advanceTo.modTile.raise

end Keeps

/-! ### The Cornis commands (R343) -/

namespace Keeps

variable {v s : State}

theorem execCnsStatus {c : Cmd} (h : Keeps v s) : Answers v (execCnsStatus c s) := h.onCmd (fun h => h.runPackages (fun h => h))

theorem setRoutes {first : Nat} {l : List (BitVec 16)} (h : Keeps v s) : Keeps v (s.setRoutes first l) := h.set

theorem execCnsRouteWrite {c : Cmd} (h : Keeps v s) : Answers v (Machine.execCnsRouteWrite c s) := by
  unfold Machine.execCnsRouteWrite
  refine h.onCmd fun h => h.withParam fun _ h => h.runPackages fun h => ?_
  exact branchFst h (beside h.setRoutes.noteAbove.retryHeld)

theorem execCnsRouteRead {c : Cmd} (h : Keeps v s) : Answers v (execCnsRouteRead c s) := h.onCmd (fun h => h.runAt (fun h => h.finishData))

theorem execCnsPortRetrain {c : Cmd} (h : Keeps v s) : Answers v (execCnsPortRetrain c s) :=
  h.onCmd (fun h => h.runAt (fun h => branch h.finishWith (branch h (branch h.usePort.finishWith h.usePort.startTraining))))

theorem clearParty {key : Nat} (h : Keeps v s) : Keeps v (s.clearParty key) := branch h.set.modPort (branch h.set.set h.set)

theorem execCnsPeerClear {c : Cmd} (h : Keeps v s) : Answers v (execCnsPeerClear c s) :=
  h.onCmd (fun h => h.runPackages (fun h => branchFst h.clearParty (branchFst h.clearParty h)))

theorem execCnsAtomic {c : Cmd} (h : Keeps v s) : Answers v (execCnsAtomic c s) := by
  unfold Machine.execCnsAtomic
  refine h.onCmd (fun h => branch h.finishWith (branch ?_ (branch h ?_)))
  · split
    · next heq => exact (h.of_result .applyAtomic heq).finishOk
    · next heq => exact (h.of_result .applyAtomic heq).finishWith
  · split
    · exact h.finishWith
    · exact h.request

theorem execCnsViolRead {c : Cmd} (h : Keeps v s) : Answers v (execCnsViolRead c s) := h.onCmd (fun h => h.runAt (fun h => h.finishData))

theorem takeRecord {r : RemoteRec} (h : Keeps v s) : Keeps v (s.takeRecord r) := (branch h.set h.set.bumpRemote).notePackage

theorem execRecord {r : RemoteRec} (h : Keeps v s) : Answers v (execRecord r s) :=
  branch h (branch (branch h h.freeCredit).msgViolation (branch (branch h h.freeCredit).ownSource
    (have h₁ := (branch h h.freeCredit).hearTwin; branch h₁.forwardMsg
    (branch h₁.msgViolation (branch h₁.msgViolation (branch h₁ h₁.takeRecord))))))

end Keeps

/-! ### The twin: hellos, tails, resync (R349 to R374) -/

namespace Sound

theorem tailDir {pt : BitVec 64} {plane : Nat} {env : Env} : Sound (tailDir pt plane env) := by
  refine bind readHeader fun _ => bind get fun _ => optional kvRefuse fun _ => ?_
  exact bind readDva fun _ => pure

end Sound

namespace Keeps

variable {v s : State}

theorem sendTail {t : TileRef} {pt : BitVec 64} {plane : Nat} {job : BitVec 16} {tokens : Nat} {image : List Byte} (h : Keeps v s) :
    Keeps v (s.sendTail t pt plane job tokens image) := by
  unfold State.sendTail
  split
  · next heq => exact h
  · next heq => exact branch h (h.of_result .tailDir heq).set.sendFragments

theorem forwardTails {t : TileRef} (h : Keeps v s) : Keeps v (s.forwardTails t) := branch h (foldl (fun _ h => h.sendTail) h)

theorem execTailForward {t : TileRef} (h : Keeps v s) : Answers v (execTailForward t s) := branch h h.modTile.forwardTails

theorem startLeave {detach : Bool} (h : Keeps v s) : Keeps v (s.startLeave detach) := by
  unfold State.startLeave
  extract_lets +onlyGivenNames src s₁ s₂
  have h₁ : Keeps v s₁ := h.set
  have h₂ : Keeps v s₂ := foldl (fun _ h => h.forwardTails) h₁
  exact branch h₂.endLeave h₂

theorem execLeaveWaitTimeout (h : Keeps v s) : Answers v (execLeaveWaitTimeout s) := by
  unfold Machine.execLeaveWaitTimeout
  refine branch h ?_
  split
  · exact h.advanceTo.endLeave.afterLeave
  · exact h.afterLeave

theorem refuseHello {r : Code} (h : Keeps v s) : Keeps v (s.refuseHello r) :=
  (branch (branch h.msgViolation h) (branch h.msgViolation h).set.setPair).raiseP

theorem soloAt {gen : BitVec 32} {cause : Code} (h : Keeps v s) : Keeps v (s.soloAt gen cause) := h.set.setPair

theorem raiseFor {w : Hello} (h : Keeps v s) : Keeps v (s.raiseFor w) := branch h h.set.soloAt

theorem resolveOther {w : Hello} (h : Keeps v s) : Keeps v (s.resolveOther w) := branch h (branch h.soloAt h.enterStale)

theorem outOfSync (h : Keeps v s) : Keeps v s.outOfSync := h.set

theorem becomeTarget (h : Keeps v s) : Keeps v s.becomeTarget := h.outOfSync.set.setPair

theorem beat {x : Hello} {s' : State} (h : Keeps v s) (hs : s.beat x = some s') : Keeps v s' := by
  unfold State.beat at hs
  split at hs
  · cases hs
  · split at hs <;> cases hs
    · exact h
    · exact h
    · exact h
    · exact h
    · exact h
    · exact h.becomeTarget
    · exact h
    · exact h.resyncDone
    · exact h

theorem resolveStates {w : Hello} (h : Keeps v s) : Keeps v (s.resolveStates w) :=
  branch (branch h.enterPaired h.enterPaired) (branch h.enterStale (branch h.raiseFor (branch h.setPair.raiseP h.resolveOther)))

theorem hearState {w : Hello} (h : Keeps v s) : Keeps v (s.hearState w) := branch h.set h.set.bump

theorem takeHello {w : Hello} (h : Keeps v s) : Keeps v (s.takeHello w) := by
  unfold State.takeHello
  refine branch h.hearState (branch h.hearState.loseTwin (branch h.hearState ?_))
  split
  · next heq => exact (h.hearState.beat heq)
  · exact (branch h.hearState.loseTwin h.hearState).resolveStates

theorem hearFresh {w : Hello} (h : Keeps v s) : Keeps v (s.hearFresh w) := branch h h.set

theorem answerHello {w : Hello} {status reason : Code} (h : Keeps v s) : Keeps v (s.answerHello w status reason) := h.respond

theorem hearHello {w : Hello} (h : Keeps v s) : Keeps v (s.hearHello w) := by
  unfold State.hearHello
  refine branch h.hearTwin.hearFresh.msgViolation.answerHello ?_
  split
  · exact h.hearTwin.hearFresh.refuseHello
  · exact h.hearTwin.hearFresh.takeHello.afterLeave.answerHello

theorem execHello {w : Hello} (h : Keeps v s) : Answers v (execHello w s) := branch h (branch h.set h.hearHello)

theorem execHelloRetry (h : Keeps v s) : Answers v (execHelloRetry s) := branch h h.sendHello

theorem execTwinLossTimeout (h : Keeps v s) : Answers v (execTwinLossTimeout s) := branch h h.advanceTo.loseTwin.afterLeave

theorem copyPage {ctx dva : Nat} {e : XEntry} (h : Keeps v s) : Keeps v (s.copyPage ctx dva e) := by
  have hr {c : Prop} {dec : Decidable c} {a : Nat} {e : Except Stop (List Byte)} :
      Keeps v (if c then (e, s) else (readStack a pageSize 9).result s).2 := branchSnd h (h.run .readStack)
  unfold State.copyPage
  extract_lets a r q twin s₁ send
  have hq : Keeps v q := hr
  have h₁ : Keeps v s₁ := hq.set
  split
  · exact h₁.set.requestOf
  · exact branch h₁.set.requestOf h₁

theorem installTails {t : TileRef} (h : Keeps v s) :
    Keeps v (s.installTails t) := foldl (fun _ h => h.sendTail) (foldl (fun _ h => h.sendTail) h)

theorem endPages (h : Keeps v s) : Keeps v s.endPages :=
  have hsent := foldl (fun _ h => h.installTails) h.set
  branch hsent.resyncDone hsent

theorem nextContext (h : Keeps v s) : Keeps v s.nextContext := by
  unfold State.nextContext
  dsimp only
  split
  · exact h.set
  · exact h.set.endPages

theorem execResyncPageCopy (h : Keeps v s) : Answers v (execResyncPageCopy s) := by
  unfold Machine.execResyncPageCopy
  refine branch h ?_
  split
  · exact h.advanceTo.set.copyPage
  · exact h.nextContext

theorem runPair {c : Cmd} {here : State → State} (h : Keeps v s) (hhere : ∀ {s}, Keeps v s → Keeps v (here s)) :
    Keeps v (s.runPair c here) :=
  branch (hhere h) h.passOn

theorem execTwinStatusRead {c : Cmd} (h : Keeps v s) : Answers v (execTwinStatusRead c s) := h.onCmd (fun h => h.runPackages (fun h => h))

theorem startResync {c : Cmd} {l : List Nat} (h : Keeps v s) : Keeps v (s.startResync c l) := by
  unfold State.startResync
  split
  · exact h.finishWith
  · exact h.outOfSync.set.setPair.finish

theorem execTwinResync {c : Cmd} (h : Keeps v s) : Answers v (execTwinResync c s) := by
  unfold Machine.execTwinResync
  refine h.onCmd (fun h => branch h.finishWith (h.withParam (fun _ h => h.runPair (fun h => branch h.passOn (branch h.finishWith ?_)))))
  split
  · exact h.finishWith
  · exact h.startResync

theorem execTwinDetach {c : Cmd} (h : Keeps v s) : Answers v (Machine.execTwinDetach c s) := by
  refine h.onCmd fun h => h.runPair fun {s} h => ?_
  dsimp only
  refine branch h (startLeave (set (modCmd ?_)))
  exact branchFst h h.forwardAs

theorem attachSource {c : Cmd} (h : Keeps v s) : Keeps v (s.attachSource c) := h.set.setPair.exempt

theorem execTwinAttach {c : Cmd} (h : Keeps v s) : Answers v (execTwinAttach c s) := by
  unfold Machine.execTwinAttach
  refine h.onCmd (fun h => h.runPair (fun h => branch h (branch (branch h.attachSource.finishOk h.enterStale.exempt.finish) ?_)))
  split
  · exact h.finishWith
  · exact branch h.attachSource.passOn h.passOn

theorem fetchPage {c : Cmd} {ctx i : Nat} (h : Keeps v s) : Keeps v (s.fetchPage c ctx i).1 := by
  unfold State.fetchPage
  dsimp only
  split
  · next heq => exact (h.of_result .translatePlain heq)
  · next heq => exact branchFst (h.of_result .translatePlain heq) (h.of_result .translatePlain heq).set.request

theorem fetchPages {c : Cmd} (h : Keeps v s) : Keeps v (s.fetchPages c) := by
  unfold State.fetchPages
  extract_lets +onlyGivenNames r s₁
  have h₁ : Keeps v s₁ := modCmd (foldlFst (fun _ h => h.fetchPage) h)
  exact branch h₁.finishWith h₁

theorem execTwinPageFetch {c : Cmd} (h : Keeps v s) : Answers v (execTwinPageFetch c s) := by
  unfold Machine.execTwinPageFetch
  refine h.onCmd (fun h => h.runAt (fun h => branch h (branch h.finishWith (branch h.finishWith (branch h.finishWith ?_)))))
  split
  · exact h.finishWith
  · exact h.fetchPages

end Keeps

end Sys2Proof.Proofs
end

section
/-! The host, the rings and bring-up keep them (O58, continued). -/

namespace Sys2Proof.Proofs

open Sys2Proof Sys2Proof.Machine Sys2Proof.Laws Sys2Proof.Safety

/-! ### The cap and its ceiling (R437 to R441) -/

namespace Keeps

variable {v s : State}

theorem capChanged {old cause : Nat} (h : Keeps v s) : Keeps v (s.capChanged old cause) := branch h h.raiseP

theorem setCeiling {cause : Nat} (h : Keeps v s) : Keeps v (s.setCeiling cause) := h.set.capChanged

theorem writeCap {w10 : BitVec 9} (h : Keeps v s) : Keeps v (s.writeCap w10) := h.set.capChanged

theorem threshWritten (h : Keeps v s) : Keeps v s.threshWritten := foldl (fun _ h => h.pairWritten) h

theorem powerOff (h : Keeps v s) : Keeps v s.powerOff := ⟨h.queue, fun _ => rfl⟩

end Keeps

/-! ### The host and the BARs (R379 to R386) -/

namespace Keeps

variable {v s : State}

theorem writePower {o : Nat} {w : Word} (h : Keeps v s) : Keeps v (s.writePower o w) := branch h.writeCap (branch h.set (branch h.set h))

theorem signalRing {r : Nat} (h : Keeps v s) : Keeps v (s.signalRing r) := branch h.modRing.interrupt h

theorem signalEvents (h : Keeps v s) : Keeps v s.signalEvents := branch h.set.interrupt h

theorem writeHost {k : Nat} {w : Word} (h : Keeps v s) : Keeps v (s.writeHost k w) := by
  unfold State.writeHost
  refine branch h.set.signalEvents ?_
  split
  · exact h.set.signalRing
  · exact h.set

theorem windowsWritten {g : Nat} (h : Keeps v s) : Keeps v (s.windowsWritten g) := foldl (fun _ h => h.pairWritten) h

theorem writeReg {o : Nat} {w : Word} (h : Keeps v s) : Keeps v (s.writeReg o w) := by
  unfold State.writeReg
  refine branch (branch h.modTile h) ?_
  split
  · exact h.writeHost
  · exact branch h.set h
  · exact branch h.set (branch h.set h)
  · exact branch h.set (branch h.set h)
  · exact h.writePower
  · exact h.set.threshWritten
  · exact h.set
  · exact h.set.windowsWritten
  · exact h.set.windowsWritten
  · exact branch h.set h

theorem writeSlot {off : Nat} {bytes : List Byte} (h : Keeps v s) : Keeps v (s.writeSlot off bytes) :=
  branch h.modRing.hostViolation h.modRing

theorem writeMsix {off : Nat} {bytes : List Byte} (h : Keeps v s) : Keeps v (s.writeMsix off bytes) := branch h.set.set.interrupt h.set

theorem writeBar0 {off : Nat} {bytes : List Byte} (h : Keeps v s) : Keeps v (s.writeBar0 off bytes) :=
  branch h (branch h.hostViolation h.writeReg)

theorem writeBar2 {off : Nat} {bytes : List Byte} (h : Keeps v s) : Keeps v (s.writeBar2 off bytes) :=
  branch (branch h.writeSlot h.hostViolation) (branch h.hostViolation (branch (branch h.hostViolation h) (branch h.writeMsix h)))

theorem execRegisterWrite {bar off : Nat} {bytes : List Byte} (h : Keeps v s) : Answers v (execRegisterWrite bar off bytes s) :=
  branch h (branch h.writeBar0 (branch h.writeBar2 h))

theorem apertureBad {write : Bool} {off : Nat} (h : Keeps v s) : Keeps v (s.apertureBad write off) := (branch h h.set).hostViolation

theorem execApertureRead {off len : Nat} (h : Keeps v s) : Answers v (execApertureRead off len s) := by
  unfold Machine.execApertureRead
  refine branch h ?_
  split
  · exact h.apertureBad
  · refine branch ?_ ?_
    · split
      · next heq => exact (h.of_result .readOwn heq).apertureEnd
      · next heq => exact (h.of_result .readOwn heq).apertureEnd
    · split
      · exact h.apertureEnd
      · exact h.request

end Keeps

namespace Sound

theorem aperturePart {a : Nat} {bytes : List Byte} : Sound (aperturePart a bytes) :=
  branch writeLocal (bind (upd fun h => h.useRegion.awaitSlice) fun _ => bind get fun _ => branch writeLocal (upd fun h => h.waitNarrow))

end Sound

namespace Keeps

variable {v s : State}

theorem apertureWrite {off g : Nat} {bytes : List Byte} (h : Keeps v s) : Keeps v (s.apertureWrite off g bytes) := by
  unfold State.apertureWrite
  refine branch ?_ ?_
  · split
    · next heq => exact (h.of_result (.forM (fun _ => .aperturePart)) heq).apertureEnd
    · next heq => exact (h.of_result (.forM (fun _ => .aperturePart)) heq).apertureEnd
  · split
    · exact h.apertureEnd
    · exact h.request

theorem execApertureWrite {off : Nat} {bytes : List Byte} {ep : Bool} (h : Keeps v s) : Answers v (execApertureWrite off bytes ep s) := by
  unfold Machine.execApertureWrite
  refine branch h ?_
  split
  · exact h.apertureBad
  · exact branch h.hostFault h.apertureWrite

theorem writeSqTail {r : Nat} {w : Word} (h : Keeps v s) : Keeps v (s.writeSqTail r w) :=
  branch h.hostViolation (branch h.modRing (branch h.modRing h.hostViolation))

theorem execSqTailWrite {r : Nat} {w : Word} (h : Keeps v s) : Answers v (execSqTailWrite r w s) := branch h.writeSqTail h

theorem execCqHeadWrite {r : Nat} {w : Word} (h : Keeps v s) : Answers v (execCqHeadWrite r w s) :=
  branch h (branch h.modRing h.hostViolation)

theorem execEqHeadWrite {w : Word} (h : Keeps v s) : Answers v (execEqHeadWrite w s) := branch h (branch h.set.postOverflow h.hostViolation)

theorem execRingReset {r : Nat} (h : Keeps v s) : Answers v (execRingReset r s) := branch h (branch h.modRing h.modRing)

theorem execEqReset (h : Keeps v s) : Answers v (execEqReset s) := branch h (branch h.set h.set)

theorem execRingRun {r : Nat} {run : Bool} (h : Keeps v s) : Answers v (execRingRun r run s) :=
  branch h (branch h.modRing (branch h h.modRing))

theorem execHostViolSuspectClear {w : Word} (h : Keeps v s) : Answers v (execHostViolSuspectClear w s) := branch h h.set

end Keeps

/-! ### The rings (R387 to R398) -/

namespace Keeps

variable {v s : State}

theorem startHeld (h : Keeps v s) : Keeps v s.startHeld := h.set

theorem takeCommand {c : Cmd} {gtxn : Option (BitVec 16)} (h : Keeps v s) : Keeps v (s.takeCommand c gtxn) := h.set.startHeld

theorem fetchGuest {g : Nat} (h : Keeps v s) : Keeps v (s.fetchGuest g) := by
  unfold State.fetchGuest
  dsimp only
  split
  · exact h
  · exact branch h h.setGuest.takeCommand

theorem fetchSlot {r : Nat} (h : Keeps v s) : Keeps v (s.fetchSlot r) := branch h h.modRing.takeCommand

theorem fetchFrom {r : Nat} (h : Keeps v s) : Keeps v (s.fetchFrom r) := by
  unfold State.fetchFrom
  dsimp only
  split
  · exact h.set.fetchGuest
  · exact h.set.fetchSlot

theorem execCommandFetch {r : Nat} (h : Keeps v s) : Answers v (execCommandFetch r s) := branch h (branch h h.advanceTo.fetchFrom)

theorem postEntry {r : Nat} {c : Cmd} {k : Machine.Compl} (h : Keeps v s) : Keeps v (s.postEntry r c k) :=
  have h₁ := branch (branch h.modRing.set h.modRing).hostFault (branch h.modRing.set h.modRing); branch h₁.interrupt h₁

theorem modDone {z : CmdSlot} {f : CmdSlot → CmdSlot} (h : Keeps v s) : Keeps v (s.modDone z f) := h.set

theorem writeRet {z : CmdSlot} (h : Keeps v s) : Keeps v (s.writeRet z).1 := by
  unfold State.writeRet
  refine branchFst h (branchFst (branchFst h.set h.hostFault) (branchFst h (branchFst ?_ ?_)))
  · split
    · next heq => exact (h.of_result .writeOwn heq)
    · next heq => exact (h.of_result .writeOwn heq)
  · split
    · exact h
    · exact foldl (fun _ h => h.request) h

theorem freeSlot {z : CmdSlot} (h : Keeps v s) : Keeps v (s.freeSlot z) := h.set.startHeld

theorem replyGuest {g : Nat} {z : CmdSlot} (h : Keeps v s) : Keeps v (s.replyGuest g z) := by
  unfold State.replyGuest
  split
  · exact h
  · exact branch h h.set

theorem postSlot {z : CmdSlot} (h : Keeps v s) : Keeps v (s.postSlot z) := by
  unfold State.postSlot
  split
  · exact h.replyGuest.freeSlot
  · exact h.postEntry.freeSlot

theorem postDone {z : CmdSlot} (h : Keeps v s) : Keeps v (s.postDone z) := by
  unfold State.postDone
  split
  · exact h.respond.freeSlot
  · exact branch h (branch h.writeRet.modDone h.writeRet.modDone.postSlot)

theorem execCompletionPost {r : Nat} {tag : BitVec 16} (h : Keeps v s) : Answers v (execCompletionPost r tag s) := by
  unfold Machine.execCompletionPost
  refine branch h ?_
  split
  · exact h
  · exact h.postDone

theorem ringTimer {r : Nat} (h : Keeps v s) : Keeps v (s.ringTimer r) := by
  unfold State.ringTimer
  dsimp only
  split
  · exact h
  · exact branch h h.advanceTo.modRing.interrupt

theorem eqTimer (h : Keeps v s) : Keeps v s.eqTimer := by
  unfold State.eqTimer
  dsimp only
  split
  · exact h
  · exact branch h h.advanceTo.set.interrupt

theorem execInterruptCoalesceTimer {r : Nat} (h : Keeps v s) : Answers v (execInterruptCoalesceTimer r s) :=
  branch h (branch h.eqTimer (branch h.ringTimer h))

theorem refuseBundle {reason : Code} {kind : Nat} (h : Keeps v s) : Keeps v (s.refuseBundle reason kind) := h.set.raiseP

theorem lostRead {x : HostRead} (h : Keeps v s) : Keeps v (s.lostRead x) := by
  unfold State.lostRead
  split
  · exact h.set
  · exact h.set
  · exact h.refuseBundle

theorem loseReads (h : Keeps v s) : Keeps v s.loseReads := foldl (fun _ h => h.lostRead) h.set

theorem endpointReset {kind : Nat} (h : Keeps v s) : Keeps v (s.endpointReset kind) := h.set.loseReads.raiseP

theorem execFunctionLevelReset (h : Keeps v s) : Answers v (execFunctionLevelReset s) := branch h.endpointReset h

theorem execHotReset (h : Keeps v s) : Answers v (execHotReset s) := branch h.endpointReset h

theorem execLinkDown (h : Keeps v s) : Answers v (execLinkDown s) := branch h.endpointReset h

theorem execPerstAssert (h : Keeps v s) : Answers v (execPerstAssert s) := .branch h (branch h.set.endpointReset h.set)

theorem execPerstDeassert (h : Keeps v s) : Answers v (execPerstDeassert s) := branch h h.set

theorem execHostLinkUp {gen width : Nat} (h : Keeps v s) : Answers v (execHostLinkUp gen width s) :=
  branch h (branch h (branch h (branch h h.advanceTo).set))

theorem execEndpointReady (h : Keeps v s) : Answers v (execEndpointReady s) := branch h h.advanceTo.set

end Keeps

/-! ### Commands of the host (R399) -/

namespace Keeps

variable {v s : State}

theorem readLog {c : Cmd} {first count : Nat} (h : Keeps v s) : Keeps v (s.readLog c first count) :=
  branch h.finishWith (branch h.finish (branch h.finish h.finishData))

theorem execEventLogRead {c : Cmd} (h : Keeps v s) : Answers v (execEventLogRead c s) := h.onCmd (fun h => h.readLog)

theorem execEventSetAction {c : Cmd} (h : Keeps v s) : Answers v (execEventSetAction c s) :=
  h.onCmd (fun h => branch h.finishWith h.set.finish)

theorem execEventReadActions {c : Cmd} (h : Keeps v s) : Answers v (execEventReadActions c s) := h.onCmd (fun h => h.finishData)

theorem execCmdAbort {c : Cmd} (h : Keeps v s) : Answers v (execCmdAbort c s) := h.onCmd (fun h => h.set.finishOk)

theorem execKaRun {c : Cmd} {fails : List (TileRef × Byte)} (h : Keeps v s) : Answers v (execKaRun c fails s) :=
  h.onCmd (fun h => h.runOver (fun _ h => branchFst h (beside h.modTile)))

theorem execKaResults {c : Cmd} (h : Keeps v s) : Answers v (execKaResults c s) := h.onCmd (fun h => h.runReplicated (fun _ h => h))

end Keeps

namespace Sound

theorem matExact {t : TileRef} {a : MatArgs} : Sound (matExact t a) :=
  bind (mapM (fun _ => mapM (fun _ => slotLanes))) fun _ => bind
    (mapM (fun _ => mapM (fun _ => bind (mapM (fun _ => slotLanes)) fun _ => bind get fun _ => pure))) fun _ => pure

theorem gemmExact {env : Env} {d : BitVec 512} : Sound (gemmExact env d) :=
  bind readTd fun _ => bind readTd fun _ => bind (mapM (fun _ => readElems)) fun _ => bind (mapM (fun _ => readElems)) fun _ => pure

theorem vecExact {t : TileRef} {w : VecArgs} : Sound (vecExact t w) := branch pure (bind (mapM (fun _ => vecRow)) fun _ => pure)

theorem pewterRun {env : Env} {d : BitVec 512} : Sound (pewterRun env d) := by
  refine bind startChecks fun _ => bind get fun _ => optional stop fun _ => ?_
  exact bind putResults fun _ => pure

theorem kaExecute {env : Env} {d : BitVec 512} : Sound (kaExecute env d) := by
  unfold Machine.kaExecute
  dsimp only
  split
  · exact refuse
  · refine branch (bind matExact fun _ => optional stop fun _ => ?_)
      (branch (bind gemmExact fun _ => optional stop fun _ => ?_) (branch (bind vecExact fun _ => optional stop fun _ => ?_) pewterRun))
    · exact bind matmulBody fun _ => pure
    · exact bind gemmBody fun _ => pure
    · exact bind vectorBody fun _ => pure

theorem kaVectorTile {env : Env} {c : Cmd} : Sound (kaVectorTile env c) := by
  refine bind readDva fun _ => optional stop fun _ => ?_
  refine bind readTd fun _ => bind readTd fun _ => bind checked fun _ => bind readElems fun _ => bind kaExecute fun _ => branch pure
    (bind readElems fun _ => ?_)
  dsimp only
  split
  · exact pure
  · exact pure

end Sound

namespace Keeps

variable {v s : State}

theorem kaVectorAt {c : Cmd} {t : TileRef} (h : Keeps v s) : Keeps v (s.kaVectorAt c t).1 := by
  unfold State.kaVectorAt
  dsimp only
  split
  · next heq => exact (h.of_result .kaVectorTile heq)
  · next heq =>
    split
    · exact h
    · exact (h.of_result .kaVectorTile heq).recordFault

theorem kaVectorAll {c : Cmd} {listed tiles : List TileRef} {acc : List (TileRef × Outc × Nat × Nat)} (h : Keeps v s) :
    Keeps v (s.kaVectorAll c listed tiles acc).1 := by
  induction tiles generalizing s acc with
  | nil => exact h
  | cons t tiles ih =>
    unfold State.kaVectorAll
    refine branchFst (ih h) ?_
    split
    · next heq => exact ih (h.kaVectorAt.of_fst heq)
    · exact h
    · exact h

theorem kaVector {c : Cmd} (h : Keeps v s) : Keeps v (s.kaVector c) := by
  unfold State.kaVector
  dsimp only
  split
  · next heq => exact h.askCmdRead
  · next heq =>
    split
    · exact (h.kaVectorAll.of_fst heq).setDetail.finish
    · exact (h.kaVectorAll.of_fst heq).runOver (fun _ h => h)

theorem execKaVector {c : Cmd} (h : Keeps v s) : Answers v (execKaVector c s) := h.onCmd (fun h => branch h.kaVector h)

theorem execCnsLoopback {c : Cmd} {errors : Nat} (h : Keeps v s) : Answers v (execCnsLoopback c errors s) :=
  h.onCmd (fun h => h.runAt (fun h => branch h.finishWith h.finish))

end Keeps

/-! ### The firmware bundle (R424 to R426) -/

namespace Keeps

variable {v s : State}

theorem takePart (h : Keeps v s) : Keeps v s.takePart := h.set

theorem fetchPart (h : Keeps v s) : Keeps v s.fetchPart := h.askHost

theorem bundleCame {len : Nat} {d : HostData} (h : Keeps v s) : Keeps v (s.bundleCame len d) := by
  unfold State.bundleCame
  refine branch h ?_
  split
  · exact h.refuseBundle
  · exact h.refuseBundle
  · refine branch h.refuseBundle ?_
    extract_lets +onlyGivenNames bu s₁
    have h₁ : Keeps v s₁ := h.set
    split
    · exact h₁.refuseBundle
    · exact branch h₁.takePart.set h₁.takePart.fetchPart

end Keeps

/-! ### Power-up, bring-up and resets (R412 to R431) -/

namespace Keeps

variable {v s : State}

theorem stepResult {k : Nat} {o : Outc} {count us : Nat} (h : Keeps v s) : Keeps v (s.stepResult k o count us) := h.set.raiseP

theorem enterS0 (h : Keeps v s) : Keeps v s.enterS0 := h.set.stepResult

theorem execPowerStageStart (h : Keeps v s) : Answers v (execPowerStageStart s) := branch h h.advanceTo.set

theorem execPowerGood (h : Keeps v s) : Answers v (execPowerGood s) := branch h (branch h.set.enterS0 h.set)

theorem stepOut {o : Outc} {count : Nat} (h : Keeps v s) : Keeps v (s.stepOut o count) := h.set

theorem stepDone {removed count : Nat} (h : Keeps v s) : Keeps v (s.stepDone removed count) := h.stepOut

theorem bringStep {k : Nat} {f : State → State} (h : Keeps v s) (hf : ∀ {s}, Keeps v s → Keeps v (f s)) : Keeps v (s.bringStep k f) := by
  unfold State.bringStep
  refine branch h ?_
  split
  · exact h.set
  · exact branch h.set.stepOut (branch h.set.stepOut (hf h.set))

theorem dropStack {st : Nat} {new : UnitSt} {cause : Nat} (h : Keeps v s) : Keeps v (s.dropStack st new cause) :=
  setStackState (foldl (fun _ h => branch h h.tileState) h)

theorem needAny {any : Bool} {removed count : Nat} (h : Keeps v s) : Keeps v (s.needAny any removed count) := branch h.stepDone h.stepOut

theorem failTile {t : TileRef} (h : Keeps v s) : Keeps v (s.failTile t) := h.set.tileState

theorem gradeTile {t : TileRef} (h : Keeps v s) : Keeps v (s.gradeTile t) := h.tileState

theorem gradeAll (h : Keeps v s) : Keeps v s.gradeAll := by
  unfold State.gradeAll
  extract_lets +onlyGivenNames s₁
  have h₁ : Keeps v s₁ := foldl (fun _ h => h.gradeTile) h
  extract_lets +onlyGivenNames s₂
  have h₂ : Keeps v s₂ := foldl (fun _ h => h.setStackState) h₁
  exact h₂.setPackageState

theorem stepS1 {pllOk : Bool} {badDies guests : List Nat} (h : Keeps v s) : Keeps v (s.stepS1 pllOk badDies guests) :=
  branch h.stepOut (branch h.stepOut (stepDone (foldl (fun _ h => h.dropStack) h.set)))

theorem execBringupS1 {pllOk : Bool} {badDies guests : List Nat} (h : Keeps v s) : Answers v (execBringupS1 pllOk badDies guests s) :=
  h.bringStep (fun h => h.stepS1)

theorem stepS2 {badStacks badLinks : List Nat} (h : Keeps v s) : Keeps v (s.stepS2 badStacks badLinks) := by
  unfold State.stepS2
  extract_lets +onlyGivenNames bad links s₁
  have h₁ : Keeps v s₁ := foldl (fun _ h => h.dropStack) h
  exact (branch h₁.set h₁.set.bumpPkg).needAny

theorem execBringupS2 {badStacks badLinks : List Nat} (h : Keeps v s) : Answers v (execBringupS2 badStacks badLinks s) :=
  h.bringStep (fun h => h.stepS2)

theorem mapOut {t : TileRef} {l cause failed : Nat} (h : Keeps v s) : Keeps v (s.mapOut t l cause failed) := h.modChannel.bumpTile

theorem fuseOff {f : FuseMap} (h : Keeps v s) : Keeps v (s.fuseOff f) := by
  unfold State.fuseOff
  extract_lets +onlyGivenNames _ s₁
  have h₁ : Keeps v s₁ := foldl (fun _ h => branch h.tileState h) (foldl (fun _ h => branch h.dropStack h) h)
  extract_lets +onlyGivenNames _ _ s₂
  have h₂ : Keeps v s₂ := foldl (fun _ h => branch h.modTile.bumpTile h)
    (foldl (fun _ h => branch h.mapOut h) (foldl (fun _ h => h.dropStack) h₁))
  exact foldl (fun _ h => h.bumpStack) h₂.set

theorem stepS3 {f : FuseMap} (h : Keeps v s) : Keeps v (s.stepS3 f) := branch h.stepOut h.fuseOff.set.stepDone

theorem execBringupS3 {f : FuseMap} (h : Keeps v s) : Answers v (execBringupS3 f s) := h.bringStep (fun h => h.stepS3)

theorem trainChannel {t : TileRef} {l : Nat} {conns : List Nat} (h : Keeps v s) : Keeps v (s.trainChannel t l conns) := by
  unfold State.trainChannel
  split
  · exact h
  · exact h.modChannel
  · exact h.modChannel
  · exact h.mapOut

theorem stepS4 {fails : List (TileRef × Nat × List Nat)} (h : Keeps v s) : Keeps v (s.stepS4 fails) := by
  unfold State.stepS4
  extract_lets +onlyGivenNames all chans s₁
  have h₁ : Keeps v s₁ := foldl (fun _ h => h.trainChannel) h
  exact h₁.stepDone

theorem execBringupS4 {fails : List (TileRef × Nat × List Nat)} (h : Keeps v s) : Answers v (execBringupS4 fails s) :=
  h.bringStep (fun h => h.stepS4)

theorem loadRepairs {l : List (TileRef × Nat × Nat × Nat × Bool)} (h : Keeps v s) : Keeps v (s.loadRepairs l) :=
  foldl (fun _ h => h.modTile) h

theorem repairBank {t : TileRef} {l b : Nat} {rows : List Nat} (h : Keeps v s) : Keeps v (s.repairBank t l b rows).1 :=
  branchFst h.mapOut (beside h.modTile)

theorem stepS5 {badRows : List (TileRef × Nat × Nat × Nat)} (h : Keeps v s) : Keeps v (s.stepS5 badRows) := by
  unfold State.stepS5
  extract_lets s₁ banks r gone q s₂ s₃
  have h₁ : Keeps v s₁ := h.loadRepairs
  have hr : Keeps v r.1 := foldlFst (fun _ h => branchFst h.repairBank h) h₁
  have h₂ : Keeps v s₂ := hr.setMem fun _ => rfl
  have h₃ : Keeps v s₃ := h₂.set
  exact h₃.stepDone

theorem execBringupS5 {badRows : List (TileRef × Nat × Nat × Nat)} (h : Keeps v s) : Answers v (execBringupS5 badRows s) :=
  h.bringStep (fun h => h.stepS5)

theorem reconcileTile {t : TileRef} (h : Keeps v s) : Keeps v (s.reconcileTile t) :=
  branch (branch h h.modTile) (branch (branch h h.modTile).failTile (branch h h.modTile).gradeTile)

theorem stepS6 (h : Keeps v s) : Keeps v s.stepS6 := by
  unfold State.stepS6
  extract_lets +onlyGivenNames open_ s₁
  have h₁ : Keeps v s₁ := foldl (fun _ h => h.reconcileTile) h
  extract_lets +onlyGivenNames n sts s₂
  have h₂ : Keeps v s₂ := foldl (fun _ h => h.setStackState) h₁
  exact h₂.setPackageState.needAny

theorem execBringupS6 (h : Keeps v s) : Answers v (execBringupS6 s) := h.bringStep (fun h => h.stepS6)

theorem stepS7 (h : Keeps v s) : Keeps v s.stepS7 := branch h.set.refuseBundle (branch h.set.refuseBundle h.set.fetchPart)

theorem execBringupS7 (h : Keeps v s) : Answers v (execBringupS7 s) := h.bringStep (fun h => h.stepS7)

theorem stepS8 {mismatch : List TileRef} (h : Keeps v s) : Keeps v (s.stepS8 mismatch) := by
  unfold State.stepS8
  extract_lets +onlyGivenNames s₁
  have h₁ : Keeps v s₁ := foldl (fun _ h => h.writeCode) h
  extract_lets +onlyGivenNames bad _ s₂
  have h₂ : Keeps v s₂ := gradeAll (foldl (fun _ h => h.failTile) h₁)
  exact h₂.needAny

theorem execBringupS8 {mismatch : List TileRef} (h : Keeps v s) : Answers v (execBringupS8 mismatch s) := h.bringStep (fun h => h.stepS8)

theorem stepS9 {tiles : List TileRef} {units channels : List (TileRef × Nat)} {groups : List Nat} (h : Keeps v s) :
    Keeps v (s.stepS9 tiles units channels groups) := by
  unfold State.stepS9
  extract_lets +onlyGivenNames bad us cs gs _ _ _ _ s₁
  have h₁ : Keeps v s₁ := gradeAll (foldl (fun _ h => h.set.bumpStack)
    (foldl (fun _ h => h.modChannel.bumpTile) (foldl (fun _ h => h.modTile.bumpTile) (foldl (fun _ h => h.failTile) h))))
  exact h₁.needAny

theorem execBringupS9 {tiles : List TileRef} {units channels : List (TileRef × Nat)} {groups : List Nat} (h : Keeps v s) :
    Answers v (execBringupS9 tiles units channels groups s) :=
  h.bringStep (fun h => h.stepS9)

theorem fallbackAssignment (h : Keeps v s) : Keeps v s.fallbackAssignment := h.set.raiseP

theorem stepS10 (h : Keeps v s) : Keeps v s.stepS10 :=
  branch h.stepOut (foldl (fun _ h => branch h.startTraining h) (branch h.set (fallbackAssignment (foldl (fun _ h => h.usePort) h.set))))

theorem execBringupS10 (h : Keeps v s) : Answers v (execBringupS10 s) := h.bringStep (fun h => h.stepS10)

theorem execBringupS11 (h : Keeps v s) : Answers v (execBringupS11 s) := by
  unfold Machine.execBringupS11
  refine h.bringStep (fun h => ?_)
  dsimp only
  split
  · exact h.set.sendHello.hearHello
  · exact h.set.sendHello

theorem execBringupS12 (h : Keeps v s) : Answers v (execBringupS12 s) := h.bringStep id

theorem firmware (h : Keeps v s) : Keeps v s.firmware := set (foldl (fun _ h => h.modTile) h)

theorem stepS13 (h : Keeps v s) : Keeps v s.stepS13 :=
  have h₁ := branch h.firmware.gradeAll.setPair h.firmware.gradeAll; h₁.set.raiseP.stepDone

theorem execBringupS13 (h : Keeps v s) : Answers v (execBringupS13 s) := h.bringStep (fun h => h.stepS13)

theorem endS10 (h : Keeps v s) : Keeps v s.endS10.2 := branchSnd h h.set

theorem stepEnd (h : Keeps v s) : Keeps v s.stepEnd.2 := by
  unfold State.stepEnd
  split
  · exact h
  · exact branchSnd h.endS10 (branchSnd (branchSnd h h) (branchSnd (branchSnd h h) h))

theorem closeStep {o : StepOut} (h : Keeps v s) : Keeps v (s.closeStep o) := h.stepResult.set

theorem execBringupStepEnd (h : Keeps v s) : Answers v (execBringupStepEnd s) := by
  unfold Machine.execBringupStepEnd
  refine branch h (branch h.closeStep (branch h.closeStep ?_))
  split
  · next heq => exact (h.stepEnd.of_snd heq).closeStep
  · next heq => exact h

theorem execBringupStepLimit (h : Keeps v s) : Answers v (execBringupStepLimit s) := branch h h.advanceTo.set.closeStep

theorem afterReset (h : Keeps v s) : Keeps v s.afterReset := ⟨h.queue, fun _ => rfl⟩

theorem execPackageReset {w : Word} (h : Keeps v s) : Answers v (execPackageReset w s) := branch h (branch h.afterReset h.set)

theorem execPackageResetEnd (h : Keeps v s) : Answers v (execPackageResetEnd s) := branch h h.set.stepResult

theorem stopDies (h : Keeps v s) : Keeps v s.stopDies := foldl (fun _ h => h.portDown) (setPackageState (foldl (fun _ h => h.haltStack) h))

theorem execReferenceLoss (h : Keeps v s) : Answers v (execReferenceLoss s) :=
  branch h (branch h.set (have h₁ := h.advanceTo.stopDies.set.stopGuests.raiseP; branch h₁.endpointReset h₁))

theorem execReferenceValid (h : Keeps v s) : Answers v (execReferenceValid s) := branch h (branch h.set.enterS0 h.set)

theorem execBrassFault (h : Keeps v s) : Answers v (execBrassFault s) := h.set

theorem execThermtripRelease (h : Keeps v s) : Answers v (execThermtripRelease s) := (branch h.powerOff h).set

end Keeps

/-! ### The DOE mailbox and firmware commands (R432 to R435) -/

namespace Keeps

variable {v s : State}

theorem doe {type : Nat} {payload : List Byte} (h : Keeps v s) : Keeps v (s.doe type payload) := h.set

theorem execDoeDiscovery {index : Byte} (h : Keeps v s) : Answers v (execDoeDiscovery index s) :=
  branch h (branch h.doe (branch h.doe h.doe))

theorem spdmError {code : Nat} (h : Keeps v s) : Keeps v (s.spdmError code) := h.set.doe

theorem spdm {need : Nat} {request : List Byte} {k : State → State} (h : Keeps v s) (hk : ∀ {s}, Keeps v s → Keeps v (k s)) :
    Keeps v (s.spdm need request k) :=
  branch h (branch h.spdmError (branch h.spdmError (hk h.set)))

theorem spdmReply {bytes : List Byte} (h : Keeps v s) : Keeps v (s.spdmReply bytes) := h.set.doe

theorem spdmSigned {bytes : List Byte} (h : Keeps v s) : Keeps v (s.spdmSigned bytes) := h.spdmReply.set

theorem negotiate {n : Nat} (h : Keeps v s) : Keeps v (s.negotiate n) := h.set

theorem nonce (h : Keeps v s) : Keeps v s.nonce.2 := h.set

theorem execGetVersion (h : Keeps v s) : Answers v (execGetVersion s) := h.spdm (fun h => h.set.negotiate.spdmReply)

theorem execGetCapabilities (h : Keeps v s) : Answers v (execGetCapabilities s) := h.spdm (fun h => h.freeVal.negotiate.spdmReply)

theorem execNegotiateAlgorithms {p384 sha384 : Bool} (h : Keeps v s) : Answers v (execNegotiateAlgorithms p384 sha384 s) :=
  h.spdm (fun h => branch h.spdmError h.negotiate.spdmReply)

theorem execGetDigests (h : Keeps v s) : Answers v (execGetDigests s) := h.spdm (fun h => h.spdmReply)

theorem execGetCertificate {slot off len : Nat} (h : Keeps v s) : Answers v (execGetCertificate slot off len s) :=
  h.spdm (fun h => branch h.spdmError h.spdmReply)

theorem execChallenge {slot : Nat} {nonce : BitVec 256} (h : Keeps v s) : Answers v (execChallenge slot nonce s) :=
  h.spdm (fun h => branch h.spdmError h.nonce.spdmSigned)

theorem execGetMeasurements {index : Nat} {sign : Bool} {nonce : BitVec 256} (h : Keeps v s) :
    Answers v (execGetMeasurements index sign nonce s) :=
  h.spdm (fun h => branch h.spdmError (branch h.nonce.spdmSigned h.nonce.spdmReply))

theorem execFwInfo {c : Cmd} (h : Keeps v s) : Answers v (execFwInfo c s) := h.onCmd (fun h => h.runAt (fun h => h.finishData))

theorem refuseVerify {c : Cmd} {reason : Code} {kind : Nat} (h : Keeps v s) : Keeps v (s.refuseVerify c reason kind) :=
  h.set.raiseP.finishWith

theorem execFwVerify {c : Cmd} (h : Keeps v s) : Answers v (execFwVerify c s) := by
  unfold Machine.execFwVerify
  refine h.onCmd (fun h => h.runAt (fun h => branch h.refuseVerify
    (branch (branch h h.hostFault).refuseVerify (h.withParam (fun _ h => ?_)))))
  split
  · exact h.refuseVerify
  · exact h.finish

theorem execFwSvnCommit {c : Cmd} (h : Keeps v s) : Answers v (execFwSvnCommit c s) :=
  h.onCmd (fun h => h.runAt (fun h => branch h.finishWith (branch h.finishWith (branch h.finish h.set.raiseP.finish))))

theorem execIdChainRead {c : Cmd} (h : Keeps v s) : Answers v (execIdChainRead c s) := h.onCmd (fun h => h.runAt (fun h => h.finishData))

theorem execMeasureRead {c : Cmd} (h : Keeps v s) : Answers v (execMeasureRead c s) := h.onCmd (fun h => h.runAt (fun h => h.finishData))

end Keeps

end Sys2Proof.Proofs
end

section
/-! Power, heat, guests, the tick and plans keep them (O58, continued). -/

namespace Sys2Proof.Proofs

open Sys2Proof Sys2Proof.Machine Sys2Proof.Laws Sys2Proof.Safety

/-! ### Power (R437 to R452) -/

namespace Keeps

variable {v s : State}

theorem integrate {l : List StageReport} (h : Keeps v s) : Keeps v (s.integrate l) := h.set

theorem setBand {band : Nat} (h : Keeps v s) : Keeps v (s.setBand band) := branch h.set.setCeiling h.set.setCeiling.raiseP

theorem execPowerSample {reports : List StageReport} (h : Keeps v s) : Answers v (execPowerSample reports s) := branch h h.integrate.setBand

theorem execInputFaultStop (h : Keeps v s) : Answers v (execInputFaultStop s) := branch h.powerOff h

theorem modStage {p : Nat} {f : PwrStage → PwrStage} (h : Keeps v s) : Keeps v (s.modStage p f) := h.set

theorem stageFault {p cause : Nat} (h : Keeps v s) : Keeps v (s.stageFault p cause) :=
  branch h.modStage.setCeiling.raiseP.powerOff h.modStage.setCeiling.raiseP

theorem execPwrStageFault {p cause : Nat} (h : Keeps v s) : Answers v (execPwrStageFault p cause s) := branch h h.stageFault

theorem execStageRetry {p : Nat} (h : Keeps v s) : Answers v (execStageRetry p s) := by
  unfold Machine.execStageRetry
  split
  · exact h
  · exact branch h h.advanceTo.modStage.setCeiling

theorem writePace (h : Keeps v s) : Keeps v s.writePace := h.set.pairWritten

theorem execPowerRatioCompute (h : Keeps v s) : Answers v (execPowerRatioCompute s) := branch h h.set.writePace

theorem setStretch {p : PowerState} (h : Keeps v s) : Keeps v (s.setStretch p) := h.set

theorem execLimiterSample (h : Keeps v s) : Answers v (execLimiterSample s) := branch h (branch h.setStretch h.setStretch.raiseP.set)

theorem readJobs {c : Cmd} (h : Keeps v s) : Keeps v (s.readJobs c).1 := by
  unfold State.readJobs
  refine branchFst h ?_
  split
  · exact h
  · exact h

theorem execJobEnergyRead {c : Cmd} (h : Keeps v s) : Answers v (execJobEnergyRead c s) :=
  h.onCmd (fun h => h.runPackages (fun h => h.readJobs))

theorem closeJob {c : Cmd} (h : Keeps v s) : Keeps v (s.closeJob c).1 := branchFst h h.set

theorem execJobClose {c : Cmd} (h : Keeps v s) : Answers v (execJobClose c s) := h.onCmd (fun h => h.runPackages (fun h => h.closeJob))

theorem giveJob {tag uj : Nat} (h : Keeps v s) : Keeps v (s.giveJob tag uj).1 := branchFst h (branchFst h.set (branchFst h h.set))

theorem modelRatio {step euj mfj : Nat} (h : Keeps v s) : Keeps v (s.modelRatio step euj mfj) := branch h.set.set h.set.raiseP

theorem droop {t : TileRef} (h : Keeps v s) : Keeps v (s.droop t) := branch h.modTile h.modTile.modTile.raise

theorem execDroopEntry {t : TileRef} (h : Keeps v s) : Answers v (execDroopEntry t s) := branch h.droop h

theorem execDroopExit {t : TileRef} (h : Keeps v s) : Answers v (execDroopExit t s) := branch h h.modTile

theorem readRail {st slack : Nat} (h : Keeps v s) : Keeps v (s.readRail st slack) := by
  unfold State.readRail
  dsimp only
  split
  · exact h.set
  · exact branch h.set.raise.set h.set

theorem execMarginReading {slacks : List Nat} (h : Keeps v s) : Answers v (execMarginReading slacks s) :=
  branch h (foldl (fun _ h => branch h.readRail h) h)

theorem endFill {t : TileRef} (h : Keeps v s) : Keeps v (s.endFill t) := by
  unfold State.endFill
  split
  · exact h
  · exact h.modTile

theorem execFillZero {t : TileRef} (h : Keeps v s) : Answers v (execFillZero t s) := by
  unfold Machine.execFillZero
  refine branch h ?_
  split
  · exact h
  · exact h.advanceTo.endFill

theorem execFillCutoff (h : Keeps v s) : Answers v (execFillCutoff s) := by
  unfold Machine.execFillCutoff
  refine branch h ?_
  extract_lets +onlyGivenNames s₁
  have h₁ : Keeps v s₁ := by
    dsimp only [s₁]
    split
    · exact h.advanceInvar
    · exact h
  exact foldl (fun _ h => h.endFill) h₁

theorem execPwrRead {c : Cmd} (h : Keeps v s) : Answers v (execPwrRead c s) := h.onCmd (fun h => h.runPackages (fun h => h))

theorem execPwrSetCap {c : Cmd} (h : Keeps v s) : Answers v (execPwrSetCap c s) :=
  h.onCmd (fun h => h.runPackages (fun h => branchFst h h.writeCap))

theorem execModelRead {c : Cmd} (h : Keeps v s) : Answers v (execModelRead c s) := h.onCmd (fun h => h.runAt (fun h => h.finishData))

theorem execMarginRead {c : Cmd} (h : Keeps v s) : Answers v (execMarginRead c s) := h.onCmd (fun h => h.runAt (fun h => h.finishData))

end Keeps

/-! ### Frames of the facility port (R480 to R482) -/

namespace Keeps

variable {v s : State}

theorem putFrame {start ty : Nat} {payload : List Byte} (h : Keeps v s) : Keeps v (s.putFrame start ty payload) := h.set

theorem sendFrame {ty : Nat} {payload : List Byte} (h : Keeps v s) : Keeps v (s.sendFrame ty payload) := branch h (branch h.set h.putFrame)

theorem sendAlarm {code : Nat} (h : Keeps v s) : Keeps v (s.sendAlarm code) := h.sendFrame

theorem syncAlarm (h : Keeps v s) : Keeps v s.syncAlarm := branch h (branch h.set.sendAlarm h.set)

theorem setCoolant (h : Keeps v s) : Keeps v s.setCoolant := branch h h.set.set.raiseP

end Keeps

/-! ### Heat (R457 to R475) -/

namespace Keeps

variable {v s : State}

theorem modDiode {i : Nat} {f : Diode → Diode} (h : Keeps v s) : Keeps v (s.modDiode i f) := h.set

theorem takePower {st : Nat} (h : Keeps v s) : Keeps v (s.takePower st) := h.set

theorem takeReading {n : Nat} {r : DiodeReading} (h : Keeps v s) : Keeps v (s.takeReading n r) :=
  branch h.modDiode h.modDiode.modDiode.raiseP.sendAlarm

theorem compareDiodes {st : Nat} (h : Keeps v s) : Keeps v (s.compareDiodes st) :=
  branch h (branch h.modDiode.modDiode.modDiode.raise (branch h.modDiode.modDiode.modDiode h.modDiode))

theorem setView {n i : Nat} (h : Keeps v s) : Keeps v (s.setView n i) := by
  unfold State.setView
  refine branch h.modDiode ?_
  split
  · exact h.modDiode
  · exact h.freeVal.modDiode

theorem compareDie {i : Nat} (h : Keeps v s) : Keeps v (s.compareDie i) := branch h.coupledUse.modDiode.raiseP h.coupledUse.modDiode

theorem setBandOf {i : Nat} (h : Keeps v s) : Keeps v (s.setBandOf i) := branch h h.set.raise

theorem stopNow (h : Keeps v s) : Keeps v s.stopNow := by
  unfold State.stopNow
  extract_lets +onlyGivenNames therm twin s₁ s₂
  have h₁ : Keeps v s₁ := h.set
  have h₂ : Keeps v s₂ := foldl (fun _ h => h.stopTile) h₁.syncAlarm
  exact h₂.halt.syncAlarm

theorem decide {cause die : Nat} {est : Option (Nat × Nat)} (h : Keeps v s) : Keeps v (s.decide cause die est) := by
  unfold State.decide
  split
  · exact h
  · extract_lets budget now_ therm s₁ s₂
    have h₁ : Keeps v s₁ := h.set
    have h₂ : Keeps v s₂ := foldl (fun _ h => h.endFill) h₁
    exact branch h₂.stopNow h₂.syncAlarm

theorem hurry {est : Option (Nat × Nat)} {dieDown : Bool} (h : Keeps v s) : Keeps v (s.hurry est dieDown) := branch h (branch h.stopNow h)

theorem loseFlow {criterion : Nat} (h : Keeps v s) : Keeps v (s.loseFlow criterion) := branch h h.set.raiseP.set.decide

theorem slowEvent (h : Keeps v s) : Keeps v s.slowEvent := h.raiseP

theorem beginThrottle {cause die : Nat} (h : Keeps v s) : Keeps v (s.beginThrottle cause die) := h.set.slowEvent

theorem clearThrottle (h : Keeps v s) : Keeps v s.clearThrottle := h.set.writePace.raiseP

theorem followCauses (h : Keeps v s) : Keeps v s.followCauses := by
  unfold State.followCauses
  refine branch h (syncAlarm ?_)
  split
  · exact branch h.beginThrottle h
  · exact branch h.clearThrottle h

theorem graceCheck (h : Keeps v s) : Keeps v s.graceCheck := branch h h.set.writePace.raiseP.syncAlarm

theorem execGraceDeadline (h : Keeps v s) : Answers v (execGraceDeadline s) := branch h h.advanceInvar.graceCheck

theorem review (h : Keeps v s) : Keeps v s.review := branch h.set (branch h.set.set.writePace h.set.set).slowEvent

theorem checkHorizon {est : Option (Nat × Nat)} (h : Keeps v s) : Keeps v (s.checkHorizon est) := by
  unfold State.checkHorizon
  split
  · exact branch h.decide h
  · exact h

theorem execThrottleReview (h : Keeps v s) : Answers v (execThrottleReview s) := branch h h.advanceTo.review.set.checkHorizon.syncAlarm

theorem dropBlind (h : Keeps v s) : Keeps v s.dropBlind := foldl (fun _ h => branch h.removeStack h) h

theorem stageHeat (h : Keeps v s) : Keeps v s.stageHeat := by
  unfold State.stageHeat
  extract_lets +onlyGivenNames s₁
  have h₁ : Keeps v s₁ := foldl (fun _ h => branch h.stageFault h) h
  exact branch h₁.setCeiling h₁

theorem hardwareTrip (h : Keeps v s) : Keeps v s.hardwareTrip := branch h h.set.powerOff

theorem actOnHeat {n : Nat} (h : Keeps v s) : Keeps v (s.actOnHeat n) := by
  have hdown {l : KV Diode} {f : Nat × Diode → Bool} {est : Option (Nat × Nat)} {u : State} (hu : Keeps v u) : Keeps v (match l.find? f with
      | some e => (u.decide 4 e.1 (some (0, e.1))).hurry est true
      | none => u.hurry est false) := by
    split
    · exact hu.decide.hurry
    · exact hu.hurry
  unfold State.actOnHeat
  extract_lets est therm s₁ down s₂ s₃
  have h₁ : Keeps v s₁ := h.set
  have h₂ : Keeps v s₂ := hdown h₁
  have h₃ : Keeps v s₃ := branch h₂.loseFlow h₂
  exact h₃.followCauses.checkHorizon

theorem execDiodeSample {readings : List DiodeReading} (h : Keeps v s) : Answers v (Machine.execDiodeSample readings s) := by
  unfold Machine.execDiodeSample
  refine Answers.next (Keeps.branch h ?_)
  extract_lets l ids n s₁ s₂ s₃ ok s₄ s₅ s₆ s₇ s₈
  have h₁ : Keeps v s₁ := foldl (fun _ h => h.takePower) h.set
  have h₂ : Keeps v s₂ := foldl (fun _ h => h.takeReading) h₁
  have h₃ : Keeps v s₃ := foldl (fun _ h => h.compareDiodes) h₂
  have h₄ : Keeps v s₄ := foldl (fun _ h => h.setView) h₃
  have h₅ : Keeps v s₅ := foldl (fun _ h => h.compareDie) h₄
  have h₆ : Keeps v s₆ := foldl (fun _ h => h.setBandOf) h₅
  have h₇ : Keeps v s₇ := h₆.dropBlind.stageHeat
  have h₈ : Keeps v s₈ := branch h₇.actOnHeat h₇
  exact h₈.hardwareTrip.syncAlarm

theorem leaveAndHalt (h : Keeps v s) : Keeps v s.leaveAndHalt := (branch h.set (branch h.set.startLeave h.set.set)).afterLeave.syncAlarm

theorem execShutdownDeadline (h : Keeps v s) : Answers v (execShutdownDeadline s) :=
  branch h (branch h.leaveAndHalt (leaveAndHalt (foldl (fun _ h => h.stopTile) h.advanceTo)))

theorem execThermalRead {c : Cmd} (h : Keeps v s) : Answers v (execThermalRead c s) := h.onCmd (fun h => h.runPackages (fun h => h.set))

theorem execThreshSet {c : Cmd} (h : Keeps v s) : Answers v (execThreshSet c s) :=
  h.onCmd (fun h => h.runAt (fun h => branch h.finishWith h.set.threshWritten.finish))

theorem execThermalModelRead {c : Cmd} (h : Keeps v s) : Answers v (execThermalModelRead c s) :=
  h.onCmd (fun h => h.runAt (fun h => h.finishData))

end Keeps

/-! ### Coolant and facility (R476 to R486) -/

namespace Keeps

variable {v s : State}

theorem followInlet (h : Keeps v s) : Keeps v s.followInlet :=
  have h₁ := (branch h.set.raiseP h.set).setCoolant.followCauses; branch h₁.set.decide.syncAlarm h₁

theorem execThermistorSample {inlet outlet : Int} (h : Keeps v s) : Answers v (execThermistorSample inlet outlet s) :=
  branch h h.set.set.followInlet

theorem followFlow {wasLow : Bool} (h : Keeps v s) : Keeps v (s.followFlow wasLow) :=
  have h₁ := (branch h.set.setCoolant.raiseP.sendAlarm h.set.setCoolant).followCauses; branch h₁.set.decide.syncAlarm h₁

theorem execFlowTrendUpdate (h : Keeps v s) : Answers v (execFlowTrendUpdate s) := branch h (branch h.set.raiseP h.set).followFlow

theorem execValveRequest (h : Keeps v s) : Answers v (execValveRequest s) := by
  unfold Machine.execValveRequest
  refine branch h ?_
  extract_lets +onlyGivenNames s₁
  have h₁ : Keeps v s₁ := by
    dsimp only [s₁]
    split
    · exact h.advanceTo
    · exact h
  exact h₁.sendFrame

theorem sendWaiting {start : Nat} (h : Keeps v s) : Keeps v (match s.fac.waiting with
    | [] => s
    | (ty, p) :: r => ({ s with fac := { s.fac with waiting := r } } : State).putFrame start ty p) := by
  split
  · exact h
  · exact h.set.putFrame

theorem closeWindow {sent : Option Nat} {close start : Nat} (h : Keeps v s) : Keeps v (match sent with
    | none => s
    | some a =>
      let s := s.advanceTo (a + close)
      match s.fac.waiting with
      | [] => s
      | (ty, p) :: r => ({ s with fac := { s.fac with waiting := r } } : State).putFrame (max s.time.now (a + start)) ty p) := by
  cases sent with
  | none => exact h
  | some a => exact h.advanceTo.sendWaiting

theorem execReplyWindowClose (h : Keeps v s) : Answers v (execReplyWindowClose s) := by
  unfold Machine.execReplyWindowClose
  exact Answers.next (branch h h.closeWindow)

theorem suspectCtrl (h : Keeps v s) : Keeps v s.suspectCtrl := branch h h.set.raiseP.sendAlarm

theorem facViolation {reason : Code} (h : Keeps v s) : Keeps v (s.facViolation reason) := (branch h.set.raiseP.set h.set).suspectCtrl

theorem facAccept {f : List Byte} (h : Keeps v s) : Keeps v (s.facAccept f) := h.set

theorem intoWindow (h : Keeps v s) : Keeps v s.intoWindow := by
  unfold State.intoWindow
  split
  · exact branch h.advanceTo h
  · exact h

theorem facReceive {ty : Nat} {f : List Byte} {k : State → Nat → State} (h : Keeps v s) (hk : ∀ {s} a1, Keeps v s → Keeps v (k s a1)) :
    Keeps v (s.facReceive ty f k) := by
  unfold State.facReceive
  refine branch h ?_
  dsimp only
  split
  · exact h.intoWindow.facViolation
  · exact branch h.intoWindow (hk _ h.intoWindow.facAccept)

theorem execFlowReport {frame : List Byte} (h : Keeps v s) : Answers v (execFlowReport frame s) :=
  h.facReceive (fun _ h => branch h.set.loseFlow.syncAlarm h.set)

theorem execInletTempFrame {frame : List Byte} (h : Keeps v s) : Answers v (execInletTempFrame frame s) := h.facReceive (fun _ h => h.set)

theorem execPumpState {frame : List Byte} (h : Keeps v s) : Answers v (execPumpState frame s) :=
  h.facReceive (fun _ h => branch h.set.loseFlow.syncAlarm h.set)

theorem execAlarm {frame : List Byte} (h : Keeps v s) : Answers v (execAlarm frame s) := h.facReceive (fun _ h => h.raiseP)

theorem execFacSilent (h : Keeps v s) : Answers v (execFacSilent s) := branch h h.advanceTo.set.raiseP

theorem clearCtrl (h : Keeps v s) : Keeps v s.clearCtrl := h.set

theorem execFacViolSuspectClear {w : Word} (h : Keeps v s) : Answers v (execFacViolSuspectClear w s) := branch h h.clearCtrl

theorem execFacRead {c : Cmd} (h : Keeps v s) : Answers v (execFacRead c s) := h.onCmd (fun h => h.runAt (fun h => h.finishData))

theorem execFacClear {c : Cmd} (h : Keeps v s) : Answers v (execFacClear c s) := h.onCmd (fun h => h.runAt (fun h => h.clearCtrl.finish))

end Keeps

/-! ### The guest sites (R501 to R511) -/

namespace Keeps

variable {v s : State}

theorem modGuest {g : Nat} {f : Guest → Guest} (h : Keeps v s) : Keeps v (s.modGuest g f) := h.setGuest

theorem toGuest {g : Nat} {m : Msg} (h : Keeps v s) : Keeps v (s.toGuest g m) := h.set

theorem guestFault {g : Nat} {cause : Code} (h : Keeps v s) : Keeps v (s.guestFault g cause) := h.guestExit.modGuest.raiseP

theorem suspectGuest {g : Nat} (h : Keeps v s) : Keeps v (s.suspectGuest g) := branch h h.modGuest.raiseP.guestFault

theorem guestViolation {g : Nat} {reason : Code} (h : Keeps v s) : Keeps v (s.guestViolation g reason) :=
  (branch h.setGuest.raiseP.modGuest h.setGuest).suspectGuest

theorem answerGuest {g : Nat} {m : Msg} {status reason : Code} {operand : BitVec 64} {data : List Byte} (h : Keeps v s) :
    Keeps v (s.answerGuest g m status reason operand data) :=
  h.toGuest

theorem refuseGuest {g : Nat} {m : Msg} {status reason : Code} (h : Keeps v s) : Keeps v (s.refuseGuest g m status reason) :=
  h.answerGuest.guestViolation

theorem useWindows {g : Nat} (h : Keeps v s) : Keeps v (s.useWindows g) := foldl (fun _ h => h.coupledUse) h

theorem guestHere {g : Nat} {m : Msg} (h : Keeps v s) : Keeps v (s.guestHere g m) := by
  unfold State.guestHere
  refine branch ?_ (branch ?_ ?_)
  · split
    · next heq => exact (h.of_result .readAsked heq).answerGuest
    · next heq => exact (h.of_result .readAsked heq).answerGuest
  · split
    · next heq => exact (h.of_result .writeOrdinary heq).answerGuest
    · next heq => exact (h.of_result .writeOrdinary heq).answerGuest
  · split
    · next heq => exact (h.of_result .applyAtomic heq).answerGuest
    · next heq => exact (h.of_result .applyAtomic heq).answerGuest

theorem guestAccess {g : Nat} {m : Msg} (h : Keeps v s) : Keeps v (s.guestAccess g m) := by
  unfold State.guestAccess
  refine branch h.useWindows.refuseGuest (branch h.useWindows.answerGuest (branch h.useWindows.guestHere ?_))
  split
  · exact h.useWindows.answerGuest
  · exact h.useWindows.request

theorem guestDrain {g : Nat} {l kept : List Msg} (h : Keeps v s) : Keeps v (s.guestDrain g l kept) := by
  induction l generalizing s kept with
  | nil => exact h.modGuest
  | cons m l ih => exact branch (ih h.modGuest.guestAccess) (ih h)

theorem guestFlow {g : Nat} (h : Keeps v s) : Keeps v (s.guestFlow g) := branch h h.modGuest.guestDrain

theorem passCycle (h : Keeps v s) : Keeps v s.passCycle := h.idle.guestFlow.guestFlow

theorem guestIn {g : Nat} {op : BitVec 8} {cls : Option Nat} {form : Bool} {m : Msg} {k : State → State} (h : Keeps v s)
    (hk : ∀ {s}, Keeps v s → Keeps v (k s)) :
    Keeps v (s.guestIn g op cls form m k) := by
  unfold State.guestIn
  refine branch h (branch h.guestFlow.refuseGuest (branch h.guestFlow.guestViolation
    (branch h.guestFlow.refuseGuest (branch h.guestFlow (branch h.guestFlow.refuseGuest ?_)))))
  split
  · exact branch (hk h.guestFlow) h.guestFlow.refuseGuest
  · exact hk h.guestFlow

theorem guestMemory {g : Nat} {m : Msg} (h : Keeps v s) : Keeps v (s.guestMemory g m) := h.modGuest.guestFlow

theorem execGuestRead {g : Nat} {m : Msg} (h : Keeps v s) : Answers v (execGuestRead g m s) := h.guestIn (fun h => h.guestMemory)

theorem execGuestWrite {g : Nat} {m : Msg} (h : Keeps v s) : Answers v (execGuestWrite g m s) := h.guestIn (fun h => h.guestMemory)

theorem execGuestAtomic {g : Nat} {m : Msg} (h : Keeps v s) : Answers v (execGuestAtomic g m s) := h.guestIn (fun h => h.guestMemory)

theorem execGuestControl {g : Nat} {m : Msg} (h : Keeps v s) : Answers v (execGuestControl g m s) :=
  h.guestIn (fun h => branch h.refuseGuest h.modGuest)

theorem execGuestEvent {g : Nat} {m : Msg} (h : Keeps v s) : Answers v (execGuestEvent g m s) := h.guestIn (fun h => h.raiseP)

theorem guestTemp {g : Nat} {t : Int} (h : Keeps v s) : Keeps v (s.guestTemp g t) := branch h.set.modDiode.raiseP h.set.modDiode

theorem execGuestTemp {g : Nat} {m : Msg} (h : Keeps v s) : Answers v (execGuestTemp g m s) :=
  h.guestIn (fun h => (branch h.modGuest.guestTemp.guestFault h.modGuest.guestTemp).syncAlarm)

theorem execGstCtlWrite {g : Nat} {w : Word} (h : Keeps v s) : Answers v (execGstCtlWrite g w s) :=
  branch h (branch h.modGuest (branch (branch h.modGuest h.modGuest.guestExit) (branch h.modGuest.modGuest h.modGuest)))

theorem execGuestLinkTrainEnd {g lanes : Nat} (h : Keeps v s) : Answers v (execGuestLinkTrainEnd g lanes s) :=
  branch h (branch h.modGuest.raiseP h.advanceTo.guestFault)

theorem execGuestLinkLoss {g : Nat} (h : Keeps v s) : Answers v (execGuestLinkLoss g s) := branch h h.guestExit.modGuest

theorem execGstRingWrite {g : Nat} {w : Word} (h : Keeps v s) : Answers v (execGstRingWrite g w s) := branch h h.modGuest

theorem execGstViolSuspectClear {g : Nat} {w : Word} (h : Keeps v s) : Answers v (execGstViolSuspectClear g w s) := branch h h.modGuest

theorem execGuestSilence {g : Nat} (h : Keeps v s) : Answers v (execGuestSilence g s) := branch h h.advanceTo.guestFault

theorem execGuestPowerCheck {g watts : Nat} (h : Keeps v s) : Answers v (execGuestPowerCheck g watts s) := by
  unfold Machine.execGuestPowerCheck
  refine branch h (branch h.modGuest.modGuest ?_)
  split
  · exact h.modGuest.advanceTo.modGuest.toGuest
  · exact h.modGuest.advanceTo.guestFault

theorem setTap {ir : TapIr} {dr : BitVec 64} (h : Keeps v s) : Keeps v (s.setTap ir dr) := h.set

theorem execBypass (h : Keeps v s) : Answers v (execBypass s) := branch h h.setTap

theorem execIdcode (h : Keeps v s) : Answers v (execIdcode s) := branch h h.setTap

theorem execSamplePreload {b : Word} (h : Keeps v s) : Answers v (execSamplePreload b s) := branch h h.freeVal.setTap.set

theorem execExtest {b : Word} (h : Keeps v s) : Answers v (execExtest b s) := branch h (branch h.setTap h.freeVal.setTap.set)

end Keeps

/-! ### The tick (R33 to R37, R43 to R62) -/

namespace Keeps

variable {v s : State}

theorem reforecast (h : Keeps v s) : Keeps v s.reforecast := branch h.set h

theorem sendForecast (h : Keeps v s) : Keeps v s.sendForecast := branch h h.set.sendFrame

theorem endStep (h : Keeps v s) : Keeps v s.endStep := by
  unfold State.endStep
  split
  · exact h
  · exact set (foldl (fun _ h => h.modTile) h)

theorem spillEvent {t : TileRef} (h : Keeps v s) : Keeps v (s.spillEvent t) := foldl (fun _ h => h.raise) h.modTile

theorem startTile {t : TileRef} {p : Plan} {n : Nat} (h : Keeps v s) : Keeps v (s.startTile t p n) :=
  (h.endFill.modTile.setMem fun hm => wf_clearDone hm _ _).useContext

theorem startPlans {n : Nat} (h : Keeps v s) : Keeps v (s.startPlans n) := by
  unfold State.startPlans
  extract_lets logical up due missing run tick₁ s₁ s₂ tick₃ twin s₃
  have h₁ : Keeps v s₁ := h.set
  have h₂ : Keeps v s₂ := foldl (fun _ h => h.startTile) h₁
  have h₃ : Keeps v s₃ := branch h₂ h₂.set
  exact branch h₃ h₃.raiseP

theorem numberTick (h : Keeps v s) : Keeps v s.numberTick.1 := by
  unfold State.numberTick
  dsimp only
  split
  · exact h
  · exact branchFst h.set (branchFst h.set h.set.set.raiseP)

theorem changePeriod {n : Nat} (h : Keeps v s) : Keeps v (s.changePeriod n) := by
  unfold State.changePeriod
  split
  · exact branch h h.set.raiseP
  · exact h

theorem realignNow {n : Nat} (h : Keeps v s) : Keeps v (s.realignNow n) := branch h h.set

theorem freshStep (h : Keeps v s) : Keeps v s.freshStep := h.set

theorem skipTick {n : Nat} {done agree : Bool} (h : Keeps v s) : Keeps v (s.skipTick n done agree) := h.set

theorem noticeGuest {g : Nat} (h : Keeps v s) : Keeps v (s.noticeGuest g) := branch h.toGuest h

theorem afterTick (h : Keeps v s) : Keeps v s.afterTick :=
  (branch h.set.reforecast.sendForecast.graceCheck h.set.reforecast.sendForecast).noticeGuest.noticeGuest

theorem deliverTick {n : Nat} (h : Keeps v s) : Keeps v (s.deliverTick n) := by
  unfold State.deliverTick
  extract_lets first last tick₁ s₁ s₂ tick₃ s₃ s₄ power₅ s₅ s₆ ended tick₇ s₇ s₈ s₉ tick₁₀ s₁₀ agree s₁₁ s₁₂ s₁₃
  have h₁ : Keeps v s₁ := h.set
  have h₂ : Keeps v s₂ := h₁.changePeriod
  have h₃ : Keeps v s₃ := h₂.set
  have h₄ : Keeps v s₄ := h₃.realignNow
  have hshared {u : State} {l : List (TileRef × Nat)} (hu : Keeps v u) :
      Keeps v (l.foldl (fun (s : State) t => s.modTile t.1 fun x => x.count 18 t.2) u) := foldl (fun _ h => h.modTile) hu
  have h₅ : Keeps v s₅ := by
    refine branch h₄.set (branch (set (hshared ?_)) (raiseP (set (set (hshared ?_)))))
    · exact foldlFst (fun _ h => h.giveJob) h₄.modelRatio
    · exact foldlFst (fun _ h => h.giveJob) h₄.modelRatio
  have h₇ : Keeps v s₇ := h₅.freshStep.set
  have h₉ : Keeps v s₉ := foldl (fun _ h => h.spillEvent) h₇.endStep
  have h₁₀ : Keeps v s₁₀ := branch h₉.set h₇
  have h₁₂ : Keeps v s₁₂ := h₁₀.coupledUse.set
  have h₁₃ : Keeps v s₁₃ := branch h₁₂.skipTick h₁₂.startPlans
  exact h₁₃.afterTick

theorem execTick (h : Keeps v s) : Answers v (execTick s) := by
  unfold Machine.execTick
  refine branch h ?_
  split
  · exact h
  · split
    · next heq => exact (h.advanceInvar.numberTick.of_fst heq).deliverTick
    · next heq => exact (h.advanceInvar.numberTick.of_fst heq)

theorem execDoneSample (h : Keeps v s) : Answers v (execDoneSample s) := by
  unfold Machine.execDoneSample
  refine branch h ?_
  split
  · exact h
  · exact h.advanceInvar.set

theorem execStepReport (h : Keeps v s) : Answers v (execStepReport s) := by
  unfold Machine.execStepReport
  refine branch h ?_
  split
  · exact h
  · exact h.set.raiseP

theorem execPlanLimitAbort (h : Keeps v s) : Answers v (execPlanLimitAbort s) := by
  unfold Machine.execPlanLimitAbort
  refine branch h ?_
  extract_lets +onlyGivenNames s₁
  have h₁ : Keeps v s₁ := foldl (fun _ h => h.stopTile) h
  exact h₁.set.raiseP

end Keeps

/-! ### Time (R28 to R39) -/

namespace Keeps

variable {v s : State}

theorem sendTimeFrame {p : Nat} (h : Keeps v s) : Keeps v (s.sendTimeFrame p) := h.set.transmit

theorem execTimeFrameSend (h : Keeps v s) : Answers v (execTimeFrameSend s) := branch h (foldl (fun _ h => h.sendTimeFrame) h)

theorem adoptRecord {r : Schedule} (h : Keeps v s) : Keeps v (s.adoptRecord r) := branch h (branch h.set (branch h.set h.set))

theorem chooseParent (h : Keeps v s) : Keeps v s.chooseParent := branch h.set (branch h.set h.set)

theorem adoptRoot {root : Nat} (h : Keeps v s) : Keeps v (s.adoptRoot root) := branch h.set h

theorem lock (h : Keeps v s) : Keeps v s.lock := branch h.set.raiseP h.set

theorem exchange {f : TimeFrame} (h : Keeps v s) : Keeps v (s.exchange f) :=
  branch (branch h.set.freeVal.set h.set).lock (branch h.set.freeVal.set h.set)

theorem takeTime {f : TimeFrame} (h : Keeps v s) : Keeps v (s.takeTime f) :=
  branch h.set (have h₁ := (branch h.set.adoptRecord.adoptRoot.set h.set.adoptRecord.adoptRoot).chooseParent; branch h₁
    (branch (branch h₁.set h₁.set.set) (branch h₁.set h₁.set.set).exchange))

theorem execTime {f : TimeFrame} (h : Keeps v s) : Answers v (execTime f s) :=
  branch h (branch h.freeCredit.msgViolation (branch h.freeCredit.ownSource
    (branch h.freeCredit.hearTwin.msgViolation (branch h.freeCredit.hearTwin
    (branch h.freeCredit.hearTwin.msgViolation (branch h.freeCredit.hearTwin.linkViolation h.freeCredit.hearTwin.takeTime))))))

theorem execParentFrameSilence (h : Keeps v s) : Answers v (execParentFrameSilence s) := branch h h.advanceTo.set.raiseP

theorem execRootForget (h : Keeps v s) : Answers v (execRootForget s) := branch h h.advanceTo.set.chooseParent.lock

theorem execTickGet {c : Cmd} (h : Keeps v s) : Answers v (execTickGet c s) := h.onCmd (fun h => h.finishData)

theorem atRoot {c : Cmd} {here : State → State} (h : Keeps v s) (hhere : ∀ {s}, Keeps v s → Keeps v (here s)) :
    Keeps v (s.atRoot c here) := by
  unfold State.atRoot
  refine branch (hhere h) (branch h ?_)
  split
  · exact h.finishWith
  · exact h.passOn

theorem putRecord {r : Schedule} (h : Keeps v s) : Keeps v (s.putRecord r) := h.set.reforecast

theorem startTicks {c : Cmd} (h : Keeps v s) : Keeps v (s.startTicks c) :=
  branch h.finishWith (branch h.finishWith (branch h.finishWith (branch h.finishWith h.putRecord.set.finish)))

theorem execTickStart {c : Cmd} (h : Keeps v s) : Answers v (execTickStart c s) := h.onCmd (fun h => h.atRoot (fun h => h.startTicks))

theorem setPeriod {c : Cmd} (h : Keeps v s) : Keeps v (s.setPeriod c) :=
  branch h.finishWith (branch h.finishWith (branch h.finishWith (branch h.finishWith (branch h.finishWith h.putRecord.finish))))

theorem execTickSetPeriod {c : Cmd} (h : Keeps v s) : Answers v (execTickSetPeriod c s) :=
  h.onCmd (fun h => h.atRoot (fun h => h.setPeriod))

theorem cancelChange {c : Cmd} (h : Keeps v s) : Keeps v (s.cancelChange c) := by
  unfold State.cancelChange
  refine branch h.finishWith ?_
  split
  · exact h.finish
  · exact branch h.finishWith h.putRecord.finish

theorem execTickCancelChange {c : Cmd} (h : Keeps v s) : Answers v (execTickCancelChange c s) :=
  h.onCmd (fun h => h.atRoot (fun h => h.cancelChange))

theorem execStepRealign {c : Cmd} (h : Keeps v s) : Answers v (execStepRealign c s) :=
  h.onCmd (fun h => h.runPackages (fun h => branchFst h h.set.reforecast))

theorem execForecastRead {c : Cmd} (h : Keeps v s) : Answers v (execForecastRead c s) := h.onCmd (fun h => h.runPackages (fun h => h))

end Keeps

/-! ### Step plans (R40 to R50) -/

namespace Sound

theorem writeSpans {base : Nat} {l : List (Nat × Nat)} {b : List Byte} : Sound (writeSpans base l b) := by
  induction l generalizing b with
  | nil => exact pure
  | cons e l ih => exact bind writeStack fun _ => ih

end Sound

namespace Keeps

variable {v s : State}

theorem copyPlan {t : TileRef} {units : List Nat} {b : List Byte} (h : Keeps v s) : Keeps v (copyPlan s t units b).2 := h.run .writeSpans

theorem putPlan {t : TileRef} {p : Plan} {b : List Byte} (h : Keeps v s) : Keeps v (s.putPlan t p b).1 := by
  unfold State.putPlan
  dsimp only
  split
  · next heq => exact beside (h.copyPlan.of_snd heq).modTile
  · next heq => exact (h.copyPlan.of_snd heq)

theorem loadRead {env : Env} {dva : BitVec 64} {n : Nat} {k : State → List Byte → State × LoadRes} (h : Keeps v s)
    (hk : ∀ {s} a1, Keeps v s → Keeps v (k s a1).1) :
    Keeps v (s.loadRead env dva n k).1 := by
  unfold State.loadRead
  split
  · next heq => exact hk _ (h.of_result .readDva heq)
  · next heq =>
    split
    · exact h
    · exact (h.of_result .readDva heq).recordFault

theorem loadTile {c : Cmd} {t : TileRef} {place : Nat} (h : Keeps v s) : Keeps v (s.loadTile c t place).1 := by
  unfold State.loadTile
  refine h.loadRead (fun _ h => branchFst h ?_)
  split
  · exact h
  · refine branchFst (h.loadRead (fun _ h => h.putPlan)) ?_
    split
    · exact h.putPlan
    · exact h.hostFault
    · exact branchFst h h.hostFault

theorem askSources {c : Cmd} {l : List (TileRef × Nat × Nat)} (h : Keeps v s) : Keeps v (s.askSources c l) :=
  foldl (fun _ h => branch h h.askHost) h

theorem forwardLoad {c : Cmd} {u : BitVec 32} {pos place : Nat} (h : Keeps v s) : Keeps v (s.forwardLoad c u pos place).1 := by
  unfold State.forwardLoad
  split
  · exact h
  · exact h.request

theorem loadMembers {c : Cmd} {named : List (BitVec 32)} {done : List (TileRef × Outc)} {live : List (BitVec 32 × Path)} (h : Keeps v s) :
    Keeps v (s.loadMembers c named done live) := by
  unfold State.loadMembers
  extract_lets +onlyGivenNames r s₁
  have h₁ : Keeps v s₁ := modCmd (foldlFst (fun _ h => branchFst h h.forwardLoad) h)
  exact branch h₁.finishTree h₁

theorem loadPass {a : LoadPass} (h : Keeps v a.s) {c : Cmd} {t : TileRef} {place : Nat} : Keeps v (a.next c t place).s := by
  unfold LoadPass.next
  split
  · exact h
  · split
    · next heq => exact h.loadTile.of_fst heq
    · exact h
    · exact h

theorem planLoad {c : Cmd} (h : Keeps v s) : Keeps v (s.planLoad c) := by
  refine branch h.finishWith ?_
  extract_lets live named own a
  have ha : Keeps v a.s := by
    have hfold : ∀ (l : List (BitVec 32)) (a : LoadPass), Keeps v a.s →
        Keeps v (l.foldl (fun (a : LoadPass) u => a.next c (unitTileRef u) (tablePlace named u)) a).s := by
      intro l
      induction l with
      | nil => exact fun _ h => h
      | cons u l ih => exact fun _ h => ih _ h.loadPass
    exact hfold own { s := s } h
  split
  · exact h.askCmdRead
  · exact h.askSources
  · exact ha.loadMembers.reforecast

theorem execPlanLoad {c : Cmd} (h : Keeps v s) : Answers v (execPlanLoad c s) := h.onCmd (fun h => branch h.planLoad h)

theorem cancelPlan {t : TileRef} {step : Nat} (h : Keeps v s) : Keeps v (s.cancelPlan t step).1 :=
  branchFst (beside h.modTile) (branchFst h h)

theorem execPlanCancel {c : Cmd} (h : Keeps v s) : Answers v (execPlanCancel c s) :=
  h.onCmd (fun h => branch h.finishWith (branch h (h.runLater (fun _ h => h.cancelPlan)).reforecast))

theorem execPlanStatus {c : Cmd} (h : Keeps v s) : Answers v (execPlanStatus c s) :=
  h.onCmd (fun h => branch h.finishWith (h.runReplicated (fun _ h => branchFst h h)))

theorem sourceCame {ring : Nat} {tag : BitVec 16} {t : TileRef} {d : HostData} (h : Keeps v s) : Keeps v (s.sourceCame ring tag t d) :=
  h.set

theorem parameterCame {ring : Nat} {tag : BitVec 16} {d : HostData} (h : Keeps v s) : Keeps v (s.parameterCame ring tag d) := h.set

theorem execHostMemoryCompletion {id : Nat} {d : HostData} (h : Keeps v s) : Answers v (execHostMemoryCompletion id d s) := by
  unfold Machine.execHostMemoryCompletion
  split
  · exact h
  · dsimp only
    split
    · exact h.set.sourceCame
    · exact h.set.parameterCame
    · exact h.set.bundleCame

end Keeps

end Sys2Proof.Proofs
end

section
/-! Every command and every step keeps them: O58. -/

namespace Sys2Proof.Proofs

open Sys2Proof Sys2Proof.Machine Sys2Proof.Laws Sys2Proof.Safety

namespace Keeps
variable {v s : State}

/-- Every command keeps them. -/
theorem exec {c : Instr} (h : Keeps v s) : Answers v (exec c s) := by
  cases c with
  | tick => exact h.execTick
  | doneSample => exact h.execDoneSample
  | stepReport => exact h.execStepReport
  | planLimitAbort => exact h.execPlanLimitAbort
  | timeFrameSend => exact h.execTimeFrameSend
  | time => exact h.execTime
  | parentFrameSilence => exact h.execParentFrameSilence
  | rootForget => exact h.execRootForget
  | receiveFenceDeadline => exact h.execReceiveFenceDeadline
  | tickGet => exact h.execTickGet
  | tickStart => exact h.execTickStart
  | tickSetPeriod => exact h.execTickSetPeriod
  | tickCancelChange => exact h.execTickCancelChange
  | stepRealign => exact h.execStepRealign
  | planLoad => exact h.execPlanLoad
  | planCancel => exact h.execPlanCancel
  | planStatus => exact h.execPlanStatus
  | forecastRead => exact h.execForecastRead
  | unitRead => exact h.execUnitRead
  | stateDump => exact h.execStateDump
  | memberStatus => exact h.execMemberStatus
  | groupWrite => exact h.execGroupWrite
  | groupDelete => exact h.execGroupDelete
  | groupRead => exact h.execGroupRead
  | unitRemove => exact h.execUnitRemove
  | unitRestore => exact h.execUnitRestore
  | xltSetBase => exact h.execXltSetBase
  | xltSetLimit => exact h.execXltSetLimit
  | xltInvalidate => exact h.execXltInvalidate
  | xltRead => exact h.execXltRead
  | xltProbe => exact h.execXltProbe
  | faultRead => exact h.execFaultRead
  | faultStatusClear => exact h.execFaultStatusClear
  | recordSend => exact h.execRecordSend
  | record => exact h.execRecord
  | descriptorAdmit => exact h.execDescriptorAdmit
  | descriptorDispatch => exact h.execDescriptorDispatch
  | descriptorComplete => exact h.execDescriptorComplete
  | remoteSignal => exact h.execRemoteSignal
  | shareArrival => exact h.execShareArrival
  | shareRetry => exact h.execShareRetry
  | shareReport => exact h.execShareReport
  | seqWatchdog => exact h.execSeqWatchdog
  | holdExpiry => exact h.execHoldExpiry
  | nop => exact h.execNop
  | receiveFence => exact h.execReceiveFence
  | xltInvalidateDesc => exact h.execXltInvalidateDesc
  | matmul => exact h.execMatmul
  | accDrain => exact h.execAccDrain
  | gemm => exact h.execGemm
  | vector => exact h.execVector
  | merge => exact h.execMerge
  | load => exact h.execLoad
  | store => exact h.execStore
  | copy => exact h.execCopy
  | gather => exact h.execGather
  | scatter => exact h.execScatter
  | commit => exact h.execCommit
  | stage => exact h.execStage
  | accept => exact h.execAccept
  | appendRowsArrive => exact h.execAppendRowsArrive
  | attention => exact h.execAttention
  | attentionItem => exact h.execAttentionItem
  | blockArrival => exact h.execBlockArrival
  | itemReport => exact h.execItemReport
  | kvFlush => exact h.execKvFlush
  | kvRelease => exact h.execKvRelease
  | kvTailRead => exact h.execKvTailRead
  | kvBufferRead => exact h.execKvBufferRead
  | pewterMv => exact h.execPewterMv
  | pewterSequenceStart => exact h.execPewterSequenceStart
  | pewterSlice => exact h.execPewterSlice
  | pewterSequenceComplete => exact h.execPewterSequenceComplete
  | fence => exact h.execFence
  | pageVerdict => exact h.execPageVerdict
  | refresh => exact h.execRefresh
  | scrubPage => exact h.execScrubPage
  | reinitialisationEnd => exact h.execReinitialisationEnd
  | connectionSpareSwitch => exact h.execConnectionSpareSwitch
  | repairCtlWrite => exact h.execRepairCtlWrite
  | rawRead => exact h.execRawRead
  | rawWrite => exact h.execRawWrite
  | softRow => exact h.execSoftRow
  | softCol => exact h.execSoftCol
  | fuseRow => exact h.execFuseRow
  | fuseCol => exact h.execFuseCol
  | clearSoft => exact h.execClearSoft
  | march => exact h.execMarch
  | marchComplete => exact h.execMarchComplete
  | regionSetCode => exact h.execRegionSetCode
  | regionSetInterleave => exact h.execRegionSetInterleave
  | regionRead => exact h.execRegionRead
  | scrubNow => exact h.execScrubNow
  | memPoisonRead => exact h.execMemPoisonRead
  | channelRead => exact h.execChannelRead
  | cnsAssignmentWrite => exact h.execCnsAssignmentWrite
  | portTrainEnd => exact h.execPortTrainEnd
  | flitReceive => exact h.execFlitReceive
  | read => exact h.execRead
  | write => exact h.execWrite
  | atomic => exact h.execAtomic
  | appendFwd => exact h.execAppendFwd
  | share => exact h.execShare
  | control => exact h.execControl
  | readData => exact h.execReadData
  | writeAck => exact h.execWriteAck
  | atomicAck => exact h.execAtomicAck
  | appendAck => exact h.execAppendAck
  | shareDone => exact h.execShareDone
  | controlReply => exact h.execControlReply
  | requestTimeout => exact h.execRequestTimeout
  | creditStallDiscard => exact h.execCreditStallDiscard
  | trackerTimeout => exact h.execTrackerTimeout
  | arrResend => exact h.execArrResend
  | cnsStatus => exact h.execCnsStatus
  | cnsRouteWrite => exact h.execCnsRouteWrite
  | cnsRouteRead => exact h.execCnsRouteRead
  | cnsPortRetrain => exact h.execCnsPortRetrain
  | cnsPeerClear => exact h.execCnsPeerClear
  | cnsAtomic => exact h.execCnsAtomic
  | cnsViolRead => exact h.execCnsViolRead
  | hello => exact h.execHello
  | helloRetry => exact h.execHelloRetry
  | twinLossTimeout => exact h.execTwinLossTimeout
  | leaveWaitTimeout => exact h.execLeaveWaitTimeout
  | tailForward => exact h.execTailForward
  | resyncPageCopy => exact h.execResyncPageCopy
  | twinStatusRead => exact h.execTwinStatusRead
  | twinResync => exact h.execTwinResync
  | twinDetach => exact h.execTwinDetach
  | twinAttach => exact h.execTwinAttach
  | twinPageFetch => exact h.execTwinPageFetch
  | registerWrite => exact h.execRegisterWrite
  | apertureRead => exact h.execApertureRead
  | apertureWrite => exact h.execApertureWrite
  | sqTailWrite => exact h.execSqTailWrite
  | cqHeadWrite => exact h.execCqHeadWrite
  | eqHeadWrite => exact h.execEqHeadWrite
  | ringReset => exact h.execRingReset
  | eqReset => exact h.execEqReset
  | ringRun => exact h.execRingRun
  | hostViolSuspectClear => exact h.execHostViolSuspectClear
  | commandFetch => exact h.execCommandFetch
  | completionPost => exact h.execCompletionPost
  | interruptCoalesceTimer => exact h.execInterruptCoalesceTimer
  | functionLevelReset => exact h.execFunctionLevelReset
  | hotReset => exact h.execHotReset
  | linkDown => exact h.execLinkDown
  | perstAssert => exact h.execPerstAssert
  | eventLogRead => exact h.execEventLogRead
  | eventSetAction => exact h.execEventSetAction
  | eventReadActions => exact h.execEventReadActions
  | cmdAbort => exact h.execCmdAbort
  | kaRun => exact h.execKaRun
  | kaVector => exact h.execKaVector
  | kaResults => exact h.execKaResults
  | cnsLoopback => exact h.execCnsLoopback
  | doeDiscovery => exact h.execDoeDiscovery
  | getVersion => exact h.execGetVersion
  | getCapabilities => exact h.execGetCapabilities
  | negotiateAlgorithms => exact h.execNegotiateAlgorithms
  | getDigests => exact h.execGetDigests
  | getCertificate => exact h.execGetCertificate
  | challenge => exact h.execChallenge
  | getMeasurements => exact h.execGetMeasurements
  | powerStageStart => exact h.execPowerStageStart
  | powerGood => exact h.execPowerGood
  | bringupS1 => exact h.execBringupS1
  | bringupS2 => exact h.execBringupS2
  | bringupS3 => exact h.execBringupS3
  | bringupS4 => exact h.execBringupS4
  | bringupS5 => exact h.execBringupS5
  | bringupS6 => exact h.execBringupS6
  | bringupS7 => exact h.execBringupS7
  | bringupS8 => exact h.execBringupS8
  | bringupS9 => exact h.execBringupS9
  | bringupS10 => exact h.execBringupS10
  | bringupS11 => exact h.execBringupS11
  | bringupS12 => exact h.execBringupS12
  | bringupS13 => exact h.execBringupS13
  | bringupStepEnd => exact h.execBringupStepEnd
  | bringupStepLimit => exact h.execBringupStepLimit
  | packageReset => exact h.execPackageReset
  | fwInfo => exact h.execFwInfo
  | fwVerify => exact h.execFwVerify
  | fwSvnCommit => exact h.execFwSvnCommit
  | idChainRead => exact h.execIdChainRead
  | measureRead => exact h.execMeasureRead
  | powerSample => exact h.execPowerSample
  | inputFaultStop => exact h.execInputFaultStop
  | pwrStageFault => exact h.execPwrStageFault
  | stageRetry => exact h.execStageRetry
  | powerRatioCompute => exact h.execPowerRatioCompute
  | limiterSample => exact h.execLimiterSample
  | droopEntry => exact h.execDroopEntry
  | droopExit => exact h.execDroopExit
  | marginReading => exact h.execMarginReading
  | fillCutoff => exact h.execFillCutoff
  | fillZero => exact h.execFillZero
  | pwrRead => exact h.execPwrRead
  | pwrSetCap => exact h.execPwrSetCap
  | jobEnergyRead => exact h.execJobEnergyRead
  | jobClose => exact h.execJobClose
  | modelRead => exact h.execModelRead
  | marginRead => exact h.execMarginRead
  | diodeSample => exact h.execDiodeSample
  | graceDeadline => exact h.execGraceDeadline
  | throttleReview => exact h.execThrottleReview
  | shutdownDeadline => exact h.execShutdownDeadline
  | thermistorSample => exact h.execThermistorSample
  | flowTrendUpdate => exact h.execFlowTrendUpdate
  | valveRequest => exact h.execValveRequest
  | flowReport => exact h.execFlowReport
  | inletTempFrame => exact h.execInletTempFrame
  | pumpState => exact h.execPumpState
  | alarm => exact h.execAlarm
  | facSilent => exact h.execFacSilent
  | facViolSuspectClear => exact h.execFacViolSuspectClear
  | thermalRead => exact h.execThermalRead
  | threshSet => exact h.execThreshSet
  | thermalModelRead => exact h.execThermalModelRead
  | facRead => exact h.execFacRead
  | facClear => exact h.execFacClear
  | referenceLoss => exact h.execReferenceLoss
  | thermtripRelease => exact h.execThermtripRelease
  | bypass => exact h.execBypass
  | idcode => exact h.execIdcode
  | samplePreload => exact h.execSamplePreload
  | extest => exact h.execExtest
  | gstCtlWrite => exact h.execGstCtlWrite
  | guestLinkTrainEnd => exact h.execGuestLinkTrainEnd
  | gstRingWrite => exact h.execGstRingWrite
  | gstViolSuspectClear => exact h.execGstViolSuspectClear
  | guestRead => exact h.execGuestRead
  | guestWrite => exact h.execGuestWrite
  | guestAtomic => exact h.execGuestAtomic
  | guestControl => exact h.execGuestControl
  | guestEvent => exact h.execGuestEvent
  | guestTemp => exact h.execGuestTemp
  | guestSilence => exact h.execGuestSilence
  | guestPowerCheck => exact h.execGuestPowerCheck
  | referenceValid => exact h.execReferenceValid
  | perstDeassert => exact h.execPerstDeassert
  | hostLinkUp => exact h.execHostLinkUp
  | endpointReady => exact h.execEndpointReady
  | packageResetEnd => exact h.execPackageResetEnd
  | pewterSliceEnd => exact h.execPewterSliceEnd
  | guestLinkLoss => exact h.execGuestLinkLoss
  | brassFault => exact h.execBrassFault
  | storeControl => exact h.execStoreControl
  | fwCheck => exact h.execFwCheck
  | hostMemoryCompletion => exact h.execHostMemoryCompletion
  | replyWindowClose => exact h.execReplyWindowClose

/-- A step keeps them, but for the command that it takes from the queue. -/
theorem step : Answers { s with pending := s.pending.tail } (step s) := by
  unfold Machine.step
  split
  · next hq => exact passCycle ⟨by rw [hq, List.tail_nil], id⟩
  · next hq => exact exec ⟨by rw [hq, List.tail_cons], id⟩

end Keeps

theorem Answers.keeps {v t : State} {o : Host.Outcome State Fault Refusal} (h : Answers v o) (ho : o = .next t) : Keeps v t := by
  rwa [ho] at h

/-- Settles O58, by the invariant `Keeps` of every operation of the model: those that write the stacks' memory write it through operations
that keep the canonical form (`wf_cellWrite`, `wf_cellSet`, `wf_cellZero`, `wf_blendCells`, `wf_clearDone`), or empty it. -/
theorem everyStepKeepsTheMemoryCanonical : Obligations.EveryStepKeepsTheMemoryCanonical := by
  unfold Obligations.EveryStepKeepsTheMemoryCanonical
  intro s t hs ht
  exact (Keeps.step.keeps ht).mem hs
end Sys2Proof.Proofs
end

section
/-! The repair port (R300, R301, O40): what an operation does that HOLD or the layer stops, and what each does on a layer in use. -/

namespace Sys2Proof.Proofs

open Sys2Proof Sys2Proof.Machine Sys2Proof.Laws Sys2Proof.Safety

section

variable {s : State} {t : TileRef}

/-! ### Bytes and lists -/

/-- Written bytes read back, in any list of cells. -/
theorem cellRead_write (m : List Host.Cell) (a : Nat) (bytes : List Byte) : cellRead (cellWrite m a bytes) a bytes.length = bytes := by
  refine List.ext_getElem (by simp [cellRead]) fun i hi hb => ?_
  simp only [cellRead, List.getElem_map, List.getElem_range, cellGet_write, byteAfter_at hb]

theorem length_cellRead (m : List Host.Cell) (a n : Nat) : (cellRead m a n).length = n := by
  simp [cellRead]

theorem take_cellRead (m : List Host.Cell) (a : Nat) {n k : Nat} (h : k ≤ n) : (cellRead m a n).take k = cellRead m a k := by
  rw [cellRead, ← List.map_take, List.take_range, Nat.min_eq_left h]
  rfl

theorem drop_cellRead (m : List Host.Cell) (a n k : Nat) : (cellRead m a n).drop k = cellRead m (a + k) (n - k) := by
  refine List.ext_getElem (by simp [cellRead]) fun i _ _ => ?_
  simp [cellRead, Nat.add_assoc]

/-! ### Whether an operation acts -/

/-- The repair port of a tile takes operations: the BARs are open, the clocks run, and none is in progress. -/
structure PortReady (s : State) (t : TileRef) : Prop where
  bars : s.barOpen = true
  tile : tileOk t = true
  clocks : s.clocksRun = true
  idle : (s.tile t).mem.repairBusy = false

section

variable {op : Nat} {f : State → Nat → Nat → Nat → Nat → State}

theorem repairOp_ready (h : PortReady s t) : s.repairOp t op f =
    if (s.tile t).mem.hold.isNone && op ≠ 1 then s.repairEnd t op 2
    else if ((s.tile t).channel (s.tile t).selected.1).state = 1 then s.repairEnd t op 3
    else f s (s.tile t).selected.1 (s.tile t).selected.2.1 (s.tile t).selected.2.2.1 (s.tile t).selected.2.2.2 := by
  simp [State.repairOp, h.bars, h.tile, h.clocks, h.idle]

theorem repairOp_unheld (h : PortReady s t) (hop : op ≠ 1) (hold : (s.tile t).mem.hold = none) :
    s.repairOp t op f = s.repairEnd t op 2 := by
  rw [repairOp_ready h, if_pos (by simp [hold, hop])]

theorem repairOp_mappedOut (h : PortReady s t) (hold : (s.tile t).mem.hold ≠ none)
    (hout : ((s.tile t).channel (s.tile t).selected.1).state = 1) : s.repairOp t op f = s.repairEnd t op 3 := by
  rw [repairOp_ready h, if_neg (by simp [hold]), if_pos hout]

theorem repairOp_acts (h : PortReady s t) (hop : op = 1 ∨ (s.tile t).mem.hold ≠ none)
    (hfree : ((s.tile t).channel (s.tile t).selected.1).state ≠ 1) :
    s.repairOp t op f =
      f s (s.tile t).selected.1 (s.tile t).selected.2.1 (s.tile t).selected.2.2.1 (s.tile t).selected.2.2.2 := by
  rw [repairOp_ready h, if_neg (by rcases hop with rfl | hold <;> simp [*]), if_neg hfree]

end

/-- An operation's end leaves its code and its result. -/
theorem tile_repairEnd (s : State) (t : TileRef) (op r : Nat) : (s.repairEnd t op r).tile t =
    { s.tile t with mem := { (s.tile t).mem with repairCmd := w64 op, repairResult := BitVec.ofNat 3 r } } := tile_modTile_same ..

/-- The operations that HOLD guards, by their code in REPAIR_CMD. -/
def heldOps (t : TileRef) : List (Nat × Instr) :=
  [(2, .rawWrite t), (3, .softRow t), (4, .softCol t), (5, .fuseRow t), (6, .fuseCol t), (7, .clearSoft t), (8, .march t)]

theorem exec_heldOp {op : Nat} {c : Instr} (h : (op, c) ∈ heldOps t) :
    op ≠ 1 ∧ ∃ f, exec c s = .next (s.repairOp t op f) := by
  simp only [heldOps, List.mem_cons, Prod.mk.injEq, List.not_mem_nil, or_false] at h
  rcases h with ⟨rfl, rfl⟩ | ⟨rfl, rfl⟩ | ⟨rfl, rfl⟩ | ⟨rfl, rfl⟩ | ⟨rfl, rfl⟩ | ⟨rfl, rfl⟩ | ⟨rfl, rfl⟩ <;>
    exact ⟨by decide, _, rfl⟩

/-! ### HOLD -/

theorem exec_repairCtlWrite_clear (hbars : s.barOpen = true) (ht : tileOk t = true) {w : Word} (hw : bitAt w 0 = false) :
    exec (.repairCtlWrite t w) s = .next (s.setTile t { s.tile t with mem := { (s.tile t).mem with hold := none } }) := by
  simp [exec, execRepairCtlWrite, hbars, ht, hw]

theorem exec_repairCtlWrite_set (hbars : s.barOpen = true) (ht : tileOk t = true) {w : Word} (hw : bitAt w 0 = true)
    (hu : (s.tile t).unit = .starting ∨ (s.tile t).unit = .removed ∨ (s.tile t).unit = .halted) :
    exec (.repairCtlWrite t w) s =
      .next (s.setTile t { s.tile t with mem := { (s.tile t).mem with hold := some (s.tile t).selected.1 } }) := by
  simp [exec, execRepairCtlWrite, hbars, ht, hw, or_assoc, hu]

theorem exec_repairCtlWrite_refused (hbars : s.barOpen = true) (ht : tileOk t = true) {w : Word} (hw : bitAt w 0 = true)
    (hu : ¬((s.tile t).unit = .starting ∨ (s.tile t).unit = .removed ∨ (s.tile t).unit = .halted)) :
    exec (.repairCtlWrite t w) s = .next s := by
  simp [exec, execRepairCtlWrite, hbars, ht, hw, or_assoc, hu]

theorem exec_marchComplete (ht : tileOk t = true) (hclocks : s.clocksRun = true) (hbusy : (s.tile t).mem.repairBusy = true)
    (errs : BitVec 32) : exec (.marchComplete t errs) s =
      .next (s.modTile t fun x => { x with mem := { x.mem with repairBusy := false, repairResult := 0, marchErrs := errs } }) := by
  simp [exec, execMarchComplete, ht, hclocks, hbusy]

/-! ### Raw rows -/

/-- The memory is none of a tile's. -/
theorem tile_setMem (s : State) (t : TileRef) (m : List Host.Cell) : ({ s with mem := m } : State).tile t = s.tile t := rfl

/-- The page that REPAIR_SEL selects. -/
def selectedPage (x : Tile) : Option Nat := x.pageAt x.selected.1 x.selected.2.1 x.selected.2.2.1

theorem rawRow_mem (page : Option Nat) : (s.rawRow t page).2.mem = s.mem := by
  unfold State.rawRow
  split
  · rfl
  · dsimp only
    split <;> rfl

/-- A row as stored: its data and its check area. -/
theorem rawRow_some {p : Nat} (h : (s.tile t).mem.marched.contains p = false) :
    (s.rawRow t (some p)).1 = cellRead s.mem (pageAddr t p) pageSize ++
      padTo 128 (((kvFind (s.tile t).mem.raw p).map Prod.fst).getD
        (checkArea ((s.tile t).region (regionOf p)) (cellRead s.mem (pageAddr t p) pageSize))) := by
  simp only [State.rawRow, h]
  rfl

section

variable (h : PortReady s t) (hfree : ((s.tile t).channel (s.tile t).selected.1).state ≠ 1)
include h hfree

theorem exec_rawRead : exec (.rawRead t) s = .next (((s.rawRow t (selectedPage (s.tile t))).2.modTile t fun x =>
    { x with mem := { x.mem with repairBuf := cellWrite [] 0 (s.rawRow t (selectedPage (s.tile t))).1 } }).repairEnd t 1 0) :=
  congrArg Host.Outcome.next (repairOp_acts h (.inl rfl) hfree)

theorem rawRead_leaves : ∃ u, exec (.rawRead t) s = .next u ∧ (u.tile t).mem.repairCmd = 1 ∧ (u.tile t).mem.repairResult = 0
    ∧ u.mem = s.mem ∧ (u.tile t).mem.repairBuf = cellWrite [] 0 (s.rawRow t (selectedPage (s.tile t))).1 := by
  refine ⟨_, exec_rawRead h hfree, ?_, ?_, rawRow_mem _, ?_⟩
  · rw [tile_repairEnd]
    rfl
  · rw [tile_repairEnd]
    rfl
  · rw [tile_repairEnd, tile_modTile_same]

variable (hhold : (s.tile t).mem.hold ≠ none)
include hhold

theorem exec_rawWrite {p : Nat} (hp : selectedPage (s.tile t) = some p) : ∃ was, exec (.rawWrite t) s =
    .next ((State.modTile
      { s with mem := cellWrite s.mem (pageAddr t p) (cellRead (s.tile t).mem.repairBuf 0 pageSize) } t fun x => { x with mem :=
        { x.mem with
          raw := kvPut x.mem.raw p (cellRead (s.tile t).mem.repairBuf pageSize 128, was)
          marched := x.mem.marched.filter (· ≠ p) } }).repairEnd t 2 0) := by
  have hrow := take_cellRead (s.tile t).mem.repairBuf 0 (show pageSize ≤ 2176 by decide)
  have harea : (cellRead (s.tile t).mem.repairBuf 0 2176).drop pageSize = cellRead (s.tile t).mem.repairBuf pageSize 128 :=
    drop_cellRead _ 0 2176 pageSize
  have hacts : exec (.rawWrite t) s = .next _ := congrArg Host.Outcome.next (repairOp_acts h (.inr hhold) hfree)
  unfold selectedPage at hp
  simp only [hp, hrow, harea] at hacts
  exact ⟨_, hacts⟩

theorem rawWrite_leaves {p : Nat} (hp : selectedPage (s.tile t) = some p) : ∃ u, exec (.rawWrite t) s = .next u
    ∧ (u.tile t).mem.repairResult = 0 ∧ u.mem = cellWrite s.mem (pageAddr t p) (cellRead (s.tile t).mem.repairBuf 0 pageSize)
    ∧ (kvFind (u.tile t).mem.raw p).map Prod.fst = some (cellRead (s.tile t).mem.repairBuf pageSize 128)
    ∧ (u.tile t).mem.poison = (s.tile t).mem.poison := by
  obtain ⟨was, hexec⟩ := exec_rawWrite h hfree hhold hp
  refine ⟨_, hexec, ?_, by rw [State.repairEnd, modTile_mem, modTile_mem], ?_, ?_⟩
  · rw [tile_repairEnd]
    rfl
  · rw [tile_repairEnd, tile_modTile_same]
    dsimp only
    rw [kvFind_kvPut_same]
    rfl
  · rw [tile_repairEnd, tile_modTile_same, tile_setMem]

theorem clearSoft_leaves : ∃ u, exec (.clearSoft t) s = .next u ∧ (u.tile t).mem.repairResult = 0 ∧ OnlyTiles s u
    ∧ ∀ r, r ∈ (u.tile t).mem.repairs ↔ r ∈ (s.tile t).mem.repairs
      ∧ ¬(r.1 = (s.tile t).selected.1 ∧ r.2.1 = (s.tile t).selected.2.1 ∧ r.2.2.2.2 = false) := by
  have hacts : exec (.clearSoft t) s = .next _ := congrArg Host.Outcome.next (repairOp_acts h (.inr hhold) hfree)
  refine ⟨_, hacts, ?_, rfl, fun r => ?_⟩
  · rw [tile_repairEnd]
    rfl
  · rw [tile_repairEnd, tile_modTile_same]
    refine List.mem_filter.trans (and_congr_right fun _ => ?_)
    cases r.2.2.2.2 <;> simp [imp_iff_not_or]

theorem march_leaves : ∃ u, exec (.march t) s = .next u ∧ (u.tile t).mem.repairBusy = true ∧ OnlyTiles s u
    ∧ ∀ r p, r < 4096 → (s.tile t).pageAt (s.tile t).selected.1 (s.tile t).selected.2.1 r = some p → p ∈ (u.tile t).mem.marched := by
  have hacts : exec (.march t) s = .next _ := congrArg Host.Outcome.next (repairOp_acts h (.inr hhold) hfree)
  refine ⟨_, hacts, ?_, rfl, fun r p hr hp => ?_⟩
  · rw [tile_repairEnd, tile_modTile_same]
  · rw [tile_repairEnd, tile_modTile_same]
    exact List.mem_append_right _ (List.mem_filterMap.2 ⟨r, List.mem_range.2 hr, hp⟩)

end

/-! ### Repairs -/

/-- A place that has no repair yet is repaired where a spare and, for a fuse, an entry are free (R300). -/
theorem repair_new {op l b n : Nat} {col fuse : Bool}
    (hnew : ∀ r ∈ (s.tile t).mem.repairs.filter fun r => r.1 = l && r.2.1 = b && r.2.2.2.1 = col, r.2.2.1 ≠ n) :
    s.repair t op l b n col fuse =
      if ((s.tile t).mem.repairs.filter fun r => r.1 = l && r.2.1 = b && r.2.2.2.1 = col).length < (if col then 4 else 32) ∧
        (fuse = true → ((s.tile t).mem.repairs.filter fun r => r.1 = l && r.2.2.2.2).length < 128) then
        (s.modTile t fun x => { x with mem := { x.mem with
          repairs := (s.tile t).mem.repairs ++ [(l, b, n, col, fuse)] } }).repairEnd t op 0
      else s.repairEnd t op 1 := by
  have hat : ∀ r ∈ (s.tile t).mem.repairs, (r.1 = l && r.2.1 = b && r.2.2.1 = n && r.2.2.2.1 = col) = false := by
    intro r hr
    refine Bool.eq_false_iff.2 fun hr' => ?_
    simp only [Bool.and_eq_true, decide_eq_true_eq] at hr'
    obtain ⟨⟨⟨hl, hb⟩, hn⟩, hc⟩ := hr'
    exact hnew r (List.mem_filter.2 ⟨hr, by simp [hl, hb, hc]⟩) hn
  have hnone := List.find?_eq_none.2 fun r hr => Bool.eq_false_iff.1 (hat r hr)
  have hothers := List.filter_eq_self.2 fun r hr => congrArg (!·) (hat r hr)
  unfold State.repair
  dsimp only
  rw [hnone, hothers]
  dsimp only
  by_cases hspare : ((s.tile t).mem.repairs.filter fun r => r.1 = l && r.2.1 = b && r.2.2.2.1 = col).length < (if col then 4 else 32) ∧
      (fuse = true → ((s.tile t).mem.repairs.filter fun r => r.1 = l && r.2.2.2.2).length < 128)
  · rw [if_pos hspare, if_neg]
    simp only [Bool.or_eq_true, Bool.and_eq_true, decide_eq_true_eq]
    rintro (hused | ⟨hfuse, hused⟩)
    · exact Nat.not_lt.2 hused hspare.1
    · exact Nat.not_lt.2 hused (hspare.2 hfuse)
  · rw [if_neg hspare, if_pos]
    by_contra hno
    exact hspare ⟨Nat.lt_of_not_le fun hused => hno (by simp [hused]),
      fun hfuse => Nat.lt_of_not_le fun hused => hno (by simp [hfuse, hused])⟩

/-- The repairs, each with the row or column that it takes. -/
def repairOps (t : TileRef) (row col : Nat) : List (Nat × Nat × Bool × Bool × Instr) :=
  [(3, row, false, false, .softRow t), (4, col, true, false, .softCol t), (5, row, false, true, .fuseRow t),
    (6, col, true, true, .fuseCol t)]

/-- A repair of a column that the bank does not have ends 3; any other goes to the bank. -/
theorem exec_repairOp {op n : Nat} {isCol fuse : Bool} {c : Instr} (h : PortReady s t)
    (hfree : ((s.tile t).channel (s.tile t).selected.1).state ≠ 1) (hhold : (s.tile t).mem.hold ≠ none)
    (hc : (op, n, isCol, fuse, c) ∈ repairOps t (s.tile t).selected.2.2.1 (s.tile t).selected.2.2.2) :
    exec c s = .next (if isCol = true ∧ 543 < n then s.repairEnd t op 3
      else s.repair t op (s.tile t).selected.1 (s.tile t).selected.2.1 n isCol fuse) := by
  simp only [repairOps, List.mem_cons, Prod.mk.injEq, List.not_mem_nil, or_false] at hc
  rcases hc with ⟨rfl, rfl, rfl, rfl, rfl⟩ | ⟨rfl, rfl, rfl, rfl, rfl⟩ | ⟨rfl, rfl, rfl, rfl, rfl⟩ | ⟨rfl, rfl, rfl, rfl, rfl⟩
  all_goals
    refine (congrArg Host.Outcome.next (repairOp_acts h (.inr hhold) hfree)).trans ?_
    simp

/-- A repair that finds a spare is listed and ends 0 (R300). -/
theorem repaired_leaves {op : Nat} (l : List (Nat × Nat × Nat × Bool × Bool)) :
    let u := (s.modTile t fun x => { x with mem := { x.mem with repairs := l } }).repairEnd t op 0
    (u.tile t).mem.repairs = l ∧ (u.tile t).mem.repairCmd = w64 op ∧ (u.tile t).mem.repairResult = 0 ∧ OnlyTiles s u := by
  intro u
  refine ⟨?_, ?_, ?_, rfl⟩
  · rw [tile_repairEnd, tile_modTile_same]
  · rw [tile_repairEnd]
  · rw [tile_repairEnd]
    rfl

end

/-- Settles O40: an operation that HOLD or the layer stops ends 2 or 3; any other does what its meaning says, on the bank that REPAIR_SEL
selects. -/
theorem theRepairPortActsOnTheSelectedBank : Obligations.TheRepairPortActsOnTheSelectedBank := by
  unfold Obligations.TheRepairPortActsOnTheSelectedBank
  intro s t hbars ht x l b row col setHold ended
  refine ⟨fun w => ⟨exec_repairCtlWrite_clear hbars ht, exec_repairCtlWrite_set hbars ht, exec_repairCtlWrite_refused hbars ht⟩,
    fun hclocks hidle => ?_, fun errs hclocks hbusy => exec_marchComplete ht hclocks hbusy errs⟩
  have hready : PortReady s t := ⟨hbars, ht, hclocks, hidle⟩
  intro free
  refine ⟨fun op c hc => ?_, fun hfree => ?_, fun hfree hhold => ⟨fun p hp => ?_, ?_, ?_, ?_⟩⟩
  · obtain ⟨hop, f, hexec⟩ := exec_heldOp (s := s) hc
    exact ⟨fun hhold => hexec.trans (congrArg _ (repairOp_unheld hready hop hhold)),
      fun hhold hout => hexec.trans (congrArg _ (repairOp_mappedOut hready hhold (Decidable.not_not.1 hout)))⟩
  · obtain ⟨u, hexec, hcmd, hresult, hmem, hbuf⟩ := rawRead_leaves hready hfree
    refine ⟨u, hexec, hcmd, hresult, hmem, fun p hp hmarched => hbuf.trans (congrArg _ ?_)⟩
    rw [show selectedPage (s.tile t) = some p from hp, rawRow_some hmarched]
  · obtain ⟨u, hexec, hresult, hmem, hraw, hpoison⟩ := rawWrite_leaves hready hfree hhold hp
    refine ⟨u, hexec, hresult, ?_, hraw, hpoison, fun a ha => ?_⟩
    · rw [hmem]
      simpa only [length_cellRead] using cellRead_write s.mem (pageAddr t p) (cellRead x.mem.repairBuf 0 pageSize)
    · rw [hmem, cellGet_write, byteAfter_outside (by rwa [length_cellRead])]
  · intro op n isCol fuse c hc ofBank fuses spare
    have hexec := exec_repairOp hready hfree hhold hc
    refine ⟨fun hcol hn => hexec.trans (congrArg _ (if_pos ⟨hcol, hn⟩)), fun hn hnew => ?_⟩
    rw [if_neg fun hout => Nat.not_lt.2 (hn hout.1) hout.2, repair_new hnew] at hexec
    exact ⟨fun hspare => ⟨_, hexec.trans (congrArg _ (if_pos hspare)), repaired_leaves _⟩,
      fun hfull => hexec.trans (congrArg _ (if_neg hfull))⟩
  · exact clearSoft_leaves hready hfree hhold
  · exact march_leaves hready hfree hhold

end Sys2Proof.Proofs
end
